-- ==== Sys2Proof/Word.lean ====
section
/-! DEFINITION. The words of the block: octets, 32-bit registers, 64-bit Daybook values, and the plainest
reading and writing of a run of bits in a 32-bit register (05_register_file R114, R115). -/
namespace Sys2Proof

/-- One octet. -/
abbrev Byte := BitVec 8

/-- One register (R114: every register is 32 bits wide). -/
abbrev Word := BitVec 32

/-- A Daybook value (R136). -/
abbrev Ticks := BitVec 64

end Sys2Proof
end

