-- ==== Sys2Proof/Syntax.lean ====
section
/-! DEFINITION. The commands of the block: the one inductive `Instr`, one constructor for each row of
spec/opcode_table.json, and the operand types they carry.  Within each half (the commands with operands, then those
without) the constructors stand in the table's order.  A verb's row carries the
Apsel line that is taken (04_desk Table 4.4); an event's row carries what the surroundings supply. -/
namespace Sys2Proof

/-- The two ports (04_desk). -/
inductive Port | desk | chute
  deriving DecidableEq, Repr

/-- Where a line comes from: a port, or a standing order (06_tickets R151). -/
inductive Origin
  | port (p : Port)
  | order (k : Nat)
  deriving DecidableEq, Repr

/-- One operand or value of a line, in the forms of 04_desk Table 4.4.  Words are held in capitals, since the
device matches them without regard to case (R83).  `dec` is a decimal below zero, `num` over 10^`places`: a level in
half-decibel steps is written so (13_census R346). -/
inductive Arg
  | word (w : String)
  | int (v : Int)
  | dec (num : Int) (places : Nat)
  | time (ticks : Nat) (rel : Bool)
  | guard (unit : String) (ed : Nat)
  | str (s : String)
  | octets (l : List Byte)
  | block (n : Nat)
  | list (ws : List String)
  deriving DecidableEq, Repr

/-- The binary block behind a line that announces one, its octets as received: the repeated marker, the contents and
the CRC (04_desk R91). -/
inductive BlockIn
  | absent
  | sent (l : List Byte)
  deriving DecidableEq, Repr

/-- A taken line after its verb and noun: origin, tag (R85), positional operands, named arguments (keys in
lower case) and the block that followed it (R91). -/
structure Line where
  origin : Origin
  tag : Option String
  pos : List Arg
  named : List (String × Arg)
  block : BlockIn
  deriving DecidableEq, Repr

/-- Which of the two writing verbs a register write uses (05_register_file R122, R126). -/
inductive WriteForm | wr | set
  deriving DecidableEq, Repr

/-- What a raw line lost on its way in (04_desk R70, R71, R80, R81). -/
structure LostMarks where
  overrun : Bool
  char : Bool
  long : Bool
  deriving DecidableEq, Repr

/-- The queues of 06_tickets Table 6.1. -/
inductive Queue
  | pwr | radio | census | link | ledger | trim | noise | vault | stacks
  | porter (n : Fin 4)
  | collate (n : Fin 4)
  | orders | ssw
  deriving DecidableEq, Repr

/-- The wake sources of 09_dormant Table 9.3. -/
inductive WakeSource | tamper | alarm (a : Fin 4) | internalAlarm | radio | wakeIn | chute | deskRx
  deriving DecidableEq, Repr

/-- The Record's regions (07_events Table 7.7). -/
inductive Region | config | trim | drift | ledger | tariff | vault | tamper | events | orders
  deriving DecidableEq, Repr

/-- What fails its checks in the Record as the RECORD stage reads it (08_bringup R219): the rows whose copy A, and those
whose copy B, no longer holds what was written there; a row that has no second copy stands in either list.  The contents
of a torn row are undefined (23_electrical R584), so that this is an input of the model. -/
structure RecordFindings where
  copyA : List (Region × Nat)
  copyB : List (Region × Nat)
  deriving DecidableEq, Repr

/-- The frame formats (14_frames). -/
inductive Fmt | s | m | d
  deriving DecidableEq, Repr

/-- A received frame as the demodulator hands it over (12_modem, 14_frames): for format S the PHR, as two octets whose
first sent bit is the most significant, and the PSDU as it came, whitened where the PHR says so; for format M the octets
from the L-field, block checks included; for format D the octets that the decoder found for header, payload and check,
still whitened, and the combined hard decisions of the coded bits.  With it what was measured over the frame: the power
at the port pin in 0.5 dB, signal to noise in 0.25 dB. -/
structure RxFrame where
  octets : List Byte
  rssi : Int
  snr : Int
  hard : List Bool := []
  deriving DecidableEq, Repr

/-- The items of 17_trim Table 17.1. -/
inductive TrimItem | adcsel | dcoff | filtcap | iqbal | censuseq
  deriving DecidableEq, Repr

/-- What has been received where a wake pattern may stand: the power at the port pin, and the last 32 bits, the last the
least significant. -/
structure WakeRx where
  rssi : Int
  bits : BitVec 32
  deriving DecidableEq, Repr

/-- The commands: one constructor for each row of spec/opcode_table.json. -/
inductive Instr
  -- supply, reset and bring-up (02, 03, 08)
  | powerStageEnd (temp : Int) (keeper ticks : Nat)
  | bringupRecord (found : RecordFindings)
  | bringupVault (testPassed : Bool)
  | bringupOrders (damaged : Word)
  -- Desk and Chute (04)
  | deskOctet (b : Byte) (stopLow : Bool)
  | autobaudCharacter (startTicks lowTicks : Nat)
  | blockTimeout (p : Port)
  | lineError (p : Port) (text : List Byte) (lost : LostMarks)
  | chuteCsFall (mode3 : Bool)
  /-- No octet: one that the rise of CHUTE_CS, which follows, cuts short. -/
  | chuteOctet (b : Option Byte)
  | lineSent (p : Port)
  | mode (l : Line)
  | desk (l : Line)
  | help (l : Line)
  | id (l : Line)
  | idAll (l : Line)
  | stat (l : Line)
  | reset (l : Line)
  | pins (l : Line)
  | pwr (l : Line)
  | pwrMeasure (l : Line)
  | measurementDone (vbat vddio vddpa : Nat)
  -- the register file (05)
  | rd (l : Line)
  | get (l : Line)
  | registerWrite (f : WriteForm) (l : Line)
  | counterWrite (f : WriteForm) (l : Line)
  | eventsPendWrite (f : WriteForm) (l : Line)
  | sysAlertClear (f : WriteForm) (l : Line)
  | carrelLostClear (f : WriteForm) (l : Line)
  | ordersDamagedClear (f : WriteForm) (l : Line)
  | deskConfigWrite (f : WriteForm) (l : Line)
  | chuteConfigWrite (f : WriteForm) (l : Line)
  | dormConfigWrite (f : WriteForm) (l : Line)
  | sysPadDriveWrite (f : WriteForm) (l : Line)
  | pwrVbatWarnWrite (f : WriteForm) (l : Line)
  | radioChanWrite (f : WriteForm) (l : Line)
  | radioTxConfigWrite (f : WriteForm) (l : Line)
  | radioPlanWrite (f : WriteForm) (l : Line)
  | modemConfigWrite (f : WriteForm) (l : Line)
  | censusConfigWrite (f : WriteForm) (l : Line)
  | frameConfigWrite (f : WriteForm) (l : Line)
  | frameFilterWrite (f : WriteForm) (l : Line)
  | linkConfigWrite (f : WriteForm) (l : Line)
  | ticketsConfigWrite (f : WriteForm) (l : Line)
  | eventsMaskWrite (f : WriteForm) (l : Line)
  | eventsAttnConfigWrite (f : WriteForm) (l : Line)
  | vaultConfigWrite (f : WriteForm) (l : Line)
  | vaultFcWrite (f : WriteForm) (l : Line)
  | collateFeedWrite (f : WriteForm) (l : Line)
  | collateCompareWrite (f : WriteForm) (l : Line)
  | gpioOutWrite (f : WriteForm) (l : Line)
  | gpioConfigWrite (f : WriteForm) (l : Line)
  | tamperConfigWrite (f : WriteForm) (l : Line)
  -- tickets (06)
  | ticket (l : Line)
  | cancel (l : Line)
  | cancelAll (l : Line)
  | ret (l : Line)
  | retAll (l : Line)
  | edition (l : Line)
  | ticketHead (q : Queue)
  | ticketTimedStart (q : Queue)
  | ticketOverdue (n : Nat)
  -- events (07)
  | event (l : Line)
  | eventClear (l : Line)
  | eventMask (l : Line)
  | eventRaise (l : Line)
  | eventAttn (l : Line)
  | eventSave (l : Line)
  -- Dormant and waking (09)
  | dormant (l : Line)
  | dorm (l : Line)
  | padsRelease (l : Line)
  | dormantAttempt (temp : Int)
  | autoDormant (temp : Int)
  /-- How many SCLK cycles after the latch the drift row is written. -/
  | entryPadLatch (lag : Nat)
  | wakeSourceRegistered (src : WakeSource) (level : Bool)
  | wakeRegRdy (ready released : Bool)
  | wakeOscRdy (ready : Bool)
  | wakeResumeEdge (keeper : Nat)
  | wakeLogicRdy (temp : Int) (memory logic : Bool)
  -- the Daybook, the keeper and drift (10)
  | day (l : Line)
  | dayStatus (l : Line)
  | daySet (l : Line)
  | daySlew (l : Line)
  | keeper (temp : Int) (l : Line)
  | keeperTable (l : Line)
  | keeperForget (temp : Int) (l : Line)
  | keeperRef (temp : Int) (l : Line)
  | driftWindowClose (temp : Int) (ticks : Nat)
  | alarmReport (l : Line)
  | alarmArm (l : Line)
  | alarmOff (l : Line)
  | alarmFire (a : Fin 4)
  -- radio (11)
  | bandReport (l : Line)
  | bandSet (l : Line)
  | bandClear (l : Line)
  | chan (l : Line)
  | txSettings (l : Line)
  | txCw (l : Line)
  | rx (l : Line)
  | rxStatus (l : Line)
  | keyingLead (pa : Bool)
  | agcUpdate (gain lna : Nat)
  | rssiUpdate (rssi : Int)
  -- modem (12)
  | profile (l : Line)
  | afcLimit (offset : Int)
  | preambleDetected (chan : Nat)
  /-- The 32 bits received last, the last the least significant (format D: each decided from the sum of its symbols), the
  power at the port pin, the frequency offset, and the Daybook of the sync word's end there. -/
  | syncDeclared (bits : BitVec 32) (rssi afc : Int) (sync : Ticks)
  | dHeaderDecoded (len : Nat)
  | frameDecision (f : RxFrame)
  /-- The channel, and what has been received on it. -/
  | wakePatternDetected (chan : Nat) (rx : WakeRx)
  -- census (13)
  | censusSettings (l : Line)
  | censusWatch (l : Line)
  | censusOff (l : Line)
  | censusLevels (l : Line)
  | censusScan (l : Line)
  | censusWindowClose (readings : List Int)
  | ccaSettings (l : Line)
  | ccaCheck (l : Line)
  -- frames (14)
  | frameSettings (l : Line)
  | frameSend (l : Line)
  | frameRead (l : Line)
  | frameFree (l : Line)
  | filter (l : Line)
  -- link (15)
  | linkSettings (l : Line)
  | linkAssoc (l : Line)
  | linkAssocLocal (l : Line)
  | linkLeave (l : Line)
  | linkPoll (l : Line)
  | linkSched (l : Line)
  | linkWake (l : Line)
  | cat (l : Line)
  | catPool (l : Line)
  | catAdd (l : Line)
  | catSet (l : Line)
  | catRemove (l : Line)
  | catQueue (l : Line)
  -- ledger (16)
  | ledger (l : Line)
  | tariffReport (l : Line)
  | tariffSet (l : Line)
  | tariffClear (l : Line)
  | tariffSched (l : Line)
  | tariffUnsched (l : Line)
  -- trim (17)
  | trimRun (l : Line)
  | trimStatus (l : Line)
  | trimRestore (l : Line)
  | trimPassEnd (sel stats : List Int)
  | trimItemEnd (sel stats : List Int)
  -- noise and the Vault (18)
  | noise (l : Line)
  | noiseRawOn (l : Line)
  | noiseRawOff (l : Line)
  | noiseRawCapture (l : Line)
  | noiseStartupTestEnd (passed : Bool) (aptFailed : Bool)
  | noiseHealthFail (apt : Bool)
  | vault (l : Line)
  | vaultLoad (l : Line)
  | vaultErase (l : Line)
  | vaultFlags (l : Line)
  | vaultSeal (l : Line)
  | vaultRand (l : Line)
  | vaultCcm (l : Line)
  -- Record, Stacks, Reading Room and the Porter (19)
  | recordRead (l : Line)
  | recordWrite (l : Line)
  | carrel (l : Line)
  | carrelRead (l : Line)
  | carrelWrite (l : Line)
  | stacks (l : Line)
  | stacksPart (l : Line)
  | stacksRead (l : Line)
  | stacksWrite (l : Line)
  | arch (l : Line)
  | archAdd (l : Line)
  | archRead (l : Line)
  | archFind (l : Line)
  | archMark (l : Line)
  | archDrop (l : Line)
  | porter (l : Line)
  | porterGo (l : Line)
  | porterSlipFetch (n : Fin 4)
  | porterElement (n : Fin 4)
  | slip (l : Line)
  | slipWrite (l : Line)
  -- Collators (20)
  | collate (l : Line)
  | collateOpen (l : Line)
  | collateFeed (l : Line)
  | collateFeedDone (n : Fin 4)
  | collateClose (l : Line)
  | collateCloseCycle (n : Fin 4)
  -- standing orders (21)
  | orderList (l : Line)
  | orderShow (l : Line)
  | orderDraft (l : Line)
  | orderLine (l : Line)
  | orderStore (l : Line)
  | orderSet (l : Line)
  | orderErase (l : Line)
  | orderRun (l : Line)
  | orderStop (l : Line)
  | orderScheduleDue (k : Fin 32)
  | orderLineTake (temp : Int)
  | wait (l : Line)
  | waitClear (l : Line)
  | skip (l : Line)
  -- sensor supply, tamper and general pins (22)
  | ssw (l : Line)
  | sswOn (l : Line)
  | sswOff (l : Line)
  | sswClear (l : Line)
  | sswCheck (sswOut sswIn : Nat)
  | sswLimitTimeout (sswIn : Nat)
  | tamper (l : Line)
  | tamperSettings (l : Line)
  | tamperClear (l : Line)
  | tamperLog (l : Line)
  | tamperSample (level : Bool)
  | tamperContinuous (level : Bool)
  | gpio (l : Line)
  | gpioEdge (n : Fin 8) (level : Bool)
  | wakeInEdge (level : Bool)
  | keeperEdge (period : Nat)
  | sswCurrentLimit (active : Bool)
  | sswHotChange (hot : Bool)
  -- THE COMMANDS WITHOUT OPERANDS, in the same order of families
  -- supply, reset and bring-up (02, 03, 08)
  | powerOn
  | por
  | borRun
  | borRelease
  | borDormant
  | nrstReset
  | nrstRelease
  | testModeEntry
  | vddioLoss
  | vddioRestore
  | oscillatorRestart
  | bringupTrim
  | bringupLedger
  | bringupReady
  | seqWatchdog
  -- Desk and Chute (04)
  | deskBreak
  | chuteCsRise
  | chuteReplyTimeout
  | commandReset
  -- events (07)
  | deferredEvent
  | attnMinWidthEnd
  -- Dormant and waking (09)
  | entryComplete
  | entryWatchdog
  | quietWakeOrigin
  | wakeReadyLine
  | sniffEnd
  | arrayPowerUpEnd
  | stacksPowerDown
  -- the Daybook, the keeper and drift (10)
  | slewTick
  | keeperRunning
  | keeperPeriodFault
  | keeperEdgeTimeout
  -- radio (11)
  | synthLock
  | lockTimeout
  | lockLost
  | keying
  | rampUpEnd
  | txSymbolsEnd
  | rampDownEnd
  | antennaLagEnd
  | rxDurationEnd
  -- census (13)
  | handoverHoldEnd
  | censusScanEnd
  | ccaListenEnd
  -- frames (14)
  | ackTurnaround
  | ackWaitTimeout
  | backoffEnd
  -- link (15)
  | assocResponseWaitEnd
  | pollWindowEnd
  | heldFrameTurnaround
  | exchangeLapse
  | pollScheduleDue
  | heldFrameExpiry
  -- ledger (16)
  | intervalBoundary
  -- trim (17)
  | censuseqTimeout
  -- noise and the Vault (18)
  | rawCaptureDone
  | gradeBRefillDone
  | seedBlockDone
  | drbgReseedDone
  | vaultLoadDone
  | vaultRandDone
  | vaultCcmDone
  -- Record, Stacks, Reading Room and the Porter (19)
  | recordRowWriteDone
  -- standing orders (21)
  | orderLimitExpiry
  | waitExpiry
  -- sensor supply, tamper and general pins (22)
  | sswRampEnd
  | sswThermal
  | sswDormantOverload
  | vbatDip
  | erasureDone
  | archFindDone
  | linkWakeNextSniff
  | deskTxOctetEnd
  deriving DecidableEq, Repr

end Sys2Proof
end

