-- ==== Sys2Proof/Config.lean ====
section
/-! DEFINITION. What an implementation fixes and the spec leaves open: the values here have no body, so no proof
can see them (the log entries named say where each is used). -/
namespace Sys2Proof

/-- The factory EUI-64 of the part (08_bringup R221): unique to the part, stated nowhere. -/
opaque Config.eui : BitVec 64

/-- A free value of `w` bits: the n-th value the model draws where the spec leaves one open (noise bits 18 R468,
DRBG output 18 R474, undefined contents 09 R251, 19 R584).  Nothing can prove what it is. -/
opaque Config.free : Nat → BitVec 128

/-- The level of a pad that nothing drives, by cycle and pad (02_pins R30). -/
opaque Config.padLevel : Nat → Nat → Bool

/-- The octets of a carrel whose contents are undefined (09_dormant R251, 08_bringup Table 8.2): the octet at an
address after the e-th loss. -/
opaque Config.freeOctet : Nat → Nat → Byte

/-- The device secret under which the Vault wraps its stored keys (18_noise_vault R483): stated nowhere. -/
opaque Config.deviceSecret : BitVec 128

/-- The number of preamble and sync symbols of format M's mode N frames, by profile code, which the spec leaves to EN
13757-4 (12_modem R319). -/
opaque Config.wmbusSymbols : Nat → Nat

/-- Bit i of that preamble and sync word, by profile code and whether the frame has format B (12_modem R319). -/
opaque Config.wmbusBit : Nat → Bool → Nat → Bool

/-- The bit errors of the 32 bits received last against format M's sync word, for a frame of format B or A (12_modem
R319, R321). -/
opaque Config.wmbusErrors : Bool → BitVec 32 → Nat

/-- The deviation in Hz of W19's symbol for a pair of bits, which the spec leaves to EN 13757-4 (12_modem R316). -/
opaque Config.w19Tone : Bool → Bool → Int

end Sys2Proof
end

