-- ==== Sys2Proof/Machine/State.lean ====
section
/-! DEFINITION. The state of the block: every register, FIFO, buffer, counter, mode and pin the spec gives the
part, unit by unit, and the queue of waiting commands; `State.reset` is the part with no supply applied. -/
namespace Sys2Proof.Machine

open Sys2Proof

/-! ## Reasons to stop -/

/-- Why the block stops.  No command of this block stops it: the type has one constructor that nothing raises. -/
inductive Fault
  /-- Raised by nothing; safe. -/
  | none
  deriving DecidableEq, Repr

/-- Why a command has no meaning. -/
inductive Refusal
  /-- Raised by an arm of `exec` whose command has no meaning yet; safe. -/
  | notModelled (mnemonic : String)
  deriving DecidableEq, Repr

/-! ## Common pieces -/

/-- A counter with its WRAP bit (05_register_file R128, R129). -/
structure Counter where
  val : Word := 0
  wrap : Bool := false
  deriving DecidableEq, Repr

/-- The four parts (00_scope R1). -/
inductive Part | vg48 | vg46 | vg44 | vg42
  deriving DecidableEq, Repr

/-- The bits of FEAT (00_scope Table 0.2), Porter and Collator bits under their Table 8.5 names. -/
inductive Feat | stacks | stacks2m | census | deep | paHp | vault | parent | ssw | porter4 | collate4 | chute
  deriving DecidableEq, Repr

/-- The units with editions (06_tickets Table 6.4), in index order. -/
inductive EdUnit | sys | pwr | daybook | radio | modem | census | frame | link | ledger | trim | noise | vault
  | stacks | porter | collate | orders | ssw | tamper | gpio | events | desk | chute
  deriving DecidableEq, Repr

/-- One value of an output line (04_desk, "Replies"): words and texts, decimal and hexadecimal integers, Daybook
values in the seconds form, decimals with a fixed number of places, strings, hex payloads and word lists. -/
inductive Val
  | word (w : String)
  | dec (v : Int)
  | hex (digits : Nat) (v : Nat)
  | time (ticks : Nat)
  | fix (places : Nat) (v : Int)
  | str (s : String)
  | octets (l : List Byte)
  | list (ws : List String)
  deriving DecidableEq, Repr

/-- One word of an output line. -/
inductive Tok
  | w (v : Val)
  | kv (k : String) (v : Val)
  deriving DecidableEq, Repr

/-- What an output line is, which decides what its sending does (04_desk Table 4.7, 06_tickets R170). -/
inductive OutKind
  | reply (last : Bool)
  | resetReply
  | dormantReply
  | deskReply
  | dn (n : Nat)
  | ret (n : Nat)
  | ev (n : Nat)
  | boot
  | ready (wake : Bool)
  deriving DecidableEq, Repr

/-- An output line waiting to be sent: the device formats it as it sends it (04_desk R103). -/
structure OutLine where
  kind : OutKind
  tag : Option String := none
  toks : List Tok
  block : List Byte := []
  due : Nat := 0                   -- the cycle before which it does not begin: a stall delays it (09_dormant R250)
  deriving DecidableEq, Repr

/-- An error answer: a code of 04_desk Table 4.8 with its detail words. -/
structure Er where
  code : String
  detail : List String := []
  deriving DecidableEq, Repr

/-! ## Desk and Chute (04) -/

/-- An octet as it arrived at a port: a mode change reads those behind its line again (04_desk R103). -/
structure InOctet where
  b : Byte
  drop : Bool := false             -- discarded for want of room (R70, R78)
  bad : Bool := false              -- its stop bit was low (R71)
  at_ : Nat := 0                   -- the Daybook of its cycle
  deriving DecidableEq, Repr

/-- A line that waits in a port's FIFO, with its octets and what it lost. -/
structure InLine where
  text : List Byte
  lost : LostMarks
  block : List Byte := []          -- the block that followed it, with its marker and CRC
  at_ : Nat := 0                   -- the Daybook of the cycle in which its line end was accepted (R87)
  framed : Bool := false           -- the mode in which it is read (R103, R106)
  raw : List InOctet := []         -- its octets and its block's as they arrived
  deriving DecidableEq, Repr

/-- A binary block that is being received (04_desk R91, R92). -/
structure BlockRx where
  expect : Nat
  got : List Byte
  deriving DecidableEq, Repr

/-- One port: its input FIFO, its output queue, its modes and counters. -/
structure PortSt where
  fifo : List Byte := []           -- octets of the line being received
  raw : List InOctet := []         -- those octets, or the block's, as they arrived
  lines : List InLine := []        -- complete lines waiting to be taken
  lost : LostMarks := ⟨false, false, false⟩
  sawCr : Bool := false
  busy : Bool := false
  typing : Bool := false           -- typed mode: a prompt or character is out without a line end (R94)
  echo : List Byte := []           -- typed mode: octets of echo and prompt waiting to be sent
  out : List OutLine := []         -- the output queue, the line being sent first
  sending : Option (List Byte) := none -- Desk: the octets of the first line still to be sent, once it has begun
  block : Option BlockRx := none
  announced : Bool := false        -- `+BOOT` or `+READY` has been queued (R79)
  partialRead : Nat := 0           -- Chute: octets of the first line already read
  deriving DecidableEq, Repr

/-- The Chute's transaction (04_desk R75–R79). -/
structure ChuteTx where
  active : Bool := false
  mode3 : Bool := false
  octets : Nat := 0
  discard : Bool := false
  status : BitVec 16 := 0
  sdo : Byte := 0xFF               -- the octet sent in the last exchange (R76)
  deriving DecidableEq, Repr

structure DeskSt where
  rate : Nat := 7                  -- running rate code
  autobaud : Bool := false
  ratePending : Option Nat := none -- rate that takes effect once the reply has been sent (R104)
  breakArmed : Bool := false
  rateAtOctet : Bool := false      -- the pending rate takes effect at the end of the Desk octet in progress
  lostWake : Counter := {}
  overrun : Counter := {}
  framing : Counter := {}
  checkFail : Counter := {}
  evDropped : Counter := {}
  cOverrun : Counter := {}
  cCheckFail : Counter := {}
  cEvDropped : Counter := {}
  turnChute : Bool := false        -- whose line is taken next (R108)
  deriving DecidableEq, Repr

/-! ## Tickets (06) -/

/-- The results of 06_tickets Table 6.5, in index order. -/
inductive Result | done | fail | state | stale | overdue | cancelled | overbudget | norng | noack | chanbusy
  | tampered | disagree | fault
  deriving DecidableEq, Repr

/-- The states of 06_tickets Table 6.2 but FREE. -/
inductive TState | queued | waiting | running | complete | held
  deriving DecidableEq, Repr

/-- Who issued a ticket (06_tickets R151, 15_link R417). -/
inductive Owner
  | host (p : Port)
  | order (k : Nat)
  | link
  deriving DecidableEq, Repr

/-- An address of a frame (14_frames). -/
inductive Addr
  | none
  | short (a : BitVec 16)
  | ext (a : BitVec 64)
  deriving DecidableEq, Repr

/-- A frame to send, as FRAME SEND, the link and CAT QUEUE build it (14_frames R366–R372, R387). -/
structure TxFrame where
  fmt : Fmt := .s
  mB : Bool := false               -- format M: frame format B
  ftype : Nat := 1                 -- format S: 1 data, 3 MAC command
  seq : Nat := 0
  pan : BitVec 16 := 0
  dst : Addr := .none
  src : Addr := .none
  ackReq : Bool := false
  pending : Bool := false
  poll : Bool := false             -- format D: the frame is a poll
  sec : Nat := 0                   -- security level, 0 for none
  key : Nat := 0                   -- key index 1–6
  counter : Nat := 0               -- frame counter; 2^32 where the slot's is exhausted (R385)
  fcs4 : Bool := false             -- format S: a 4-octet check sequence
  payload : List Byte := []
  deriving DecidableEq, Repr

/-- A standing order's stored trigger (21_orders Table 21.1). -/
inductive Trigger
  | none
  | schedule (every phase : Nat)
  | event (n : Nat)
  deriving DecidableEq, Repr

/-- A stored order (21_orders Table 21.1 and its text). -/
structure OrderSlot where
  enabled : Bool
  cont : Bool                      -- policy CONTINUE
  retries : Nat
  trigger : Trigger
  limitMs : Nat
  name : String
  lines : List String
  deriving DecidableEq, Repr

/-- What a ticket does when it starts: one constructor for each ticketed form of 24_index Table 24.1. -/
inductive TicketOp
  | pwrMeasure
  | eventSave
  | txCw (durMs : Nat)
  | rx (durMs : Option Nat) (plan chan : Nat)
  | ccaCheck (plan chan : Nat)
  | censusScan (durMs : Nat)
  | frameSend (f : TxFrame) (plan chan : Nat) (entry : Nat)
  | assoc (parent : Addr) (pan : BitVec 16) (plan chan : Nat)
  | leave (notify : Bool)
  | poll (repoll : Nat)
  | linkWake (f : TxFrame) (child : Nat) (sniffAt : Nat) (entry : Nat)
  | tariffSched (t : Nat) (b : Nat)
  | trimRun (items : List TrimItem) (all : Bool) (plan chan : Nat)
  | rawOff
  | rawCapture (n : Nat)
  | vaultLoad (slot : Nat) (key : List Byte) (wrapped : Bool)
  | vaultErase (slots : List Nat)
  | vaultRand (n : Nat)
  | vaultCcm (dec : Bool) (slot level : Nat) (nonce aad data : List Byte) (blk : Bool)
  | recordWrite (at_ : Nat) (data : List Byte)
  | stacksPart (archKib pmax : Nat) (refuse : Bool)
  | stacksWrite (at_ : Nat) (data : List Byte)
  | archAdd (cls : Nat) (data : List Byte) (src : Option (Nat × Nat))
  | archFind (fromN toN since til cls : Option Nat) (unsent unacked : Bool) (max : Nat) (list : Option Nat)
  | archMark (range list : Option (Nat × Nat)) (setM clearM : Nat)
  | archDrop (upto : Nat)
  | porterGo (ch : Nat) (slip max : Nat) (input : Option (List Byte)) (fifo : Bool)
  | collateFeed (n : Nat) (data : List Byte) (src : Option (Nat × Nat))
  | collateClose (n : Nat) (expect : Option (Option Nat))
  | orderStore (k : Nat) (slot : OrderSlot)
  | orderSet (k : Nat) (changes : List (String × Arg))
  | orderErase (k : Nat)
  | orderRun (k : Nat)
  | sswOn
  | sswOff
  deriving DecidableEq, Repr

/-- An allocated ticket. -/
structure Ticket where
  n : Nat
  st : TState := .queued
  queue : Queue
  owner : Owner
  tag : Option String := none
  after : Option Nat := none
  due : Option Nat := none
  guard : Option (EdUnit × Nat) := none
  startAt : Option Nat := none     -- start fixed to a Daybook time (R159 step 4)
  timed : Bool := false            -- it waits in step 4 of R159
  op : TicketOp
  result : Option Result := none
  fields : List Tok := []
  block : List Byte := []
  doneAt : Nat := 0                -- cycle of its completion
  doneSeq : Nat := 0               -- order of completion
  cancelBy : Option String := none -- CANCEL accepted while running: completes CANCELLED at its stopping point
  deriving DecidableEq, Repr

/-- What a freed number keeps (06_tickets R153). -/
structure Past where
  n : Nat
  queue : Queue
  result : Option Result
  doneAt : Nat
  deriving DecidableEq, Repr

structure TicketsSt where
  pool : List Ticket := []         -- allocated tickets, in issue order
  past : List Past := []
  last : Option Nat := none
  seq : Nat := 0
  noTicket : Counter := {}
  overdue : Counter := {}
  stale : Counter := {}
  stateC : Counter := {}
  cancelled : Counter := {}
  deriving DecidableEq, Repr

/-! ## Events (07) -/

/-- A line-caused event that fires in the following cycle (07_events R198). -/
inductive Deferred
  | chuteOut
  | lineDropped (p : Port) (n : Nat)
  deriving DecidableEq, Repr

structure EventsSt where
  pend : BitVec 128 := 0
  cond : BitVec 128 := 0           -- conditions of kind-C events that hold now (R188)
  last : Option Nat := none
  fired : Counter := {}
  hostWakes : Counter := {}
  attn : Bool := false
  attnUntil : Nat := 0             -- cycle before which the present assertion does not end (R193, R206)
  deferred : List Deferred := []
  deriving DecidableEq, Repr

/-! ## Configuration registers, held twice: live, and as the Record stores them (19 Table 19.2) -/

structure DeskCfg where
  desk : Word := 0x87
  chute : Word := 0
  deriving DecidableEq, Repr

structure EventsCfg where
  attnCfg : Word := 0
  attn : BitVec 128 := 0
  line : BitVec 128 := 0xDEFF0F007F3F0F3F00000000001F001F
  wake : BitVec 128 := 0
  deriving DecidableEq, Repr

structure SysCfg where
  padDrive : Word := 0x15
  vbatWarn : Word := 2000
  dorm : Word := 0x1B0
  ticketsLow : Word := 32
  dayRef : Word := 350
  deriving DecidableEq, Repr

structure RadioCfg where
  chan : Word := 0
  txConfig : Word := 0x000A020A
  antMap : Word := 0x94
  rxConfig : Word := 0x4F
  hpConfig : Word := 0x0205
  planBase : Vector Word 4 := #v[0x33D1FDC0, 0, 0, 0]
  planCtrl : Vector Word 4 := #v[0x80100001, 0, 0, 0]
  ccaConfig : Word := 0x13880002
  ccaThr : Word := 0x0000FF42
  deriving DecidableEq, Repr

structure ModemCfg where
  profile : Word := 0x00080101
  sync : Word := 0x305
  deep : Word := 3
  deriving DecidableEq, Repr

structure CensusCfg where
  config : Word := 0
  allow : Word := 0xFFFF
  thresh : Word := 0xFF10FF42
  hold : Word := 0xC8
  deriving DecidableEq, Repr

structure FrameCfg where
  config : Word := 0x0BB80008
  filter : Word := 0x0002FFFF
  addr : Word := 0xFFFE
  deriving DecidableEq, Repr

structure LinkCfg where
  config : Word := 0x000C4533
  timing : Word := 0x03E80FA0
  wait_ : Word := 0x000A000A
  pollEvery : Word := 0
  pollPhase : Word := 0
  sniffEvery : Word := 0
  sniffPhase : Word := 0
  pool : Word := 0x00FF0001
  catConfig : Word := 0x02580142
  ledger : Word := 10
  deriving DecidableEq, Repr

structure PinsCfg where
  ssw : Word := 1
  tamper : Word := 0
  gpio : Vector Word 8 := Vector.replicate 8 0
  gpioOut : Word := 0
  deriving DecidableEq, Repr

/-- Every configuration register. -/
structure Cfg where
  desk : DeskCfg := {}
  events : EventsCfg := {}
  sys : SysCfg := {}
  radio : RadioCfg := {}
  modem : ModemCfg := {}
  census : CensusCfg := {}
  frame : FrameCfg := {}
  link : LinkCfg := {}
  pins : PinsCfg := {}
  deriving DecidableEq, Repr

/-- The names of the configuration registers. -/
inductive CfgReg
  | desk | chute | attnCfg
  | attnEn (k : Nat) | lineEn (k : Nat) | wakeEn (k : Nat)
  | padDrive | vbatWarn | dorm | ticketsLow | dayRef
  | chan | txConfig | antMap | rxConfig | hpConfig
  | planBase (p : Nat) | planCtrl (p : Nat)
  | ccaConfig | ccaThr | profile | sync | deep
  | census | allow | thresh | hold
  | frame | filter | addr
  | link | timing | wait | pollEvery | pollPhase | sniffEvery | sniffPhase | pool | catConfig | ledger
  | ssw | tamper | gpio (n : Nat) | gpioOut
  deriving DecidableEq, Repr

/-! ## Supply, reset and bring-up (02, 03, 08) -/

/-- The reset causes (08_bringup Table 8.1), in code order. -/
inductive Cause | por | pin | command | borRun | borDormant | wakeLate | seqWatchdog
  deriving DecidableEq, Repr

/-- The bring-up stages (08_bringup Table 8.3). -/
inductive Stage | power | record | trim | ledger | vault | orders | ready
  deriving DecidableEq, Repr

/-- Whether the part is held in reset, and by what. -/
inductive Hold
  | none                           -- not held: bring-up runs or has ended
  | por                            -- power-on detector (R52), until VBAT first exceeds 1.78 V
  | borRun                         -- R54, until VBAT rises above 1.78 V
  | nrst                           -- NRST low (R19)
  | test                           -- factory test state (R20)
  deriving DecidableEq, Repr

/-- The power states of 09_dormant. -/
inductive Pwr
  | run
  | entryWait                      -- DORMANT accepted, attempt not yet begun (R233, R234)
  | entry (latched : Bool) (quiet : Bool)
  | dormant
  | wake (stage : Nat) (quiet : Bool)   -- 0 regulator, 1 oscillator, 2 memory, 3 logic ready
  deriving DecidableEq, Repr

structure SysSt where
  hold : Hold := .por
  stage : Stage := .power
  oscOn : Bool := false
  bootSent : Bool := false         -- the Desk has sent `+BOOT` in full (Table 2.2)
  cause : Cause := .por
  continuous : Bool := false       -- the last reset was continuous (10_daybook R264)
  also : BitVec 7 := 0
  causeStage : Nat := 0
  alert : BitVec 8 := 0            -- the sticky bits of Table 8.8
  alertEvents : List (Nat × List Tok) := []   -- lines of bring-up's events, queued after `+READY BOOT`
  bootCount : Counter := {}
  pendingReset : Option Origin := none
  resetReplyRead : Bool := false   -- Chute: the reply's last octet has been read (R229)
  replySince : Nat := 0            -- cycle in which a Chute RESET or DORMANT line was taken
  testMode : Bool := false
  dregLow : Bool := false          -- the reset in force was taken with DREG in low-power mode (03 R47, R57)
  deriving DecidableEq, Repr

structure PwrSt where
  vddioOk : Bool := true
  vregOk : Bool := true            -- VREG_OUT and VBUCK_FB within ±3 % (Table 3.9)
  buckOk : Bool := true
  vbat : BitVec 16 := 0
  vddio : BitVec 16 := 0
  vddpa : BitVec 16 := 0
  vbatLow : Bool := false
  vddpaLow : Bool := false
  measBusy : Bool := false
  measHp : Bool := false           -- the running measurement is that of a TX_HP ramp above +20 dBm (R59)
  borRun : Counter := {}
  borDormant : Counter := {}
  borDormantLatch : Bool := false
  wakeLate : Counter := {}
  state : Pwr := .run
  lateStage : Nat := 0
  attemptBy : Option Origin := none
  attemptDue : Bool := false       -- the attempt of `entryWait` may begin (R234)
  armed : Bool := false            -- an order has armed an attempt
  idleSince : Nat := 0
  wakeAlso : BitVec 7 := 0
  wakeSrc : Nat := 0
  refPresent : BitVec 16 := 0
  refValid : Bool := false
  refAbort : Bool := false
  refCode : Nat := 0
  refusals : Counter := {}
  entries : Counter := {}
  quietWakes : Counter := {}
  refuser : Vector Counter 16 := Vector.replicate 16 {}
  aborts : Vector Counter 6 := Vector.replicate 6 {}
  powered : BitVec 8 := 1          -- carrels with power
  lost : BitVec 8 := 0xFE
  lostCount : Nat := 0             -- how often carrel contents became undefined (the model's own)
  stacksOn : Bool := false
  stacksLast : Nat := 0
  stall : List (Nat × Nat) := []   -- carrels (1–7) and the Stacks array (8) that power up, and the cycle each ends in
  wakeInEdge : Option Bool := none -- edge that woke or that bring-up latched
  resumed : Bool := false          -- the resume edge of this wake has been taken
  wakeOrigin : Nat := 0            -- keeper count on which the first source of this wake was registered
  deriving DecidableEq, Repr

/-! ## Pins (02, 09, 22) -/

structure PadsSt where
  held : Word := 0                 -- SYS_PAD_HELD
  heldLevel : Word := 0
  heldDev : Word := 0              -- held pads of the device-held class (09 Table 9.5)
  heldDrive : Vector Nat 24 := Vector.replicate 24 0   -- the drive codes that held pads keep (R34, 09 R252)
  nrst : Bool := true
  tamp : Bool := false
  wakeIn : Bool := true
  testEn : Bool := false
  deskRx : Bool := true
  deskTx : Bool := true
  chuteCs : Bool := true
  chuteSck : Bool := false
  chuteSdi : Bool := false
  antA : Bool := false
  antB : Bool := false
  paEn : Bool := false
  gpioIn : BitVec 8 := 0           -- levels applied at the GPIO pins
  deriving DecidableEq, Repr

/-! ## The Daybook (10) -/

inductive AlarmSt | off | armed | done
  deriving DecidableEq, Repr

structure Alarm where
  st : AlarmSt := .off
  at_ : Ticks := 0
  every : Word := 0
  order : Option Nat := none
  skipped : Nat := 0
  deriving DecidableEq, Repr

/-- One bin of the drift table. -/
structure Bin where
  e : Int := 0
  conf : Nat := 0
  streak : Nat := 0
  deriving DecidableEq, Repr

structure DaySt where
  now : Ticks := 0
  slew : Int := 0
  cyc : Nat := 0                   -- SCLK cycles (the model's own count, for durations: R147)
  slept : Nat := 0                 -- ticks that passed in Dormant and in wakes (the model's own, for durations)
  cont : Bool := false
  keeperOk : Bool := false
  goodPeriods : Nat := 0
  keeper : Nat := 0                -- the keeper count, 48 bits (R258)
  alarmAt : Option (Nat × Nat) := none   -- earliest alarm time found at entry, and the keeper count of its edge (R278)
  dh : Ticks := 0                  -- hand-over pair (R259)
  kh : Nat := 0
  kw : Nat := 0                    -- keeper count at the resume edge (R260)
  resumeCyc : Nat := 0             -- cycle of the resume edge
  temp : Int := 100                -- 0.25 °C
  tempEntry : Int := 100
  tempWake : Int := 100
  sigmaAcc : Nat := 0              -- Σ σ_seg × t_seg since the last partner update, in 10⁻² ppm ticks
  bins : Vector Bin 16 := Vector.replicate 16 {}
  window : Bool := false           -- drift window open
  windowOk : Bool := false         -- keeper_ok has been 1 throughout it
  checkpoint : Option Ticks := none  -- the checkpoint of that row
  driftSeq : Nat := 3              -- sequence number and row of the drift row written last (R270)
  driftRow : Nat := 3
  offset : Int := 0
  rate : Int := 0
  n : Nat := 0
  anchor : Option (Ticks × Int) := none
  lastUpdate : Option Ticks := none
  samples : Counter := {}
  rejects : Counter := {}
  alarms : Vector Alarm 4 := Vector.replicate 4 {}
  deriving DecidableEq, Repr

/-! ## Radio, modem and census (11–13) -/

/-- The radio states of 11_radio Table 11.6, in code order. -/
inductive RState | idle | listen | receive | transmit | trim
  deriving DecidableEq, Repr

/-- A clear-channel assessment in progress (13_census R347): the cycle its listen began, the windows completed in
it, and for each census channel the highest reading and whether a preamble was detected. -/
structure Cca where
  since : Option Nat := none
  windows : Nat := 0
  peak : Vector Int 16 := Vector.replicate 16 (-270)
  seen : BitVec 16 := 0
  deriving DecidableEq, Repr

inductive ListenKind | rx | check | scan
  deriving DecidableEq, Repr

/-- The listening of a running RX, CCA CHECK or CENSUS SCAN ticket (R308, R362, R363). -/
structure Listener where
  kind : ListenKind
  ticket : Nat
  plan : Nat
  chan : Nat
  endAt : Option Nat := none       -- cycle in which its duration ends
  frames : Nat := 0
  rssiMax : Option Int := none
  ending : Option Result := none   -- to complete so at the end of the frame in Receive
  fin : List Tok := []             -- a CCA CHECK's result, once decided
  cca : Cca := {}
  failed : Bool := false           -- it has failed to lock or lost lock once (R291)
  windows : Nat := 0               -- SCAN: windows that counted
  maxes : Vector Int 16 := Vector.replicate 16 (-270)
  sums : Vector Nat 16 := Vector.replicate 16 0
  deriving DecidableEq, Repr

/-- What a transmission is. -/
inductive TxKind
  | frame
  | ack (pend : Bool)
  | held (id : Nat)
  | cw
  | train
  deriving DecidableEq, Repr

/-- How far a transmission has come (R293, R296). -/
inductive TxPhase | tune | lead | rampUp | symbols | rampDown
  deriving DecidableEq, Repr

/-- A transmission that has been booked (16_ledger R431): planned airtime and, within it, the ticks to the end of
the sync word. -/
structure Tx where
  kind : TxKind
  plan : Nat
  chan : Nat
  air : Nat
  shr : Nat := 0
  tones : List Int := []           -- the deviation of each symbol sent, in Hz, from the preamble on (12 R315–R325)
  turn : Bool := false             -- keyed by its turnaround (R378, R411)
  phase : TxPhase := .tune
  hp : Bool := false
  level : Int := 0
  symCyc : Nat := 0                -- cycle of the first symbol
  actual : Nat := 0                -- airtime charged, once the symbols have ended
  cut : Bool := false              -- cut by an unlock (R291)
  deriving DecidableEq, Repr

/-- A reception in progress. -/
structure RxNow where
  fmt : Fmt
  plan : Nat
  chan : Nat
  handed : Bool
  mB : Bool := false               -- the sync word was that of format M's frame format B
  sync : Ticks := 0                -- the sync time (R322)
  serr : Nat := 0                  -- bit errors of the sync word (R332)
  filter : Word := 0               -- the filter in force when sync was declared
  addr : Word := 0
  deriving DecidableEq, Repr

/-- A hand-over of the demodulator, or a hold after a wake pattern (R352–R354). -/
structure Handed where
  chan : Nat
  wake : Bool
  moved : Bool                     -- a hand-over, as against a hold on the listened channel (R354)
  since : Nat
  level : Int := -270
  deriving DecidableEq, Repr

/-- A quiet-wake sniff (R355). -/
structure Sniff where
  gated : Bool := false            -- the gate has been passed: it runs its full length
  at_ : Nat := 0                   -- the partner time s that it serves (15_link R419)
  deriving DecidableEq, Repr

structure RadioSt where
  st : RState := .idle
  plan : Nat := 0                  -- the channel in use
  chan : Nat := 0
  band : Nat := 0
  word : Nat := 0
  lo : Int := 0                    -- where the LO stands, in Hz (R298, 13 R338)
  locked : Bool := false
  tuning : Bool := false
  failed : Bool := false           -- the operation has failed to lock or lost lock once (R291)
  hpBandL : Bool := false
  portHp : Bool := false
  rssiNow : Int := -280
  rssiFrame : Int := 0
  afc : Int := 0
  gain : Nat := 0
  lna : Nat := 24
  frozen : Bool := false           -- gain and AFC are frozen (R300, R302)
  afcOnce : Bool := false          -- EV_AFC_LIMIT has fired since the listen began or the last sync
  unlocks : Counter := {}
  afcLimits : Counter := {}
  keyings : Counter := {}
  ccaBusy : Counter := {}
  ccaClear : Counter := {}
  listeners : List Listener := []  -- running RADIO and CENSUS tickets, in order of start
  tx : Option Tx := none
  rx : Option RxNow := none
  handed : Option Handed := none
  sniff : Option Sniff := none
  antLag : Bool := false           -- the antenna controls wait for sw_lag (R296)
  spanTuned : Bool := false        -- the last tune placed the span of the census in the IF (13 R338)
  ownSeen : Option Nat := none     -- cycle of the last preamble detected on the demodulator's own channel
  deriving DecidableEq, Repr

structure ModemSt where
  serr : Nat := 0
  lqi : Nat := 0
  snr : Int := 0
  sync : Ticks := 0
  cbits : Nat := 0
  cerr : Nat := 0
  syncs : Counter := {}
  wakes : Counter := {}
  headerFail : Counter := {}
  deriving DecidableEq, Repr

structure CensusSt where
  stale : Bool := false
  held : Bool := true              -- the census has not measured since the readings were set
  levels : Vector Int 16 := Vector.replicate 16 0
  above : BitVec 16 := 0
  at_ : Ticks := 0
  hop : Bool := false              -- hop and allow as they stood at the last window close (R361)
  allow : Word := 0xFFFF
  hops : Counter := {}
  handovers : Counter := {}
  scanMax : Vector Int 16 := Vector.replicate 16 0
  scanMean : Vector Int 16 := Vector.replicate 16 0
  deriving DecidableEq, Repr

/-! ## Frames (14) -/

/-- An entry of the RX ring (R374): its descriptor and octets. -/
structure RxEntry where
  id : Nat
  fmt : Fmt
  flags : Nat
  octets : List Byte
  lqi : Nat
  sync : Ticks
  rssi : Int
  afc : Int
  plan : Nat
  chan : Nat
  snr : Int
  serr : Nat
  deriving DecidableEq, Repr

/-- Why a frame is held for a child (15_link R418, R402, R407). -/
inductive HeldKind
  | data
  | response (status : Nat)
  | notice
  deriving DecidableEq, Repr

/-- An entry of the TX ring: a ticket's frame, or a frame held for the Catalogue entry named. -/
structure TxEntry where
  id : Nat
  frame : TxFrame
  size : Nat
  child : Option Nat := none
  octets : List Byte := []         -- a held frame as it was built (15_link R411)
  kind : HeldKind := .data
  since : Nat := 0                 -- time at which it was held (`State.elapsed`)
  deriving DecidableEq, Repr

/-- The last frame accepted from a source, for the duplicate check (R377 step 8), and its time (`State.elapsed`). -/
structure Dup where
  src : Addr
  seq : Nat
  at_ : Nat
  deriving DecidableEq, Repr

structure FrameSt where
  rx : List RxEntry := []          -- oldest first
  rxNext : Nat := 0
  rxPos : Nat := 0                 -- read position of the RX window
  tx : List TxEntry := []
  txNext : Nat := 0
  stage : List Byte := []
  stageOver : Bool := false
  seq : Nat := 0
  dups : List Dup := []
  ctrs : Vector Counter 14 := Vector.replicate 14 {}
  fc : Vector Word 8 := Vector.replicate 8 0       -- VAULT_FC_2–7 (Record)
  fcWarn : Word := 0xFFFF0000
  fcIn : Word := 0
  deriving DecidableEq, Repr

/-! ## Link (15) -/

/-- The link states of 15_link R393, in code order. -/
inductive LState | unassoc | associating | associated | parent | exchange
  deriving DecidableEq, Repr

structure Assoc where
  pan : BitVec 16
  parent : BitVec 16
  eui : BitVec 64
  own : BitVec 16
  deriving DecidableEq, Repr

/-- A Catalogue entry (R395 Table 15.2) at its index. -/
structure CatEntry where
  idx : Nat
  short : BitVec 16
  valid : Bool := false
  hop : Bool := false
  prov : Bool := false
  listed : Bool := false
  leaving : Bool := false
  lqi : Nat := 0
  eui : BitVec 64
  fcIn : Word := 0
  sniffEvery : Word := 0
  sniffPhase : Word := 0
  deriving DecidableEq, Repr

inductive LinkKind | send | assocReq | assocData | leave | poll | wake | cw
  deriving DecidableEq, Repr

/-- How far a LINK operation has come. -/
inductive LinkPhase
  | wait                           -- for the end of an exchange, of a reception or of TRIM (R305, R397, R461)
  | draw                           -- for the grade-B pool (18 R471)
  | backoff (due : Nat)
  | extended                       -- its backoff has ended in a reception or an acknowledgement (R398)
  | busy                           -- sync during its backoff or CCA: waits for that frame's end (R398)
  | cca
  | tx
  | ackWait
  | respWait
  | window (past : Bool)
  | wakeWait
  | finishing                      -- completes when its acknowledgement has been sent
  deriving DecidableEq, Repr

/-- The running LINK operation. -/
structure LinkOp where
  ticket : Nat
  kind : LinkKind
  frame : TxFrame := {}
  octets : List Byte := []         -- the frame's octets, before whitening and coding
  plan : Nat := 0
  chan : Nat := 0
  entry : Option Nat := none
  nb : Nat := 0
  be : Nat := 0
  retries : Nat := 0
  tries : Nat := 0
  phase : LinkPhase := .wait
  keyChan : Nat := 0
  lastSync : Nat := 0
  dur : Nat := 0
  repoll : Nat := 0
  repolls : Nat := 0
  frames : Nat := 0
  pendBit : Bool := false
  fin : Option (Result × List Tok) := none
  parent : Addr := .none
  peer : Option Assoc := none      -- the association under which a poll was started (R406)
  joined : Option Assoc := none    -- the association that its completion stores (R401)
  child : Nat := 0
  sniffAt : Nat := 0
  cca : Cca := {}
  failed : Bool := false           -- it has failed to lock or lost lock once (11 R291)
  late : Bool := false             -- the wait's deadline has passed while a frame was in Receive
  deriving DecidableEq, Repr

inductive ExchPhase | ack | heldTx | ackWait
  deriving DecidableEq, Repr

/-- The exchange in progress (R410). -/
structure Exch where
  idx : Nat
  short : BitVec 16
  pend : Bool
  phase : ExchPhase := .ack
  entry : Option Nat := none
  late : Bool := false             -- the wait's deadline has passed while a frame was in Receive
  deriving DecidableEq, Repr

structure LinkSt where
  st : LState := .unassoc
  assoc : Option Assoc := none     -- Record
  partnerPending : Bool := false
  op : Option LinkOp := none
  exch : Option Exch := none
  cat : List CatEntry := []        -- stored in the Stacks; index order
  catSel : Nat := 0
  nextPoll : Option Nat := none
  lastPoll : Nat × Bool × Nat := (0, false, 0)   -- result, pending, frames of the last poll's completion
  train : Option (Nat × Nat) := none   -- End role: sniff time s and pattern ticks of a wake train being received
  ctrs : Vector Counter 7 := Vector.replicate 7 {}
  catCtrs : Vector Counter 6 := Vector.replicate 6 {}
  deriving DecidableEq, Repr

/-! ## The airtime ledger (16) -/

structure Tariff where
  budget : Nat
  interval : Nat
  deriving DecidableEq, Repr

/-- The kinds of a journal record (Table 16.2). -/
inductive JKind | open | book | check | close | tariff | sched
  deriving DecidableEq, Repr

/-- A journal record: a snapshot of the account (R444). -/
structure JRec where
  kind : JKind
  tariff : Nat
  pend : Option (Nat × Nat)        -- tariff and effective boundary B
  isOpen : Bool
  booking : Bool
  recovered : Bool
  overB : Bool
  seq : Nat
  at_ : Nat
  start : Nat
  interval : Nat
  budget : Nat
  spent : Nat
  booked : Nat
  total : Nat
  deriving DecidableEq, Repr

structure LedgerSt where
  tariffs : Vector (Option Tariff) 8 := Vector.replicate 8 none
  active : Nat := 0
  isOpen : Bool := false
  start : Nat := 0
  spent : Nat := 0
  booked : Option Nat := none
  total : Nat := 0
  recovered : Bool := false
  pend : Option (Nat × Nat) := none
  pendTicket : Option Nat := none
  reissue : Bool := false          -- a change recovered at bring-up is issued at READY (R447)
  seq : Nat := 0
  row : Nat := 31
  journal : Vector (Option JRec) 32 := Vector.replicate 32 none
  refusals : Counter := {}
  ackReserve : Counter := {}
  ackRefused : Counter := {}
  recoveries : Counter := {}       -- Record
  deriving DecidableEq, Repr

/-! ## Self-trim (17) -/

/-- The selections in force (Table 17.2), as the trim slot stores them (Table 17.3). -/
structure TrimSel where
  adcI : Nat := 0
  adcQ : Nat := 0
  dcI : Int := 0
  dcQ : Int := 0
  filt : Nat := 32
  iq : Vector (Nat × Nat × Nat × Nat) 3 := Vector.replicate 3 (14, 15, 14, 15)
  image : Vector Nat 3 := Vector.replicate 3 0
  ceq : Vector Nat 16 := Vector.replicate 16 0
  source : BitVec 7 := 0
  deriving DecidableEq, Repr

structure TrimLast where
  result : Nat
  cause : Nat
  peak : Int
  deriving DecidableEq, Repr

/-- The running TRIM ticket. -/
structure TrimRun where
  ticket : Nat
  item : TrimItem
  rest : List TrimItem             -- items of ALL that follow
  all : Bool
  plan : Nat
  chan : Nat
  second : Bool := false
  sel1 : List Int := []
  stat1 : List Int := []
  dirty1 : Bool := false
  dirty2 : Bool := false
  warned : Bool := false
  peak : Int := -32768
  done : List String := []
  bad : List String := []
  failed : Bool := false
  writing : Option (List Tok) := none  -- the last item is decided; its slot is being written
  deriving DecidableEq, Repr

structure TrimSt where
  sel : TrimSel := {}
  run : Option TrimRun := none
  last : Vector (Option TrimLast) 5 := Vector.replicate 5 none
  runs : Counter := {}
  commits : Counter := {}
  disagrees : Counter := {}
  contaminated : Counter := {}
  deriving DecidableEq, Repr

/-! ## Noise and the Vault (18) -/

/-- The NOISE states of Table 18.4, in code order. -/
inductive NState | startup | ready | raw | failed
  deriving DecidableEq, Repr

/-- The DRBG's working state (R473). -/
structure Drbg where
  key : BitVec 128 := 0
  v : BitVec 128 := 0
  deriving DecidableEq, Repr

structure NoiseSt where
  st : NState := .startup
  failTest : Nat := 0
  pool : Nat := 0
  refill : Bool := false           -- a refill is running
  rctMax : Nat := 0
  aptMax : Nat := 0
  run : Nat := 0                   -- the current run of identical raw bits (R469)
  aptPos : Nat := 0                -- the position in the APT window
  drbg : Option Drbg := none       -- the DRBG's working state, once it is instantiated
  reseeding : Bool := false
  due : Bool := false              -- a reseed is left due (R475)
  seed : Option (BitVec 128) := none   -- the seed block of the reseed, once it has been collected
  requests : Nat := 0
  rawBits : Counter := {}
  bBits : Counter := {}
  rawAlarms : Counter := {}
  capAlarms : Nat := 0
  reseeds : Counter := {}
  aRequests : Counter := {}
  deriving DecidableEq, Repr

structure VaultSt where
  slots : Vector (Option (BitVec 128)) 8 := Vector.replicate 8 none  -- Record and working key store
  sealed : Bool := false
  eraseMask : BitVec 8 := 0
  loads : Counter := {}
  unwrapFails : Counter := {}
  erasures : Counter := {}
  ccmFails : Counter := {}
  deriving DecidableEq, Repr

/-! ## Sensor supply switch, tamper and general pins (22) -/

/-- The switch states of Table 22.1, in code order. -/
inductive SState | off | ramp | on | fault
  deriving DecidableEq, Repr

structure SswSt where
  st : SState := .off
  cause : Nat := 0                 -- 0 none, 1 SHORT, 2 OVERLOAD, 3 THERMAL
  limit : Bool := false
  hot : Bool := false
  ramped : Bool := false           -- in RAMP: the ramp has ended and the check is due
  latched : Nat := 0               -- fault latched in Dormant (R565): cause, 0 none
  faults : Counter := {}
  deriving DecidableEq, Repr

/-- A tamper log entry (R575). -/
structure TamperEntry where
  seq : Nat
  at_ : Nat
  source : Nat
  ctx : Nat
  erased : BitVec 8
  deriving DecidableEq, Repr

/-- A setting of the tamper latch (R570, R571): its sources, the context, the destination slot of a key operation that
it aborted (R572), and the keeper count at which it came. -/
structure TamperSet where
  source : BitVec 2
  ctx : Nat                        -- 0 BOOT, 1 RUN, 2 DORMANT
  slot : Option Nat := none
  period : Nat
  deriving DecidableEq, Repr

/-- A tamper response that runs: the setting it answers, when it began and the slots it erases. -/
structure TamperResp where
  what : TamperSet
  at_ : Nat
  erased : BitVec 8
  deriving DecidableEq, Repr

structure TamperSt where
  latched : Bool := false          -- VBAT-supplied cell (R570)
  source : BitVec 2 := 0
  owed : Option TamperSet := none  -- the latch has been set and its response has not begun
  resp : Option TamperResp := none
  level : Bool := false            -- the last reading was active
  seenOnce : Bool := false
  log : Vector (Option TamperEntry) 32 := Vector.replicate 32 none   -- Record
  seq : Nat := 0
  latches : Counter := {}
  deriving DecidableEq, Repr

structure GpioSt where
  filt : BitVec 8 := 0             -- filtered input levels
  edges : Counter := {}
  deriving DecidableEq, Repr

/-! ## Standing orders (21) -/

/-- What the running order waits for. -/
inductive Await
  | next                           -- takes its next line in a later cycle
  | ticket (n : Nat)
  | waitUntil (cyc : Nat)
  | waitClear (ev : Nat) (cyc : Nat)
  deriving DecidableEq, Repr

inductive OrderResult | done | fail | stopped | timeout
  deriving DecidableEq, Repr

/-- The running order (21_orders R544–R553). -/
structure Run where
  k : Nat
  slot : OrderSlot
  line : Nat := 0
  retriesUsed : Nat := 0
  errors : Nat := 0
  started : Option Nat := none     -- cycle in which line 0 of the first attempt was taken
  ready : Nat                      -- cycle from which the next line may be taken
  afterReady : Bool := false       -- triggered at LOGIC_RDY: waits for `+READY WAKE` (R546)
  await : Await := .next
  lastOk : Bool := true            -- outcome of the last line taken
  lastErr : Option (Nat × Nat) := none
  stopping : Option OrderResult := none
  runTicket : Option Nat := none
  deriving DecidableEq, Repr

/-- A pending trigger (R544). -/
structure PendingRun where
  k : Nat
  runTicket : Option Nat := none
  deriving DecidableEq, Repr

structure OrderLast where
  result : OrderResult
  line : Nat
  code : Nat
  errors : Nat
  deriving DecidableEq, Repr

/-- What the last line taken in an order's name was answered (R547). -/
inductive Said
  | nothing
  | ok
  | ticket (n : Nat)
  | er (e : Er)
  deriving DecidableEq, Repr

structure OrdersSt where
  slots : Vector (Option OrderSlot) 32 := Vector.replicate 32 none   -- the orders in force (R558)
  loaded : Bool := false           -- the ORDERS stage has run
  damaged : Word := 0
  draft : List String := []
  run : Option Run := none
  pending : List PendingRun := []
  next : Vector (Option Nat) 32 := Vector.replicate 32 none          -- next schedule times
  last : Vector (Option OrderLast) 32 := Vector.replicate 32 none
  runs : Counter := {}
  fails : Counter := {}
  missed : Counter := {}
  said : Said := .nothing
  checking : Option (Nat × Nat) := none      -- line i of n is being checked for ORDER STORE (R540)
  deriving DecidableEq, Repr

/-! ## Record, Stacks, Reading Room and the Porter (19) -/

/-- The partition of the Stacks (R501). -/
structure Part19 where
  kib : Nat
  pmax : Nat
  refuse : Bool
  deriving DecidableEq, Repr

/-- The addressed stores: host scratch, the Stacks and carrels 3–7, as cells with rising addresses, the partition and
the archive's pointers. -/
structure StoreSt where
  scratch : List Host.Cell := []   -- unlisted octets read 0
  shelf : List Host.Cell := []     -- Stacks offsets; unlisted octets are undefined
  shelfGone : List (Nat × Nat × Nat) := []   -- ranges of Stacks octets made undefined, the latest first, with the loss
  carrels : List Host.Cell := []   -- Porter addresses 0x18000–0x3FFFF; unlisted octets are undefined
  carrelGone : Vector Nat 8 := Vector.replicate 8 0   -- the last loss of each carrel
  part : Option Part19 := none     -- Record
  origin : Word := 0               -- Record
  first : Word := 1                -- Record
  next : Word := 1                 -- Record
  adds : Counter := {}
  wraps : Counter := {}
  checkFails : Counter := {}
  recovered : Counter := {}
  recordWrites : Counter := {}
  rowDefaults : BitVec 16 := 0
  rowRepaired : BitVec 16 := 0
  deriving DecidableEq, Repr

/-- A call slip as a channel has read it (R511). -/
structure Slip where
  next : Nat
  last : Bool
  src : Nat
  dst : Nat
  size : Nat                       -- 1, 2 or 4 octets
  shelf : Bool
  walkDst : Bool
  other : Int
  c0 : Nat
  c1 : Nat := 1
  c2 : Nat := 1
  s0 : Int
  s1 : Int := 0
  s2 : Int := 0
  list : Nat := 0
  n : Nat := 1
  scale : Nat := 1
  deriving DecidableEq, Repr

/-- A channel's run: its ticket, the slip it reads next or runs, and how far that slip has come. -/
structure PRun where
  ticket : Nat
  max : Nat
  at_ : Nat                        -- the address of the slip to fetch, or in progress
  slip : Option Slip := none       -- none: the slip at `at_` is to be fetched
  k0 : Nat := 0
  k1 : Nat := 0                    -- in SHELF mode the shelf-list entry
  k2 : Nat := 0
  off : Nat := 0                   -- the shelf-list entry read
  p : Nat := 0                     -- address of the side that is not walked
  fifo : Bool                      -- the block FIFO may be used (R521)
  input : Option (List Byte)
  output : List Byte := []
  deriving DecidableEq, Repr

/-- A Porter channel (Table 19.10). -/
structure Chan where
  run : Option PRun := none
  last : Nat := 0                  -- 0 none, 1 DONE, 2 FAIL, 3 CANCELLED
  why : Nat := 0
  pastEnd : Bool := false
  slips : Nat := 0
  slip : Nat := 0
  addr : Nat := 0
  elements : Nat := 0
  deriving DecidableEq, Repr

structure PorterSt where
  chans : Vector Chan 4 := Vector.replicate 4 {}
  turn : Nat := 3                  -- the channel whose element was moved last (R517)
  runs : Counter := {}
  faults : Counter := {}
  deriving DecidableEq, Repr

/-! ## Collators (20) -/

/-- A Collator (20_collators). -/
structure Collator where
  isOpen : Bool := false
  set : Nat := 0
  opened : Bool := false           -- it has been opened since reset
  reg : Nat := 0                   -- the working register r of R525
  value : Word := 0                -- the value frozen at the last close
  count : Nat := 0
  expect : Word := 0
  check : Bool := false
  last : Nat := 0                  -- 0 none, 1 match, 2 mismatch, 3 unchecked
  stages : List Nat := []          -- cycles left in the stage in progress and in the one waiting (R527)
  fed : Nat := 0                   -- octets fed by the running FEED ticket
  deriving DecidableEq, Repr

structure CollateSt where
  cols : Vector Collator 4 := Vector.replicate 4 {}
  mismatches : Counter := {}
  stray : Counter := {}
  deriving DecidableEq, Repr

/-! ## What the Record and the Catalogue hold (19 Table 19.2) -/

/-- The counters of config row 2. -/
structure RecCounters where
  borRun : Counter := {}
  borDormant : Counter := {}
  wakeLate : Counter := {}
  boots : Counter := {}
  recoveries : Counter := {}
  deriving DecidableEq, Repr

/-- What a drift row holds (10_daybook Table 10.2): its bins as errors and confidences, its sequence number and its
checkpoint. -/
structure DriftRow where
  bins : Vector (Int × Nat) 16 := Vector.replicate 16 (0, 0)
  seq : Nat := 0
  at_ : Ticks := 0
  deriving DecidableEq, Repr

/-- What the Record keeps twice, as the octets of the two copies; one torn or damaged is empty, which fails its check
(19 R496). -/
structure Copies where
  a : List Byte := []
  b : List Byte := []
  deriving DecidableEq, Repr

/-- The blank marker of a part as it leaves the factory (19 R496). -/
def blankRow : List Byte := List.replicate 64 0xFF

/-- The regions of the Record but the host scratch (Table 19.1), as their octets, with the Catalogue's rows of the
Stacks.  A row changes when its write starts.  Octets never written stand as an empty list. -/
structure Rec where
  -- config rows 0–15, event configuration (16), trim (17), tariffs (18), Vault control (19) and counters (20)
  twins : Vector Copies 21 := (Vector.replicate 21 {}).set 0 ⟨blankRow, blankRow⟩
  fcWarn : Word := 0xFFFF0000      -- kept with the counters, in octets that Table 18.2 does not name
  drift : Vector (List Byte) 4 := Vector.replicate 4 []
  journal : Vector (List Byte) 32 := Vector.replicate 32 []
  keys : Vector Copies 8 := Vector.replicate 8 {}          -- the halves of the key-slot rows
  tamperLog : Vector (List Byte) 32 := Vector.replicate 32 []
  orders : Vector (List Byte × List Byte) 32 := Vector.replicate 32 ([], [])   -- header and text of each slot
  cat : List CatEntry := []
  deriving DecidableEq, Repr

/-- What a row write of the Record or the Stacks leaves there once it starts (19_stacks_porter R495).  A two-copy row
without a valid copy is written twice, copy A and then copy B (R496). -/
inductive RowWhat
  | twin (i : Nat) (patch : List (Nat × List Byte))  -- octets of a two-copy row replaced (R496)
  | twinEnd (i : Nat) (second : Bool) (slot : List Byte)  -- the second row of a 128-octet slot (16_ledger R429)
  | mirror (i : Nat)               -- the copy that fails its check is rewritten from the other (R496)
  | counters (data : List Byte) (warn : Word)        -- the Vault's counter record, with VAULT_FC_WARN
  | drift (k : Nat) (row : List Byte)
  | journal (k : Nat) (row : List Byte)
  | key (k : Nat) (material : Option (List Byte))    -- a half of a key slot; none zeros both (18 R484)
  | tamperLog (k : Nat) (entry : List Byte)
  | cat (l : List CatEntry)        -- Catalogue entries (15_link R395)
  | scratch (at_ : Nat) (data : List Byte)
  | stacks (at_ : Nat) (data : List Byte)
  | order (k j : Nat) (row : List Byte)              -- row j of an order's slot (21_orders R537)
  | archFirst (n : Nat)
  | archNext (n : Nat)
  deriving DecidableEq, Repr

/-- A row write in progress or waiting to begin. -/
structure RowWrite where
  what : RowWhat
  journal : Bool := false          -- a ledger journal record (refuser code 12)
  last : Option Nat := none        -- the ticket that completes when this row is written
  deriving DecidableEq, Repr

/-! ## The whole state -/

/-- The block. -/
structure State where
  part : Part := .vg48
  cfg : Cfg := {}
  record : Rec := {}               -- the Record's regions and the Catalogue's rows
  sys : SysSt := {}
  pwr : PwrSt := {}
  pads : PadsSt := {}
  day : DaySt := {}
  desk : DeskSt := {}
  dport : PortSt := {}
  cport : PortSt := {}
  chute : ChuteTx := {}
  tickets : TicketsSt := {}
  events : EventsSt := {}
  orders : OrdersSt := {}
  store : StoreSt := {}
  porter : PorterSt := {}
  collate : CollateSt := {}
  radio : RadioSt := {}
  modem : ModemSt := {}
  census : CensusSt := {}
  frame : FrameSt := {}
  link : LinkSt := {}
  ledger : LedgerSt := {}
  trim : TrimSt := {}
  noise : NoiseSt := {}
  vault : VaultSt := {}
  ssw : SswSt := {}
  tamper : TamperSt := {}
  gpio : GpioSt := {}
  rows : List RowWrite := []       -- row writes, the one in progress first
  ed : Vector (BitVec 16) 22 := Vector.replicate 22 0
  drawn : Nat := 0                 -- how many free values have been drawn (the model's own)
  pending : List Instr := []
  deriving DecidableEq, Repr

/-- The part before any supply is applied, as it leaves the factory: the power-on detector holds it in reset. -/
def State.reset : State := {}

end Sys2Proof.Machine
end

