-- ==== Sys2Proof/Machine/Bits.lean ====
section
/-! DEFINITION. Bit fields, signed fields, roundings and vector access, shared by every unit. -/
namespace Sys2Proof.Machine

open Sys2Proof

/-- Bits hi–lo of a register as a number (05_register_file R115). -/
def fld (w : Word) (hi lo : Nat) : Nat := w.toNat / 2 ^ lo % 2 ^ (hi - lo + 1)

/-- One bit of a register. -/
def bit (w : Word) (i : Nat) : Bool := fld w i i = 1

/-- A register with bits hi–lo set to v. -/
def setFld (w : Word) (hi lo v : Nat) : Word :=
  w - BitVec.ofNat 32 (fld w hi lo * 2 ^ lo) + BitVec.ofNat 32 (v % 2 ^ (hi - lo + 1) * 2 ^ lo)

/-- A number read as a two's-complement number of `w` bits. -/
def signed (w n : Nat) : Int := if n % 2 ^ w < 2 ^ (w - 1) then (n % 2 ^ w : Nat) else (n % 2 ^ w : Nat) - (2 ^ w : Nat)

/-- The `w` bits of a signed number. -/
def unsigned (w : Nat) (v : Int) : Nat := (v % ((2 ^ w : Nat) : Int)).toNat

/-- A flag as a number. -/
def b2n (b : Bool) : Nat := if b then 1 else 0


/-- Division rounded to the nearest integer, halves upward (04_desk R87). -/
def roundUp (a b : Int) : Int := (2 * a + b) / (2 * b)

/-- Division by a positive number rounded to the nearest integer, halves away from zero (10_daybook R262). -/
def roundAway (a b : Int) : Int := if 0 ≤ a then (2 * a + b) / (2 * b) else -((2 * (-a) + b) / (2 * b))

/-- Division of naturals rounded up. -/
def ceilDiv' (a b : Nat) : Nat := (a + b - 1) / b

def vget {α : Type} {n : Nat} (v : Vector α n) (i : Nat) (d : α) : α := v[i]?.getD d

def vset {α : Type} {n : Nat} (v : Vector α n) (i : Nat) (x : α) : Vector α n := v.setIfInBounds i x

/-- Little-endian octets of a number (01_node R8). -/
def leBytes : Nat → Nat → List Byte
  | 0, _ => []
  | k + 1, n => BitVec.ofNat 8 n :: leBytes k (n / 256)

/-- The number whose little-endian octets are given. -/
def leNat : List Byte → Nat
  | [] => 0
  | b :: bs => b.toNat + 256 * leNat bs

/-- Most significant octet first. -/
def beBytes (k n : Nat) : List Byte := (leBytes k n).reverse

def beNat (l : List Byte) : Nat := leNat l.reverse

end Sys2Proof.Machine
end

