-- ==== Sys2Proof/Machine/Checks.lean ====
section
/-! DEFINITION. Check values (20_collators R524, R525), data whitening and the deep-reach coding chain (12_modem
R324–R327). -/
namespace Sys2Proof.Machine

open Sys2Proof

/-- A parameter set of Table 20.1. -/
structure CrcSet where
  name : String
  width : Nat
  poly : Nat
  init : Nat
  reflect : Bool
  xorOut : Nat
  deriving DecidableEq, Repr

def c8 : CrcSet := ⟨"C8", 8, 0x07, 0, false, 0⟩
def c16f : CrcSet := ⟨"C16F", 16, 0x1021, 0xFFFF, false, 0⟩
def c16k : CrcSet := ⟨"C16K", 16, 0x1021, 0, true, 0⟩
def c16m : CrcSet := ⟨"C16M", 16, 0x3D65, 0, false, 0xFFFF⟩
def c32 : CrcSet := ⟨"C32", 32, 0x04C11DB7, 0xFFFFFFFF, true, 0xFFFFFFFF⟩
def c32c : CrcSet := ⟨"C32C", 32, 0x1EDC6F41, 0xFFFFFFFF, true, 0xFFFFFFFF⟩

/-- The sets in code order. -/
def crcSets : List CrcSet := [c8, c16f, c16k, c16m, c32, c32c]

def crcSet (code : Nat) : CrcSet := crcSets.getD code c8

/-- The low `n` bits of a number in reverse order. -/
def revBits : Nat → Nat → Nat
  | 0, _ => 0
  | n + 1, v => v % 2 * 2 ^ n + revBits n (v / 2)

/-- One bit of the computation of R525. -/
def crcBit (c : CrcSet) (r : Nat) : Nat :=
  if 2 ^ (c.width - 1) ≤ r then ((2 * r) ^^^ c.poly) % 2 ^ c.width else 2 * r % 2 ^ c.width

/-- One octet of the computation of R525. -/
def crcOctet (c : CrcSet) (r : Nat) (b : Byte) : Nat :=
  let x := if c.reflect then revBits 8 b.toNat else b.toNat
  (List.range 8).foldl (fun r _ => crcBit c r) (r ^^^ (x * 2 ^ (c.width - 8)))

/-- The working register after a run of octets. -/
def crcRun (c : CrcSet) (r : Nat) (l : List Byte) : Nat := l.foldl (crcOctet c) r

/-- The value that a working register gives. -/
def crcValue (c : CrcSet) (r : Nat) : Nat := (if c.reflect then revBits c.width r else r) ^^^ c.xorOut

/-- The check value of a run of octets. -/
def crcOf (c : CrcSet) (l : List Byte) : Nat := crcValue c (crcRun c c.init l)

/-! ## Whitening (R324, R325): PN9 -/

/-- `n` bits of the PN9 sequence from a register of nine bits.  The polynomial x⁹ + x⁵ + 1 is IEEE 802.15.4's, which
R324 names and does not print: PRESUMED (log entry 20). -/
def pn9 : Nat → Nat → List Bool
  | 0, _ => []
  | n + 1, r =>
    let f := (r + r / 32) % 2
    decide (f = 1) :: pn9 n (r / 2 + f * 256)

/-- The bits of octets, most significant first. -/
def bitsOf (l : List Byte) : List Bool := l.flatMap (fun b => (List.range 8).map (fun i => b.getLsbD (7 - i)))

/-- Bits whitened from the register of all ones (R325); the same removes the whitening. -/
def whiten (l : List Bool) : List Bool := List.zipWith xor l (pn9 l.length 511)

/-- The number that bits spell, the first the most significant. -/
def bitsNat (l : List Bool) : Nat := l.foldl (fun n b => 2 * n + if b then 1 else 0) 0

/-- The octets that bits spell, most significant first, for at most `n` octets. -/
def bitOctets : Nat → List Bool → List Byte
  | 0, _ => []
  | n + 1, l => if l.isEmpty then [] else BitVec.ofNat 8 (bitsNat (l.take 8)) :: bitOctets n (l.drop 8)

/-- The bits of octets sent least significant first, as those of a PSDU are (IEEE 802.15.4-2020; log entry 20). -/
def bitsLow (l : List Byte) : List Bool := l.flatMap (fun b => (List.range 8).map (fun i => b.getLsbD i))

/-- A PSDU whitened, or its whitening removed (R324). -/
def whitenPsdu (l : List Byte) : List Byte :=
  (bitOctets l.length (whiten (bitsLow l))).map (fun b => BitVec.ofNat 8 (bitsNat ((List.range 8).map (fun i => b.getLsbD i))))

/-- Format D's decoded octets with their whitening removed (R325 step 2). -/
def dewhiten (l : List Byte) : List Byte := bitOctets l.length (whiten (bitsOf l))

/-! ## The convolutional code and the interleaver (R326, R327) -/

/-- The parity of the bits of a number below 2⁷. -/
def parity7 (x : Nat) : Bool := decide (((List.range 7).filter (fun i => x / 2 ^ i % 2 = 1)).length % 2 = 1)

/-- The coded bits of a run of input bits from the register of the six bits before it (R326). -/
def convEncode (reg : Nat) : List Bool → List Bool
  | [] => []
  | u :: us =>
    let x := (if u then 64 else 0) + reg
    parity7 (x &&& 0b1111001) :: parity7 (x &&& 0b1011011) :: convEncode (x / 2) us

/-- The coded bits of a run of input bits with its six tail bits (R325 step 3). -/
def dCoded (bits : List Bool) : List Bool := convEncode 0 (bits ++ List.replicate 6 false)

/-- One interleaved block of 128 bits (R327). -/
def interleave (c : List Bool) : List Bool := (List.range 128).map (fun t => c.getD (16 * (t % 8) + t / 8) false)

/-- Interleaver blocks of a padded run of bits, at most `n`. -/
def interleaveAll : Nat → List Bool → List Bool
  | 0, _ => []
  | n + 1, l => if l.isEmpty then [] else interleave (l.take 128) ++ interleaveAll n (l.drop 128)

/-- The symbols of the coded part of a format D frame (R325): header, payload and check, whitened, encoded with six
tail bits, padded, interleaved, each bit sent `r` times. -/
def dSymbols (r : Nat) (octets : List Byte) : List Bool :=
  let coded := dCoded (whiten (bitsOf octets))
  let padded := coded ++ List.replicate ((128 - coded.length % 128) % 128) false
  (interleaveAll (padded.length + 1) padded).flatMap (fun b => List.replicate r b)

/-- Coded bits of a frame with a payload of n octets, before padding (R325 step 3). -/
def dCodedBits (n : Nat) : Nat := 2 * (8 * (n + 6) + 6)

/-- Interleaver blocks of a frame with a payload of n octets (Table 12.3). -/
def dBlocks (n : Nat) : Nat := ceilDiv' (16 * (n + 6) + 12) 128

end Sys2Proof.Machine
end

