-- ==== Sys2Proof/Machine/Aes.lean ====
section
/-! DEFINITION. The AES-128 engine and what the device does with it (18_noise_vault R472, R480, R489, R491, R492):
the block cipher of FIPS 197, the key wrap of RFC 3394, CBC-MAC and CCM*.  The spec names these standards and does
not print them: PRESUMED from general knowledge (log entry 20).  Octets are numbers below 256 here. -/
namespace Sys2Proof.Machine

open Sys2Proof

/-- The S-box of FIPS 197, 32 octets a row, the first octet least significant. -/
def sboxRows : List Nat :=
  [0xc072a49cafa2d4adf04759fa7dc982ca76abd7fe2b670130c56f6bf27b777c63,
   0x75b227ebe28012079a059618c323c7041531d871f1e5a534ccf73f362693fdb7,
   0xcf584c4a39becb6a5bb1fc20ed00d153842fe329b3d63b52a05a6e1b1a2c8309,
   0xd2f3ff1021dab6bcf5389d928f40a351a89f3c507f02f94585334d43fbaaefd0,
   0xdb0b5ede14b8ee4688902a22dc4f816073195d643d7ea7c41744975fec130ccd,
   0x08ae7a65eaf4566ca94ed58d6d37c8e779e4959162acd3c25c2406490a3a32e0,
   0x9e1dc186b95735610ef6034866b53e708a8bbd4b1f74dde8c6b4a61c2e2578ba,
   0x16bb54b00f2d99416842e6bf0d89a18cdf2855cee9871e9b948ed9691198f8e1]

/-- Its inverse. -/
def invRows : List Nat :=
  [0xcbe9dec444438e3487ff2f9b8239e37cfbd7f3819ea340bf38a53630d56a0952,
   0x25d18b6d49a25b76b224d92866a12e084ec3fa420b954cee3d23c2a632947b54,
   0x849d8da75746155edab9edfd5048706c92b6655dcc5ca4d41698688664f6f872,
   0x6b8a130103bdafc1020f3fca8f1e2cd00645b3b80558e4f70ad3bc8c00abd890,
   0x6edf751ce837f9e28535ade72274ac9673e6b4f0cecff297eadc674f4111913a,
   0xf45acd78fec0db9a2079d2c64b3e56fc1bbe18aa0e62b76f89c5291d711af147,
   0xef9cc9939f7ae52d0d4ab519a97f51605fec8027591012b131c7078833a8dd1f,
   0x7d0c2155631469e126d677ba7e042b17619953833cbbebc8b0f52aae4d3be0a0]

/-- Octet `x` of a table of 256. -/
def boxAt (rows : List Nat) (x : Nat) : Nat := (rows.getD (x / 32) 0 >>> (8 * (x % 32))) % 256

def subByte (x : Nat) : Nat := boxAt sboxRows x
def invByte (x : Nat) : Nat := boxAt invRows x

/-- Multiplication by x in GF(2^8). -/
def xtime (b : Nat) : Nat := if b < 128 then 2 * b else (2 * b) ^^^ 0x11B

/-- Multiplication by a constant of four bits. -/
def gmul (c b : Nat) : Nat :=
  let b2 := xtime b
  let b4 := xtime b2
  let b8 := xtime b4
  (if c % 2 = 1 then b else 0) ^^^ (if c / 2 % 2 = 1 then b2 else 0) ^^^ (if c / 4 % 2 = 1 then b4 else 0) ^^^
    (if c / 8 % 2 = 1 then b8 else 0)

def xorL (a b : List Nat) : List Nat := List.zipWith (· ^^^ ·) a b

/-- The next four-octet words of the key schedule, newest first. -/
def keyWords : Nat → Nat → List (List Nat) → List (List Nat)
  | 0, _, ws => ws
  | n + 1, rcon, ws =>
    let prev := ws.headD []
    let old := ws.getD 3 []
    if ws.length % 4 = 0 then
      let rot := (prev.tail ++ prev.take 1).map subByte
      let t := match rot with | [] => [] | x :: xs => (x ^^^ rcon) :: xs
      keyWords n (xtime rcon) (xorL old t :: ws)
    else keyWords n rcon (xorL old prev :: ws)

def chunks4 : List Nat → List (List Nat)
  | a :: b :: c :: d :: r => [a, b, c, d] :: chunks4 r
  | _ => []

/-- The eleven round keys. -/
def roundKeys (key : List Nat) : List (List Nat) :=
  let ws := (keyWords 40 1 (chunks4 key).reverse).reverse
  (List.range 11).map (fun i => ((ws.drop (4 * i)).take 4).flatten)

def shiftIdx : List Nat := [0, 5, 10, 15, 4, 9, 14, 3, 8, 13, 2, 7, 12, 1, 6, 11]
def unshiftIdx : List Nat := [0, 13, 10, 7, 4, 1, 14, 11, 8, 5, 2, 15, 12, 9, 6, 3]
def permL (idx : List Nat) (l : List Nat) : List Nat := idx.map (fun i => l.getD i 0)

/-- One column times the circulant matrix whose first row is m0 m1 m2 m3. -/
def mixCol (m0 m1 m2 m3 : Nat) (c : List Nat) : List Nat :=
  match c with
  | [a, b, d, e] =>
    [gmul m0 a ^^^ gmul m1 b ^^^ gmul m2 d ^^^ gmul m3 e, gmul m3 a ^^^ gmul m0 b ^^^ gmul m1 d ^^^ gmul m2 e,
     gmul m2 a ^^^ gmul m3 b ^^^ gmul m0 d ^^^ gmul m1 e, gmul m1 a ^^^ gmul m2 b ^^^ gmul m3 d ^^^ gmul m0 e]
  | _ => []

def encRounds : List (List Nat) → List Nat → List Nat
  | [], x => x
  | [k], x => xorL (permL shiftIdx (x.map subByte)) k
  | k :: ks, x =>
    encRounds ks (xorL ((chunks4 (permL shiftIdx (x.map subByte))).flatMap (mixCol 2 3 1 1)) k)

def decRounds : List (List Nat) → List Nat → List Nat
  | [], x => x
  | [k], x => xorL ((permL unshiftIdx x).map invByte) k
  | k :: ks, x =>
    decRounds ks ((chunks4 (xorL ((permL unshiftIdx x).map invByte) k)).flatMap (mixCol 14 11 13 9))

/-- AES-128 encryption of one block. -/
def aesEnc (key x : List Nat) : List Nat :=
  match roundKeys key with
  | [] => x
  | k :: ks => encRounds ks (xorL x k)

/-- AES-128 decryption of one block. -/
def aesDec (key x : List Nat) : List Nat :=
  match (roundKeys key).reverse with
  | [] => x
  | k :: ks => decRounds ks (xorL x k)

/-- Octets of a number, most significant first. -/
def octN (k n : Nat) : List Nat := (beBytes k n).map (·.toNat)
def natN (l : List Nat) : Nat := l.foldl (fun a b => a * 256 + b) 0

def keyN (k : BitVec 128) : List Nat := octN 16 k.toNat

/-! ## Key wrap (RFC 3394), for a key of 16 octets -/

def wrapIv : List Nat := List.replicate 8 0xA6

/-- Steps t = 1 … 12 of the wrap: register A and the two halves. -/
def wrapSteps (kek : List Nat) : Nat → Nat → List Nat × List Nat × List Nat → List Nat × List Nat × List Nat
  | 0, _, x => x
  | n + 1, t, (a, r1, r2) =>
    let b := aesEnc kek (a ++ r1)
    wrapSteps kek n (t + 1) (xorL (b.take 8) (octN 8 t), r2, b.drop 8)

def keyWrap (kek key : List Nat) : List Nat :=
  let x := wrapSteps kek 12 1 (wrapIv, key.take 8, key.drop 8)
  x.1 ++ x.2.1 ++ x.2.2

def unwrapSteps (kek : List Nat) : Nat → Nat → List Nat × List Nat × List Nat → List Nat × List Nat × List Nat
  | 0, _, x => x
  | n + 1, t, (a, r1, r2) =>
    let b := aesDec kek (xorL a (octN 8 t) ++ r2)
    unwrapSteps kek n (t - 1) (b.take 8, b.drop 8, r1)

/-- The key, where the initial value checks. -/
def keyUnwrap (kek wrapped : List Nat) : Option (List Nat) :=
  let x := unwrapSteps kek 12 12 (wrapped.take 8, (wrapped.drop 8).take 8, wrapped.drop 16)
  if x.1 = wrapIv then some (x.2.1 ++ x.2.2) else none

/-! ## CCM* with a 13-octet nonce and a 2-octet length field (R492) -/

def pad16 (l : List Nat) : List Nat := l ++ List.replicate ((16 - l.length % 16) % 16) 0

/-- The blocks of 16 of a padded list, at most `n` of them. -/
def blocks16 : Nat → List Nat → List (List Nat)
  | 0, _ => []
  | n + 1, l => if l.isEmpty then [] else l.take 16 :: blocks16 n (l.drop 16)

def cbcMac (key : List Nat) (bs : List (List Nat)) : List Nat :=
  bs.foldl (fun x b => aesEnc key (xorL x b)) (List.replicate 16 0)

/-- MIC octets of a security level (R383). -/
def micLen (level : Nat) : Nat := if level = 5 then 4 else if level = 6 then 8 else 16

def ccmMac (key nonce aad msg : List Nat) (m : Nat) : List Nat :=
  let flags := (if aad.isEmpty then 0 else 64) + (m - 2) / 2 * 8 + 1
  let b0 := flags :: nonce ++ octN 2 msg.length
  let a := if aad.isEmpty then [] else pad16 (octN 2 aad.length ++ aad)
  let p := pad16 msg
  (cbcMac key (b0 :: (blocks16 (a.length + 1) a ++ blocks16 (p.length + 1) p))).take m

def ctrBlock (key nonce : List Nat) (i : Nat) : List Nat := aesEnc key (1 :: nonce ++ octN 2 i)

/-- The key stream applied to a message, counters from 1. -/
def ctrXor (key nonce : List Nat) : Nat → Nat → List Nat → List Nat
  | 0, _, _ => []
  | n + 1, i, l =>
    if l.isEmpty then [] else xorL (l.take 16) (ctrBlock key nonce i) ++ ctrXor key nonce n (i + 1) (l.drop 16)

/-- Ciphertext followed by the MIC. -/
def ccmEnc (key nonce aad msg : List Nat) (level : Nat) : List Nat :=
  let m := micLen level
  ctrXor key nonce (msg.length + 1) 1 msg ++ xorL (ccmMac key nonce aad msg m) (ctrBlock key nonce 0)

/-- The plaintext, where the MIC checks. -/
def ccmDec (key nonce aad data : List Nat) (level : Nat) : Option (List Nat) :=
  let m := micLen level
  let c := data.take (data.length - m)
  let p := ctrXor key nonce (c.length + 1) 1 c
  if xorL (ccmMac key nonce aad p m) (ctrBlock key nonce 0) = data.drop (data.length - m) then some p else none

def toN (l : List Byte) : List Nat := l.map (·.toNat)
def toB (l : List Nat) : List Byte := l.map (BitVec.ofNat 8)

/-- The key check value: three octets of the encryption of a zero block (R480). -/
def kcv (k : BitVec 128) : Nat := natN ((aesEnc (keyN k) (List.replicate 16 0)).take 3)

end Sys2Proof.Machine
end

