-- ==== Sys2Proof/Machine/Pads.lean ====
section
/-! DEFINITION. Which units a part has; what each output pad's function calls for, which pads are held through Dormant, and their release
(02_pins R30–R34, 09_dormant R252–R255, 22 R576, R577). -/
namespace Sys2Proof.Machine

open Sys2Proof

/-! ## Units present (00_scope R3–R6, 08_bringup R222) -/

/-- FEAT (00_scope Table 0.3). -/
def Part.feat : Part → Word
  | .vg48 => 0x7FF
  | .vg46 => 0x7ED
  | .vg44 => 0x4A8
  | .vg42 => 0

/-- The number in a part's name. -/
def Part.number : Part → Nat
  | .vg48 => 48
  | .vg46 => 46
  | .vg44 => 44
  | .vg42 => 42

/-- The bit of a unit in FEAT (00_scope Table 0.2). -/
def Feat.bit : Feat → Nat
  | .stacks => 0 | .stacks2m => 1 | .census => 2 | .deep => 3 | .paHp => 4 | .vault => 5 | .parent => 6
  | .ssw => 7 | .porter4 => 8 | .collate4 => 9 | .chute => 10

/-- The name of an absent unit in `ER ABSENT` (08_bringup Table 8.5). -/
def Feat.name : Feat → String
  | .stacks => "STACKS" | .stacks2m => "STACKS" | .census => "CENSUS" | .deep => "DEEP" | .paHp => "PA_HP"
  | .vault => "VAULT" | .parent => "PARENT" | .ssw => "SSW" | .porter4 => "PORTER" | .collate4 => "COLLATE"
  | .chute => "CHUTE"

def State.has (s : State) (f : Feat) : Bool := bit s.part.feat f.bit

/-! ## The functions of the pads -/

/-- The configuration of GPIO_n. -/
def State.gpioCfg (s : State) (n : Nat) : Word := vget s.cfg.pins.gpio n 0

/-- Its function (22 Table 22.5). -/
def State.gpioFn (s : State) (n : Nat) : Nat := fld (s.gpioCfg n) 2 0

/-- In Boot the general pins are inputs, whatever the Record's settings call for (Table 2.2). -/
def State.inBoot (s : State) : Bool := decide (s.sys.stage ≠ .ready)

/-- The level that GPIO_n's function calls for; an input shows the level applied to it. -/
def State.gpioWant (s : State) (n : Nat) : Bool :=
  let inv := bit (s.gpioCfg n) 12
  if s.inBoot then s.pads.gpioIn.getLsbD n
  else
    match s.gpioFn n with
    | 1 => bit s.cfg.pins.gpioOut n
    | 2 => xor s.pads.antA inv
    | 3 => xor s.pads.antB inv
    | 4 => xor (s.events.pend.getLsbD (fld (s.gpioCfg n) 22 16)) inv
    | 5 => bit s.cfg.pins.gpioOut n
    | 6 => xor (decide (s.radio.lna = 0)) inv
    | _ => s.pads.gpioIn.getLsbD n

/-- Whether the switch is closed. -/
def State.sswClosed (s : State) : Bool := decide (s.ssw.st = .on) || decide (s.ssw.st = .ramp)

/-- What the function of a pad calls for; pads are numbered as the bits of SYS_PAD_HELD (02 Table 2.9). -/
def State.padWant (s : State) (i : Nat) : Bool :=
  if i < 8 then s.gpioWant i
  else if i = 8 then s.pads.antA
  else if i = 9 then s.pads.antB
  else if i = 10 then s.pads.paEn
  else if i = 13 then s.dport.busy || !s.sys.bootSent
  else if i = 23 then s.sswClosed
  else false

/-- The pads that Dormant can hold. -/
def heldPads : List Nat := [0, 1, 2, 3, 4, 5, 6, 7, 8, 9, 10, 13, 17, 23]

/-- A mask of pads that satisfy a condition. -/
def padMask (p : Nat → Bool) : Word := BitVec.ofNat 32 ((heldPads.filter p).map (fun i => 2 ^ i)).sum

/-- The pad belongs to a unit that the part has: CHUTE_SDO and the switch are no-connects without theirs (R15). -/
def State.padPresent (s : State) (i : Nat) : Bool :=
  if i = 17 then s.has .chute else if i = 23 then s.has .ssw else true

/-- A quiet wake listens: the antenna controls, PA_EN and the GPIO copies of the antenna controls and of the LNA bypass
follow the radio, held or not (09 R245). -/
def State.sniffs (s : State) (i : Nat) : Bool :=
  decide (s.pwr.state = .wake 3 true) &&
    (i == 8 || i == 9 || i == 10 || (decide (i < 8) && [2, 3, 6].contains (s.gpioFn i)))

/-- The pad's level: the held one while it is held. -/
def State.padLevel (s : State) (i : Nat) : Bool :=
  if bit s.pads.held i && !s.sniffs i then bit s.pads.heldLevel i else s.padWant i

/-- The drive code that SYS_PAD_DRIVE gives a pad's group (Table 2.10). -/
def State.driveCode (s : State) (i : Nat) : Nat :=
  let d := s.cfg.sys.padDrive
  if i < 8 then fld d 5 4 else if i = 8 ∨ i = 9 ∨ i = 10 then fld d 3 2
  else if i = 12 ∨ i = 13 ∨ i = 17 ∨ i = 19 then fld d 1 0 else 0

/-- The drive strength in force at a pad, as a code of SYS_PAD_DRIVE: a held pad keeps the one it was latched with, and
takes a written one when it is released (R34, 09 R252). -/
def State.padDrive (s : State) (i : Nat) : Nat :=
  if bit s.pads.held i then vget s.pads.heldDrive i 0 else s.driveCode i

/-- The pads given are released. -/
def State.release (s : State) (m : Word) : State :=
  { s with pads := { s.pads with held := s.pads.held &&& ~~~m, heldDev := s.pads.heldDev &&& ~~~m } }

/-- A quiet wake is in progress: no pad is released in it (09 R245). -/
def State.quiet (s : State) : Bool :=
  match s.pwr.state with
  | .wake _ true => true
  | .entry _ true => true
  | _ => false

/-- Device-held pads whose function calls for another level are released (09 R253). -/
def State.padFollow (s : State) : State :=
  if s.pads.heldDev = 0 || s.quiet || decide (s.pwr.state = .dormant) then s
  else s.release (padMask (fun i => bit s.pads.heldDev i && (s.padWant i != bit s.pads.heldLevel i)))

/-- The pads of 09 Table 9.5 that entry holds, and those of them in the device-held class. -/
def State.holdMasks (s : State) : Word × Word :=
  let dev := padMask (fun i => s.padPresent i && ((i < 8 && decide (2 ≤ s.gpioFn i)) || i == 8 || i == 9 || i == 10 || i == 23))
  let host := padMask (fun i => s.padPresent i && ((i < 8 && decide (s.gpioFn i = 1)) || i == 13 || i == 17))
  (dev ||| host, dev)

/-- The pads are latched at 100 µs of entry, each in the class that its configuration gives it in that cycle (09 R252).
A pad still held from an earlier entry stays held, with the level and the drive that it has (09 R254). -/
def State.latchPads (s : State) : State :=
  let m := s.holdMasks
  { s with pads := { s.pads with held := m.1 ||| s.pads.held, heldDev := m.2, heldLevel := padMask s.padLevel,
                                 heldDrive := Vector.ofFn (fun i => s.padDrive i.val) } }

end Sys2Proof.Machine
end

