-- ==== Sys2Proof/Machine/Flags.lean ====
section
/-! DEFINITION. The counter model, the editions, the clock, and the pending bits and the attention line. -/
namespace Sys2Proof.Machine

open Sys2Proof

/-! ## Counters (05_register_file R128–R132) -/

/-- The counter after an increment in a cycle. -/
def Counter.add (c : Counter) (n : Nat) : Counter :=
  { val := c.val + BitVec.ofNat 32 n, wrap := c.wrap || decide (2 ^ 32 ≤ c.val.toNat + n) }

/-- One more. -/
def Counter.inc (c : Counter) : Counter := c.add 1

/-- One more when the condition holds. -/
def Counter.incIf (c : Counter) (b : Bool) : Counter := if b then c.inc else c

/-- The counter after a host write, with the increment of the same cycle (R131, R132). -/
def Counter.write (v : Word) (n : Nat) : Counter :=
  { val := v + BitVec.ofNat 32 n, wrap := decide (2 ^ 32 ≤ v.toNat + n) }

/-! ## Editions (06_tickets R178) -/

/-- A unit's index in 06_tickets Table 6.4. -/
def EdUnit.index : EdUnit → Nat
  | .sys => 0 | .pwr => 1 | .daybook => 2 | .radio => 3 | .modem => 4 | .census => 5 | .frame => 6 | .link => 7
  | .ledger => 8 | .trim => 9 | .noise => 10 | .vault => 11 | .stacks => 12 | .porter => 13 | .collate => 14
  | .orders => 15 | .ssw => 16 | .tamper => 17 | .gpio => 18 | .events => 19 | .desk => 20 | .chute => 21

def EdUnit.all : List EdUnit :=
  [.sys, .pwr, .daybook, .radio, .modem, .census, .frame, .link, .ledger, .trim, .noise, .vault, .stacks, .porter,
   .collate, .orders, .ssw, .tamper, .gpio, .events, .desk, .chute]

def EdUnit.name : EdUnit → String
  | .sys => "SYS" | .pwr => "PWR" | .daybook => "DAYBOOK" | .radio => "RADIO" | .modem => "MODEM"
  | .census => "CENSUS" | .frame => "FRAME" | .link => "LINK" | .ledger => "LEDGER" | .trim => "TRIM"
  | .noise => "NOISE" | .vault => "VAULT" | .stacks => "STACKS" | .porter => "PORTER" | .collate => "COLLATE"
  | .orders => "ORDERS" | .ssw => "SSW" | .tamper => "TAMPER" | .gpio => "GPIO" | .events => "EVENTS"
  | .desk => "DESK" | .chute => "CHUTE"

/-- The FEAT bit that a whole unit needs, for the editions of absent units (06_tickets R163, R184). -/
def EdUnit.feat : EdUnit → Option Feat
  | .census => some .census
  | .vault => some .vault
  | .ssw => some .ssw
  | .chute => some .chute
  | _ => none

def State.edition (s : State) (u : EdUnit) : BitVec 16 := vget s.ed u.index 0

/-- The unit's edition increases by one. -/
def State.bump (s : State) (u : EdUnit) : State := { s with ed := vset s.ed u.index (s.edition u + 1) }

/-! ## Time -/

/-- Ticks in a millisecond and a microsecond (SCLK 19.2 MHz: 01_node R11). -/
def tickMs : Nat := 19200

/-- Ticks of `n` microseconds, rounded (04_desk R87). -/
def tickUs (n : Nat) : Nat := (roundUp (n * 96) 5).toNat

/-- Microseconds of `n` ticks, rounded. -/
def usOf (n : Nat) : Nat := (roundUp (n * 5) 96).toNat

/-- The Daybook as a number. -/
def State.now (s : State) : Nat := s.day.now.toNat

/-- The time that durations are measured in (05 R147): SCLK cycles, with what passed while the device slept. -/
def State.elapsed (s : State) : Nat := s.day.cyc + s.day.slept

/-- The device is in Run: READY reached, no reset held, and not in Dormant, entry or a wake. -/
def State.inRun (s : State) : Bool :=
  decide (s.sys.hold = .none) && decide (s.sys.stage = .ready) && !s.sys.testMode &&
    (decide (s.pwr.state = .run) || decide (s.pwr.state = .entryWait))

/-- Tickets, alarms and events are served: in Run, and in a full wake from LOGIC_RDY (09_dormant Table 9.4). -/
def State.awake (s : State) : Bool := s.inRun || decide (s.pwr.state = .wake 3 false)

/-- The device is in bring-up. -/
def State.booting (s : State) : Bool :=
  decide (s.sys.hold = .none) && !decide (s.sys.stage = .ready) && !s.sys.testMode

/-- The device drives CHUTE_SDO: while CHUTE_CS is low, from the end of the POWER stage, unless the pad is held or the
part's digital supply, test state or VDDIO leaves it undriven (R79, R109, 03 R43). -/
def State.sdoDriven (s : State) : Bool :=
  s.has .chute && !s.pads.chuteCs && s.pwr.vddioOk && decide (s.sys.hold = .none) && decide (s.sys.stage ≠ .power) &&
    !s.sys.testMode && !bit s.pads.held 17 && decide (s.pwr.state ≠ .dormant)

/-! ## Pending bits and masks (07_events) -/

/-- Events of 07_events Table 7.1: system, supply and Dormant. -/
def eventsLow : List (Nat × String × Option Feat) :=
  [(0, "EV_BOOT", none), (1, "EV_WAKE", none), (2, "EV_RECORD_REPAIR", none), (3, "EV_RECORD_FAIL", none),
   (4, "EV_WAKE_IN", none), (16, "EV_VBAT_LOW", none), (17, "EV_VDDPA_LOW", some .paHp),
   (18, "EV_DORM_REFUSED", none), (19, "EV_CARREL_LOST", none), (20, "EV_KEEPER_STOP", none)]

/-- Events of 07_events Table 7.1: radio and link. -/
def eventsAir : List (Nat × String × Option Feat) :=
  [(32, "EV_SYNTH_UNLOCK", none), (33, "EV_RX_SYNC", none), (34, "EV_AFC_LIMIT", none),
   (35, "EV_WAKE_PATTERN", none), (36, "EV_CCA_BUSY", none), (37, "EV_CENSUS_HOP", some .census),
   (38, "EV_CENSUS_SCAN", some .census), (39, "EV_CENSUS_LEVEL", some .census),
   (48, "EV_RX_FRAME", none), (49, "EV_RX_RING_FULL", none), (50, "EV_FILTER_DROP", none), (51, "EV_ASSOC", none),
   (52, "EV_DISASSOC", none), (53, "EV_CHILD_JOIN", some .parent), (54, "EV_CHILD_LEAVE", some .parent),
   (55, "EV_ADDR_POOL_EMPTY", some .parent), (56, "EV_EXCHANGE_LAPSE", some .parent), (57, "EV_PENDING_DATA", none),
   (58, "EV_SEC_FAIL", some .vault), (59, "EV_FRAME_COUNTER", some .vault)]

/-- Events of 07_events Table 7.1: Ledger, trim, noise and Vault. -/
def eventsMid : List (Nat × String × Option Feat) :=
  [(64, "EV_LEDGER_LOW", none), (65, "EV_OVERBUDGET", none), (66, "EV_ACK_RESERVE", none),
   (67, "EV_TARIFF_CHANGE", none), (68, "EV_INTERVAL_OPEN", none), (69, "EV_LEDGER_RECOVERED", none),
   (72, "EV_TRIM_DONE", none), (73, "EV_TRIM_DISAGREE", none), (74, "EV_TRIM_CONTAMINATED", none),
   (75, "EV_CENSUS_STALE", some .census), (80, "EV_NOISE_FAIL", none), (81, "EV_NOISE_RAW", none),
   (82, "EV_DRBG_RESEED", some .vault), (83, "EV_VAULT_ERASED", some .vault), (84, "EV_VAULT_SEALED", some .vault),
   (85, "EV_UNWRAP_FAIL", some .vault)]

/-- Events of 07_events Table 7.1: tamper, pins, Porter and Collators. -/
def eventsUnits : List (Nat × String × Option Feat) :=
  [(88, "EV_TAMPER", none), (89, "EV_TAMPER_LOG_WRAP", none), (90, "EV_SSW_SHORT", some .ssw),
   (91, "EV_SSW_OVERLOAD", some .ssw), (92, "EV_SSW_THERMAL", some .ssw), (93, "EV_SSW_READY", some .ssw),
   (94, "EV_GPIO_EDGE", none), (96, "EV_PORTER_0_DONE", none), (97, "EV_PORTER_1_DONE", none),
   (98, "EV_PORTER_2_DONE", some .porter4), (99, "EV_PORTER_3_DONE", some .porter4),
   (100, "EV_PORTER_0_ERROR", none), (101, "EV_PORTER_1_ERROR", none), (102, "EV_PORTER_2_ERROR", some .porter4),
   (103, "EV_PORTER_3_ERROR", some .porter4), (104, "EV_COLLATE_0_MISMATCH", none),
   (105, "EV_COLLATE_1_MISMATCH", none), (106, "EV_COLLATE_2_MISMATCH", some .collate4),
   (107, "EV_COLLATE_3_MISMATCH", some .collate4)]

/-- Events of 07_events Table 7.1: orders, tickets and ports. -/
def eventsHigh : List (Nat × String × Option Feat) :=
  [(112, "EV_ORDER_DONE", none), (113, "EV_ORDER_FAIL", none), (114, "EV_ORDER_MISSED", none),
   (115, "EV_SIGNAL_0", none), (116, "EV_SIGNAL_1", none), (117, "EV_SIGNAL_2", none), (118, "EV_SIGNAL_3", none),
   (119, "EV_SIGNAL_4", none), (120, "EV_TICKET_DONE", none), (121, "EV_TICKET_FAIL", none),
   (122, "EV_POOL_LOW", none), (123, "EV_NOTICKET", none), (124, "EV_INPUT_OVERRUN", none),
   (125, "EV_CHUTE_OUT", some .chute), (126, "EV_CHECK_FAIL", none), (127, "EV_LINE_DROPPED", none)]

/-- Names and FEAT needs of the events (07_events Table 7.1); a number not listed is reserved. -/
def eventTable : List (Nat × String × Option Feat) :=
  List.flatten [eventsLow, eventsAir, eventsMid, eventsUnits, eventsHigh]

/-- The events of kind C (07_events Table 7.1). -/
def kindC (n : Nat) : Bool := [20, 55, 65, 75, 80, 88, 90, 91, 92].contains n

def eventName (n : Nat) : String := ((eventTable.find? (fun e => e.1 == n)).map (fun e => e.2.1)).getD ""

/-- The event number is defined in the family (not reserved). -/
def eventDefined (n : Nat) : Bool := eventTable.any (fun e => e.1 == n)

/-- The FEAT bit an event needs. -/
def eventFeat (n : Nat) : Option Feat := (eventTable.find? (fun e => e.1 == n)).bind (fun e => e.2.2)

/-- The event exists in this variant. -/
def State.eventPresent (s : State) (n : Nat) : Bool :=
  eventDefined n && (match eventFeat n with | none => true | some f => s.has f)

/-- Bit masks of the family's defined events and of the events present (R187, R201). -/
def definedMask : BitVec 128 := eventTable.foldl (fun m e => m ||| (1 <<< e.1)) 0

def State.presentMask (s : State) : BitVec 128 :=
  eventTable.foldl (fun m e => if s.eventPresent e.1 then m ||| (1 <<< e.1) else m) 0

/-- Number of bits set. -/
def popCount {w : Nat} (v : BitVec w) : Nat := ((List.range w).filter (fun i => v.getLsbD i)).length

/-- Dormant, and every wake until the LOGIC_RDY of a full wake (R192). -/
def State.asleep (s : State) : Bool :=
  match s.pwr.state with
  | .dormant => true
  | .wake n q => q || decide (n ≠ 3)
  | _ => false

/-- VDDIO is low while the device sleeps: ATTN is released (02_pins R17). -/
def State.attnDark (s : State) : Bool := s.asleep && !s.pwr.vddioOk

/-- ATTN follows the Run rule of R192: in Run, until the end of an entry, and from the LOGIC_RDY of a full wake. -/
def State.attnRun (s : State) : Bool :=
  s.awake || (match s.pwr.state with | .entry _ false => true | _ => false)

/-- The condition of 07_events R192 in the present power state.  DESIGN CHOICE (log entry 37): in bring-up, from the
load of the RECORD stage to READY, of which R192 does not speak, wake_en alone counts. -/
def State.attnWanted (s : State) : Bool :=
  if s.attnDark then false
  else if s.attnRun then (s.events.pend &&& (s.cfg.events.attn ||| s.cfg.events.wake)) != 0
  else (s.events.pend &&& s.cfg.events.wake) != 0

/-- The minimum width of an ATTN assertion that begins now, in whole cycles that last at least min_us (R193). -/
def State.attnMin (s : State) : Nat := ceilDiv' (fld s.cfg.events.attnCfg 15 8 * 96) 5

/-- ATTN follows the condition of R192, held to the minimum width that stood when it was asserted (R193, R206) unless
VDDIO is low (02_pins R17), and an assertion with a cause that has wake_en counts in EVENTS_HOST_WAKES (R194).  Event
outputs on pins follow the pending bits with it. -/
def State.attnFollow (s0 : State) : State :=
  let s := s0.padFollow
  if s.attnWanted then
    if s.events.attn then s
    else
      let wakes := (s.events.pend &&& s.cfg.events.wake) != 0
      { s with events := { s.events with attn := true, attnUntil := s.day.cyc + s.attnMin,
                                         hostWakes := if wakes then s.events.hostWakes.inc else s.events.hostWakes } }
  else if s.events.attn && (s.attnDark || decide (s.events.attnUntil ≤ s.day.cyc)) then
    { s with events := { s.events with attn := false } }
  else s

/-- Pending bits after a clear of `m` (R188, R191): a kind-C bit whose condition holds stays. -/
def State.clearPend (s : State) (m : BitVec 128) : State :=
  ({ s with events := { s.events with pend := s.events.pend &&& ~~~(m &&& ~~~s.events.cond) } }).attnFollow

end Sys2Proof.Machine
end

