-- ==== Sys2Proof/Machine/Record.lean ====
section
/-! DEFINITION. The Record's rows as octets (19_stacks_porter R495–R497): the two copies and their sequence numbers, and
what each region holds — configuration, trim slots (17 R458), tariff table and journal (16 R429, R444), the Vault's region
(18 R483), tamper log (22 R575) and order slots (21 R537). -/
namespace Sys2Proof.Machine

open Sys2Proof

/-! ## Octets -/

/-- Octets replaced from an offset on. -/
def overlay (l : List Byte) (at_ : Nat) (o : List Byte) : List Byte := l.take at_ ++ o ++ l.drop (at_ + o.length)

def zeros (n : Nat) : List Byte := List.replicate n 0

/-- `n` octets from an offset, as a number stored least significant octet first (00_scope R8). -/
def numAt (l : List Byte) (at_ n : Nat) : Nat := leNat ((l.drop at_).take n)

def octetAt (l : List Byte) (i : Nat) : Nat := (l.getD i 0).toNat

/-- Octets made up to a length with zeros. -/
def padTo (n : Nat) (l : List Byte) : List Byte := l ++ zeros (n - l.length)

/-- A sequence number is later than another, modulo 2^w within a half-range. -/
def laterSeq (w a b : Nat) : Bool :=
  let d := (a + 2 ^ w - b) % 2 ^ w
  decide (0 < d) && decide (d < 2 ^ (w - 1))

def seqLater (a b : Nat) : Bool := laterSeq 32 a b

/-! ## Two copies (R496) -/

/-- The octets of a copy, where its sequence number stands, and where the CRC-32C of all that precedes it: the layout of
R496, but for the tariff slots (16_ledger R429) and the Vault's records (18 Table 18.2). -/
def twinSize (i : Nat) : Nat := if i = 18 then 128 else 64
def twinSeqAt (i : Nat) : Nat := if i = 18 then 64 else if i = 19 then 4 else if i = 20 then 28 else 56
def twinCheckAt (i : Nat) : Nat := if i = 18 then 68 else 60

/-- A copy with its sequence number and its check. -/
def sealCopy (i seq : Nat) (l : List Byte) : List Byte :=
  let x := overlay l (twinSeqAt i) (leBytes 4 seq)
  overlay x (twinCheckAt i) (leBytes 4 (crcOf c32c (x.take (twinCheckAt i))))

/-- The sequence number of a valid copy. -/
def copySeq (i : Nat) (l : List Byte) : Option Nat :=
  if l.length = twinSize i && numAt l (twinCheckAt i) 4 == crcOf c32c (l.take (twinCheckAt i)) then
    some (numAt l (twinSeqAt i) 4)
  else none

def Copies.get (c : Copies) (second : Bool) : List Byte := if second then c.b else c.a
def Copies.put (c : Copies) (second : Bool) (l : List Byte) : Copies := if second then { c with b := l } else { c with a := l }

/-- Which copy is the valid one with the later sequence number (true: copy B), and that number. -/
def Copies.latest (i : Nat) (c : Copies) : Option (Bool × Nat) :=
  match copySeq i c.a, copySeq i c.b with
  | some x, some y => if seqLater y x then some (true, y) else some (false, x)
  | some x, none => some (false, x)
  | none, some y => some (true, y)
  | none, none => none

/-- The octets of that copy. -/
def Copies.data (i : Nat) (c : Copies) : Option (List Byte) := (c.latest i).map (fun x => c.get x.1)

/-- One copy alone is valid. -/
def Copies.half (i : Nat) (c : Copies) : Bool := (copySeq i c.a).isSome != (copySeq i c.b).isSome

def State.twin (s : State) (i : Nat) : Copies := vget s.record.twins i {}

def State.setTwin (s : State) (i : Nat) (c : Copies) : State :=
  { s with record := { s.record with twins := vset s.record.twins i c } }

/-! ## Configuration rows (Table 19.2, R497) -/

/-- The configuration of a new part: DORM_CONFIG without a Chute, and the line masks of the events present (08_bringup
Table 8.4). -/
def State.newCfg (s : State) : Cfg :=
  let c : Cfg := {}
  let dorm : Word := if s.has .chute then c.sys.dorm else 0x190
  { c with sys := { c.sys with dorm := dorm }, events := { c.events with line := c.events.line &&& s.presentMask } }

/-- The registers of a row in the order of Table 19.2, one word each; row 16 is that of the event configuration. -/
def twinRegs (i : Nat) : List CfgReg :=
  match i with
  | 1 => [.desk, .chute, .padDrive, .vbatWarn, .ticketsLow, .dorm, .dayRef, .ledger]
  | 3 => [.chan, .txConfig, .antMap, .rxConfig, .hpConfig, .ccaConfig, .ccaThr]
  | 4 => (List.range 4).flatMap (fun p => [.planBase p, .planCtrl p])
  | 5 => [.profile, .sync, .deep, .frame, .filter, .addr]
  | 6 => [.census, .allow, .thresh, .hold]
  | 7 => [.link, .timing, .wait, .pollEvery, .pollPhase, .sniffEvery, .sniffPhase]
  | 9 => [.pool, .catConfig]
  | 12 => [.ssw, .tamper] ++ (List.range 8).map .gpio ++ [.gpioOut]
  | 16 => (List.range 4).map .attnEn ++ (List.range 4).map .lineEn ++ (List.range 4).map .wakeEn ++ [.attnCfg]
  | _ => []

/-- The rows that hold registers. -/
def cfgTwins : List Nat := [1, 3, 4, 5, 6, 7, 9, 12, 16]

/-- Words as the octets of a row. -/
def wordOctets (l : List Word) : List Byte := l.flatMap (fun v => leBytes 4 v.toNat)

/-! ## Trim slots (17 Table 17.3) -/

def iqOctets (x : Nat × Nat × Nat × Nat) : List Byte := leBytes 1 (x.2.1 * 16 + x.1) ++ leBytes 1 (x.2.2.2 * 16 + x.2.2.1)

def TrimSel.body (t : TrimSel) : List Byte :=
  leBytes 1 (t.adcQ * 4 + t.adcI) ++ leBytes 1 t.filt ++ leBytes 2 (unsigned 16 t.dcI) ++ leBytes 2 (unsigned 16 t.dcQ) ++
    t.iq.toList.flatMap iqOctets ++ leBytes 4 ((t.ceq.toList.zipIdx).foldl (fun a c => a + c.1 * 4 ^ c.2) 0) ++
    leBytes 1 t.source.toNat

/-- The selections of a slot.  It keeps no image estimate, so that a bring-up leaves the estimates 0. -/
def trimOf (l : List Byte) : TrimSel :=
  let hi (i : Nat) : Nat := octetAt l i / 16
  let lo (i : Nat) : Nat := octetAt l i % 16
  { adcI := octetAt l 0 % 4, adcQ := octetAt l 0 / 4 % 4, filt := octetAt l 1 % 64, dcI := signed 16 (numAt l 2 2),
    dcQ := signed 16 (numAt l 4 2),
    iq := Vector.ofFn (fun b => (lo (6 + 2 * b.val), hi (6 + 2 * b.val), lo (7 + 2 * b.val), hi (7 + 2 * b.val))),
    ceq := Vector.ofFn (fun k => numAt l 12 4 / 4 ^ k.val % 4), source := BitVec.ofNat 7 (octetAt l 16) }

/-! ## Tariff table (16 R429) -/

def tariffEntry : Option Tariff → List Byte
  | some t => leBytes 2 t.budget ++ leBytes 2 t.interval ++ [1, 0, 0, 0]
  | none => zeros 8

def tariffBody (v : Vector (Option Tariff) 8) : List Byte := v.toList.flatMap tariffEntry

def tariffsOf (l : List Byte) : Vector (Option Tariff) 8 :=
  Vector.ofFn (fun k => if octetAt l (8 * k.val + 4) = 1 then some ⟨numAt l (8 * k.val) 2, numAt l (8 * k.val + 2) 2⟩ else none)

/-- The tariff of a first boot, which also stands in for an active tariff that the table does not hold. -/
def tariff0 : Tariff := ⟨100, 3600⟩

/-- The tariff table of a new part: tariff 0 alone is valid (16 R428). -/
def newTariffs : Vector (Option Tariff) 8 := vset (Vector.replicate 8 none) 0 (some tariff0)

/-! ## The other config rows -/

/-- Row 2: five counters and their WRAP bits. -/
def counterRow (c : RecCounters) : List Byte :=
  let l := [c.borRun, c.borDormant, c.wakeLate, c.boots, c.recoveries]
  wordOctets (l.map (·.val)) ++ leBytes 4 ((l.zipIdx).foldl (fun a x => a + b2n x.1.wrap * 2 ^ x.2) 0)

def countersOf (l : List Byte) : RecCounters :=
  let c (k : Nat) : Counter := { val := BitVec.ofNat 32 (numAt l (4 * k) 4), wrap := (numAt l 20 4).testBit k }
  { borRun := c 0, borDormant := c 1, wakeLate := c 2, boots := c 3, recoveries := c 4 }

/-- Row 8 behind the role: the association. -/
def assocRow : Option Assoc → List Byte
  | some a => [1, 0, 0] ++ leBytes 2 a.pan.toNat ++ leBytes 2 a.parent.toNat ++ leBytes 2 a.own.toNat ++ leBytes 8 a.eui.toNat
  | none => zeros 17

def assocOf (l : List Byte) : Option Assoc :=
  if octetAt l 1 = 1 then
    some { pan := BitVec.ofNat 16 (numAt l 4 2), parent := BitVec.ofNat 16 (numAt l 6 2), own := BitVec.ofNat 16 (numAt l 8 2),
           eui := BitVec.ofNat 64 (numAt l 10 8) }
  else none

/-- Row 10: the partition. -/
def partRow (p : Option Part19) (origin : Word) : List Byte :=
  (match p with | some x => leBytes 2 x.kib ++ leBytes 1 x.pmax ++ leBytes 1 (b2n x.refuse) | none => zeros 4) ++
    leBytes 4 origin.toNat

def partOf (l : List Byte) : Option Part19 :=
  if numAt l 0 2 = 0 then none else some ⟨numAt l 0 2, octetAt l 2, octetAt l 3 = 1⟩

/-- Row 0: the marker of a part that has booted. -/
def markerRow : List Byte := [0x53, 0x57, 0x44, 0x52, 1]

/-! ## The Vault's region (18 Tables 18.2, 18.3) -/

def controlRow (sealed : Bool) (mask : BitVec 8) : List Byte := [if sealed then 0x5A else 0, mask]

def fcRow (fc : Vector Word 8) (fcIn : Word) : List Byte := wordOctets ((fc.toList.drop 2) ++ [fcIn])

def fcOf (l : List Byte) : Vector Word 8 :=
  Vector.ofFn (fun k => if k.val < 2 then 0 else BitVec.ofNat 32 (numAt l (4 * (k.val - 2)) 4))

/-- The first eight octets of an all-zero block under a key. -/
def keyMark (key : BitVec 128) : List Byte := toB ((aesEnc (keyN key) (List.replicate 16 0)).take 8)

/-- The material of a slot: slot 0 under the device secret, the others wrapped under slot 0's key. -/
def keyMaterial (kek : Option (BitVec 128)) (k : Nat) (key : BitVec 128) : List Byte :=
  if k = 0 then beBytes 16 (key ^^^ Config.deviceSecret).toNat ++ keyMark key
  else toB (keyWrap (keyN (kek.getD 0)) (keyN key))

/-- The key of a half whose state octet reads valid and whose check passes (R481). -/
def halfKey (kek : Option (BitVec 128)) (k : Nat) (l : List Byte) : Option (BitVec 128) :=
  if octetAt l 0 ≠ 0xA5 || l.length ≠ 32 then none
  else if k = 0 then
    let key := BitVec.ofNat 128 (beNat ((l.drop 8).take 16)) ^^^ Config.deviceSecret
    if (l.drop 24).take 8 = keyMark key then some key else none
  else
    match kek with
    | none => none
    | some t => (keyUnwrap (keyN t) (toN (l.drop 8))).map (fun x => BitVec.ofNat 128 (natN x))

/-- The valid half with the later sequence number (R484): which one, its number, and the key. -/
def latestHalf (kek : Option (BitVec 128)) (k : Nat) (c : Copies) : Option (Bool × Nat × BitVec 128) :=
  match halfKey kek k c.a, halfKey kek k c.b with
  | some x, some y => if laterSeq 16 (numAt c.b 2 2) (numAt c.a 2 2) then some (true, numAt c.b 2 2, y) else some (false, numAt c.a 2 2, x)
  | some x, none => some (false, numAt c.a 2 2, x)
  | none, some y => some (true, numAt c.b 2 2, y)
  | none, none => none

/-- A key-slot row with new material in the half that does not hold the later valid sequence number, or with both halves
zero (R484). -/
def putKey (kek : Option (BitVec 128)) (k : Nat) (c : Copies) : Option (List Byte) → Copies
  | none => ⟨zeros 32, zeros 32⟩
  | some m =>
    let half (q : Nat) : List Byte := [0xA5] ++ leBytes 1 k ++ leBytes 2 q ++ zeros 4 ++ m
    match latestHalf kek k c with
    | some (b, q, _) => c.put (!b) (half ((q + 1) % 65536))
    | none => c.put false (half 0)

/-! ## Journal rows (16 Table 16.2) -/

def JKind.code : JKind → Nat
  | .open => 1 | .book => 2 | .check => 3 | .close => 4 | .tariff => 5 | .sched => 6

def jkindOf (n : Nat) : Option JKind := [JKind.open, .book, .check, .close, .tariff, .sched][n - 1]?

def JRec.body (r : JRec) : List Byte :=
  leBytes 1 r.kind.code ++ leBytes 1 r.tariff ++ leBytes 1 (match r.pend with | some p => 128 + p.1 | none => 0) ++
    leBytes 1 (b2n r.isOpen + b2n r.booking * 2 + b2n r.recovered * 4 + b2n r.overB * 8) ++ leBytes 4 r.seq ++
    leBytes 8 r.at_ ++ leBytes 8 r.start ++ leBytes 2 r.interval ++ leBytes 2 r.budget ++ leBytes 8 r.spent ++
    leBytes 4 r.booked ++ leBytes 8 (match r.pend with | some p => p.2 | none => 0) ++ leBytes 8 r.total ++ zeros 4

/-- The 64 octets of a journal record. -/
def JRec.octets (r : JRec) : List Byte := r.body ++ leBytes 4 (crcOf c32c r.body)

/-- The record of a valid journal row. -/
def jrecOf (l : List Byte) : Option JRec :=
  if l.length = 64 && numAt l 60 4 == crcOf c32c (l.take 60) then
    let f := octetAt l 3
    (jkindOf (octetAt l 0)).map (fun k =>
      { kind := k, tariff := octetAt l 1 % 8, pend := if octetAt l 2 / 128 = 1 then some (octetAt l 2 % 8, numAt l 40 8) else none,
        isOpen := f.testBit 0, booking := f.testBit 1, recovered := f.testBit 2, overB := f.testBit 3, seq := numAt l 4 4,
        at_ := numAt l 8 8, start := numAt l 16 8, interval := numAt l 24 2, budget := numAt l 26 2, spent := numAt l 28 8,
        booked := numAt l 36 4, total := numAt l 48 8 })
  else none

/-! ## Tamper log entries (22 R575) -/

def TamperEntry.body (e : TamperEntry) : List Byte :=
  leBytes 4 e.seq ++ leBytes 8 e.at_ ++ leBytes 1 e.source ++ leBytes 1 e.ctx ++ leBytes 1 e.erased.toNat

def TamperEntry.octets (e : TamperEntry) : List Byte := e.body ++ leBytes 1 (crcOf c8 e.body)

/-- The entry of 16 octets whose crc matches and whose seq is not 0. -/
def tamperEntryOf (l : List Byte) : Option TamperEntry :=
  if l.length = 16 && octetAt l 15 == crcOf c8 (l.take 15) && decide (numAt l 0 4 ≠ 0) then
    some { seq := numAt l 0 4, at_ := numAt l 4 8, source := octetAt l 12, ctx := octetAt l 13, erased := BitVec.ofNat 8 (octetAt l 14) }
  else none

/-! ## Order slots (21 R537, R538) -/

/-- The characters of a text as octets (04_desk R604). -/
def charOctets (cs : List Char) : List Byte := cs.map (fun c => BitVec.ofNat 8 c.toNat)

def octetText (l : List Byte) : String := String.ofList (l.map (fun b => Char.ofNat b.toNat))

/-- The text of an order: each line followed by one LF. -/
def orderText (ls : List String) : List Byte := ls.flatMap (fun x => charOctets x.toList ++ [10])

/-- The lines of a text, each ended by LF. -/
def textLines : List Byte → List Byte → List String
  | _, [] => []
  | acc, b :: r => if b = 10 then octetText acc.reverse :: textLines [] r else textLines (b :: acc) r

def Trigger.code : Trigger → Nat
  | .none => 0 | .schedule _ _ => 1 | .event _ => 2

/-- The header of an order's slot with a commit octet (Table 21.1); its crc is that of commit 0xA5. -/
def OrderSlot.header (x : OrderSlot) (commit : Byte) : List Byte :=
  let t := orderText x.lines
  let b := leBytes 1 (b2n x.enabled + b2n x.cont * 2 + x.retries * 4 + x.trigger.code * 32) ++
    leBytes 1 (match x.trigger with | .event n => n | _ => 0) ++ leBytes 1 x.lines.length ++
    (match x.trigger with | .schedule e p => leBytes 4 e ++ leBytes 4 p | _ => zeros 8) ++ leBytes 4 x.limitMs ++
    padTo 12 (charOctets x.name.toList) ++ leBytes 2 t.length ++ zeros 2 ++ leBytes 4 (crcOf c32c t) ++ zeros 24
  commit :: b ++ leBytes 4 (crcOf c32c (0xA5 :: b))

/-- Row j of a slot, 1–7: 64 octets of its text. -/
def OrderSlot.row (x : OrderSlot) (j : Nat) : List Byte := ((padTo 448 (orderText x.lines)).drop (64 * (j - 1))).take 64

/-- The order of a slot, where commit reads 0xA5 and both CRCs are valid. -/
def orderOf (h t : List Byte) : Option OrderSlot :=
  let f := octetAt h 1
  let text := t.take (numAt h 28 2)
  if octetAt h 0 = 0xA5 && h.length == 64 && numAt h 60 4 == crcOf c32c (h.take 60) && numAt h 32 4 == crcOf c32c text then
    some { enabled := f % 2 = 1, cont := f / 2 % 2 = 1, retries := f / 4 % 8,
           trigger := if f / 32 % 4 = 1 then .schedule (numAt h 4 4) (numAt h 8 4)
                      else if f / 32 % 4 = 2 then .event (octetAt h 2) else .none,
           limitMs := numAt h 12 4, name := octetText (((h.drop 16).take 12).takeWhile (fun b => b != 0)),
           lines := textLines [] text }
  else none

end Sys2Proof.Machine
end

