-- ==== Sys2Proof/Machine/Ops.lean ====
section
/-! DEFINITION. The named operations every unit uses: configuration words, output lines and queues, events, row
writes, tickets, triggers of standing orders, and the answers to a line. -/
namespace Sys2Proof.Machine

open Sys2Proof

/-! ## Configuration registers -/

/-- Word k of a 128-bit mask. -/
def maskWord (m : BitVec 128) (k : Nat) : Word := BitVec.ofNat 32 (m.toNat / 2 ^ (32 * k))

/-- A 128-bit mask with word k replaced. -/
def setMaskWord (m : BitVec 128) (k : Nat) (w : Word) : BitVec 128 :=
  (m &&& ~~~(BitVec.ofNat 128 (0xFFFFFFFF * 2 ^ (32 * k)))) ||| BitVec.ofNat 128 (w.toNat * 2 ^ (32 * k))

def Cfg.get (c : Cfg) : CfgReg → Word
  | .desk => c.desk.desk | .chute => c.desk.chute | .attnCfg => c.events.attnCfg
  | .attnEn k => maskWord c.events.attn k | .lineEn k => maskWord c.events.line k
  | .wakeEn k => maskWord c.events.wake k
  | .padDrive => c.sys.padDrive | .vbatWarn => c.sys.vbatWarn | .dorm => c.sys.dorm
  | .ticketsLow => c.sys.ticketsLow | .dayRef => c.sys.dayRef
  | .chan => c.radio.chan | .txConfig => c.radio.txConfig | .antMap => c.radio.antMap
  | .rxConfig => c.radio.rxConfig | .hpConfig => c.radio.hpConfig
  | .planBase p => vget c.radio.planBase p 0 | .planCtrl p => vget c.radio.planCtrl p 0
  | .ccaConfig => c.radio.ccaConfig | .ccaThr => c.radio.ccaThr
  | .profile => c.modem.profile | .sync => c.modem.sync | .deep => c.modem.deep
  | .census => c.census.config | .allow => c.census.allow | .thresh => c.census.thresh | .hold => c.census.hold
  | .frame => c.frame.config | .filter => c.frame.filter | .addr => c.frame.addr
  | .link => c.link.config | .timing => c.link.timing | .wait => c.link.wait_
  | .pollEvery => c.link.pollEvery | .pollPhase => c.link.pollPhase
  | .sniffEvery => c.link.sniffEvery | .sniffPhase => c.link.sniffPhase
  | .pool => c.link.pool | .catConfig => c.link.catConfig | .ledger => c.link.ledger
  | .ssw => c.pins.ssw | .tamper => c.pins.tamper
  | .gpio n => vget c.pins.gpio n 0 | .gpioOut => c.pins.gpioOut

def Cfg.set (c : Cfg) (r : CfgReg) (v : Word) : Cfg :=
  match r with
  | .desk => { c with desk := { c.desk with desk := v } }
  | .chute => { c with desk := { c.desk with chute := v } }
  | .attnCfg => { c with events := { c.events with attnCfg := v } }
  | .attnEn k => { c with events := { c.events with attn := setMaskWord c.events.attn k v } }
  | .lineEn k => { c with events := { c.events with line := setMaskWord c.events.line k v } }
  | .wakeEn k => { c with events := { c.events with wake := setMaskWord c.events.wake k v } }
  | .padDrive => { c with sys := { c.sys with padDrive := v } }
  | .vbatWarn => { c with sys := { c.sys with vbatWarn := v } }
  | .dorm => { c with sys := { c.sys with dorm := v } }
  | .ticketsLow => { c with sys := { c.sys with ticketsLow := v } }
  | .dayRef => { c with sys := { c.sys with dayRef := v } }
  | .chan => { c with radio := { c.radio with chan := v } }
  | .txConfig => { c with radio := { c.radio with txConfig := v } }
  | .antMap => { c with radio := { c.radio with antMap := v } }
  | .rxConfig => { c with radio := { c.radio with rxConfig := v } }
  | .hpConfig => { c with radio := { c.radio with hpConfig := v } }
  | .planBase p => { c with radio := { c.radio with planBase := vset c.radio.planBase p v } }
  | .planCtrl p => { c with radio := { c.radio with planCtrl := vset c.radio.planCtrl p v } }
  | .ccaConfig => { c with radio := { c.radio with ccaConfig := v } }
  | .ccaThr => { c with radio := { c.radio with ccaThr := v } }
  | .profile => { c with modem := { c.modem with profile := v } }
  | .sync => { c with modem := { c.modem with sync := v } }
  | .deep => { c with modem := { c.modem with deep := v } }
  | .census => { c with census := { c.census with config := v } }
  | .allow => { c with census := { c.census with allow := v } }
  | .thresh => { c with census := { c.census with thresh := v } }
  | .hold => { c with census := { c.census with hold := v } }
  | .frame => { c with frame := { c.frame with config := v } }
  | .filter => { c with frame := { c.frame with filter := v } }
  | .addr => { c with frame := { c.frame with addr := v } }
  | .link => { c with link := { c.link with config := v } }
  | .timing => { c with link := { c.link with timing := v } }
  | .wait => { c with link := { c.link with wait_ := v } }
  | .pollEvery => { c with link := { c.link with pollEvery := v } }
  | .pollPhase => { c with link := { c.link with pollPhase := v } }
  | .sniffEvery => { c with link := { c.link with sniffEvery := v } }
  | .sniffPhase => { c with link := { c.link with sniffPhase := v } }
  | .pool => { c with link := { c.link with pool := v } }
  | .catConfig => { c with link := { c.link with catConfig := v } }
  | .ledger => { c with link := { c.link with ledger := v } }
  | .ssw => { c with pins := { c.pins with ssw := v } }
  | .tamper => { c with pins := { c.pins with tamper := v } }
  | .gpio n => { c with pins := { c.pins with gpio := vset c.pins.gpio n v } }
  | .gpioOut => { c with pins := { c.pins with gpioOut := v } }

/-- A live configuration register. -/
def State.cfgGet (s : State) (r : CfgReg) : Word := s.cfg.get r

def State.cfgSet (s : State) (r : CfgReg) (v : Word) : State := { s with cfg := s.cfg.set r v }

/-! ## Output lines (04_desk, "Replies") -/

/-- Hexadecimal digits of a number, at least `n` of them, in groups of four (00_scope). -/
def hexDigits (n v : Nat) : List Char :=
  let d := (Nat.toDigits 16 v).map Char.toUpper
  List.replicate (n - d.length) '0' ++ d

def groupFour (l : List Char) : List Char :=
  let n := l.length
  (List.range n).flatMap (fun i => (if i != 0 && (n - i) % 4 == 0 then ['_'] else []) ++ (l[i]?).toList)

def padZero (n : Nat) (l : List Char) : List Char := List.replicate (n - l.length) '0' ++ l

/-- A decimal with a fixed number of places. -/
def fixText (places : Nat) (v : Int) : String :=
  let a := v.natAbs
  (if v < 0 then "-" else "") ++ Nat.repr (a / 10 ^ places) ++ "." ++
    String.ofList (padZero places (Nat.toDigits 10 (a % 10 ^ places)))

/-- A Daybook value in the seconds form (R87). -/
def timeText (t : Nat) : String := fixText 6 (usOf t)

/-- A string's characters with its escapes (R88). -/
def escaped (t : String) : String :=
  String.ofList (t.toList.flatMap (fun c => if c = '"' || c = '\\' then ['\\', c] else [c]))

def Val.text : Val → String
  | .word w => w
  | .dec v => (if v < 0 then "-" else "") ++ Nat.repr v.natAbs
  | .hex n v => "0x" ++ String.ofList (groupFour (hexDigits n v))
  | .time t => timeText t
  | .fix p v => fixText p v
  | .str t => "\"" ++ escaped t ++ "\""
  | .octets l => "%" ++ String.ofList ((l.zipIdx).flatMap (fun x =>
      (if x.2 != 0 && x.2 % 2 == 0 then ['_'] else []) ++ hexDigits 2 x.1.toNat))
  | .list ws => ",".intercalate ws

def Tok.text : Tok → String
  | .w v => v.text
  | .kv k v => k ++ "=" ++ v.text

def OutLine.text (l : OutLine) : String :=
  (match l.tag with | none => "" | some t => "#" ++ t ++ " ") ++ " ".intercalate (l.toks.map Tok.text) ++
    (if l.block.isEmpty then "" else " @" ++ String.ofList (padZero 4 (Nat.toDigits 10 l.block.length)))

/-- A hex digit, in capitals. -/
def hexChar (d : Nat) : Char := Char.ofNat (if d < 10 then 48 + d else 55 + d)

/-- The check suffix `*hh` of a line (R95). -/
def checkSuffix (body : List Byte) : List Byte :=
  let v := crcOf c8 body
  charOctets ['*', hexChar (v / 16 % 16), hexChar (v % 16)]

/-- `@nnnn:`, which precedes a block (R91). -/
def blockMarker (n : Nat) : List Byte :=
  charOctets ['@', hexChar (n / 1000 % 10), hexChar (n / 100 % 10), hexChar (n / 10 % 10), hexChar (n % 10), ':']

/-- A block as it travels: its marker, its octets, and their CRC by set C16F, most significant octet first (R91, R92). -/
def blockWire (d : List Byte) : List Byte :=
  let v := crcOf c16f d
  blockMarker d.length ++ d ++ [BitVec.ofNat 8 (v / 256), BitVec.ofNat 8 v]

/-- The octets of a line as it is sent: its text, in framed mode its check, CR LF, and the block behind it (R91, R95). -/
def OutLine.wire (framed : Bool) (l : OutLine) : List Byte :=
  let body := charOctets l.text.toList
  body ++ (if framed then checkSuffix body else []) ++ [13, 10] ++ (if l.block.isEmpty then [] else blockWire l.block)

/-- Words, decimals and fields of an output line. -/
def w (t : String) : Tok := .w (.word t)
def n' (v : Nat) : Tok := .w (.dec v)
def kd (k : String) (v : Int) : Tok := .kv k (.dec v)
def kw (k t : String) : Tok := .kv k (.word t)
def yesNo (b : Bool) : String := if b then "YES" else "NO"
def onOff (b : Bool) : String := if b then "ON" else "OFF"

/-- A number, or NONE. -/
def noneOr (x : Option Nat) : Val := match x with | none => .word "NONE" | some n => .dec n

/-- The `ed=` field of a unit's report (06_tickets R179). -/
def edTok (s : State) (u : EdUnit) : Tok := kd "ed" (s.edition u).toNat

/-! ## Ports -/

def State.port (s : State) : Port → PortSt
  | .desk => s.dport
  | .chute => s.cport

def State.setPort (s : State) (p : Port) (x : PortSt) : State :=
  match p with
  | .desk => { s with dport := x }
  | .chute => { s with cport := x }

/-- The port's mode: the Chute is always framed (R75). -/
def State.framed (s : State) : Port → Bool
  | .desk => bit s.cfg.desk.desk 5
  | .chute => true

def State.holdOn (s : State) : Port → Bool
  | .desk => bit s.cfg.desk.desk 6
  | .chute => bit s.cfg.desk.chute 6

def State.evLines (s : State) : Port → Bool
  | .desk => bit s.cfg.desk.desk 7
  | .chute => bit s.cfg.desk.chute 7

def State.portPresent (s : State) : Port → Bool
  | .desk => true
  | .chute => s.has .chute

def portName : Port → String
  | .desk => "DESK"
  | .chute => "CHUTE"

def portUnit : Port → EdUnit
  | .desk => .desk
  | .chute => .chute

/-- Octets of a line as it will be sent, with its check in framed mode and CR LF. -/
def lineLen (framed : Bool) (l : OutLine) : Nat := l.text.length + (if framed then 3 else 0) + 2

/-- Octets in a port's output queue, which holds 2048 (R72); blocks are not part of it (R92). -/
def State.queueFill (s : State) (p : Port) : Nat :=
  ((s.port p).out.map (lineLen (s.framed p))).sum

/-- Octets of the lines at the front of a queue that have a place in its 2048 octets; a reply or return beyond them is
held until there is room (R99), and one that a stall delays is not there yet (09_dormant R250). -/
def fitOctets (framed : Bool) (now : Nat) : Nat → List OutLine → Nat
  | _, [] => 0
  | room, l :: ls =>
    if lineLen framed l ≤ room ∧ l.due ≤ now then
      lineLen framed l + fitOctets framed now (room - lineLen framed l) ls
    else 0

/-- Octets of the block behind a line. -/
def OutLine.blockLen (l : OutLine) : Nat := if l.block.isEmpty then 0 else l.block.length + 8

/-- Octets waiting on a port, with the block of the line being sent (Table 4.3 out_count): never above 6200 (R79). -/
def State.outCount (s : State) (p : Port) : Nat :=
  fitOctets (s.framed p) s.day.cyc 2048 (s.port p).out + (((s.port p).out.head?).map OutLine.blockLen).getD 0 - (s.port p).partialRead

/-- The Desk is sending: a line, or echo and prompt. -/
def State.deskSending (s : State) : Bool := !s.dport.out.isEmpty || !s.dport.echo.isEmpty

/-- A line joins a port's output queue; the Chute queue's change from empty to not empty fires EV_CHUTE_OUT in the
following cycle (R107, 07_events R198). -/
def State.push (s : State) (p : Port) (l : OutLine) : State :=
  let q := s.port p
  let s1 := s.setPort p { q with out := q.out ++ [l] }
  if p = .chute && q.out.isEmpty && s.has .chute then
    { s1 with events := { s1.events with deferred := s1.events.deferred ++ [.chuteOut] } }
  else s1

/-- An `!EV` line joins each port that sends them, or is dropped there for want of room (R99). -/
def State.pushEv (s : State) (p : Port) (n : Nat) (l : OutLine) : State :=
  if !(s.evLines p && s.portPresent p) then s
  else if s.queueFill p + lineLen (s.framed p) l ≤ 2048 then s.push p l
  else
    let d := s.desk
    let s1 := { s with desk := match p with
      | .desk => { d with evDropped := d.evDropped.inc }
      | .chute => { d with cEvDropped := d.cEvDropped.inc } }
    if n = 127 then s1
    else { s1 with events := { s1.events with deferred := s1.events.deferred ++ [.lineDropped p n] } }

/-! ## Firing an event (07_events R189) -/

/-- One firing, without the triggers of standing orders.  The lines of bring-up's own events follow `+READY BOOT`
(16_ledger Table 16.5). -/
def State.fireCore (s : State) (n : Nat) (fields : List Tok) : State :=
  if !s.eventPresent n then s
  else
    let e := s.events
    let s1 := { s with events := { e with pend := e.pend ||| ((1 : BitVec 128) <<< n), last := some n, fired := e.fired.inc } }
    let l : OutLine := { kind := .ev n, toks := [w "!EV", n' n, w (eventName n)] ++ fields }
    let s2 := if !s.cfg.events.line.getLsbD n then s1
      else if s.booting then { s1 with sys := { s1.sys with alertEvents := s1.sys.alertEvents ++ [(n, fields)] } }
      else (s1.pushEv .desk n l).pushEv .chute n l
    s2.attnFollow

/-! ## Triggers of standing orders (21_orders R541–R544) -/

/-- The order loaded in slot k: a store, a change or an erasure counts once its ticket completes (R558). -/
def State.slot (s : State) (k : Nat) : Option OrderSlot :=
  if !s.orders.loaded then none else vget s.orders.slots k none

/-- An order starts: IDLE to RUNNING counts as a change of the ORDERS edition (R559) unless an order has just ended. -/
def State.startOrder (s : State) (k : Nat) (slot : OrderSlot) (rt : Option Nat) (afterReady : Bool) : State :=
  let o := s.orders
  let r : Run := { k := k, slot := slot, ready := s.day.cyc + 1, afterReady := afterReady, runTicket := rt }
  { s with orders := { o with runs := o.runs.inc, run := some r } }

/-- The reason a trigger of order k is missed (R544). -/
def State.missWhy (s : State) (k : Nat) : Option String :=
  if (s.slot k).isNone then some "EMPTY"
  else if s.orders.run.map (·.k) = some k then some "RUNNING"
  else if s.orders.pending.any (fun p => p.k == k) then some "PENDING"
  else none

/-- A trigger of order k: the order starts or becomes pending; a missed trigger is counted. -/
def State.triggerCore (s : State) (k : Nat) (rt : Option Nat) (afterReady : Bool) : State :=
  match s.missWhy k, s.slot k with
  | some _, _ => { s with orders := { s.orders with missed := s.orders.missed.inc } }
  | none, none => s
  | none, some slot =>
    if s.orders.run.isNone && s.orders.pending.isEmpty then
      (s.startOrder k slot rt afterReady).bump .orders
    else { s with orders := { s.orders with pending := s.orders.pending ++ [{ k := k, runTicket := rt }] } }

/-- The enabled orders whose stored trigger is event n, in order number (R542). -/
def State.ordersOn (s : State) (n : Nat) : List Nat :=
  if s.sys.stage = .ready then
    (List.range 32).filter (fun k => match s.slot k with
      | some o => o.enabled && decide (o.trigger = .event n)
      | none => false)
  else []

/-- Event triggers of a firing, with the misses they make. -/
def State.eventTriggers (s : State) (n : Nat) : State × List (Nat × String) :=
  (s.ordersOn n).foldl (fun acc k =>
    (acc.1.triggerCore k none false,
      match acc.1.missWhy k with | some y => acc.2 ++ [(k, y)] | none => acc.2)) (s, [])

/-- EV_ORDER_MISSED; it fires once in a cycle (07_events R190), for the first miss. -/
def State.fireMissed (s : State) (ms : List (Nat × String)) : State :=
  match ms with
  | [] => s
  | (k, y) :: _ => ((s.fireCore 114 [kd "order" k, kw "why" y]).eventTriggers 114).1

/-- An event fires: pending bit, counter, EVENTS_LAST, lines, ATTN (R189), and the orders it triggers (R542); of the
event and the miss of a trigger that it makes, the lower number comes first (R198).  None fires in a quiet wake
(R203). -/
def State.fire (s : State) (n : Nat) (fields : List Tok) : State :=
  if s.eventPresent n && !s.quiet then
    if n < 114 then
      let r := (s.fireCore n fields).eventTriggers n
      r.1.fireMissed r.2
    else
      let r := s.eventTriggers n
      (r.1.fireMissed r.2).fireCore n fields
  else s

/-- The condition of a kind-C event begins: it fires and its pending bit stays while the condition holds (R188). -/
def State.condOn (s : State) (n : Nat) (fields : List Tok) : State :=
  if s.events.cond.getLsbD n then s
  else if s.eventPresent n then
    { s with events := { s.events with cond := s.events.cond ||| ((1 : BitVec 128) <<< n) } }.fire n fields
  else s

/-- The condition of a kind-C event ends. -/
def State.condOff (s : State) (n : Nat) : State :=
  { s with events := { s.events with cond := s.events.cond &&& ~~~((1 : BitVec 128) <<< n) } }

/-- A trigger of order k from a command or an alarm, with its miss (R543, R544). -/
def State.triggerOrder (s : State) (k : Nat) (rt : Option Nat) (afterReady : Bool) : State :=
  let why := s.missWhy k
  let s1 := s.triggerCore k rt afterReady
  match why with
  | some y => s1.fireMissed [(k, y)]
  | none => s1

/-! ## What one cycle leaves (06_tickets R158, R178; 07_events R198) -/

/-- The place of a line among those queued in one cycle: replies, then `!EV` lines by number, then DN lines in the order
in which their tickets were issued. -/
def State.lineRank (s : State) (l : OutLine) : Nat :=
  match l.kind with
  | .ev n => n + 1
  | .dn n => 1000 + s.tickets.pool.findIdx (fun t => t.n == n)
  | _ => 0

/-- The lines that join a queue in one cycle, behind those that stood there, in their order. -/
def State.inOrder (t : State) (old new : List OutLine) : List OutLine :=
  if new.take old.length = old then
    old ++ (new.drop old.length).insertionSort (fun a b => t.lineRank a ≤ t.lineRank b)
  else new

/-- What the cycle that led from s leaves: the lines it queued in their order, and each edition at most one above what
it was. -/
def State.settled (t s : State) : State :=
  { t with dport := { t.dport with out := t.inOrder s.dport.out t.dport.out },
           cport := { t.cport with out := t.inOrder s.cport.out t.cport.out },
           ed := Vector.ofFn (fun i => if vget t.ed i.val 0 = vget s.ed i.val 0 then vget t.ed i.val 0
                                       else vget s.ed i.val 0 + 1) }

/-! ## Row writes (19_stacks_porter R495) -/

/-- The canonical form of an addressed store: addresses strictly rising, and no entry equal to what an unlisted octet
reads as, where that is one value. -/
def Memory.wf (dflt : Option Byte) : List Host.Cell → Bool
  | [] => true
  | (a, b) :: r =>
    (match r with | [] => true | (x, _) :: _ => decide (a < x)) && decide (dflt ≠ some b) && Memory.wf dflt r

/-- The three addressed stores of the part are in canonical form. -/
def State.memWf (s : State) : Bool :=
  Memory.wf (some 0) s.store.scratch && Memory.wf none s.store.shelf && Memory.wf none s.store.carrels

/-- The cells of an addressed store after a write: addresses rising, no entry equal to `dflt`. -/
def cellsWrite (m : List Host.Cell) (a : Nat) (b dflt : Byte) : List Host.Cell :=
  match m with
  | [] => if b = dflt then [] else [(a, b)]
  | (x, y) :: r =>
    if a < x then (if b = dflt then (x, y) :: r else (a, b) :: (x, y) :: r)
    else if a = x then (if b = dflt then r else (a, b) :: r)
    else (x, y) :: cellsWrite r a b dflt

def cellsRead (m : List Host.Cell) (a : Nat) (dflt : Byte) : Byte :=
  match m with
  | [] => dflt
  | (x, y) :: r => if a = x then y else cellsRead r a dflt

def cellsWriteAll (m : List Host.Cell) (a : Nat) (l : List Byte) : List Host.Cell :=
  match l with
  | [] => m
  | b :: bs => cellsWriteAll (cellsWrite m a b 0) (a + 1) bs

/-- A write to a store whose unlisted octets are undefined: every octet written is listed. -/
def cellsPut (m : List Host.Cell) (a : Nat) (b : Byte) : List Host.Cell :=
  match m with
  | [] => [(a, b)]
  | (x, y) :: r => if a < x then (a, b) :: (x, y) :: r else if a = x then (a, b) :: r else (x, y) :: cellsPut r a b

def cellsPutAll (m : List Host.Cell) (a : Nat) (l : List Byte) : List Host.Cell :=
  match l with
  | [] => m
  | b :: bs => cellsPutAll (cellsPut m a b) (a + 1) bs

def cellsReadAll (m : List Host.Cell) (a k : Nat) : List Byte :=
  (List.range k).map (fun i => cellsRead m (a + i) 0)

/-- The power-up stalls in the order in which they end. -/
def stallEnd : Nat × Nat → List (Nat × Nat) → List (Nat × Nat)
  | x, [] => [x]
  | x, y :: r => if x.2 < y.2 then x :: y :: r else y :: stallEnd x r

/-- A carrel (1–7) or the Stacks array (8) is accessed: unpowered, it powers up, and the access waits (09_dormant
R250). -/
def State.touch (s : State) (n : Nat) : State :=
  if n = 8 then
    let s1 := { s with pwr := { s.pwr with stacksLast := s.day.cyc } }
    if s.pwr.stacksOn then s1
    else { s1 with pwr := { s1.pwr with stacksOn := true, stall := stallEnd (8, s.day.cyc + 1152) s1.pwr.stall } }
  else if s.pwr.powered.getLsbD n then s
  else { s with pwr := { s.pwr with powered := s.pwr.powered ||| BitVec.ofNat 8 (2 ^ n),
                                    stall := stallEnd (n, s.day.cyc + 230) s.pwr.stall } }

/-- The access to a carrel or the Stacks array still waits for its power. -/
def State.stalled (s : State) (n : Nat) : Bool := s.pwr.stall.any (fun x => x.1 == n)

/-- What a row of the Record holds where neither copy is valid: the defaults of its units (R496; 18_noise_vault R485, 16
R428). -/
def State.twinBase (s : State) (i : Nat) : List Byte :=
  padTo (twinSize i) (match i with
    | 0 => markerRow
    | 11 => wordOctets [1, 1]
    | 17 => TrimSel.body {}
    | 18 => tariffBody newTariffs
    | 19 => controlRow true 0xFF
    | _ => wordOctets ((twinRegs i).map s.newCfg.get))

/-- The octets of a two-copy row as they stand. -/
def State.twinData (s : State) (i : Nat) : List Byte := ((s.twin i).data i).getD (s.twinBase i)

/-- Replaced octets of a row. -/
def patched (l : List Byte) (patch : List (Nat × List Byte)) : List Byte := patch.foldl (fun l p => overlay l p.1 p.2) l

/-- The copy that the next write of a row goes to, and its octets: the one that does not hold the later valid sequence
number, with a number one greater; copy A where neither is valid (R496). -/
def State.twinWrite (s : State) (i : Nat) (patch : List (Nat × List Byte)) : Bool × List Byte :=
  let l := patched (s.twinData i) patch
  match (s.twin i).latest i with
  | some (b, q) => (!b, sealCopy i ((q + 1) % 2 ^ 32) l)
  | none => (false, sealCopy i 0 l)

/-- The two-copy row that a row write changes, and its new octets. -/
def RowWhat.twin? : RowWhat → Option (Nat × List (Nat × List Byte))
  | .twin i patch => some (i, patch)
  | .counters d _ => some (20, [(0, d)])
  | .archFirst n => some (11, [(0, leBytes 4 n)])
  | .archNext n => some (11, [(4, leBytes 4 n)])
  | _ => none

/-- The row writes that one row write brings behind it, before any other: the second row of a tariff slot, and the other
copy of a row that had none valid (R496). -/
def State.rowFollows (s : State) (x : RowWhat) : List RowWhat :=
  match x.twin? with
  | some (i, patch) =>
    let w := s.twinWrite i patch
    (if i = 18 then [RowWhat.twinEnd i w.1 w.2] else []) ++ (if ((s.twin i).latest i).isNone then [x] else [])
  | none => []

/-- The first row of a write to a two-copy row; a tariff slot has another behind it (16_ledger R429). -/
def State.putTwin (s : State) (i : Nat) (patch : List (Nat × List Byte)) : State :=
  let w := s.twinWrite i patch
  let c := s.twin i
  s.setTwin i (c.put w.1 (if i = 18 then w.2.take 64 ++ (c.get w.1).drop 64 else w.2))

/-- A row write takes its effect when it starts: it always completes (02_pins R19, 03_power R54). -/
def State.applyRow (s : State) (x : RowWhat) : State :=
  match x with
  | .twin i patch => s.putTwin i patch
  | .twinEnd i b l => s.setTwin i ((s.twin i).put b l)
  | .mirror i =>
    match (s.twin i).latest i with
    | some (b, _) => s.setTwin i ((s.twin i).put (!b) ((s.twin i).get b))
    | none => s
  | .counters d warn =>
    let t := s.putTwin 20 [(0, d)]
    { t with record := { t.record with fcWarn := warn } }
  | .archFirst n => { s.putTwin 11 [(0, leBytes 4 n)] with store := { s.store with first := BitVec.ofNat 32 n } }
  | .archNext n => { s.putTwin 11 [(4, leBytes 4 n)] with store := { s.store with next := BitVec.ofNat 32 n } }
  | .drift k r => { s with record := { s.record with drift := vset s.record.drift k r } }
  | .journal k r => { s with record := { s.record with journal := vset s.record.journal k r } }
  | .key k m =>
    { s with record := { s.record with
        keys := vset s.record.keys k (putKey (vget s.vault.slots 0 none) k (vget s.record.keys k {}) m) } }
  | .tamperLog k x => { s with record := { s.record with tamperLog := vset s.record.tamperLog k x } }
  | .scratch a d => { s with store := { s.store with scratch := cellsWriteAll s.store.scratch a d } }
  | .stacks a d => { s.touch 8 with store := { s.store with shelf := cellsPutAll s.store.shelf a d } }
  | .order k j o =>
    let x := vget s.record.orders k ([], [])
    { s with record := { s.record with
        orders := vset s.record.orders k (if j = 0 then (o, x.2) else (x.1, overlay (padTo 448 x.2) (64 * (j - 1)) o)) } }
  | .cat l => { s.touch 8 with record := { s.record with cat := l } }

/-- A run of row writes of which the last carries the ticket. -/
def rowChain (r : RowWrite) : List RowWhat → List RowWrite
  | [] => [r]
  | x :: xs => { r with last := none } :: rowChain { r with what := x } xs

/-- A row write begins, ahead of those given, with what follows it. -/
def State.beginRow (s : State) (r : RowWrite) (rest : List RowWrite) : State :=
  { s.applyRow r.what with rows := rowChain r (s.rowFollows r.what) ++ rest }

/-- A row write begins at once when none is in progress, and otherwise waits. -/
def State.rowWrite (s : State) (r : RowWrite) : State :=
  if s.rows.isEmpty then s.beginRow r [] else { s with rows := s.rows ++ [r] }

/-- Several row writes in order; the last one completes the ticket. -/
def State.rowWrites (s : State) (ws : List RowWhat) (t : Option Nat) : State :=
  match ws with
  | [] => s
  | [x] => s.rowWrite { what := x, last := t }
  | x :: xs => (s.rowWrite { what := x }).rowWrites xs t

/-- The place of a register in a row. -/
def regPatch (i : Nat) (r : CfgReg) (v : Word) : Nat × List Byte := (4 * (twinRegs i).idxOf r, leBytes 4 v.toNat)

/-- The row writes of registers with their values, one for each row that holds some of them (Table 19.2). -/
def regRows (xs : List (CfgReg × Word)) : List RowWhat :=
  (cfgTwins.map (fun i => (i, xs.filter (fun x => (twinRegs i).contains x.1)))).filterMap (fun y =>
    if y.2.isEmpty then none else some (.twin y.1 (y.2.map (fun x => regPatch y.1 x.1 x.2))))

/-- Registers with the values given go to the Record. -/
def State.saveAs (s : State) (xs : List (CfgReg × Word)) : State := s.rowWrites (regRows xs) none

/-- The configuration registers given go to the Record as they stand. -/
def State.save (s : State) (rs : List CfgReg) : State := s.saveAs (rs.map (fun r => (r, s.cfgGet r)))

/-- The counters that the Record keeps go there as they stand (05_register_file R134). -/
def State.saveCounters (s : State) : State :=
  let c : RecCounters :=
    { borRun := s.pwr.borRun, borDormant := s.pwr.borDormant, wakeLate := s.pwr.wakeLate, boots := s.sys.bootCount,
      recoveries := s.ledger.recoveries }
  s.rowWrite { what := .twin 2 [(0, counterRow c)] }

/-- A slot of the key store as the Record takes it (18_noise_vault R483, R484). -/
def State.keyRow (s : State) (k : Nat) : RowWhat :=
  .key k ((vget s.vault.slots k none).map (keyMaterial (vget s.vault.slots 0 none) k))

/-- The frame counters as the Record takes them. -/
def State.fcRowWhat (s : State) : RowWhat := .counters (fcRow s.frame.fc s.frame.fcIn) s.frame.fcWarn

/-- The frame counters go to the Record. -/
def State.saveFc (s : State) : State := s.rowWrite { what := s.fcRowWhat }

/-- The association goes to the Record. -/
def State.saveAssoc (s : State) : State := s.rowWrite { what := .twin 8 [(1, assocRow s.link.assoc)] }

/-- The Catalogue goes to its rows of the Stacks. -/
def State.saveCat (s : State) : State := s.rowWrite { what := .cat s.link.cat }

/-- The Vault's control record goes to the Record. -/
def State.saveVault (s : State) : State :=
  s.rowWrite { what := .twin 19 [(0, controlRow s.vault.sealed s.vault.eraseMask)] }

/-- The tariff table goes to the Record. -/
def State.saveTariffs (s : State) : State := s.rowWrite { what := .twin 18 [(0, tariffBody s.ledger.tariffs)] }

/-- A row of the Record as it will stand once every waiting row has been written. -/
def State.rowSoon (s : State) (i : Nat) : List Byte :=
  s.rows.foldl (fun l x => match x.what with
    | .twin j patch => if j = i then patched l patch else l
    | _ => l) (s.twinData i)

/-- The configuration as the Record holds it: each row's latest valid copy, or its defaults; the role is row 8's
(Table 19.2). -/
def State.stored (s : State) : Cfg :=
  let c := cfgTwins.foldl (fun c i =>
    ((twinRegs i).zipIdx).foldl (fun (c : Cfg) x => c.set x.1 (BitVec.ofNat 32 (numAt (s.twinData i) (4 * x.2) 4))) c)
    s.newCfg
  c.set .link (setFld c.link.config 17 16 (octetAt (s.twinData 8) 0 % 4))

/-! ## Tickets (06_tickets) -/

def queueUnit : Queue → EdUnit
  | .pwr => .pwr | .radio => .radio | .census => .census | .link => .link | .ledger => .ledger | .trim => .trim
  | .noise => .noise | .vault => .vault | .stacks => .stacks | .porter _ => .porter | .collate _ => .collate
  | .orders => .orders | .ssw => .ssw

def queueName : Queue → String
  | .pwr => "PWR" | .radio => "RADIO" | .census => "CENSUS" | .link => "LINK" | .ledger => "LEDGER"
  | .trim => "TRIM" | .noise => "NOISE" | .vault => "VAULT" | .stacks => "STACKS"
  | .porter n => "PORTER_" ++ Nat.repr n.val | .collate n => "COLLATE_" ++ Nat.repr n.val
  | .orders => "ORDERS" | .ssw => "SSW"

/-- Result words in the index order of Table 6.5. -/
def Result.name : Result → String
  | .done => "DONE" | .fail => "FAIL" | .state => "STATE" | .stale => "STALE" | .overdue => "OVERDUE"
  | .cancelled => "CANCELLED" | .overbudget => "OVERBUDGET" | .norng => "NORNG" | .noack => "NOACK"
  | .chanbusy => "CHANBUSY" | .tampered => "TAMPERED" | .disagree => "DISAGREE" | .fault => "FAULT"

def Result.index : Result → Nat
  | .done => 0 | .fail => 1 | .state => 2 | .stale => 3 | .overdue => 4 | .cancelled => 5 | .overbudget => 6
  | .norng => 7 | .noack => 8 | .chanbusy => 9 | .tampered => 10 | .disagree => 11 | .fault => 12

def TState.name : TState → String
  | .queued => "QUEUED" | .waiting => "WAITING" | .running => "RUNNING" | .complete => "COMPLETE" | .held => "HELD"

def State.ticket? (s : State) (n : Nat) : Option Ticket := s.tickets.pool.find? (fun t => t.n == n)

def State.past? (s : State) (n : Nat) : Option Past := s.tickets.past.find? (fun p => p.n == n)

def State.updTicket (s : State) (n : Nat) (f : Ticket → Ticket) : State :=
  { s with tickets := { s.tickets with pool := s.tickets.pool.map (fun t => if t.n = n then f t else t) } }

def Owner.isHost : Owner → Bool
  | .host _ => true
  | _ => false

def State.hostTickets (s : State) : Nat := (s.tickets.pool.filter (fun t => t.owner.isHost)).length

/-- A ticket of the queue that has not completed. -/
def Ticket.live (t : Ticket) : Bool := decide (t.st = .queued) || decide (t.st = .waiting) || decide (t.st = .running)

def Ticket.unstarted (t : Ticket) : Bool := decide (t.st = .queued) || decide (t.st = .waiting)

/-- The deadline of an unstarted ticket has been reached (R162). -/
def State.isOverdue (s : State) (t : Ticket) : Bool :=
  t.unstarted && (match t.due with | some d => decide (d ≤ s.now) | none => false)

/-- The ticket at the head of a queue (R155). -/
def State.head (s : State) (q : Queue) : Option Ticket :=
  s.tickets.pool.find? (fun t => decide (t.queue = q) && t.live)

/-- The running ticket of a queue. -/
def State.running (s : State) (q : Queue) : Option Ticket :=
  s.tickets.pool.find? (fun t => decide (t.queue = q) && decide (t.st = .running))

/-- The pool refuses a ticket to this owner (R151). -/
def State.noTicketFor (s : State) (o : Owner) : Bool :=
  if o.isHost then decide (480 ≤ s.hostTickets) || decide (512 ≤ s.tickets.pool.length)
  else decide (512 ≤ s.tickets.pool.length)

/-- The number the pool gives next (R152). -/
def State.nextNumber (s : State) : Option Nat :=
  let start := match s.tickets.last with | none => 0 | some n => n + 1
  ((List.range' start (512 - start)) ++ List.range start).find? (fun n => (s.ticket? n).isNone)

/-- What an accepted line asks of its ticket. -/
structure TicketAsk where
  queue : Queue
  op : TicketOp
  owner : Owner
  tag : Option String := none
  after : Option Nat := none
  due : Option Nat := none
  guard : Option (EdUnit × Nat) := none
  startAt : Option Nat := none
  deriving DecidableEq, Repr

/-- A ticket is issued. -/
def State.issue (s : State) (a : TicketAsk) : State × Option Nat :=
  match s.nextNumber with
  | none => (s, none)
  | some n =>
    let t : Ticket := { n := n, queue := a.queue, owner := a.owner, tag := a.tag, after := a.after, due := a.due,
                        guard := a.guard, startAt := a.startAt, op := a.op }
    ({ s with tickets := { s.tickets with pool := s.tickets.pool ++ [t], last := some n } }, some n)

/-- EV_POOL_LOW fires as the host headroom, `was` before the ticket's issue, falls to the low mark or below (R185). -/
def State.poolLow (s : State) (was : Nat) : State :=
  let low := fld s.cfg.sys.ticketsLow 8 0
  if decide (low < was) && decide (480 - s.hostTickets ≤ low) then
    s.fire 122 [kd "headroom" (480 - s.hostTickets : Nat), kd "low" low]
  else s

/-- A ticket's number becomes free and keeps its result (R153). -/
def State.freeTicket (s : State) (n : Nat) : State :=
  match s.ticket? n with
  | none => s
  | some t =>
    let p : Past := { n := n, queue := t.queue, result := t.result, doneAt := t.doneAt }
    { s with tickets := { s.tickets with pool := s.tickets.pool.filter (fun x => !(x.n == n)),
                                         past := p :: s.tickets.past.filter (fun x => !(x.n == n)) } }

/-- The tokens of a ticket's DN line (R98, R172). -/
def dnToks (n : Nat) (r : Result) (fields : List Tok) : List Tok := [w "DN", n' n, w r.name] ++ fields

/-- A ticket's completion is recorded: its state and result, the counters (R174), the last poll's outcome, and the start
of the idle time. -/
def State.markDone (s : State) (t : Ticket) (r : Result) (fs : List Tok) (block : List Byte) : State :=
  let s1 := (s.updTicket t.n (fun t => { t with st := .complete, result := some r, fields := fs, block := block,
                                                doneAt := s.day.cyc, doneSeq := s.tickets.seq }))
  let c := s1.tickets
  { s1 with
    tickets := { c with seq := c.seq + 1,
                        overdue := c.overdue.incIf (r == Result.overdue),
                        cancelled := c.cancelled.incIf (r == Result.cancelled),
                        stale := c.stale.incIf (r == Result.stale),
                        stateC := c.stateC.incIf (r == Result.state) },
    link := (match t.op with
      | .poll _ => { s1.link with lastPoll := (r.index, if t.unstarted then (false, 0) else s1.link.lastPoll.2) }
      | _ => s1.link),
    pwr := { s1.pwr with idleSince := s1.day.cyc } }

/-- EV_TICKET_DONE of a host's ticket. -/
def State.fireDone (s : State) (t : Ticket) (r : Result) : State :=
  if t.owner.isHost then s.fire 120 [kd "ticket" t.n, kw "result" r.name] else s

/-- EV_TICKET_FAIL of a ticket that is not DONE. -/
def State.fireFail (s : State) (t : Ticket) (r : Result) : State :=
  if r = .done then s else s.fire 121 [kd "ticket" t.n, kw "queue" (queueName t.queue), kw "result" r.name]

/-- The DN line of a host's completed ticket; another's is freed (21_orders R547). -/
def State.deliver (s : State) (t : Ticket) (r : Result) (fs : List Tok) (block : List Byte) : State :=
  match t.owner with
  | .host p => s.push p { kind := .dn t.n, tag := t.tag, toks := dnToks t.n r fs, block := block }
  | _ => s.freeTicket t.n

/-- Which of EV_TICKET_DONE and EV_TICKET_FAIL have fired in this cycle: each fires once in it (07_events R190). -/
structure Fired where
  done : Bool := false
  fail : Bool := false
  deriving DecidableEq, Repr

/-- A ticket completes: its record, its events (R174), and its DN line or its freeing. -/
def State.completeCore (s : State) (n : Nat) (r : Result) (fields : List Tok) (block : List Byte := [])
    (seen : Fired := {}) : State :=
  match s.ticket? n with
  | none => s
  | some t =>
    if !t.live then s
    else
      let fs := fields ++ [edTok s (queueUnit t.queue)]
      let s1 := s.markDone t r fs block
      let s2 := if seen.done then s1 else s1.fireDone t r
      let s3 := if seen.fail then s2 else s2.fireFail t r
      s3.deliver t r fs block

/-! ## The running order's lines (21_orders R546–R553) -/

/-- The words of an order's result. -/
def OrderResult.name : OrderResult → String
  | .done => "DONE" | .fail => "FAIL" | .stopped => "STOPPED" | .timeout => "TIMEOUT"

/-- The error codes of 04_desk Table 4.8, in table order from 1 (21_orders R559). -/
def errorCodes : List String :=
  ["SYNTAX", "UNKNOWN", "ABSENT", "BUSY-BOOT", "RANGE", "DENIED", "TAMPER-BUSY", "TAMPER", "LOCKED", "STALE", "STATE",
   "FULL", "NOTICKET", "CHECK"]

def Er.orderCode (e : Er) : Nat := errorCodes.idxOf e.code + 1

def Result.orderCode (r : Result) : Nat := 32 + r.index

/-- The oldest pending order starts when the running one has ended (R544). -/
def State.startPending (s : State) : State :=
  match s.orders.pending with
  | [] => s
  | p :: ps =>
    let s1 := { s with orders := { s.orders with pending := ps } }
    match s.slot p.k with
    | some slot => s1.startOrder p.k slot p.runTicket false
    | none => s1

/-- The running order ends: its result is recorded, its event fires, the oldest pending order starts, and an ORDER RUN
ticket completes (R553, R559); an order that its ticket's event starts in the same cycle is no second change of the
ORDERS edition (06_tickets R178). -/
def State.orderEnd (s : State) (res : OrderResult) (seen : Fired := {}) : State :=
  match s.orders.run with
  | none => s
  | some r =>
    let line := (r.lastErr.map (·.1)).getD r.line
    let code := (r.lastErr.map (·.2)).getD 0
    let o := s.orders
    let x : OrderLast := { result := res, line := line, code := code, errors := r.errors }
    let s1 := { s with orders := { o with run := none, last := vset o.last r.k (some x),
                                          fails := o.fails.incIf (decide (res ≠ OrderResult.done)) },
                       pwr := { s.pwr with idleSince := s.day.cyc } }
    let s2 := if res = .done then s1.fire 112 [kd "order" r.k, kd "errors" r.errors]
      else s1.fire 113 [kd "order" r.k, kw "result" res.name, kd "line" line, kd "code" code]
    let s3 := if s2.orders.run.isSome then s2 else s2.startPending.bump .orders
    let s4 : State := match r.runTicket with
      | none => s3
      | some t =>
        if res = .done then s3.completeCore t .done [kd "order" r.k, kd "errors" r.errors] [] seen
        else s3.completeCore t .fail [kw "why" res.name, kd "line" line, kd "code" code] [] seen
    s4.settled s

/-- The line in progress completes, with the code of its error if it is one: the order goes on to the next line,
begins again, or ends (R547, R550, R552). -/
def State.orderLineDone (s : State) (err : Option Nat) (seen : Fired := {}) : State :=
  match s.orders.run with
  | none => s
  | some r =>
    let r1 := match err with
      | none => { r with lastOk := true, await := .next }
      | some c => { r with lastOk := false, await := .next, errors := r.errors + 1, lastErr := some (r.line, c) }
    let put (x : Run) : State := { s with orders := { s.orders with run := some x } }
    match r.stopping with
    | some res => (put r1).orderEnd res seen
    | none =>
      if err.isSome && !r.slot.cont then
        if r.retriesUsed < r.slot.retries then
          put { r1 with line := 0, retriesUsed := r.retriesUsed + 1, errors := 0, lastOk := true,
                        ready := s.day.cyc + 1 }
        else (put r1).orderEnd .fail seen
      else if r.line + 1 < r.slot.lines.length then put { r1 with line := r.line + 1, ready := s.day.cyc + 1 }
      else (put r1).orderEnd .done seen

/-- A WAIT CLEAR whose event's pending bit reads 0 completes (R554). -/
def State.waitCheck (s : State) : State :=
  match s.orders.run.map (·.await) with
  | some (Await.waitClear ev _) => if s.events.pend.getLsbD ev then s else s.orderLineDone none
  | _ => s

/-- The running order waits for ticket n. -/
def State.awaits (s : State) (n : Nat) : Bool := (s.orders.run.map (·.await)) == some (Await.ticket n)

/-- The line of the running order that waited for ticket n, which has been freed, completes with the result (R547). -/
def State.lineAfter (s : State) (n : Nat) (r : Result) (seen : Fired) : State :=
  if (s.ticket? n).isNone then s.orderLineDone (if r = .done then none else some r.orderCode) seen else s

/-- A ticket completes; the line of the running order that waits for it completes with it (R547). -/
def State.complete (s : State) (n : Nat) (r : Result) (fields : List Tok) (block : List Byte := []) : State :=
  let s1 := s.completeCore n r fields block
  (if s.awaits n then s1.lineAfter n r { fail := decide (r ≠ .done) } else s1).settled s

/-- Several tickets complete in one cycle, in the order given: EV_TICKET_DONE and EV_TICKET_FAIL each fire once, for the
first ticket that has them (07_events R190), and the DN lines follow in the order of issue (R158). -/
def State.completeAll (s : State) (xs : List (Ticket × Result × List Tok)) : State :=
  let ys := (xs.filter (fun x => x.1.live)).map (fun x => (x.1, x.2.1, x.2.2 ++ [edTok s (queueUnit x.1.queue)]))
  let s1 := ys.foldl (fun s x => s.markDone x.1 x.2.1 x.2.2 []) s
  let host := ys.find? (fun x => x.1.owner.isHost)
  let bad := ys.find? (fun x => decide (x.2.1 ≠ Result.done))
  let s2 := match host with | some x => s1.fireDone x.1 x.2.1 | none => s1
  let s3 := match bad with | some x => s2.fireFail x.1 x.2.1 | none => s2
  let s4 := ys.foldl (fun s x => s.deliver x.1 x.2.1 x.2.2 []) s3
  let s5 := match ys.find? (fun x => s.awaits x.1.n) with
    | some x => s4.lineAfter x.1.n x.2.1 { done := host.isSome, fail := bad.isSome }
    | none => s4
  s5.settled s

/-- The running ticket of a queue completes. -/
def State.completeRunning (s : State) (q : Queue) (r : Result) (fields : List Tok) : State :=
  match s.running q with
  | none => s
  | some t => s.complete t.n r fields

/-- A running operation reaches the point where CANCEL stops it or where it ends (R169). -/
def State.completeOr (s : State) (q : Queue) (r : Result) (fields : List Tok) : State :=
  match s.running q with
  | none => s
  | some t =>
    match t.cancelBy with
    | some by_ => s.complete t.n .cancelled [kw "by" by_]
    | none => s.complete t.n r fields

/-- The front row write ends and is counted (19 Table 19.9); the next one begins, and a ticket that waited for it
completes (19 R495). -/
def State.rowDone (s : State) : State × Option Nat :=
  match s.rows with
  | [] => (s, none)
  | r :: rs =>
    let mine : Bool := match r.what with | .stacks _ _ => false | .cat _ => false | _ => true
    let s1 := { s with rows := rs, store := { s.store with recordWrites := s.store.recordWrites.incIf mine } }
    let s2 := match rs with | [] => s1 | x :: xs => s1.beginRow x xs
    (s2, r.last)

/-- Row writes whose last completes the ticket, with the fields it then reports. -/
def State.ticketRows (s : State) (n : Nat) (ws : List RowWhat) (fields : List Tok) : State :=
  if ws.isEmpty then s.complete n .done fields
  else (s.updTicket n (fun t => { t with fields := fields })).rowWrites ws (some n)

/-! ## Free values -/

/-- A free value of the model and the state that has drawn it (18_noise_vault R468). -/
def State.draw (s : State) : BitVec 128 × State := (Config.free s.drawn, { s with drawn := s.drawn + 1 })

/-! ## Answers to a line (04_desk R96) -/

/-- The lines of one synchronous reply; in framed mode a reply of more than one line ends with OK END (R97), and so does
the one line with its block of FRAME READ, whose entry says so.  An order's line sends nothing and is recorded for the
order (21_orders R547). -/
def State.replyLines (s : State) (l : Line) (kind : OutKind) (multi : Bool) (ls : List (List Tok))
    (block : List Byte := []) : State :=
  match l.origin with
  | .order _ => { s with orders := { s.orders with said := .ok } }
  | .port p =>
    let body : List (List Tok) :=
      if multi && s.framed p && (decide (1 < ls.length) || !block.isEmpty) then ls ++ [[w "OK", w "END", n' ls.length]] else ls
    let last := body.length - 1
    (body.zipIdx).foldl (fun s x =>
      s.push p { kind := if x.2 = last then kind else .reply false, tag := l.tag, toks := x.1,
                 block := if x.2 + 1 = ls.length then block else [] }) s

/-- A one-line reply `OK …`. -/
def State.ok (s : State) (l : Line) (toks : List Tok) (block : List Byte := []) : State :=
  s.replyLines l (.reply true) false [w "OK" :: toks] block

/-- The end of the power-up stalls that an access to these carrels meets. -/
def State.stallOver (s : State) (ns : List Nat) : Nat :=
  ((s.pwr.stall.filter (fun x => ns.contains x.1)).map (·.2)).foldl max 0

/-- The last line of a queue begins no earlier than the cycle t. -/
def dueLast (t : Nat) : List OutLine → List OutLine
  | [] => []
  | [l] => [{ l with due := t }]
  | l :: ls => l :: dueLast t ls

/-- A one-line reply that the stall of the access to these carrels delays (09_dormant R250). -/
def State.okAccess (s : State) (l : Line) (ns : List Nat) (toks : List Tok) : State :=
  let t := s.ok l toks
  match l.origin with
  | .order _ => t
  | .port p => t.setPort p { t.port p with out := dueLast (s.stallOver ns) (t.port p).out }

/-- A reply that may have more than one line. -/
def State.okMany (s : State) (l : Line) (ls : List (List Tok)) : State :=
  s.replyLines l (.reply true) true (ls.map (fun t => w "OK" :: t))

/-- The reply `TK n`. -/
def State.tk (s : State) (l : Line) (n : Nat) : State :=
  match l.origin with
  | .order _ => { s with orders := { s.orders with said := .ticket n } }
  | .port p => s.push p { kind := .reply true, tag := l.tag, toks := [w "TK", n' n] }

/-- Where EV_NOTICKET says a refused allocation came from (07_events Table 7.7). -/
def originName : Origin → String
  | .port .desk => "DESK"
  | .port .chute => "CHUTE"
  | .order _ => "ORDER"

/-- A refused line: its ER reply, and the counters and events of the refusal (R101, 06_tickets R154, R164, R165).
DESIGN CHOICE (log entry 72): a block whose CRC is wrong counts and fires EV_CHECK_FAIL only where CHECK BLOCK is the
error reported; on a line that is refused for an earlier error of R102 it does neither (R92, R107). -/
def State.refuse (s : State) (l : Line) (e : Er) : State :=
  let t := s.tickets
  let s1 := { s with tickets := { t with
    noTicket := if e.code = "NOTICKET" then t.noTicket.inc else t.noTicket,
    stale := if e.code = "STALE" then t.stale.inc else t.stale,
    stateC := if e.code = "STATE" then t.stateC.inc else t.stateC } }
  let s2 := match l.origin with
    | .order _ => { s1 with orders := { s1.orders with said := .er e } }
    | .port p => s1.push p { kind := .reply true, tag := l.tag, toks := [w "ER", w e.code] ++ e.detail.map w }
  if e.code = "NOTICKET" then s2.fire 123 [kw "from" (originName l.origin)]
  else if e.code = "CHECK" then
    match l.origin with
    | .port p =>
      let d := s2.desk
      let s3 := { s2 with desk := match p with
        | .desk => { d with checkFail := d.checkFail.inc }
        | .chute => { d with cCheckFail := d.cCheckFail.inc } }
      s3.fire 126 [kw "port" (portName p), kw "what" (if e.detail.isEmpty then "LINE" else "BLOCK")]
    | .order _ => s2
  else s2

end Sys2Proof.Machine
end

