-- ==== Sys2Proof/Machine/Operands.lean ====
section
/-! DEFINITION. The operands of a line: what each positional operand and each key admits, the order in which the
errors of a line are reported (04_desk R102), the arguments every ticketed verb takes (R90), and the two ways a
line is carried out: with a reply at once, or with a ticket. -/
namespace Sys2Proof

/-! ## Reading operands -/

def Line.arg (l : Line) (k : String) : Option Arg := l.named.lookup k

/-- A positional operand. -/
def Line.at? (l : Line) (i : Nat) : Option Arg := l.pos[i]?

def Line.has (l : Line) (k : String) : Bool := (l.arg k).isSome

/-- A level in half-decibel steps (13_census R346). -/
def halfOf : Arg → Option Int
  | .int v => some (2 * v)
  | .dec n p => if (2 * n) % (10 ^ p : Nat) = 0 then some (2 * n / (10 ^ p : Nat)) else none
  | _ => none

def argInt : Arg → Option Int
  | .int v => some v
  | _ => none

def argWord : Arg → Option String
  | .word x => some x
  | _ => none

/-- The words of a key that takes a word or a word list. -/
def argWords : Arg → List String
  | .word x => [x]
  | .list xs => xs
  | _ => []

def Line.int? (l : Line) (k : String) : Option Int := (l.arg k).bind argInt
def Line.nat? (l : Line) (k : String) : Option Nat := (l.int? k).map Int.toNat
def Line.word? (l : Line) (k : String) : Option String := (l.arg k).bind argWord
def Line.posInt? (l : Line) (i : Nat) : Option Int := (l.pos[i]?).bind argInt
def Line.posNat? (l : Line) (i : Nat) : Option Nat := (l.posInt? i).map Int.toNat
def Line.posWord? (l : Line) (i : Nat) : Option String := (l.pos[i]?).bind argWord

/-- A key that takes YES or ON. -/
def Line.on? (l : Line) (k : String) : Option Bool := (l.word? k).map (fun x => x == "ON" || x == "YES")

def Line.half? (l : Line) (k : String) : Option Int := (l.arg k).bind halfOf

/-- save=YES. -/
def Line.save (l : Line) : Bool := l.word? "save" == some "YES"

/-- A setting other than save= is given. -/
def Line.sets (l : Line) : Bool := l.named.any (fun a => a.1 != "save")

end Sys2Proof

namespace Sys2Proof.Machine

open Sys2Proof

/-! ## The block behind a line (R91, R92) -/

/-- What a line's block turns out to be. -/
inductive BlockGot
  | absent
  | good (l : List Byte)
  | badMarker
  | badCrc
  deriving DecidableEq, Repr

def argBlockLen : Arg → Option Nat
  | .block n => some n
  | _ => none

/-- A received block of n octets: its marker must repeat the line's, and its CRC must hold (R92). -/
def blockGot (n : Nat) (l : List Byte) : BlockGot :=
  let d := (l.drop 6).take n
  if l.take 6 ≠ blockMarker n then .badMarker
  else if beNat (l.drop (6 + n)) ≠ crcOf c16f d then .badCrc
  else .good d

end Sys2Proof.Machine

namespace Sys2Proof

open Sys2Proof.Machine

/-- The block behind the line, checked against the marker that announced it. -/
def Line.blockGot (l : Line) : BlockGot :=
  match l.block, l.pos.findSome? argBlockLen with
  | .absent, _ => .absent
  | .sent o, some n => Machine.blockGot n o
  | .sent _, none => .badMarker

/-- The octets a payload or a received block gives. -/
def Line.data (l : Line) (a : Option Arg) : List Byte :=
  match a, l.blockGot with
  | some (.octets x), _ => x
  | some (.block _), .good x => x
  | _, _ => []

end Sys2Proof

namespace Sys2Proof.Machine

open Sys2Proof

/-! ## What an operand may be -/

/-- What a value must be for its field: integers of a range, one of some integers or words, a Daybook value, and
the other forms of 04_desk Table 4.4. -/
inductive Kind
  | int (lo hi : Int)
  | oneOf (vs : List Int)
  | word (ws : List String)
  | intOr (lo hi : Int) (ws : List String)
  | words (ws : List String)
  | spacing
  | half (lo hi : Int)
  | halfOr (lo hi : Int) (ws : List String)
  | time
  | name
  | str
  | data (max : Nat)
  | any
  deriving DecidableEq, Repr

/-- Seconds-form ticks of the plan spacings 6.25 and 12.5 (11_radio R287), which are written like a Daybook value. -/
def spacingCode : Arg → Option Nat
  | .time t false => if t = 120000000 then some 0 else if t = 240000000 then some 1 else none
  | .int v => if v = 25 then some 2 else if v = 50 then some 3 else if v = 100 then some 4
      else if v = 200 then some 5 else none
  | _ => none

def inRange (lo hi v : Int) : Bool := decide (lo ≤ v) && decide (v ≤ hi)

/-- The value is one the field admits; otherwise the line is answered RANGE (R86, R606). -/
def Kind.admits : Kind → Arg → Bool
  | .int lo hi, .int v => inRange lo hi v
  | .oneOf vs, .int v => vs.contains v
  | .word ws, .word x => ws.contains x
  | .intOr lo hi _, .int v => inRange lo hi v
  | .intOr _ _ ws, .word x => ws.contains x
  | .words ws, .word x => ws.contains x
  | .words ws, .list xs => xs.all ws.contains && xs.Nodup
  | .spacing, a => (spacingCode a).isSome
  | .halfOr _ _ ws, .word x => ws.contains x
  | .half lo hi, a => match halfOf a with | some v => inRange lo hi v | none => false
  | .halfOr lo hi _, a => match halfOf a with | some v => inRange lo hi v | none => false
  | .time, .int v => inRange 0 (2 ^ 64 - 1) v
  | .time, .time t _ => decide (t < 2 ^ 64)
  | .name, .word _ => true
  | .str, .str _ => true
  | .data max, .octets l => decide (l.length ≤ max)
  | .data max, .block n => decide (n ≤ max)
  | .any, _ => true
  | _, _ => false

/-- The Daybook of the cycle in which the end of the line that is taken was accepted (R87): a port's line that waits
keeps it; an order's line has none but its own cycle. -/
def State.lineTime (s : State) (o : Origin) : Nat :=
  match o with
  | .port p => (((s.port p).lines.head?).map (·.at_)).getD s.now
  | .order _ => s.now

/-- A Daybook value of a line: a leading `+` adds to the Daybook of its line end (R87). -/
def State.timeOf (s : State) (l : Line) : Arg → Option Nat
  | .int v => if 0 ≤ v then some v.toNat else none
  | .time t rel => some (if rel then s.lineTime l.origin + t else t)
  | _ => none

/-! ## Errors and their order (R102) -/

/-- The step of R102 at which an error of a line with a known verb is checked. -/
def Er.step (e : Er) : Nat :=
  match e.code with
  | "SYNTAX" => match e.detail with | [] => 6 | d :: _ => if d == "MISSING" || d == "EXTRA" then 6 else 2
  | "UNKNOWN" => 6
  | "BUSY-BOOT" => 4
  | "ABSENT" => 5
  | "RANGE" => 7
  | "DENIED" => 8
  | "TAMPER-BUSY" => 9
  | "TAMPER" => 10
  | "LOCKED" => 11
  | "STALE" => 12
  | "STATE" => 13
  | "FULL" => 14
  | "NOTICKET" => 15
  | _ => 16

/-- The error reported: the first in the order of R102; within one step, the first in the order given. -/
def firstEr : List Er → Option Er
  | [] => none
  | e :: es =>
    match firstEr es with
    | none => some e
    | some f => if f.step < e.step then some f else some e

def er (code : String) (detail : List String) : Er := ⟨code, detail⟩
def erRange (k : String) : Er := ⟨"RANGE", [k]⟩
def erAbsent (f : Feat) : Er := ⟨"ABSENT", [f.name]⟩
def erState (u x : String) : Er := ⟨"STATE", [u, x]⟩
def erMissing : Er := ⟨"SYNTAX", ["MISSING"]⟩
def erExtra : Er := ⟨"SYNTAX", ["EXTRA"]⟩

/-- An error when the condition holds. -/
def erIf (b : Bool) (e : Er) : List Er := if b then [e] else []

/-- The unit is absent from the variant (08_bringup R223). -/
def State.needs (s : State) (f : Feat) : List Er := erIf (!s.has f) (erAbsent f)

/-- Errors that depend on configuration or on stored contents: they are checked only when a line runs, not when it is
stored in an order (21_orders R540). -/
def State.late (s : State) (es : List Er) : List Er := if s.orders.checking.isSome then [] else es

/-! ## The form of a verb -/

/-- The operands of one form of a verb, as 24_index Table 24.1 and its entry give them. -/
structure Form where
  noun : Bool := false             -- the verb takes nouns here: another word is no noun of it
  feat : Option Feat := none
  boot : Bool := false
  minPos : Nat := 0
  pos : List (String × Kind) := []
  keys : List (String × Kind) := []
  ticketed : Bool := false
  guarded : Bool := false
  order : Bool := true
  port : Bool := true
  deriving DecidableEq, Repr

/-- A unit by the name of 06_tickets Table 6.4. -/
def edUnitOf (x : String) : Option EdUnit := EdUnit.all.find? (fun u => u.name == x)

/-- The unit whose edition a name selects is absent from the variant (06_tickets R163). -/
def State.unitAbsent (s : State) (u : EdUnit) : List Er :=
  match u.feat with
  | none => []
  | some f => s.needs f

/-- Errors of AFTER=, DUE= and IF= (06_tickets R161–R163). -/
def State.askErs (s : State) (l : Line) : List Er :=
  (match l.arg "after" with
    | none => []
    | some (.int m) => erIf (!inRange 0 511 m) (erRange "after") ++
        s.late (erIf ((s.ticket? m.toNat).isNone && (s.past? m.toNat).isNone) (erRange "after"))
    | some _ => [erRange "after"]) ++
  (match l.arg "due" with
    | none => []
    | some a => match s.timeOf l a with
      | none => [erRange "due"]
      | some t => s.late (erIf (decide (t ≤ s.now) || decide (2 ^ 64 ≤ t)) (erRange "due")))

def State.guardErs (s : State) (l : Line) : List Er :=
  match l.arg "if" with
  | none => []
  | some (.guard u e) =>
    match edUnitOf u with
    | none => [erRange "if"]
    | some x => erIf (decide (65535 < e)) (erRange "if") ++ s.unitAbsent x ++
        erIf ((s.edition x).toNat != e) ⟨"STALE", [x.name]⟩
  | some _ => [erRange "if"]

/-- A tag, key and operand check of a line against its form: steps 4 to 8 and 12 of R102. -/
def State.formErs (s : State) (f : Form) (l : Line) : List Er :=
  erIf (!(decide (s.sys.stage = .ready)) && !f.boot) ⟨"BUSY-BOOT", []⟩ ++
  (match f.feat with | none => [] | some x => s.needs x) ++
  erIf (decide (l.pos.length < f.minPos)) erMissing ++
  erIf (decide (f.pos.length < l.pos.length)) (match f.noun && f.pos.isEmpty, l.at? 0 with
    | true, some (.word x) => ⟨"UNKNOWN", [x]⟩
    | _, _ => erExtra) ++
  (l.named.flatMap (fun a =>
    match f.keys.lookup a.1 with
    | some k => erIf (!k.admits a.2) (erRange a.1)
    | none =>
      if f.ticketed && (a.1 == "after" || a.1 == "due" || a.1 == "if") then []
      else if f.guarded && a.1 == "if" then []
      else [⟨"UNKNOWN", [a.1.toUpper]⟩])) ++
  ((l.pos.zip f.pos).flatMap (fun a => erIf (!a.2.2.admits a.1) (erRange a.2.1))) ++
  (match l.at? 0, f.pos.head? with      -- a word where the form takes a number is no noun of the verb
    | some (.word x), some (_, .int _ _) => [⟨"UNKNOWN", [x]⟩]
    | _, _ => []) ++
  (match l.origin with
    | .order _ => erIf (!f.order) ⟨"DENIED", ["ORDER"]⟩
    | .port _ => erIf (!f.port) ⟨"DENIED", ["PORT"]⟩) ++
  (if f.ticketed then s.askErs l else []) ++
  (if f.ticketed || f.guarded then s.guardErs l else []) ++
  (match l.blockGot with
    | .badMarker => [⟨"SYNTAX", ["BLOCK"]⟩]
    | .badCrc => [⟨"CHECK", ["BLOCK"]⟩]
    | _ => [])

/-! ## Taking a line -/

/-- The DESK_BUSY or Chute busy level after a change of the FIFO's fill (R68, R76). -/
def busyAfter (was : Bool) (fill : Nat) : Bool := if 448 ≤ fill then true else if fill ≤ 256 then false else was

/-- Octets in a port's input FIFO: the line being received and the lines waiting, each with its line end. -/
def PortSt.fill (p : PortSt) : Nat :=
  p.fifo.length + (p.lines.map (fun x => x.text.length + 1)).sum

/-- A complete line waits: the last one still expects its block while that is being received. -/
def PortSt.waits (p : PortSt) : Bool := decide ((if p.block.isSome then 1 else 0) < p.lines.length)

/-- A line leaves the FIFO when it is taken, and the other port's turn comes (R108). -/
def State.took (s : State) (o : Origin) : State :=
  match o with
  | .order _ => s
  | .port p =>
    let q := s.port p
    let q1 := { q with lines := q.lines.tail }
    let s1 := s.setPort p { q1 with busy := busyAfter q.busy q1.fill }
    { s1 with desk := { s1.desk with turnChute := decide (p = .desk) } }

/-- A port's lines can be taken: the part has announced itself on it and its output queue has room (R99). -/
def State.portOpen (s : State) (p : Port) : Bool :=
  (s.port p).announced && s.portPresent p && s.pwr.vddioOk && decide (s.queueFill p ≤ 2048)

def otherPort : Port → Port
  | .desk => .chute
  | .chute => .desk

/-- The other port's turn comes first: complete lines that wait on both are taken alternately, the Desk's first after a
reset (R108). -/
def State.otherFirst (s : State) (p : Port) : Bool :=
  (s.port p).waits && (s.port (otherPort p)).waits && s.portOpen (otherPort p) &&
    (s.desk.turnChute == decide (p = .desk))

/-- Lines are taken from this origin now: in bring-up or Run, from a port that is open where it has its turn, and from an
order only while it runs. -/
def State.listens (s : State) (o : Origin) : Bool :=
  (s.booting || s.inRun) &&
  match o with
  | .port p => s.portOpen p && !s.otherFirst p
  | .order k => s.orders.checking.isSome || decide (s.orders.run.map (·.k) = some k)

/-- What a line with a form does: nothing where no line is taken; else the first error is answered; else it acts.  A
line of the draft is only checked, at steps 2 to 8 of R102 (21_orders R540). -/
def runLine (f : Form) (l : Line) (s : State) (ers : List Er) (act : State → State) :
    Host.Outcome State Fault Refusal :=
  if s.listens l.origin then
    if s.orders.checking.isSome then
      let es := (s.formErs f l ++ ers).filter (fun e => decide (e.step ≤ 8))
      .next { s with orders := { s.orders with said := match firstEr es with | some e => .er e | none => .ok } }
    else
      match firstEr (s.formErs f l ++ ers) with
      | some e => .next ((s.took l.origin).refuse l e)
      | none => .next (act (s.took l.origin))
  else .next s

def ownerOf : Origin → Owner
  | .port p => .host p
  | .order k => .order k

/-- The guard of IF= (06_tickets R163). -/
def guardOf (l : Line) : Option (EdUnit × Nat) :=
  match l.arg "if" with
  | some (.guard u e) => (edUnitOf u).map (fun x => (x, e))
  | _ => none

/-- What a line asks of its ticket: its owner and tag, and AFTER=, DUE= and IF= (06_tickets R161–R163). -/
def State.askOf (s : State) (l : Line) (q : Queue) (startAt : Option Nat) (op : TicketOp) : TicketAsk :=
  { queue := q, op := op, owner := ownerOf l.origin, tag := l.tag, after := l.nat? "after",
    due := (l.arg "due").bind (s.timeOf l), startAt := startAt, guard := guardOf l }

/-- A ticketed line: its state errors are checked only where AFTER= is absent (06_tickets R165).  `mk` is what the
acceptance itself builds and the operation of the ticket; `post` is what it does once the ticket has its number. -/
def runTicketMk (f : Form) (q : Queue) (startAt : Option Nat) (l : Line) (s : State) (ers stateErs : List Er)
    (mk : State → State × TicketOp) (post : Nat → State → State) : Host.Outcome State Fault Refusal :=
  runLine { f with ticketed := true } l s
    (ers ++ (if l.has "after" then [] else stateErs) ++ erIf (s.noTicketFor (ownerOf l.origin)) ⟨"NOTICKET", []⟩)
    (fun s' =>
      let m := mk s'
      let r := m.1.issue (s.askOf l q startAt m.2)
      match r.2 with
      | some n => ((post n r.1).tk l n).poolLow (480 - s'.hostTickets)
      | none => r.1)

/-- A ticketed line whose acceptance does nothing but issue its ticket. -/
def runTicket (f : Form) (q : Queue) (l : Line) (s : State) (ers stateErs : List Er) (op : TicketOp) :
    Host.Outcome State Fault Refusal :=
  runTicketMk f q none l s ers stateErs (fun s => (s, op)) (fun _ s => s)

end Sys2Proof.Machine
end

