-- ==== Sys2Proof/Machine/Registers.lean ====
section
/-! DEFINITION. What a register of the register file is (05_register_file): its address, name and fields, what a
read returns, which writes are refused, and what an accepted write does. -/
namespace Sys2Proof.Machine

open Sys2Proof

/-- The access types of 05_register_file Table 5.2; no register of the part has an RC field. -/
inductive Access | rw | ro | wo | w1c
  deriving DecidableEq, Repr

/-- A field: a run of adjacent bits (R115). -/
structure Field where
  name : String
  hi : Nat
  lo : Nat
  acc : Access := .rw
  sgn : Bool := false
  deriving DecidableEq, Repr

/-- A register.  `check` gives the errors of writing a value beside the rules common to all registers; `apply`
carries an accepted value out. -/
structure Reg where
  addr : Nat
  name : String
  fields : List Field
  read : State → Word
  counter : Bool := false          -- under the counter model (R128)
  check : State → Word → List Er := fun _ _ => []
  apply : Word → State → State := fun _ s => s

def rw (name : String) (hi lo : Nat) : Field := { name := name, hi := hi, lo := lo }
def rws (name : String) (hi lo : Nat) : Field := { name := name, hi := hi, lo := lo, sgn := true }
def ro (name : String) (hi lo : Nat) : Field := { name := name, hi := hi, lo := lo, acc := .ro }
def ros (name : String) (hi lo : Nat) : Field := { name := name, hi := hi, lo := lo, acc := .ro, sgn := true }

/-- The bits of a field. -/
def Field.mask (f : Field) : Word := BitVec.ofNat 32 ((2 ^ (f.hi - f.lo + 1) - 1) * 2 ^ f.lo)

/-- The bits of the fields of an access type. -/
def Reg.mask (r : Reg) (p : Access → Bool) : Word :=
  r.fields.foldl (fun m f => if p f.acc then m ||| f.mask else m) 0

/-- No field can be written (R120). -/
def Reg.readOnly (r : Reg) : Bool := r.fields.all (fun f => f.acc == .ro)

/-- The errors of writing `v` to the register: read-only, reserved bits, and the register's own (R116, R119, R120). -/
def Reg.writeErs (r : Reg) (s : State) (v : Word) : List Er :=
  erIf r.readOnly ⟨"DENIED", ["READONLY"]⟩ ++
    erIf ((v &&& ~~~(r.mask (fun _ => true))) != 0) (erRange "value") ++ r.check s v

/-- An accepted write: read-only bits keep what they read (R118). -/
def Reg.write (r : Reg) (v : Word) (s : State) : State :=
  let m := r.mask (fun a => a == .ro)
  r.apply ((v &&& ~~~m) ||| (r.read s &&& m)) s

/-- A read-only register. -/
def roReg (addr : Nat) (name : String) (fields : List Field) (read : State → Word) : Reg :=
  { addr := addr, name := name, fields := fields, read := read }

/-- A read-only register of one unnamed run of bits (R115). -/
def roVal (addr : Nat) (name : String) (hi : Nat) (read : State → Word) : Reg :=
  roReg addr name [ro "value" hi 0] read

/-- A counter (R128–R132). -/
def ctrReg (addr : Nat) (name : String) (get : State → Counter) (set : Counter → State → State) : Reg :=
  { addr := addr, name := name, fields := [rw "count" 31 0], read := fun s => (get s).val, counter := true,
    apply := fun v s => set (Counter.write v 0) s }

/-- The WRAP bits of a block's counters, in address order from bit 0 (R129). -/
def wrapWord (cs : List Counter) : Word :=
  BitVec.ofNat 32 ((cs.zipIdx).foldl (fun a c => a + b2n c.1.wrap * 2 ^ c.2) 0)

def wrapReg (addr : Nat) (name : String) (k : Nat) (cs : State → List Counter) : Reg :=
  roReg addr name [ro "value" (k - 1) 0] (fun s => wrapWord (cs s))

/-- A configuration register of a unit: a write that changes the value counts once for the unit's edition (R122).
`also` is what a change does beside it, `store` what every accepted write does. -/
def cfgReg (addr : Nat) (name : String) (u : Option EdUnit) (c : CfgReg) (fields : List Field)
    (check : State → Word → List Er := fun _ _ => []) (also : State → State := id) (store : State → State := id) : Reg :=
  { addr := addr, name := name, fields := fields, read := fun s => s.cfgGet c, check := check,
    apply := fun v s => store (
      if s.cfgGet c = v then s
      else
        let s1 := also (s.cfgSet c v)
        match u with
        | some x => s1.bump x
        | none => s1) }

/-- A field value outside its range. -/
def fieldOut (v : Word) (hi lo a b : Nat) : List Er :=
  erIf (decide (fld v hi lo < a) || decide (b < fld v hi lo)) (erRange "value")

/-- A status word with the unit's edition in bits 31–16 (R117). -/
def statusWord (s : State) (u : EdUnit) (low : Nat) : Word :=
  BitVec.ofNat 32 ((s.edition u).toNat * 65536 + low)

end Sys2Proof.Machine
end

