-- ==== Sys2Proof/Machine/Daybook.lean ====
section
/-! DEFINITION. The Daybook, the keeper, drift, the partner offset and the host alarms (10_daybook), with the
set and slew of 05_register_file. -/
namespace Sys2Proof.Machine

open Sys2Proof

/-! ## Drift evaluation (R262, R263); temperatures are in quarters of a degree -/

/-- The bin that contains a temperature. -/
def binOf (t : Int) : Nat := ((t + 160) / 36).toNat.min 15

/-- A bin's centre, −35.5 + 9i °C, in quarters of a degree. -/
def binCentre (i : Nat) : Int := 36 * (i : Int) - 142

def State.bin (s : State) (i : Nat) : Bin := vget s.day.bins i {}

def State.learnedBelow (s : State) (b : Nat) : Option Nat :=
  ((List.range b).reverse).find? (fun i => decide (1 ≤ (s.bin i).conf))

def State.learnedAbove (s : State) (b : Nat) : Option Nat :=
  (List.range 16).find? (fun i => decide (b < i) && decide (1 ≤ (s.bin i).conf))

/-- Table 10.1: e(T) in 0.01 ppm and σ(T) in 0.01 ppm.  DESIGN CHOICE (log entry 44): an interpolated or one-sided e(T),
whose rounding R263 does not give, is rounded to whole 0.01 ppm with halves away from zero, as R262 rounds the mean. -/
def State.drift (s : State) (t : Int) : Int × Nat :=
  let b := binOf t
  let x := s.bin b
  if 8 ≤ x.conf then (x.e, 30)
  else if 1 ≤ x.conf then (x.e, 100)
  else
    match s.learnedBelow b, s.learnedAbove b with
    | some i, some j =>
      let ci := binCentre i
      let cj := binCentre j
      ((s.bin i).e + roundAway (((s.bin j).e - (s.bin i).e) * (t - ci)) (cj - ci), 200)
    | some i, none => (sided i, 1000)
    | none, some j => (sided j, 1000)
    | none, none => (0, 15000)
where
  /-- The one-sided case: −0.034 ppm/°C² about 25 °C, anchored at the nearest learned bin. -/
  sided (i : Nat) : Int :=
    (s.bin i).e - roundAway (34 * ((t - 100) * (t - 100) - (binCentre i - 100) * (binCentre i - 100))) 160

/-- The segment error (R262). -/
def State.segError (s : State) (ta tb : Int) : Int := roundAway ((s.drift ta).1 + (s.drift tb).1) 2

/-- The segment's uncertainty in 0.01 ppm. -/
def State.segSigma (s : State) (ta tb : Int) : Nat := max (s.drift ta).2 (s.drift tb).2

/-- Keeper periods as ticks under a drift error (R260). -/
def keeperTicks (periods : Nat) (e : Int) : Int :=
  roundUp ((periods : Int) * 9375 * 100000000) (16 * (100000000 + e))

/-! ## The partner offset and its uncertainty (R272–R275) -/

/-- The role field of LINK_CONFIG: 0 none, 1 End, 2 Parent (15_link). -/
def State.role (s : State) : Nat := fld s.cfg.link.config 17 16

def State.isEnd (s : State) : Bool := decide (s.role = 1)

def State.isParent (s : State) : Bool := decide (s.role = 2)

/-- The predicted offset at a Daybook value. -/
def State.offsetAt (s : State) (d : Nat) : Int :=
  match s.day.lastUpdate with
  | none => s.day.offset
  | some u => s.day.offset + roundAway (s.day.rate * ((d : Int) - (u.toNat : Int))) 100000000

def clampInt (lo hi v : Int) : Int := if v < lo then lo else if hi < v then hi else v

/-- An update of the offset by a residual (R273). -/
def State.partnerUpdate (s : State) (eps : Int) : State :=
  if !s.isEnd then s
  else
    let d := s.day
    let now := s.now
    let o := s.offsetAt now + eps
    let (rate, n, anchor) : Int × Nat × Option (Ticks × Int) :=
      match d.anchor with
      | some (da, oa) =>
        if 11520000000 ≤ (now : Int) - (da.toNat : Int) then
          let sample := roundAway (100000000 * (o - oa)) ((now : Int) - (da.toNat : Int))
          (clampInt (-32768) 32767 (d.rate + roundAway (sample - d.rate) ((min d.n 7 : Nat) + 1)), min (d.n + 1) 255,
            some (d.now, o))
        else (d.rate, d.n, d.anchor)
      | none => (d.rate, d.n, some (d.now, o))
    { s with day := { d with offset := o, rate := rate, n := n, anchor := anchor, lastUpdate := some d.now,
                             sigmaAcc := 0 } }

/-- The offset, its rate, count and anchor at 0. -/
def DaySt.noPartner (d : DaySt) : DaySt :=
  { d with offset := 0, rate := 0, n := 0, anchor := none, lastUpdate := none, sigmaAcc := 0 }

/-- The offset is cleared (R274), which changes the DAYBOOK edition (R283). -/
def State.partnerClear (s : State) : State := ({ s with day := s.day.noPartner }).bump .daybook

/-- A role other than End holds the offset at 0 (R274): on leaving End it is cleared, which counts for the edition where
there was anything to clear. -/
def State.partnerRole (s : State) : State :=
  if s.isEnd || decide (s.day.noPartner = s.day) then s else s.partnerClear

/-- The uncertainty u in µs, rounded up (R275), evaluated for a Daybook value; none before the first update and outside
End role.  DESIGN CHOICE (log entry 44): where u or 2u + 200 reaches 2^32 µs, which R275 does not treat, DAYBOOK_UNCERT
and DAYBOOK_GUARD keep its low 32 bits, and the replies show it whole. -/
def State.uncertAt (s : State) (d : Nat) : Option Nat :=
  if !s.isEnd then none
  else
    match s.day.lastUpdate with
    | none => none
    | some u =>
      let tu := d - u.toNat
      let sp := if 4 ≤ s.day.n then 1 else fld s.cfg.sys.dayRef 15 0
      -- 10⁻⁸ × ticks, to µs: × 5 / 96
      some (ceilDiv' ((s.day.sigmaAcc + sp * tu) * 5) (96 * 100000000))

def State.uncert (s : State) : Option Nat := s.uncertAt s.now

def State.guardAt (s : State) (d : Nat) : Option Nat := (s.uncertAt d).map (fun u => 2 * u + 200)

def State.guardUs (s : State) : Option Nat := s.uncert.map (fun u => 2 * u + 200)

/-! ## Ticks -/

/-- In raw mode the source runs: one raw bit every 16 cycles (18_noise_vault R468).  DESIGN CHOICE (log entry 80): the bits
fall on multiples of 16 of the model's count of cycles; R468 gives no phase. -/
def NoiseSt.sample (n : NoiseSt) (cyc : Nat) : NoiseSt :=
  if n.st = .raw ∧ cyc % 16 = 0 then { n with rawBits := n.rawBits.inc } else n

/-- The Daybook moves by `d` ticks while SCLK makes one cycle, with partner time unchanged by a slew tick (R274). -/
def State.advance (s : State) (d : Nat) : State :=
  let y := s.day
  { s with day := { y with now := y.now + BitVec.ofNat 64 d, cyc := y.cyc + 1,
                           offset := if s.isEnd then y.offset + 1 - d else y.offset },
           noise := s.noise.sample (y.cyc + 1) }

/-- The Daybook reads `v` from the next cycle (05 R142); partner time is unchanged (R274).  The pair latched at the last
keeper edge stays what it was (R259). -/
def State.applySet (s : State) (v : Ticks) : State :=
  let y := s.day
  let delta : Int := (v.toNat : Int) - (y.now.toNat : Int)
  let sh (t : Ticks) : Ticks := BitVec.ofInt 64 ((t.toNat : Int) + delta)
  { s with day := { y with now := v, cyc := y.cyc + 1,
                           offset := if s.isEnd then y.offset - delta else y.offset,
                           lastUpdate := y.lastUpdate.map sh,
                           anchor := y.anchor.map (fun a => (sh a.1, a.2)) },
           noise := s.noise.sample (y.cyc + 1) }

/-- One SCLK cycle: the Daybook counts one tick (01_node R12). -/
def State.tick (s : State) : State := s.advance 1

/-- SCLK runs: in bring-up and Run, and from OSC_RDY in a wake. -/
def State.clocked (s : State) : Bool :=
  s.sys.oscOn && decide (s.sys.hold = .none) &&
    (match s.pwr.state with
      | .dormant => false
      | .wake n _ => decide (2 ≤ n)
      | _ => true)

/-- A cycle in which a slew tick is applied: every 1024th (05 R144).  DESIGN CHOICE (log entry 44): the cycles are those
whose count is a multiple of 1024, since R144 gives no phase. -/
def State.slewCycle (s : State) : Bool := decide (s.day.cyc % 1024 = 0)

/-- Every 1024th cycle while a remainder exists: the Daybook advances by 2 or 0 and the remainder moves towards 0;
reaching 0 changes the DAYBOOK edition (05 R143, R144). -/
def execSlewTick (s : State) : Host.Outcome State Fault Refusal :=
  if s.day.slew = 0 || !s.awake || !s.slewCycle then .next s
  else
    let d := if 0 < s.day.slew then 2 else 0
    let r : Int := if 0 < s.day.slew then s.day.slew - 1 else s.day.slew + 1
    let s1 := s.advance d
    let s2 := { s1 with day := { s1.day with slew := r } }
    .next (if r = 0 then s2.bump .daybook else s2)

/-! ## DAY -/

/-- DAY (04_desk R87). -/
def execDay (l : Line) (s : State) : Host.Outcome State Fault Refusal :=
  runLine { noun := true } l s [] (fun s => s.ok l [w "DAY", .w (.time s.now)])

/-- DAY STATUS (R275). -/
def execDayStatus (l : Line) (s : State) : Host.Outcome State Fault Refusal :=
  runLine {} l s [] (fun s =>
    s.ok l [w "DAY", .w (.time s.now), kd "ticks" s.now, kw "cont" (yesNo s.day.cont), kd "slew" s.day.slew,
            kd "offset" (if s.isEnd then s.day.offset else 0), kd "rate" (if s.isEnd then s.day.rate else 0),
            .kv "uncert" (noneOr s.uncert), .kv "guard" (noneOr s.guardUs), edTok s .daybook])

/-- A scheduled ticket in the pool: one that carries DUE= and has not started, or whose start or action is fixed to
a Daybook time (05 R141, 06 R162). -/
def Ticket.scheduled (t : Ticket) : Bool := t.live && ((t.due.isSome && t.unstarted) || t.startAt.isSome)

/-- DAY SLEW (05 R143). -/
def execDaySlew (l : Line) (s : State) : Host.Outcome State Fault Refusal :=
  let r := s.day.slew + (l.posInt? 0).getD 0
  runLine { minPos := 1, pos := [("slew", .int (-(2 ^ 31)) (2 ^ 31 - 1))] } l s
    (erIf (!inRange (-(2 ^ 31)) (2 ^ 31 - 1) r) (erRange "slew")) (fun s =>
      let s1 := ({ s with day := { s.day with slew := r } }).bump .daybook
      s1.ok l [w "DAY", w "SLEW", kd "remain" r, edTok s1 .daybook])

/-! ## KEEPER -/

def setTemp (s : State) (t : Int) : State := { s with day := { s.day with temp := t } }

/-- The report of KEEPER: temp is the fresh reading (R261). -/
def State.keeperToks (s : State) : List Tok :=
  let t := s.day.temp
  let d := s.drift t
  [w "KEEPER", kw "run" (yesNo s.day.keeperOk), .kv "temp" (.fix 2 (t * 25)), kd "bin" (binOf t), kd "e" d.1,
   kd "conf" (s.bin (binOf t)).conf, .kv "sigma" (.fix 2 d.2), kd "samples" s.day.samples.val.toNat,
   kd "rejects" s.day.rejects.val.toNat, kd "ref" (fld s.cfg.sys.dayRef 15 0), edTok s .daybook]

/-- KEEPER (R261). -/
def execKeeper (temp : Int) (l : Line) (s : State) : Host.Outcome State Fault Refusal :=
  runLine { noun := true } l s [] (fun s => (setTemp s temp).ok l (setTemp s temp).keeperToks)

def refKey : String × Kind := ("ref", .int 0 5000)

/-- DAYBOOK_REF takes the value of ref= and stores it. -/
def State.setRef (s : State) (l : Line) : State :=
  match l.nat? "ref" with
  | none => s
  | some v => (s.cfgSet .dayRef (BitVec.ofNat 32 v)).save [.dayRef]

/-- What ref= does in any form of KEEPER: DAYBOOK_REF takes the value, and it is stored; a change counts for the edition
(R283). -/
def State.putRef (s : State) (l : Line) : State :=
  let s1 := s.setRef l
  if s1.cfg.sys.dayRef = s.cfg.sys.dayRef then s1 else s1.bump .daybook

/-- KEEPER TABLE (R263). -/
def execKeeperTable (l : Line) (s : State) : Host.Outcome State Fault Refusal :=
  runLine { keys := [refKey], order := !l.has "ref" } l s [] (fun s0 =>
    let s := s0.putRef l
    s.okMany l ((List.range 16).map (fun i =>
      [w "KEEPER", w "BIN", n' i, kd "lo" (-40 + 9 * (i : Int)), kd "e" (s.bin i).e, kd "conf" (s.bin i).conf])))

/-- The 60 octets of a drift row before its check (Table 10.2). -/
def DriftRow.body (r : DriftRow) : List Byte :=
  r.bins.toList.flatMap (fun b => leBytes 2 (unsigned 16 b.1) ++ leBytes 1 b.2) ++ leBytes 4 r.seq ++ leBytes 8 r.at_.toNat

/-- A drift row's 64 octets, the last four its CRC-32C (R270). -/
def DriftRow.octets (r : DriftRow) : List Byte := r.body ++ leBytes 4 (crcOf c32c r.body)

/-- The row that 64 octets hold, where their CRC is valid. -/
def driftRowOf (l : List Byte) : Option DriftRow :=
  if l.length = 64 && leNat (l.drop 60) == crcOf c32c (l.take 60) then
    some { bins := Vector.ofFn (fun i => (signed 16 (leNat ((l.drop (3 * i.val)).take 2)), leNat ((l.drop (3 * i.val + 2)).take 1))),
           seq := leNat ((l.drop 48).take 4), at_ := BitVec.ofNat 64 (leNat ((l.drop 52).take 8)) }
  else none

/-- The valid drift row with the latest sequence number, and its index (R271). -/
def latestDrift (v : Vector (List Byte) 4) : Option (Nat × DriftRow) :=
  (List.range 4).foldl (fun acc k =>
    match acc, driftRowOf (vget v k []) with
    | none, some r => some (k, r)
    | some (j, x), some r => if seqLater r.seq x.seq then some (k, r) else some (j, x)
    | acc, none => acc) none

/-- The drift table, its rotation and its checkpoint as the latest valid row gives them; a table without one is empty
(R271). -/
def DaySt.loadDrift (d : DaySt) (v : Vector (List Byte) 4) : DaySt :=
  match latestDrift v with
  | some (k, r) =>
    { d with bins := r.bins.map (fun b => { e := b.1, conf := b.2 }), checkpoint := some r.at_, driftSeq := r.seq, driftRow := k }
  | none => { d with bins := Vector.replicate 16 {}, checkpoint := none, driftSeq := 3, driftRow := 3 }

/-- The row that the drift table makes with a sequence number. -/
def State.driftNow (s : State) (seq : Nat) (at_ : Ticks) : DriftRow :=
  { bins := s.day.bins.map (fun b => (b.e, b.conf)), seq := seq, at_ := at_ }

/-- A drift row goes to the Record, in rotation, with the next sequence number and the Daybook of the write as its
checkpoint (R270). -/
def State.driftRowAt (s : State) (at_ : Ticks) : State :=
  let seq := (s.day.driftSeq + 1) % 2 ^ 32
  let k := (s.day.driftRow + 1) % 4
  ({ s with day := { s.day with driftSeq := seq, driftRow := k, checkpoint := some at_ } }).rowWrite
    { what := .drift k (s.driftNow seq at_).octets }

/-- The drift row of this cycle. -/
def State.driftRowWrite (s : State) : State := s.driftRowAt s.day.now

/-- KEEPER FORGET (R269, R270). -/
def execKeeperForget (temp : Int) (l : Line) (s : State) : Host.Outcome State Fault Refusal :=
  runLine { order := false, keys := [("bin", .int 0 15), refKey] } l s [] (fun s0 =>
    let s := s0.setRef l             -- the clearing and a new ref are one change (06 R178)
    let clear (b : Bin) : Bin := { b with e := 0, conf := 0 }
    let bins := match l.nat? "bin" with
      | some i => vset s.day.bins i (clear (s.bin i))
      | none => s.day.bins.map clear
    let s1 := ((setTemp { s with day := { s.day with bins := bins } } temp).driftRowWrite).bump .daybook
    s1.ok l s1.keeperToks)

/-- KEEPER ref= (R275): DAYBOOK_REF is set and stored. -/
def execKeeperRef (temp : Int) (l : Line) (s : State) : Host.Outcome State Fault Refusal :=
  runLine { noun := true, order := false, keys := [refKey] } l s [] (fun s =>
    let s2 := (setTemp s temp).putRef l
    s2.ok l s2.keeperToks)

/-! ## Whether the keeper runs (R266) -/

/-- keeper_ok rises after 256 consecutive good periods. -/
def execKeeperRunning (s : State) : Host.Outcome State Fault Refusal :=
  if s.day.keeperOk || decide (s.day.goodPeriods < 256) then .next s
  else .next ((({ s with day := { s.day with keeperOk := true } }).condOff 20).bump .daybook)

/-- keeper_ok falls: the edition, EV_KEEPER_STOP, and the drift window that saw it yields nothing (R268). -/
def State.keeperStop (s : State) : State :=
  let s1 := { s with day := { s.day with keeperOk := false, goodPeriods := 0, windowOk := false } }
  if s.day.keeperOk then (s1.bump .daybook).condOn 20 [] else s1

/-- The Daybook counts SCLK: not between OSC_RDY and LOGIC_RDY of a wake. -/
def State.counting (s : State) : Bool :=
  s.clocked && (match s.pwr.state with | .wake n _ => decide (n = 3) | _ => true)

/-- Keeper periods are measured in bring-up and Run (R266), a quiet wake and its return excepted. -/
def State.keeperWatched (s : State) : Bool := s.counting && !s.quiet

/-- A period outside 557–615 ticks. -/
def execKeeperPeriodFault (s : State) : Host.Outcome State Fault Refusal :=
  if s.keeperWatched then .next s.keeperStop else .next s

/-- No keeper edge within 1172 ticks. -/
def execKeeperEdgeTimeout (s : State) : Host.Outcome State Fault Refusal :=
  if s.keeperWatched then .next s.keeperStop else .next s

/-- A keeper edge: the keeper counts in every state while DREG is up (R258); with SCLK running the pair (D, k) is
latched and the period joins the run of good ones (R259, R266). -/
def execKeeperEdge (period : Nat) (s : State) : Host.Outcome State Fault Refusal :=
  if s.sys.hold = .por then .next s
  else
    let k := (s.day.keeper + 1) % 2 ^ 48
    if s.counting then
      let good := decide (557 ≤ period) && decide (period ≤ 615)
      let run := if good then min (s.day.goodPeriods + 1) 256 else 0
      -- the pair is latched in Run, which a wake has reached from its LOGIC_RDY
      let pair : Ticks × Nat := if s.inBoot then (s.day.dh, s.day.kh) else (s.day.now, k)
      .next { s with day := { s.day with keeper := k, dh := pair.1, kh := pair.2,
                                         goodPeriods := if s.quiet then s.day.goodPeriods else run } }
    else .next { s with day := { s.day with keeper := k } }

/-! ## Learning the drift (R268, R269) -/

/-- A sample applied to its bin, or rejected. -/
def State.driftSample (s : State) (b : Nat) (v : Int) : State :=
  let x := s.bin b
  let put (x : Bin) : State := { s with day := { s.day with bins := vset s.day.bins b x } }
  let done (x : Bin) (rej : Bool) : State :=
    let s1 := put { x with streak := 0 }
    ({ s1 with day := { s1.day with samples := s1.day.samples.inc,
                                    rejects := s1.day.rejects.incIf rej } }).driftRowWrite
  if 8 ≤ x.conf && decide (500 < (v - x.e).natAbs) then
    if x.streak + 1 < 4 then
      let s1 := put { x with streak := x.streak + 1 }
      { s1 with day := { s1.day with rejects := s1.day.rejects.inc } }
    else done { x with e := v, conf := 1 } true
  else if x.conf = 0 then done { x with e := v, conf := 1 } false
  else done { x with e := x.e + roundAway (v - x.e) ((min x.conf 15 : Nat) + 1), conf := min (x.conf + 1) 255 } false

/-- The drift window closes 656 keeper periods after the resume edge, with M ticks counted: the temperature is read
(R261), and the window yields a sample where keeper_ok was 1 throughout it (R268). -/
def execDriftWindowClose (temp : Int) (ticks : Nat) (s : State) : Host.Outcome State Fault Refusal :=
  if !(s.day.window && s.inRun) then .next s
  else
    let s1 := setTemp { s with day := { s.day with window := false, windowOk := false } } temp
    let v := roundAway (100000000 * (384375 - (ticks : Int))) (max ticks 1 : Nat)
    if s.day.keeperOk && s.day.windowOk && decide ((temp - s.day.tempWake).natAbs < 4) && inRange (-32768) 32767 v then
      .next (s1.driftSample (binOf ((temp + s.day.tempWake) / 2)) v)
    else .next s1

/-! ## Host alarms (R276–R281) -/

def AlarmSt.name : AlarmSt → String
  | .off => "OFF"
  | .armed => "ARMED"
  | .done => "DONE"

def State.alarm (s : State) (a : Nat) : Alarm := vget s.day.alarms a {}

def State.setAlarm (s : State) (a : Nat) (x : Alarm) : State :=
  { s with day := { s.day with alarms := vset s.day.alarms a x } }

def State.alarmToks (s : State) (a : Nat) (past : Option Bool) : List Tok :=
  let x := s.alarm a
  [w "ALARM", n' a, w x.st.name, .kv "at" (.time x.at_.toNat), kd "every" x.every.toNat, .kv "order" (noneOr x.order),
   kd "skipped" x.skipped] ++ (match past with | none => [] | some b => [kw "past" (yesNo b)]) ++ [edTok s .daybook]

def alarmKeys : List (String × Kind) :=
  [("at", .time), ("every", .int 0 4294967295), ("order", .intOr 0 31 ["NONE"])]

/-- ALARM without settings (R276, 04_desk R605). -/
def execAlarmReport (l : Line) (s : State) : Host.Outcome State Fault Refusal :=
  runLine { pos := [("a", .int 0 3)], keys := alarmKeys } l s (erIf (!l.named.isEmpty) erMissing) (fun s =>
    match l.posNat? 0 with
    | some a => s.ok l (s.alarmToks a none)
    | none => s.okMany l ((List.range 4).map (fun a => s.alarmToks a none)))

/-- ALARM at= arms an alarm (R276, R277). -/
def execAlarmArm (l : Line) (s : State) : Host.Outcome State Fault Refusal :=
  let when_ := (l.arg "at").bind (s.timeOf l)
  runLine { minPos := 1, pos := [("a", .int 0 3)], keys := alarmKeys } l s
    (erIf (!l.has "at") erMissing ++
      (match (l.arg "at").bind (s.timeOf l) with
        | some t => erIf (decide (2 ^ 64 ≤ t)) (erRange "at")
        | none => [])) (fun s =>
      match l.posNat? 0, when_ with
      | some a, some t =>
        let x : Alarm := { st := .armed, at_ := BitVec.ofNat 64 t,
                           every := BitVec.ofNat 32 ((l.nat? "every").getD 0), order := l.nat? "order" }
        let s1 := (s.setAlarm a x).bump .daybook
        s1.ok l (s1.alarmToks a (some (decide (t ≤ s.now))))
      | _, _ => s)

/-- ALARM OFF (R276, 04_desk R605). -/
def execAlarmOff (l : Line) (s : State) : Host.Outcome State Fault Refusal :=
  runLine { minPos := 1, pos := [("a", .int 0 3)], keys := alarmKeys } l s
      (erIf (!l.named.isEmpty) erExtra) (fun s =>
    match l.posNat? 0 with
    | some a =>
      let x := s.alarm a
      let s1 := s.setAlarm a { x with st := .off }
      let s2 := if x.st = .off then s1 else s1.bump .daybook
      s2.ok l (s2.alarmToks a none)
    | none => s)

/-- The alarm after it has fired: DONE, or moved to the first value above the Daybook (R276). -/
def Alarm.after (x : Alarm) (now : Nat) : Alarm :=
  if x.every = 0 then { x with st := .done }
  else
    let e := x.every.toNat * tickMs
    let j := (now - x.at_.toNat) / e + 1
    { x with at_ := BitVec.ofNat 64 (x.at_.toNat + j * e), skipped := min 255 (x.skipped + (j - 1)) }

/-- A host alarm is due. -/
def State.alarmDue (s : State) (a : Nat) : Bool :=
  decide ((s.alarm a).st = .armed) && decide ((s.alarm a).at_.toNat ≤ s.now)

/-- A due host alarm fires: it becomes DONE or advances, and starts its order (R276, 21_orders R543). -/
def State.alarmGo (s : State) (a : Nat) (afterReady : Bool) : State :=
  let x := s.alarm a
  let y := x.after s.now
  let s1 := s.setAlarm a y
  let s2 := if y.st = .done then s1.bump .daybook else s1
  match x.order with
  | some k => s2.triggerOrder k none afterReady
  | none => s2

/-! ## The alarm wake (R278) -/

/-- The alarm times other than those of host alarms: order schedules, the poll schedule's wake alarm 14 400 ticks ahead
of its time (15 R417), and tickets whose start is fixed (09 R237). -/
def State.otherAlarms (s : State) : List Nat :=
  s.orders.next.toList.filterMap id ++
  (if s.isEnd then (s.link.nextPoll.map (fun t => t - 14400)).toList else []) ++
  s.tickets.pool.filterMap (fun t => if t.unstarted then t.startAt else none)

/-- The times of the armed host alarms. -/
def State.hostAlarms (s : State) : List Nat :=
  (s.day.alarms.toList.filter (fun x => decide (x.st = .armed))).map (fun x => x.at_.toNat)

/-- The least count of keeper periods whose conversion reaches `n` ticks. -/
def periodsTo (n e : Int) : Nat :=
  if n ≤ 0 then 0 else ceilDiv' ((2 * n - 1) * (16 * (100000000 + e))).toNat (2 * 9375 * 100000000)

/-- The earliest alarm time A and the keeper count of its edge, found at the start of an entry sequence from the pair
(D_h, k_h) and the error at the entry temperature. -/
def State.alarmSet (s : State) : State :=
  let d := s.day
  { s with day := { d with alarmAt := (s.hostAlarms ++ s.otherAlarms).min?.map (fun a =>
      (a, (d.kh + periodsTo ((a : Int) - (d.dh.toNat : Int)) (s.drift d.tempEntry).1) % 2 ^ 48)) } }

/-- The edge of the alarm wake has come for an alarm time that is the earliest. -/
def State.alarmEdge (s : State) (t : Nat) : Bool :=
  match s.day.alarmAt with
  | some (a, k) => decide (t ≤ a) && decide ((s.day.keeper + 2 ^ 48 - k) % 2 ^ 48 < 2 ^ 47)
  | none => false

/-! ## Registers (Table 10.3) -/

def hi32 (v : Nat) : Word := BitVec.ofNat 32 (v / 2 ^ 32)
def lo32 (v : Nat) : Word := BitVec.ofNat 32 v

def dayRegs : List Reg :=
  [roReg 0x0400 "DAYBOOK_NOW_LO" [ro "ticks_lo" 31 0] (fun s => lo32 s.now),
   roReg 0x0404 "DAYBOOK_NOW_HI" [ro "ticks_hi" 31 0] (fun s => hi32 s.now),
   roReg 0x0408 "DAYBOOK_STATUS" [ro "edition" 31 16, ro "partner_valid" 4 4, ro "rate_valid" 3 3, ro "slewing" 2 2,
      ro "keeper_ok" 1 1, ro "cont" 0 0] (fun s =>
      statusWord s .daybook (b2n (s.isEnd && s.day.lastUpdate.isSome) * 16 + b2n (s.isEnd && decide (4 ≤ s.day.n)) * 8 +
        b2n (decide (s.day.slew ≠ 0)) * 4 + b2n s.day.keeperOk * 2 + b2n s.day.cont)),
   roReg 0x040C "DAYBOOK_SLEW" [ros "remain" 31 0] (fun s => BitVec.ofInt 32 s.day.slew),
   roReg 0x0410 "DAYBOOK_OFFSET_LO" [ro "off_lo" 31 0] (fun s => lo32 (unsigned 64 s.day.offset)),
   roReg 0x0414 "DAYBOOK_OFFSET_HI" [ro "off_hi" 31 0] (fun s => hi32 (unsigned 64 s.day.offset)),
   roReg 0x0418 "DAYBOOK_RATE" [ro "n" 31 24, ros "rate" 15 0] (fun s =>
      BitVec.ofNat 32 (s.day.n * 2 ^ 24 + unsigned 16 s.day.rate)),
   roReg 0x041C "DAYBOOK_UNCERT" [ro "u_us" 31 0] (fun s => BitVec.ofNat 32 (s.uncert.getD 0xFFFFFFFF)),
   roReg 0x0420 "DAYBOOK_GUARD" [ro "guard_us" 31 0] (fun s => BitVec.ofNat 32 (s.guardUs.getD 0xFFFFFFFF)),
   cfgReg 0x0424 "DAYBOOK_REF" (some .daybook) .dayRef [rw "ref" 15 0] (fun _ v => fieldOut v 15 0 0 5000),
   roReg 0x0428 "DAYBOOK_TEMP" [ro "bin" 19 16, ros "temp" 15 0] (fun s =>
      BitVec.ofNat 32 (binOf s.day.temp * 65536 + unsigned 16 s.day.temp)),
   ctrReg 0x042C "DAYBOOK_SAMPLES" (·.day.samples) (fun c s => { s with day := { s.day with samples := c } }),
   ctrReg 0x0430 "DAYBOOK_REJECTS" (·.day.rejects) (fun c s => { s with day := { s.day with rejects := c } }),
   roReg 0x0434 "DAYBOOK_WRAP" [ro "samples" 0 0, ro "rejects" 1 1]
      (fun s => wrapWord [s.day.samples, s.day.rejects])] ++
  (List.range 16).map (fun i => roReg (0x0440 + 4 * i) ("DAYBOOK_DRIFT_" ++ Nat.repr i) [ro "conf" 23 16, ros "e" 15 0]
    (fun s => BitVec.ofNat 32 ((s.bin i).conf * 65536 + unsigned 16 (s.bin i).e))) ++
  (List.range 4).flatMap (fun a =>
    let nm := "DAYBOOK_ALARM_" ++ Nat.repr a
    [roReg (0x0480 + 16 * a) (nm ++ "_AT_LO") [ro "at" 31 0] (fun s => lo32 (s.alarm a).at_.toNat),
     roReg (0x0484 + 16 * a) (nm ++ "_AT_HI") [ro "at" 31 0] (fun s => hi32 (s.alarm a).at_.toNat),
     roReg (0x0488 + 16 * a) (nm ++ "_EVERY") [ro "every" 31 0] (fun s => (s.alarm a).every),
     roReg (0x048C + 16 * a) (nm ++ "_CTRL") [ro "skipped" 23 16, ro "has_order" 8 8, ro "order" 6 2, ro "state" 1 0]
       (fun s =>
         let x := s.alarm a
         BitVec.ofNat 32 (x.skipped * 65536 + b2n x.order.isSome * 256 + x.order.getD 0 * 4 +
           (match x.st with | .off => 0 | .armed => 1 | .done => 2)))])

end Sys2Proof.Machine
end

