-- ==== Sys2Proof/Machine/Ledger.lean ====
section
/-! DEFINITION. The airtime ledger (16_ledger): tariffs, the interval grid, booking and correction, boundaries, the
journal and its recovery, and the LEDGER and TARIFF verbs. -/
namespace Sys2Proof.Machine

open Sys2Proof

/-! ## Tariffs (R427, R428) -/

/-- The interval lengths that divide 3600 s and lie in 60–3600 (R427). -/
def intervals : List Int :=
  [60, 72, 75, 80, 90, 100, 120, 144, 150, 180, 200, 225, 240, 300, 360, 400, 450, 600, 720, 900, 1200, 1800, 3600]

/-- Budget in ticks (R427). -/
def Tariff.ticks (t : Tariff) : Nat := t.interval * t.budget * 1920

/-- Interval length in ticks (R428). -/
def Tariff.len (t : Tariff) : Nat := t.interval * 19200000

def State.tariff (s : State) (t : Nat) : Option Tariff := vget s.ledger.tariffs t none

/-- The active tariff. -/
def State.activeTariff (s : State) : Tariff := (s.tariff s.ledger.active).getD tariff0

def State.budget (s : State) : Nat := s.activeTariff.ticks

/-- The ack reserve, 2 % of the budget (R427). -/
def State.reserveTicks (s : State) : Nat := s.budget * 2 / 100

/-- The end of the open interval. -/
def State.intervalEnd (s : State) : Nat := s.ledger.start + s.activeTariff.len

/-- What is left of the budget; negative where the reserve is in use. -/
def State.budgetLeft (s : State) : Int := (s.budget : Int) - s.ledger.spent

/-- 100 × (budget − spent) / budget with two decimals, rounded down and not below 0. -/
def State.remainPct (s : State) : Val :=
  .fix 2 (if 0 ≤ s.budgetLeft then 10000 * s.budgetLeft / (s.budget : Int) else 0)

/-! ## The journal (R444) -/

/-- A journal record is written: a snapshot of the account, to the next row, with the next sequence number. -/
def State.journal (s : State) (k : JKind) : State :=
  let g := s.ledger
  let row := (g.row + 1) % 32
  let seq := (g.seq + 1) % 2 ^ 32
  let r : JRec := { kind := k, tariff := g.active, pend := g.pend, isOpen := g.isOpen, booking := g.booked.isSome,
                    recovered := g.recovered, overB := s.events.cond.getLsbD 65, seq := seq, at_ := s.now,
                    start := g.start, interval := s.activeTariff.interval, budget := s.activeTariff.budget,
                    spent := g.spent, booked := g.booked.getD 0, total := g.total }
  ({ s with ledger := { g with row := row, seq := seq, journal := vset g.journal row (some r) } }).rowWrite
    { what := .journal row r.octets, journal := true }

/-- A journal record is being written or waits to be (R445). -/
def State.journalBusy (s : State) : Bool := s.rows.any (·.journal)

/-! ## Booking, refusal and correction (R431–R436) -/

/-- The booking rule (R432). -/
def State.canBook (s : State) (b : Nat) (ack : Bool) : Bool :=
  s.ledger.booked.isNone && decide (s.ledger.spent + b ≤ s.budget + if ack then s.reserveTicks else 0)

/-- The remaining budget lies above low_pct percent of the budget (R436). -/
def State.aboveLow (s : State) : Bool :=
  decide ((s.budget : Int) * fld s.cfg.link.ledger 6 0 < 100 * s.budgetLeft)

/-- EV_LEDGER_LOW, where the change from `old` crosses the low mark (R436). -/
def State.lowCheck (s old : State) : State :=
  if old.aboveLow && !s.aboveLow then s.fire 64 [.kv "remain" s.remainPct] else s

/-- An accepted booking: spent and total rise, the booking opens and a BOOK record begins (R431, R435). -/
def State.book (s : State) (b : Nat) (ack : Bool) : State :=
  let g := s.ledger
  let s1 := { s with ledger := { g with spent := g.spent + b, total := g.total + b, booked := some b } }
  let s2 := s1.journal .book
  let s3 := s2.lowCheck s
  if ack && decide (s.budget < s1.ledger.spent) then
    let s4 := { s3 with ledger := { s3.ledger with ackReserve := s3.ledger.ackReserve.inc } }
    s4.fire 66 [kd "used" (s1.ledger.spent - s.budget : Nat), kd "reserve" s.reserveTicks]
  else s3

/-- A refused booking: its counter, and the EV_OVERBUDGET condition from the first of the interval (R434). -/
def State.bookRefused (s : State) (b : Nat) (ack : Bool) : State :=
  let g := s.ledger
  let s1 := { s with ledger := if ack then { g with ackRefused := g.ackRefused.inc }
                               else { g with refusals := g.refusals.inc } }
  s1.condOn 65 [kd "need" b, kd "left" s.budgetLeft]

/-- The fields of an OVERBUDGET result (R434). -/
def State.overFields (s : State) (b : Nat) : List Tok := [kd "need" b, kd "left" s.budgetLeft]

/-- The correction at the end of a ramp-down, which closes the booking with a CHECK record (R433). -/
def State.settleBooking (s : State) (actual : Nat) : State :=
  match s.ledger.booked with
  | none => s
  | some b =>
    let g := s.ledger
    let cut := b - min actual b
    let s1 := { s with ledger := { g with spent := g.spent - cut, total := g.total - cut, booked := none } }
    (s1.journal .check).lowCheck s

/-! ## Boundaries and changes (R437–R443) -/

/-- The interval at the grid position containing the Daybook opens (R437); one flagged recovered opens spent, under the
same EV_OVERBUDGET condition (R447). -/
def State.openInterval (s : State) (spent : Nat) (recovered : Bool) : State :=
  let len := s.activeTariff.len
  let s1 := if recovered then s else s.condOff 65
  let s2 := { s1 with ledger := { s1.ledger with isOpen := true, start := s.now / len * len, spent := spent,
                                                 recovered := recovered } }
  ((s2.journal .open).bump .ledger).fire 68
    [kd "tariff" s2.ledger.active, .kv "start" (.time s2.ledger.start), kd "budget" s2.budget]

def State.closeInterval (s : State) : State :=
  ({ s with ledger := { s.ledger with isOpen := false } }).journal .close

/-- The pending change takes effect (R437, R441). -/
def State.applyChange (s : State) : State :=
  match s.ledger.pend with
  | none => s
  | some (t, b) =>
    let old := s.ledger.active
    let s1 := { s with ledger := { s.ledger with active := t, pend := none } }
    ((s1.journal .tariff).bump .ledger).fire 67 [kd "from" old, kd "to" t, .kv "at" (.time b)]

/-- CLOSE, TARIFF where the change applies, OPEN, and the completion of the change's ticket (R437, R441).  A change
that comes late within an interval carries the charge of the interval it closes, so that it yields no new budget. -/
def State.boundary (s : State) (change : Bool) : State :=
  let due := decide (s.intervalEnd ≤ s.now)
  let s1 := s.closeInterval
  let apply := change && s.ledger.pend.isSome
  let s2 := if apply then s1.applyChange else s1
  let s3 := s2.openInterval (if due then 0 else s.ledger.spent) false
  match apply, s.ledger.pend, s.ledger.pendTicket with
  | true, some (t, b), some n =>
    ({ s3 with ledger := { s3.ledger with pendTicket := none } }).complete n .done
      [kd "tariff" t, .kv "at" (.time b), kd "budget" s3.budget]
  | _, _, _ => s3

/-- The pending change is due, and its ticket has started or nothing holds it back: it is the first of its queue, its
deadline has not been reached (06 R162), and no AFTER= and no guard is left to check. -/
def State.changeDue (s : State) : Bool :=
  match s.ledger.pend with
  | none => false
  | some (_, b) => decide (b ≤ s.now) &&
      (match s.ledger.pendTicket.bind s.ticket? with
        | some t => decide (t.st = .running) ||
            (t.after.isNone && t.guard.isNone && (s.head .ledger).map (·.n) == some t.n && !s.isOverdue t)
        | none => true)

/-- An interval boundary has been reached and no booking defers it (R437, R438). -/
def State.boundaryDue (s : State) : Bool :=
  s.ledger.isOpen && s.ledger.booked.isNone && (decide (s.intervalEnd ≤ s.now) || s.changeDue)

/-- INTERVAL_BOUNDARY. -/
def execIntervalBoundary (s : State) : Host.Outcome State Fault Refusal :=
  if s.awake && s.boundaryDue then .next (s.boundary s.changeDue) else .next s

/-- The start of a change's ticket at B (R441); a booking in progress defers the boundary (R438). -/
def State.startTariff (s : State) : State := if s.ledger.booked.isSome then s else s.boundary true

/-- A pending change is removed, with a SCHED record (R441). -/
def State.unschedule (s : State) : State :=
  match s.ledger.pend with
  | none => s
  | some _ =>
    (({ s with ledger := { s.ledger with pend := none, pendTicket := none } }).journal .sched).bump .ledger

/-- A change is pending: its SCHED record is written (R440). -/
def State.schedule (s : State) (t b n : Nat) : State :=
  (({ s with ledger := { s.ledger with pend := some (t, b), pendTicket := some n } }).journal .sched).bump .ledger

/-- The ticket of a change, at the head of its queue, that was not the pending one at its acceptance becomes it. -/
def State.adopt (s : State) (n t b : Nat) : State := if s.ledger.pend.isSome then s else s.schedule t b n

/-- What a change meets at the head of its queue (06 R165, R166): another one is pending. -/
def State.pendErs (s : State) : List Er :=
  erIf (s.ledger.pend.isSome && decide (s.ledger.pendTicket ≠ (s.head .ledger).map (·.n))) (erState "LEDGER" "CHANGEPENDING")

/-- DAY SET closes the open interval and opens the one that contains the new value, with the same charge (R443). -/
def State.ledgerDaySet (s : State) : State :=
  if s.ledger.isOpen then (s.closeInterval).openInterval s.ledger.spent false else s

/-! ## Recovery (R446–R448) -/

/-- The latest valid row: the one with the greatest sequence number, compared modulo 2^32 within a half-range. -/
def laterRec (a b : JRec) : JRec := if (b.seq + 2 ^ 32 - a.seq) % 2 ^ 32 < 2 ^ 31 then b else a

def latestRec (v : List (Option JRec)) : Option JRec :=
  v.foldl (fun acc x => match acc, x with
    | none, y => y
    | some a, none => some a
    | some a, some b => some (laterRec a b)) none

/-- An interval charged as fully spent (R448). -/
def State.countRecovery (s : State) (start : Nat) : State :=
  (({ s with ledger := { s.ledger with recoveries := s.ledger.recoveries.inc },
             sys := { s.sys with alert := s.sys.alert ||| 0x40 } }).saveCounters).fire 69
    [.kv "start" (.time start)]

/-- Recovery from the latest journal record (R447); `cont` is R264's continuity. -/
def State.ledgerRecover (s : State) (cont : Bool) : State :=
  match latestRec s.ledger.journal.toList with
  | none =>
    -- R446: tariff 0, the interval counted as fully spent
    let s1 := { s with ledger := { s.ledger with active := 0, pend := none, pendTicket := none, total := 0 } }
    (s1.openInterval s1.budget true).condOn 65 [kd "need" 0, kd "left" 0]
  | some r =>
    let s1 := { s with ledger := { s.ledger with active := r.tariff, pend := r.pend, pendTicket := none,
                                                 isOpen := r.isOpen, start := r.start, spent := r.spent,
                                                 total := r.total, recovered := r.recovered, booked := none } }
    let len := r.interval * 19200000
    let full : Option Nat := if r.isOpen && (decide (r.start + len ≤ s.now) || !cont) then some (r.start / len)
      else none
    let s2 := match r.isOpen, full with
      | true, some _ =>
        let s2 := { s1 with ledger := { s1.ledger with spent := max r.spent (r.interval * r.budget * 1920) } }
        (s2.closeInterval.condOn 65 [kd "need" 0, kd "left" 0]).countRecovery r.start
      | true, none =>     -- the interval continues, with the condition that its record carries (Table 16.2 flags)
        let s2 := if r.overB then s1.condOn 65 [kd "need" 0, kd "left" s1.budgetLeft] else s1
        s2.journal .check
      | false, _ => s1
    let s3 := if !s2.ledger.isOpen && (match s2.ledger.pend with | some (_, b) => decide (b ≤ s.now) | none => false)
      then s2.applyChange else s2
    let s4 := if s3.ledger.isOpen then s3
      else
        let l := s3.activeTariff.len
        if (full.map (fun p => p * len)) = some (s3.now / l * l) then
          (s3.openInterval s3.budget true).condOn 65 [kd "need" 0, kd "left" 0]
        else s3.openInterval 0 false
    { s4 with ledger := { s4.ledger with reissue := s4.ledger.pend.isSome } }

/-- The first boot's account: tariff 0 valid, its interval open (R428, Table 8.4). -/
def State.ledgerFirst (s : State) : State :=
  let s1 := { s with ledger := { s.ledger with
    tariffs := vset (Vector.replicate 8 none) 0 (some tariff0), active := 0, pend := none, pendTicket := none,
    spent := 0, total := 0, booked := none } }
  s1.openInterval 0 false

/-- At READY a recovered change is issued as an order ticket with its start fixed to B (R447, R448). -/
def State.ledgerReissue (s : State) : State :=
  match s.ledger.reissue, s.ledger.pend with
  | true, some (t, b) =>
    let r := s.issue { queue := .ledger, op := .tariffSched t b, owner := .link, startAt := some b }
    { r.1 with ledger := { r.1.ledger with reissue := false, pendTicket := r.2 } }
  | _, _ => s

/-! ## Verbs -/

def State.pendVal (s : State) : Val :=
  match s.ledger.pend with
  | none => .word "NONE"
  | some (t, b) => .word (Nat.repr t ++ "@" ++ timeText b)

def State.ledgerToks (s : State) : List Tok :=
  let g := s.ledger
  [w "LEDGER", kd "tariff" g.active, .kv "start" (.time g.start), .kv "end" (.time s.intervalEnd),
   kd "budget" s.budget, kd "spent" g.spent, kd "reserve" s.reserveTicks, kd "booked" (g.booked.getD 0),
   .kv "remain" s.remainPct, .kv "pending" s.pendVal, edTok s .ledger]

/-- save=YES and save=NO. -/
def saveKey : String × Kind := ("save", .word ["YES", "NO"])

/-- LEDGER (R436, R449). -/
def execLedger (l : Line) (s : State) : Host.Outcome State Fault Refusal :=
  runLine { noun := true, keys := [("low", .int 0 100), saveKey] } l s
    (erIf (l.has "low" && (match l.origin with | .order _ => true | .port _ => false)) ⟨"DENIED", ["ORDER"]⟩)
    (fun s =>
      let s1 := match l.nat? "low" with
        | none => s
        | some p =>
          let v : Word := BitVec.ofNat 32 p
          if s.cfg.link.ledger = v then s else (s.cfgSet .ledger v).bump .ledger
      let s2 := if l.save then s1.save [.ledger] else s1
      s2.ok l s2.ledgerToks)

def State.tariffToks (s : State) (t : Nat) : List Tok :=
  let x := s.tariff t
  let y := x.getD ⟨0, 0⟩
  [w "TARIFF", n' t, kd "budget" y.budget, kd "interval" y.interval, kd "ticks" y.ticks,
   kw "valid" (yesNo x.isSome), edTok s .ledger]

def tariffKeys : List (String × Kind) := [("budget", .int 1 10000), ("interval", .oneOf intervals)]
def tariffPos : List (String × Kind) := [("t", .int 0 7)]

/-- TARIFF without settings. -/
def execTariffReport (l : Line) (s : State) : Host.Outcome State Fault Refusal :=
  runLine { order := false, pos := tariffPos, keys := tariffKeys } l s (erIf (!l.named.isEmpty) erMissing) (fun s =>
    match l.posNat? 0 with
    | some t => s.ok l (s.tariffToks t)
    | none => s.okMany l ((List.range 8).map s.tariffToks))

/-- The refusals of an edit of tariff t (R442). -/
def State.tariffEditErs (s : State) (t : Nat) : List Er :=
  erIf (decide (s.ledger.active = t)) ⟨"DENIED", ["ACTIVE"]⟩ ++
    erIf (decide (s.ledger.pend.map (·.1) = some t)) (erState "LEDGER" "CHANGEPENDING")

/-- An edited table goes to the Record (R429). -/
def State.putTariff (s : State) (t : Nat) (x : Option Tariff) : State :=
  let s1 := ({ s with ledger := { s.ledger with tariffs := vset s.ledger.tariffs t x } }).saveTariffs
  if s.tariff t = x then s1 else s1.bump .ledger

/-- TARIFF with settings (R427, R442). -/
def execTariffSet (l : Line) (s : State) : Host.Outcome State Fault Refusal :=
  let t := (l.posNat? 0).getD 8
  let old := s.tariff t
  runLine { order := false, minPos := 1, pos := tariffPos, keys := tariffKeys } l s
    (erIf (old.isNone && !(l.has "budget" && l.has "interval")) erMissing ++ s.tariffEditErs t) (fun s =>
      let o := old.getD ⟨0, 0⟩
      let s1 := s.putTariff t (some ⟨(l.nat? "budget").getD o.budget, (l.nat? "interval").getD o.interval⟩)
      s1.ok l (s1.tariffToks t))

/-- TARIFF CLEAR (R442, 04_desk R605). -/
def execTariffClear (l : Line) (s : State) : Host.Outcome State Fault Refusal :=
  let t := (l.posNat? 0).getD 8
  runLine { order := false, minPos := 1, pos := tariffPos, keys := tariffKeys } l s
    (erIf (!l.named.isEmpty) erExtra ++ s.tariffEditErs t) (fun s =>
      let s1 := s.putTariff t none
      s1.ok l (s1.tariffToks t))

/-- The effective boundary of a change (R440). -/
def State.effective (s : State) (t : Nat) (at_ : Nat) : Nat :=
  let m := Nat.lcm s.activeTariff.len ((s.tariff t).getD tariff0).len
  ceilDiv' (max at_ (s.now + 1)) m * m

/-- TARIFF SCHED (R440): the SCHED record is written at acceptance.  Only one change may be pending: a second one is
refused, or with AFTER= meets the first at the head of its queue (06 R165).  DESIGN CHOICE (log entry 68): a change with
AFTER= that is accepted while another one is pending writes its SCHED record there, once no other is pending. -/
def execTariffSched (l : Line) (s : State) : Host.Outcome State Fault Refusal :=
  let t := (l.posNat? 0).getD 8
  let b := s.effective t (((l.arg "at").bind (s.timeOf l)).getD 0)
  runTicketMk { order := false, minPos := 1, pos := tariffPos, keys := [("at", .time)] } .ledger (some b) l s
    (erIf (!l.has "at") erMissing ++
      erIf ((s.tariff t).isNone || decide (s.ledger.active = t)) (erRange "t") ++
      erIf (decide (2 ^ 64 ≤ b)) (erRange "at"))
    (erIf s.ledger.pend.isSome (erState "LEDGER" "CHANGEPENDING"))
    (fun s => (s, .tariffSched t b)) (fun n s => s.adopt n t b)

/-- TARIFF UNSCHED (R441). -/
def execTariffUnsched (l : Line) (s : State) : Host.Outcome State Fault Refusal :=
  runLine { order := false } l s [] (fun s =>
    match s.ledger.pend with
    | none => s.ok l [w "TARIFF", w "UNSCHED", w "NONE"]
    | some _ =>
      let s1 := s.unschedule.ok l [w "TARIFF", w "UNSCHED", .w s.pendVal]
      match s.ledger.pendTicket with
      | some n => s1.complete n .cancelled [kw "by" "HOST"]
      | none => s1)

/-! ## Registers (Table 16.3) -/

def ledgerCounters (s : State) : List Counter :=
  [s.ledger.refusals, s.ledger.ackReserve, s.ledger.ackRefused, s.ledger.recoveries]

def ledgerRegs : List Reg :=
  [roReg 0x1000 "LEDGER_STATUS" [ro "edition" 31 16, ro "recovered" 11 11, ro "overbudget" 10 10, ro "booking" 9 9,
      ro "pend_valid" 8 8, ro "pend_tariff" 6 4, ro "tariff" 2 0] (fun s =>
      let g := s.ledger
      statusWord s .ledger (b2n g.recovered * 2048 + b2n (s.events.cond.getLsbD 65) * 1024 + b2n g.booked.isSome * 512 +
        b2n g.pend.isSome * 256 + (g.pend.map (·.1)).getD 0 * 16 + g.active)),
   cfgReg 0x1004 "LEDGER_CONFIG" (some .ledger) .ledger [rw "low_pct" 6 0] (fun _ v => fieldOut v 6 0 0 100),
   roReg 0x1008 "LEDGER_START_LO" [ro "value" 31 0] (fun s => lo32 s.ledger.start),
   roReg 0x100C "LEDGER_START_HI" [ro "value" 31 0] (fun s => hi32 s.ledger.start),
   roReg 0x1010 "LEDGER_BUDGET_LO" [ro "value" 31 0] (fun s => lo32 s.budget),
   roReg 0x1014 "LEDGER_BUDGET_HI" [ro "value" 31 0] (fun s => hi32 s.budget),
   roReg 0x1018 "LEDGER_SPENT_LO" [ro "value" 31 0] (fun s => lo32 s.ledger.spent),
   roReg 0x101C "LEDGER_SPENT_HI" [ro "value" 31 0] (fun s => hi32 s.ledger.spent),
   roVal 0x1020 "LEDGER_RESERVE" 31 (fun s => lo32 s.reserveTicks),
   roVal 0x1024 "LEDGER_BOOKED" 31 (fun s => lo32 (s.ledger.booked.getD 0)),
   roReg 0x1028 "LEDGER_PEND_AT_LO" [ro "value" 31 0] (fun s => lo32 ((s.ledger.pend.map (·.2)).getD 0)),
   roReg 0x102C "LEDGER_PEND_AT_HI" [ro "value" 31 0] (fun s => hi32 ((s.ledger.pend.map (·.2)).getD 0)),
   roReg 0x1030 "LEDGER_TOTAL_LO" [ro "value" 31 0] (fun s => lo32 s.ledger.total),
   roReg 0x1034 "LEDGER_TOTAL_HI" [ro "value" 31 0] (fun s => hi32 s.ledger.total),
   roVal 0x1038 "LEDGER_PEND_TICKET" 8 (fun s => BitVec.ofNat 32 (s.ledger.pendTicket.getD 0)),
   ctrReg 0x1040 "LEDGER_REFUSALS" (·.ledger.refusals)
      (fun c s => { s with ledger := { s.ledger with refusals := c } }),
   ctrReg 0x1044 "LEDGER_ACK_RESERVE" (·.ledger.ackReserve)
      (fun c s => { s with ledger := { s.ledger with ackReserve := c } }),
   ctrReg 0x1048 "LEDGER_ACK_REFUSED" (·.ledger.ackRefused)
      (fun c s => { s with ledger := { s.ledger with ackRefused := c } }),
   ctrReg 0x104C "LEDGER_RECOVERIES" (·.ledger.recoveries)
      (fun c s => ({ s with ledger := { s.ledger with recoveries := c } }).saveCounters),
   wrapReg 0x1050 "LEDGER_WRAP" 4 ledgerCounters] ++
  (List.range 8).map (fun t => roReg (0x1060 + 4 * t) ("LEDGER_TARIFF_" ++ Nat.repr t)
    [ro "valid" 31 31, ro "interval_s" 27 16, ro "budget" 13 0] (fun s =>
      match s.tariff t with
      | none => 0
      | some x => BitVec.ofNat 32 (2 ^ 31 + x.interval * 65536 + x.budget)))

end Sys2Proof.Machine
end

