-- ==== Sys2Proof/Machine/Supply.lean ====
section
/-! DEFINITION. Supply measurement and the supply registers (03_power). -/
namespace Sys2Proof.Machine

open Sys2Proof

/-- The report of PWR. -/
def State.pwrToks (s : State) : List Tok :=
  [w "PWR", kd "vbat" s.pwr.vbat.toNat, kd "vddio" s.pwr.vddio.toNat, kd "vddpa" s.pwr.vddpa.toNat,
   kd "warn" (fld s.cfg.sys.vbatWarn 15 0), kd "bor_run" s.pwr.borRun.val.toNat,
   kd "bor_dormant" s.pwr.borDormant.val.toNat, edTok s .pwr]

/-- PWR (R58): any argument is answered `ER SYNTAX`, which overrides step 6 of R102. -/
def execPwr (l : Line) (s : State) : Host.Outcome State Fault Refusal :=
  runLine {} { l with pos := [], named := [] } s (erIf (!(l.pos.isEmpty && l.named.isEmpty)) ⟨"SYNTAX", []⟩)
    (fun s => s.ok l s.pwrToks)

/-- PWR MEASURE: a ticket on the PWR queue. -/
def execPwrMeasure (l : Line) (s : State) : Host.Outcome State Fault Refusal :=
  runTicket {} .pwr l s [] [] .pwrMeasure

/-- A measurement begins (R58), unless one is running, which then serves both (R65). -/
def State.startMeasure (s : State) (hp : Bool) : State :=
  if s.pwr.measBusy then { s with pwr := { s.pwr with measHp := s.pwr.measHp || hp } }
  else { s with pwr := { s.pwr with measBusy := true, measHp := hp } }

/-- The transmit level now set, in dBm (Table 11.10). -/
def State.txLevel (s : State) : Int := signed 8 (fld s.cfg.radio.txConfig 7 0)

/-- A measurement ends (R58, R59): the registers and the PWR edition, the two warnings, and any PWR ticket, whose
DN line follows the event lines (06_tickets R158).  With VBAT in its range the rails hold ±3 % (R46, Table 3.2); below it
whether they do is a free value (log entry 40). -/
def execMeasurementDone (vbat vddio vddpa : Nat) (s : State) : Host.Outcome State Fault Refusal :=
  if !s.pwr.measBusy then .next s
  else
    let hp := s.pwr.measHp
    let warn := fld s.cfg.sys.vbatWarn 15 0
    let d := s.draw
    let rails : Bool × Bool := if 1800 ≤ vbat then (true, true) else (d.1.getLsbD 0, d.1.getLsbD 1)
    let s := if 1800 ≤ vbat then s else d.2
    let p := { s.pwr with vbat := BitVec.ofNat 16 vbat, vregOk := rails.1, buckOk := rails.2, vddio := BitVec.ofNat 16 vddio,
                          vddpa := BitVec.ofNat 16 vddpa, measBusy := false, measHp := false,
                          vbatLow := decide (vbat < warn),
                          vddpaLow := if hp then decide (vddpa < 3300) else s.pwr.vddpaLow }
    let s1 := ({ s with pwr := p }).bump .pwr
    let s2 := if vbat < warn then s1.fire 16 [kd "vbat" vbat, kd "warn" warn] else s1
    let s3 := if hp && decide (vddpa < 3300) then s2.fire 17 [kd "vddpa" vddpa, kd "level" s.txLevel] else s2
    .next (s3.completeRunning .pwr .done [kd "vbat" vbat, kd "vddio" vddio, kd "vddpa" vddpa])

/-- Table 3.8. -/
def pwrRegs : List Reg :=
  [roReg 0x0200 "PWR_STATUS" [ro "edition" 31 16, ro "vddpa_low" 5 5, ro "vbat_low" 4 4, ro "vddio_ok" 3 3,
      ro "vreg_ok" 2 2, ro "buck_ok" 1 1, ro "meas_busy" 0 0] (fun s =>
      statusWord s .pwr (b2n s.pwr.vddpaLow * 32 + b2n s.pwr.vbatLow * 16 + b2n s.pwr.vddioOk * 8 +
        b2n s.pwr.vregOk * 4 + b2n s.pwr.buckOk * 2 + b2n s.pwr.measBusy)),
   roVal 0x0204 "PWR_VBAT" 15 (fun s => BitVec.ofNat 32 s.pwr.vbat.toNat),
   roVal 0x0208 "PWR_VDDIO" 15 (fun s => BitVec.ofNat 32 s.pwr.vddio.toNat),
   roVal 0x020C "PWR_VDDPA" 15 (fun s => BitVec.ofNat 32 s.pwr.vddpa.toNat),
   cfgReg 0x0210 "PWR_VBAT_WARN" (some .pwr) .vbatWarn [rw "warn_mv" 15 0] (fun _ v => fieldOut v 15 0 1800 3800)
      id (fun s => s.save [.vbatWarn]),
   ctrReg 0x0214 "PWR_BOR_RUN_COUNT" (·.pwr.borRun)
      (fun c s => ({ s with pwr := { s.pwr with borRun := c } }).saveCounters),
   ctrReg 0x0218 "PWR_BOR_DORMANT_COUNT" (·.pwr.borDormant)
      (fun c s => ({ s with pwr := { s.pwr with borDormant := c } }).saveCounters)]

end Sys2Proof.Machine
end

