-- ==== Sys2Proof/Machine/Radio.lean ====
section
/-! DEFINITION. Bands, channel plans, synthesizer words, air profiles and airtime, the radio states and the radio's
settings (11_radio, 12_modem); the census span (13_census R337–R340).  What happens on the air stands in Air.lean. -/
namespace Sys2Proof.Machine

open Sys2Proof

/-! ## Air profiles (12_modem Table 12.1) -/

structure Profile where
  name : String
  code : Nat
  rate : Nat
  sym : Nat                        -- ticks per symbol
  bits : Nat                       -- bits per symbol
  rep : Nat                        -- repetition of format D
  filter : Nat                     -- receive filter, Hz
  fmts : List Fmt
  deriving DecidableEq, Repr

def profiles : List Profile :=
  [⟨"N1", 0, 1200, 16000, 1, 1, 6250, [.s]⟩, ⟨"N2", 1, 2400, 8000, 1, 1, 12500, [.s, .m]⟩,
   ⟨"N4", 2, 4800, 4000, 1, 1, 12500, [.s, .m]⟩, ⟨"N9", 3, 9600, 4000, 2, 1, 12500, [.s]⟩,
   ⟨"W19", 4, 19200, 2000, 2, 1, 50000, [.s, .m]⟩, ⟨"S50", 5, 50000, 384, 1, 1, 200000, [.s]⟩,
   ⟨"D6", 6, 600, 16000, 1, 1, 6250, [.d]⟩, ⟨"D3", 7, 300, 16000, 1, 2, 6250, [.d]⟩,
   ⟨"D1", 8, 150, 16000, 1, 4, 6250, [.d]⟩]

def profileN2 : Profile := ⟨"N2", 1, 2400, 8000, 1, 1, 12500, [.s, .m]⟩

/-- The active profile (R311). -/
def State.profile (s : State) : Profile := profiles.getD (fld s.cfg.modem.profile 3 0) profileN2

/-- The profile sends and detects the wake pattern (R333). -/
def Profile.wakes (p : Profile) : Bool := !(p.code == 4 || p.code == 5)

/-- One wake pattern in ticks (Table 12.5). -/
def Profile.pattern (p : Profile) : Nat := 32 * p.rep / p.bits * p.sym

/-- Preamble octets of format S, with four more after a hop (13_census R358). -/
def State.preambleOctets (s : State) (hop : Bool) : Nat := fld s.cfg.modem.profile 23 16 + if hop then 4 else 0

/-- Ticks from the first preamble symbol to the end of the sync word (R318–R320). -/
def Profile.shr (p : Profile) (f : Fmt) (pre : Nat) : Nat :=
  match f with
  | .s => 8 * (pre + 2) / p.bits * p.sym
  | .m => Config.wmbusSymbols p.code * p.sym
  | .d => (64 + 32 * p.rep) * p.sym

/-- Time on air in ticks of a frame of `n` octets: the PSDU of format S, the frame with its block checks of format
M, the payload of format D (Table 12.3). -/
def Profile.airtime (p : Profile) (f : Fmt) (pre n : Nat) : Nat :=
  match f with
  | .s => 8 * (pre + 2 + 2 + n) / p.bits * p.sym
  | .m => (Config.wmbusSymbols p.code + 8 * n / p.bits) * p.sym
  | .d => (64 + 32 * p.rep + p.rep * 128 * dBlocks n) * p.sym

/-! ## What is sent: bits and tones (R315–R325, R333) -/

/-- The SFD of format S, the sync word of format D and the wake pattern (R318, R320, R333). -/
def sfdWord : Nat := 0x904E
def syncWordD : Nat := 0x6A3CD951
def wakeWord : Nat := 0x5C9A27E3

/-- Each bit sent as `r` symbols. -/
def repeatBits (r : Nat) (l : List Bool) : List Bool := l.flatMap (fun b => List.replicate r b)

/-- The bits of a frame from its preamble on: format S with the PHR first of its octets and `pre` octets of preamble,
format M with the standard's preamble and sync word, format D coded (R318–R320, R325).  The SFD and the PHR are sent as
written, first bit first, and the PSDU's octets least significant bit first: PRESUMED of IEEE 802.15.4-2020 (log entry
20). -/
def Profile.frameBits (p : Profile) (f : Fmt) (mB : Bool) (pre : Nat) (o : List Byte) : List Bool :=
  match f with
  | .s => bitsOf (List.replicate pre 0x55) ++ bitsOf (beBytes 2 sfdWord) ++ bitsOf (o.take 2) ++ bitsLow (o.drop 2)
  | .m => (List.range (Config.wmbusSymbols p.code * p.bits)).map (Config.wmbusBit p.code mB) ++ bitsOf o
  | .d => (List.range 64).map (fun i => decide (i % 2 = 0)) ++ repeatBits p.rep (bitsOf (beBytes 4 syncWordD)) ++
      dSymbols p.rep o

/-- `n` whole wake patterns (R333). -/
def Profile.trainBits (p : Profile) (n : Nat) : List Bool :=
  (List.replicate n (repeatBits p.rep (bitsOf (beBytes 4 wakeWord)))).flatten

/-- The deviation of the 2-level profiles in Hz (Table 12.1). -/
def Profile.deviation (p : Profile) : Int :=
  if p.code = 1 ∨ p.code = 2 then 2400 else if p.code = 5 then 25000 else 600

/-- The deviation of N9's symbol for a pair of bits (Table 12.2). -/
def tone9 (a b : Bool) : Int := (if a then -1 else 1) * (if a == b then (if a then 2400 else 800) else if a then 800 else 2400)

/-- Symbols of two bits each, the first bit the earlier. -/
def pairTones (f : Bool → Bool → Int) : List Bool → List Int
  | a :: b :: r => f a b :: pairTones f r
  | _ => []

/-- The deviations in Hz by which bits are sent (R315, R316). -/
def Profile.tones (p : Profile) (l : List Bool) : List Int :=
  if p.code = 3 then pairTones tone9 l
  else if p.code = 4 then pairTones Config.w19Tone l
  else l.map (fun b => if b then p.deviation else -p.deviation)

/-! ## Sync words and patterns as they are received (R321, R334) -/

/-- The bits in which the low `n` bits of two words differ. -/
def bitErrors (n : Nat) (a b : BitVec 32) : Nat := ((List.range n).filter (fun i => a.getLsbD i != b.getLsbD i)).length

/-- A sync word found: its format, its bit errors, and for format M the frame format. -/
structure Synced where
  fmt : Fmt
  errors : Nat
  mB : Bool := false
  deriving DecidableEq, Repr

/-- The format whose sync word the bits received last match within the errors permitted to it; of S and M on one symbol,
S (R321).  DESIGN CHOICE (log entry 23): of M's two sync words the nearer is taken, A where both are equally near. -/
def State.syncOf (s : State) (b : BitVec 32) : Option Synced :=
  let c := s.cfg.modem
  let may (f : Fmt) (n k : Nat) : Bool := s.profile.fmts.contains f && decide (n ≤ k)
  let es := bitErrors 16 b (BitVec.ofNat 32 sfdWord)
  let ed := bitErrors 32 b (BitVec.ofNat 32 syncWordD)
  let ea := Config.wmbusErrors false b
  let eb := Config.wmbusErrors true b
  if may .s es (fld c.sync 1 0) then some { fmt := .s, errors := es }
  else if may .m (min ea eb) (fld c.sync 3 2) then some { fmt := .m, errors := min ea eb, mB := decide (eb < ea) }
  else if may .d ed (fld c.deep 2 0) then some { fmt := .d, errors := ed }
  else none

/-- The bits received last are a cyclic rotation of the wake pattern within wake_err errors (R334). -/
def State.wakeMatch (s : State) (b : BitVec 32) : Bool :=
  (List.range 32).any (fun k => decide (bitErrors 32 b ((BitVec.ofNat 32 wakeWord).rotateLeft k) ≤ fld s.cfg.modem.sync 10 8))

/-- Turnaround in ticks (14_frames Table 14.8). -/
def Profile.turnaround (p : Profile) : Nat :=
  if 6 ≤ p.code then 5 * tickMs else if p.code = 0 then 2 * tickMs else tickMs

/-- The link quality of a signal-to-noise figure in 0.25 dB (R332). -/
def lqiOf (snr : Int) : Nat := (max 0 (min 255 (snr + 40))).toNat

/-! ## Bands, plans and words (R285–R289) -/

/-- The band of a frequency in Hz: 0 L, 1 M, 2 H. -/
def bandOf (f : Nat) : Option Nat :=
  if 150000000 ≤ f ∧ f ≤ 180000000 then some 0
  else if 410000000 ≤ f ∧ f ≤ 480000000 then some 1
  else if 860000000 ≤ f ∧ f ≤ 960000000 then some 2
  else none

def bandName (b : Nat) : String := if b = 0 then "L" else if b = 1 then "M" else "H"

/-- Spacings in Hz in code order. -/
def spacings : List Nat := [6250, 12500, 25000, 50000, 100000, 200000]
def spacingText : List String := ["6.25", "12.5", "25", "50", "100", "200"]

/-- A channel plan as its two registers hold it. -/
structure Plan where
  base : Nat
  count : Nat
  code : Nat
  deriving DecidableEq, Repr

def planOf (base ctrl : Word) : Option Plan :=
  if bit ctrl 31 then some ⟨base.toNat, fld ctrl 26 16, fld ctrl 2 0⟩ else none

def State.planAt (s : State) (p : Nat) : Option Plan :=
  planOf (vget s.cfg.radio.planBase p 0) (vget s.cfg.radio.planCtrl p 0)

def Plan.spacing (p : Plan) : Nat := spacings.getD p.code 12500

def Plan.freq (p : Plan) (c : Nat) : Nat := p.base + c * p.spacing

/-- Every channel lies within one band (R287). -/
def Plan.fits (p : Plan) : Bool :=
  (bandOf p.base).isSome && bandOf p.base == bandOf (p.freq (p.count - 1)) && decide (1 ≤ p.count) &&
    decide (p.count ≤ 1024)

def Plan.ctrl (p : Plan) : Word := BitVec.ofNat 32 (2 ^ 31 + p.count * 65536 + p.code)

/-- The synthesizer word of a frequency (R289). -/
def synthWord (f : Nat) : Nat := (roundUp (f * 1048576) 38400000).toNat

/-- The synthesized frequency, in whole Hz. -/
def synthFreq (wd : Nat) : Nat := (roundUp (wd * 38400000) 1048576).toNat

/-- The operating channel. -/
def State.opPlan (s : State) : Nat := fld s.cfg.radio.chan 13 12
def State.opChan (s : State) : Nat := fld s.cfg.radio.chan 9 0

/-- The channel exists. -/
def State.chanOk (s : State) (p c : Nat) : Bool :=
  match s.planAt p with
  | none => false
  | some x => decide (c < x.count)

/-- The frequency of a channel; of a channel that no plan holds any longer, 0 (log entry 21). -/
def State.chanFreq (s : State) (p c : Nat) : Nat :=
  match s.planAt p with
  | none => 0
  | some x => x.freq c

/-! ## chan= and plan= (R306) -/

/-- The plan and channel a line names. -/
def State.linePlan (s : State) (l : Line) : Nat := (l.nat? "plan").getD s.opPlan
def State.lineChan (s : State) (l : Line) : Nat := (l.nat? "chan").getD s.opChan

/-- The errors of chan= and plan= of a line, with the names its verb's entry gives them. -/
def State.chanErs (s : State) (l : Line) (c : String) : List Er :=
  (match l.arg "plan" with
    | some (.int v) => erIf (!inRange 0 3 v) (erRange "plan")
    | some _ => [erRange "plan"]
    | none => []) ++
  (match l.arg "chan" with
    | some (.int v) => erIf (v < 0) (erRange c)
    | some _ => [erRange c]
    | none => []) ++
  s.late (match s.planAt (s.linePlan l) with
    | none => [erRange "plan"]
    | some x => erIf (!decide (s.lineChan l < x.count)) (erRange c))

/-! ## The census span (13_census R337–R340) -/

def State.spanPlan (s : State) : Nat := fld s.cfg.census.config 13 12
def State.spanBase (s : State) : Nat := fld s.cfg.census.config 9 0
def State.watching (s : State) : Bool := bit s.cfg.census.config 31 && s.has .census
def State.hopOn (s : State) : Bool := bit s.cfg.census.config 16

def State.inSpan (s : State) (p c : Nat) : Bool :=
  s.has .census && decide (p = s.spanPlan) && decide (s.spanBase ≤ c) && decide (c < s.spanBase + 16)

/-- The active profile is census-detecting for the span (R340). -/
def State.detecting (s : State) : Bool :=
  let p := s.profile
  [0, 1, 2, 6, 7].contains p.code &&
    (match s.planAt s.spanPlan with | some x => decide (x.spacing = p.filter) | none => false)

/-- CENSUSEQ runs. -/
def State.ceqRuns (s : State) : Bool :=
  match s.trim.run with
  | some r => decide (r.item = .censuseq) && r.writing.isNone
  | none => false

/-- A scan holds the radio. -/
def State.scanning (s : State) : Bool :=
  match s.radio.listeners with
  | [] => false
  | x :: _ => decide (x.kind = .scan)

/-- The census measures now (R339, R362, 17 R462). -/
def State.measuring (s : State) : Bool :=
  s.has .census && (s.watching || s.ceqRuns || s.scanning) && s.radio.spanTuned && s.radio.locked &&
    (decide (s.radio.st = .listen) || decide (s.radio.st = .receive)) && s.profile.wakes &&
    s.inSpan s.radio.plan s.radio.chan

/-! ## Antenna controls (R295, R296) -/

/-- The antenna controls take a pair of RADIO_ANT_MAP: 0 Idle, 1 receive, 2 transmit, 3 transmit on TX_HP. -/
def State.antSet (s : State) (pair : Nat) : State :=
  let v := fld s.cfg.radio.antMap (2 * pair + 1) (2 * pair)
  ({ s with pads := { s.pads with antA := decide (v % 2 = 1), antB := decide (2 ≤ v) } }).padFollow

/-- The mapping of the present state, unless a transmission or its lag keeps its own. -/
def State.antFollow (s : State) : State :=
  if s.radio.antLag then s
  else
    match s.radio.st with
    | .idle => s.antSet 0
    | .transmit => s
    | _ => s.antSet 1

/-! ## Radio states (R304) -/

def RState.name : RState → String
  | .idle => "IDLE" | .listen => "LISTEN" | .receive => "RECEIVE" | .transmit => "TRANSMIT" | .trim => "TRIM"

def RState.index : RState → Nat
  | .idle => 0 | .listen => 1 | .receive => 2 | .transmit => 3 | .trim => 4

/-- Readings are held once the census no longer measures (13 R343). -/
def State.censusHold (s : State) : State :=
  if s.measuring then s else { s with census := { s.census with held := true } }

/-- A change of radio state: the RADIO, MODEM and FRAME editions (R304, R336, R389), the Listen RSSI, the antenna
controls, and the pads that leaving Idle releases (09 R253). -/
def State.radioTo (s : State) (x : RState) : State :=
  if s.radio.st = x then s.antFollow
  else
    let r := s.radio
    let r1 := { r with
      st := x, locked := r.locked && x != RState.idle, tuning := r.tuning && x != RState.idle,
      rssiNow := if x == RState.idle || x == RState.transmit then -280 else r.rssiNow,
      portHp := r.portHp && x == RState.transmit }
    let s1 := (((({ s with radio := r1 }).bump .radio).bump .modem).bump .frame)
    let s2 := if r.st = .idle && !s.quiet then s1.release 0x700 else s1
    s2.antFollow.censusHold

/-- The intermediate frequency in Hz (R298). -/
def State.ifHz (s : State) : Int := if s.profile.filter ≤ 50000 then 100000 else 300000

/-- The side of a carrier on which the LO lies (R298). -/
def State.loSide (s : State) : Int := if bit s.cfg.radio.rxConfig 8 then 1 else -1

/-- The frequency of the image of a carrier (R298). -/
def State.imageHz (s : State) (f : Nat) : Int := (f : Int) + s.loSide * (2 * s.ifHz)

/-- The centre of the census span in Hz (13 R338). -/
def State.spanCentre (s : State) : Int :=
  match s.planAt s.spanPlan with
  | some x => ((x.freq s.spanBase + 15 * x.spacing / 2 : Nat) : Int)
  | none => 0

/-- Where the LO stands: on the carrier in transmission, 300 kHz from the centre of the span, else the IF from the carrier
(R289, R298, 13 R338). -/
def State.loAt (s : State) (f : Nat) (span tx : Bool) : Int :=
  if tx then f else if span then s.spanCentre + s.loSide * 300000 else (f : Int) + s.loSide * s.ifHz

/-- The synthesizer is tuned to a channel: within the span of a census in WATCH a locked receiver needs no retune
(13 R338). -/
def State.tune (s : State) (p c : Nat) (tx : Bool) : State :=
  let r := s.radio
  let f := s.chanFreq p c
  let same := r.plan == p && r.chan == c
  let want := (s.watching || s.ceqRuns || s.scanning) && s.inSpan p c
  let keep := r.locked && !tx && r.st != RState.transmit &&
    ((same && (r.spanTuned || !want || s.watching)) || (r.spanTuned && want && s.inSpan r.plan r.chan))
  { s with radio := { r with plan := p, chan := c, band := (bandOf f).getD r.band, word := synthWord f,
                             lo := if keep then r.lo else s.loAt f (want && !tx) tx,
                             locked := keep, tuning := !keep, frozen := r.frozen && keep,
                             spanTuned := if keep then r.spanTuned else want && !tx,
                             ownSeen := if same then r.ownSeen else none, afcOnce := r.afcOnce && keep } }

/-- The radio listens on a channel. -/
def State.listenOn (s : State) (p c : Nat) : State := ((s.tune p c false).radioTo .listen).censusHold

/-- A receive-stopping trim item holds the radio. -/
def State.trimStops (s : State) : Bool :=
  match s.trim.run with
  | some r => r.item != TrimItem.censuseq && r.writing.isNone
  | none => false

/-- What the radio does when an activity ends: the first of these that applies (Table 11.7, R305, 13 R353, 17 R460,
R462). -/
def State.radioRest (s : State) : State :=
  let r := s.radio
  let onOp (o : LinkOp) (c : Nat) : State := s.listenOn o.plan c
  if r.tx.isSome || r.rx.isSome then s
  else if s.trimStops then s.radioTo .trim
  else
    match s.link.op.map (fun o => (o, o.phase)), s.link.exch.map (·.phase) with
    | some (o, LinkPhase.cca), _ => onOp o o.chan
    | some (o, LinkPhase.ackWait), _ => onOp o o.keyChan
    | some (o, LinkPhase.window _), _ => onOp o o.keyChan
    | op, exch =>
      if exch = some ExchPhase.ackWait then s.listenOn r.plan r.chan
      else
        match r.handed with
        | some h => s.listenOn r.plan h.chan
        | none =>
          match r.listeners, op with
          | _ :: _, some (o, _) => if o.phase = .wait || o.phase = .wakeWait then rest s r else onOp o o.chan
          | _, _ => rest s r
where
  /-- No operation of the link takes the radio. -/
  rest (s : State) (r : RadioSt) : State :=
    match r.listeners with
    | x :: _ => s.listenOn x.plan x.chan
    | [] =>
      if r.sniff.isSome then s.listenOn s.opPlan s.opChan
      else if s.ceqRuns then s.listenOn s.spanPlan s.spanBase
      else s.radioTo .idle

/-! ## Verbs of the radio -/

/-- Levels in 0.5 dB steps. -/
def dbm (v : Int) : Val := .fix 1 (5 * v)

def State.planToks (s : State) (p : Nat) : List Tok :=
  match s.planAt p with
  | none => [w "BAND", n' p, w "EMPTY", edTok s .radio]
  | some x => [w "BAND", n' p, kd "base" x.base, kw "spacing" (spacingText.getD x.code ""), kd "count" x.count,
      kw "band" (bandName ((bandOf x.base).getD 2)), edTok s .radio]

def bandPos : List (String × Kind) := [("p", .int 0 3)]
def bandKeys : List (String × Kind) :=
  [("base", .int 0 4294967295), ("spacing", .spacing), ("count", .int 1 1024), saveKey]

def planRegs4 : List CfgReg := (List.range 4).flatMap (fun p => [.planBase p, .planCtrl p])

/-- BAND without settings (R287, 04_desk R605). -/
def execBandReport (l : Line) (s : State) : Host.Outcome State Fault Refusal :=
  runLine { order := false, pos := bandPos, keys := bandKeys } l s (erIf (l.named.any (fun a => a.1 != "save")) erMissing)
    (fun s =>
      let s1 := if l.save then s.save planRegs4 else s
      match l.posNat? 0 with
      | some p => s1.ok l (s1.planToks p)
      | none => s1.okMany l ((List.range 4).map s1.planToks))

/-- The plan is that of the operating channel or of a running RX ticket. -/
def State.planInUse (s : State) (p : Nat) : Bool :=
  decide (s.opPlan = p) || s.radio.listeners.any (fun x => decide (x.kind = .rx) && decide (x.plan = p))

/-- The refusals of a change to a plan (R310, 13 R361); a write is refused for any plan the radio is tuned to. -/
def State.planStateErs (s : State) (p : Nat) (tuned : Bool := false) : List Er :=
  erIf ((s.planInUse p || (tuned && decide (s.radio.plan = p))) && decide (s.radio.st ≠ .idle)) (erState "RADIO" s.radio.st.name) ++
    erIf (s.watching && decide (s.spanPlan = p)) (erState "CENSUS" "WATCH")

/-- The plan that a line leaves. -/
def linePlanNew (old : Option Plan) (l : Line) : Plan :=
  let o := old.getD ⟨0, 0, 0⟩
  ⟨(l.nat? "base").getD o.base, (l.nat? "count").getD o.count, ((l.arg "spacing").bind spacingCode).getD o.code⟩

def State.putPlan (s : State) (p : Nat) (base ctrl : Word) : State :=
  if vget s.cfg.radio.planBase p 0 = base ∧ vget s.cfg.radio.planCtrl p 0 = ctrl then s
  else ((s.cfgSet (.planBase p) base).cfgSet (.planCtrl p) ctrl).bump .radio

/-- BAND with settings (R287). -/
def execBandSet (l : Line) (s : State) : Host.Outcome State Fault Refusal :=
  let p := (l.posNat? 0).getD 4
  let old := s.planAt p
  let new := linePlanNew old l
  let full := decide (3 < p) || old.isSome || (l.has "base" && l.has "spacing" && l.has "count")
  runLine { order := false, minPos := 1, pos := bandPos, keys := bandKeys } l s
    (erIf (!full) erMissing ++ erIf (full && !new.fits) (erRange "base") ++ s.planStateErs p) (fun s =>
      let s1 := s.putPlan p (BitVec.ofNat 32 new.base) new.ctrl
      let s2 := if l.save then s1.save planRegs4 else s1
      s2.ok l (s2.planToks p))

/-- BAND CLEAR (R288, 04_desk R605). -/
def execBandClear (l : Line) (s : State) : Host.Outcome State Fault Refusal :=
  let p := (l.posNat? 0).getD 4
  runLine { order := false, minPos := 1, pos := bandPos, keys := bandKeys } l s
    (erIf (!l.named.isEmpty) erExtra ++ s.planStateErs p) (fun s =>
      let s1 := s.putPlan p 0 0
      s1.ok l (s1.planToks p))

/-- CHAN (R306). -/
def execChan (l : Line) (s : State) : Host.Outcome State Fault Refusal :=
  let p := s.linePlan l
  let c := (l.posNat? 0).getD s.opChan
  runLine { pos := [("c", .any)], keys := [("plan", .any), saveKey] } l s
    (erIf (l.pos.isEmpty && l.sets) erMissing ++
      (match l.at? 0 with
        | some (.int v) => erIf (decide (v < 0)) (erRange "c")
        | some _ => [erRange "c"]
        | none => []) ++
      (if l.pos.isEmpty then [] else
        (match l.arg "plan" with
          | some (.int v) => erIf (!inRange 0 3 v) (erRange "plan")
          | some _ => [erRange "plan"]
          | none => []) ++
        s.late (match s.planAt p with
          | none => [erRange "plan"]
          | some x => erIf (!decide (c < x.count)) (erRange "c")))) (fun s =>
      let v : Word := BitVec.ofNat 32 (p * 4096 + c)
      let s1 := if l.pos.isEmpty || s.cfg.radio.chan = v then s else (s.cfgSet .chan v).bump .radio
      let s2 := if l.save then s1.save [.chan] else s1
      let wd := synthWord (s2.chanFreq s2.opPlan s2.opChan)
      s2.ok l [w "CHAN", n' s2.opChan, kd "plan" s2.opPlan, kd "freq" (synthFreq wd), .kv "word" (.hex 8 wd),
               edTok s2 .radio])

def rampUs : List Nat := [10, 20, 40, 80, 160]

def State.txPortHp (s : State) : Bool := bit s.cfg.radio.txConfig 12
def State.rampTicks (s : State) : Nat := tickUs (rampUs.getD (fld s.cfg.radio.txConfig 10 8) 40)

/-- The refusals of a level and port (R292). -/
def State.levelErs (s : State) (hp : Bool) (level : Int) (key : String) : List Er :=
  erIf ((hp || decide (14 < level)) && !s.has .paHp) (erAbsent .paHp) ++
    erIf (if hp then !inRange 10 22 level else !inRange (-10) 14 level) (erRange key)

/-- TX settings (R292, R310). -/
def execTxSettings (l : Line) (s : State) : Host.Outcome State Fault Refusal :=
  let c := s.cfg.radio.txConfig
  let hp := match l.word? "port" with | some x => x == "HP" | none => bit c 12
  let level := (l.int? "level").getD s.txLevel
  runLine { noun := true, keys := [("port", .word ["AUTO", "HP"]), ("level", .any), ("ramp", .oneOf [10, 20, 40, 80, 160]),
                     ("pa_en", .word ["ON", "OFF"]), ("pa_lead", .int 0 255), saveKey] } l s
    ((if l.has "port" || l.has "level" then
        (match l.arg "level" with
          | none => []
          | some (.int _) => []
          | some _ => [erRange "level"]) ++
        (if l.has "port" && l.has "level" then s.levelErs hp level "level"
         else erIf (l.word? "port" == some "HP" && !s.has .paHp) (erAbsent .paHp) ++
           (if l.has "level" then erIf (decide (14 < level) && !s.has .paHp) (erAbsent .paHp) ++
              erIf (!inRange (-10) 22 level) (erRange "level") else []) ++ s.late (s.levelErs hp level "level"))
      else []) ++ erIf (l.sets && decide (s.radio.st = .transmit)) (erState "RADIO" "TRANSMIT")) (fun s =>
      let ramp := match l.nat? "ramp" with
        | some v => rampUs.idxOf v
        | none => fld c 10 8
      let en := (l.on? "pa_en").getD (bit c 13)
      let v : Word := BitVec.ofNat 32 ((l.nat? "pa_lead").getD (fld c 23 16) * 65536 + b2n en * 8192 + b2n hp * 4096 +
        ramp * 256 + unsigned 8 level)
      let s1 := if v = c then s else (s.cfgSet .txConfig v).bump .radio
      let s2 := if l.save then s1.save [.txConfig] else s1
      s2.ok l [w "TX", kw "port" (if hp then "HP" else "AUTO"), kd "level" s2.txLevel, kd "ramp" (rampUs.getD ramp 40),
               kw "pa_en" (onOff en), kd "pa_lead" (fld v 23 16), edTok s2 .radio])

/-- The gain in force: that of the settings with agc=0 (R300). -/
def State.gainNow (s : State) : Nat :=
  if bit s.cfg.radio.rxConfig 0 then s.radio.gain else 2 * fld s.cfg.radio.rxConfig 6 1

/-- RX STATUS (R303). -/
def execRxStatus (l : Line) (s : State) : Host.Outcome State Fault Refusal :=
  runLine {} l s [] (fun s =>
    s.ok l [w "RX", kw "state" s.radio.st.name, kd "chan" s.radio.chan, kd "plan" s.radio.plan,
            .kv "rssi" (dbm s.radio.rssiNow), kd "gain" s.gainNow, edTok s .radio])

/-- TX CW (R307): a LINK ticket. -/
def execTxCw (l : Line) (s : State) : Host.Outcome State Fault Refusal :=
  runTicket { order := false, keys := [("dur", .int 1 10000)] } .link l s (erIf (!l.has "dur") erMissing) []
    (.txCw ((l.nat? "dur").getD 1))

/-- RX (R308): a RADIO ticket. -/
def execRx (l : Line) (s : State) : Host.Outcome State Fault Refusal :=
  runTicket { noun := true, keys := [("dur", .intOr 1 4294967 ["CONT"]), ("chan", .any), ("plan", .any)] } .radio l s
    (s.chanErs l "c") (erIf s.trimStops (erState "RADIO" "TRIM"))
    (.rx (l.nat? "dur") (s.linePlan l) (s.lineChan l))

/-! ## PROFILE (12_modem R314) -/

/-- The report of PROFILE; d_err is omitted on the VG42. -/
def State.profileToks (s : State) : List Tok :=
  let p := s.profile
  let c := s.cfg.modem
  [w "PROFILE", w p.name, kd "rate" p.rate, kd "sym" p.sym, kd "preamble" (fld c.profile 23 16),
   kw "whiten" (onOff (bit c.profile 8)), kd "s_err" (fld c.sync 1 0), kd "m_err" (fld c.sync 3 2)] ++
  (if s.has .deep then [kd "d_err" (fld c.deep 2 0)] else []) ++
  [kd "wake_err" (fld c.sync 10 8), edTok s .modem]

/-- PROFILE. -/
def execProfile (l : Line) (s : State) : Host.Outcome State Fault Refusal :=
  let named := (l.posWord? 0).bind (fun x => profiles.find? (fun p => p.name == x))
  let c := s.cfg.modem
  runLine { pos := [("profile", .name)],
            keys := [("preamble", .int 4 64), ("whiten", .word ["ON", "OFF"]), ("s_err", .int 0 3), ("m_err", .int 0 3),
                     ("d_err", .int 0 7), ("wake_err", .int 0 7), saveKey] } l s
    (erIf (!l.pos.isEmpty && named.isNone) (erRange "profile") ++
      (if l.has "d_err" || (match named with | some p => decide (6 ≤ p.code) | none => false) then s.needs .deep
       else []) ++
      erIf ((l.sets || !l.pos.isEmpty) && decide (s.radio.st ≠ .idle)) (erState "MODEM" s.radio.st.name)) (fun s =>
      let p : Word := BitVec.ofNat 32 ((l.nat? "preamble").getD (fld c.profile 23 16) * 65536 +
        b2n ((l.on? "whiten").getD (bit c.profile 8)) * 256 + (named.map (·.code)).getD (fld c.profile 3 0))
      let y : Word := BitVec.ofNat 32 ((l.nat? "wake_err").getD (fld c.sync 10 8) * 256 +
        (l.nat? "m_err").getD (fld c.sync 3 2) * 4 + (l.nat? "s_err").getD (fld c.sync 1 0))
      let d : Word := BitVec.ofNat 32 ((l.nat? "d_err").getD (fld c.deep 2 0))
      let s1 := if c.profile = p ∧ c.sync = y ∧ c.deep = d then s
        else ({ s with cfg := { s.cfg with modem := { profile := p, sync := y, deep := d } } }).bump .modem
      let s2 := if l.save then s1.save [.profile, .sync, .deep] else s1
      s2.ok l s2.profileToks)

/-! ## Registers -/

def setRadio (f : RadioSt → RadioSt) (s : State) : State := { s with radio := f s.radio }

def radioCounters (s : State) : List Counter := [s.radio.unlocks, s.radio.afcLimits, s.radio.keyings]

/-- The errors of writing a plan register: the plan it leaves must fit a band (R287, R310). -/
def State.planWriteErs (s : State) (p : Nat) (base ctrl : Word) : List Er :=
  (match planOf base ctrl with
    | some x => erIf (!x.fits || decide (5 < x.code)) (erRange "value")
    | none => []) ++ s.planStateErs p true

/-- Table 11.8 and 13.4. -/
def radioRegs : List Reg :=
  [roReg 0x0600 "RADIO_STATUS" [ro "edition" 31 16, ro "hp_band_l" 7 7, ro "port_hp" 6 6, ro "band" 5 4,
      ro "locked" 3 3, ro "state" 2 0] (fun s =>
      statusWord s .radio (b2n s.radio.hpBandL * 128 + b2n s.radio.portHp * 64 + s.radio.band * 16 +
        b2n s.radio.locked * 8 + s.radio.st.index)),
   cfgReg 0x0604 "RADIO_CHAN" (some .radio) .chan [rw "plan" 13 12, rw "chan" 9 0]
      (fun s v => erIf (!s.chanOk (fld v 13 12) (fld v 9 0)) (erRange "value")),
   roReg 0x0608 "RADIO_FREQ" [ro "word" 24 0] (fun s => BitVec.ofNat 32 s.radio.word),
   cfgReg 0x060C "RADIO_TX_CONFIG" (some .radio) .txConfig [rw "pa_lead_us" 23 16, rw "pa_en" 13 13, rw "port" 12 12,
      rw "ramp" 10 8, rws "level" 7 0] (fun s v =>
      s.levelErs (bit v 12) (signed 8 (fld v 7 0)) "value" ++ fieldOut v 10 8 0 4 ++
        erIf (decide (s.radio.st = .transmit)) (erState "RADIO" "TRANSMIT")),
   cfgReg 0x0610 "RADIO_ANT_MAP" (some .radio) .antMap [rw "tx_hp" 7 6, rw "tx" 5 4, rw "rx" 3 2, rw "idle" 1 0]
      (fun s _ => erIf (decide (s.radio.st = .transmit)) (erState "RADIO" "TRANSMIT")) State.antFollow,
   cfgReg 0x0614 "RADIO_RX_CONFIG" (some .radio) .rxConfig [rws "rssi_offset" 23 16, rw "image_side" 8 8,
      rw "gain_db" 6 1, rw "agc" 0 0] (fun _ v => fieldOut v 6 1 0 39),
   roReg 0x0618 "RADIO_RSSI" [ros "frame" 31 16, ros "now" 15 0] (fun s =>
      BitVec.ofNat 32 (unsigned 16 s.radio.rssiFrame * 65536 + unsigned 16 s.radio.rssiNow)),
   roReg 0x061C "RADIO_AFC" [ros "offset" 15 0] (fun s => BitVec.ofNat 32 (unsigned 16 s.radio.afc)),
   roReg 0x0620 "RADIO_GAIN" [ro "gain" 6 0] (fun s => BitVec.ofNat 32 s.gainNow),
   ctrReg 0x0624 "RADIO_UNLOCKS" (·.radio.unlocks) (fun c => setRadio (fun r => { r with unlocks := c })),
   ctrReg 0x0628 "RADIO_AFC_LIMITS" (·.radio.afcLimits) (fun c => setRadio (fun r => { r with afcLimits := c })),
   ctrReg 0x062C "RADIO_KEYINGS" (·.radio.keyings) (fun c => setRadio (fun r => { r with keyings := c })),
   wrapReg 0x0630 "RADIO_WRAP" 3 radioCounters,
   cfgReg 0x0680 "RADIO_CCA_CONFIG" (some .radio) .ccaConfig [rw "listen_us" 31 16, rw "mode" 1 0]
      (fun _ v => fieldOut v 31 16 500 65535 ++ fieldOut v 1 0 0 2),
   cfgReg 0x0684 "RADIO_CCA_THR" (some .radio) .ccaThr [rws "thr" 15 0]
      (fun _ v => erIf (!inRange (-260) (-80) (signed 16 (fld v 15 0))) (erRange "value")),
   ctrReg 0x0688 "RADIO_CCA_BUSY" (·.radio.ccaBusy) (fun c => setRadio (fun r => { r with ccaBusy := c })),
   ctrReg 0x068C "RADIO_CCA_CLEAR" (·.radio.ccaClear) (fun c => setRadio (fun r => { r with ccaClear := c })),
   roReg 0x0690 "RADIO_CCA_WRAP" [ro "busy" 0 0, ro "clear" 1 1]
      (fun s => wrapWord [s.radio.ccaBusy, s.radio.ccaClear]),
   cfgReg 0x0700 "RADIO_HP_CONFIG" (some .radio) .hpConfig [rw "sw_lag_us" 15 8, rw "sw_lead_us" 7 0]] ++
  (List.range 4).flatMap (fun p =>
    [cfgReg (0x0640 + 8 * p) ("RADIO_PLAN_" ++ Nat.repr p ++ "_BASE") (some .radio) (.planBase p) [rw "base" 31 0]
       (fun s v => s.planWriteErs p v (vget s.cfg.radio.planCtrl p 0)),
     cfgReg (0x0644 + 8 * p) ("RADIO_PLAN_" ++ Nat.repr p ++ "_CTRL") (some .radio) (.planCtrl p)
       [rw "valid" 31 31, rw "count" 26 16, rw "spacing" 2 0]
       (fun s v => fieldOut v 2 0 0 5 ++ fieldOut v 26 16 0 1024 ++ s.planWriteErs p (vget s.cfg.radio.planBase p 0) v)])

def setModem (f : ModemSt → ModemSt) (s : State) : State := { s with modem := f s.modem }

/-- The refusal of a change outside Idle (R314). -/
def State.modemErs (s : State) : List Er :=
  erIf (decide (s.radio.st ≠ .idle)) (erState "MODEM" s.radio.st.name)

/-- MODEM_WRAP has no bit for a counter that the variant lacks (R335). -/
def State.modemWrap (s : State) : Word :=
  wrapWord ([s.modem.syncs, s.modem.wakes] ++ if s.has .deep then [s.modem.headerFail] else [])

/-- Table 12.6. -/
def modemRegs : List Reg :=
  [roReg 0x0800 "MODEM_STATUS" [ro "edition" 31 16, ro "profile" 3 0] (fun s =>
      statusWord s .modem (fld s.cfg.modem.profile 3 0)),
   cfgReg 0x0804 "MODEM_PROFILE" (some .modem) .profile [rw "preamble" 23 16, rw "whiten" 8 8, rw "profile" 3 0]
      (fun s v => erIf (decide (6 ≤ fld v 3 0) && decide (fld v 3 0 ≤ 8) && !s.has .deep) (erAbsent .deep) ++
        fieldOut v 3 0 0 8 ++ fieldOut v 23 16 4 64 ++ s.modemErs),
   cfgReg 0x0808 "MODEM_SYNC_CONFIG" (some .modem) .sync [rw "wake_err" 10 8, rw "m_err" 3 2, rw "s_err" 1 0]
      (fun s _ => s.modemErs),
   roReg 0x080C "MODEM_LAST_QUAL" [ro "serr" 31 24, ro "lqi" 23 16, ros "snr" 15 0] (fun s =>
      BitVec.ofNat 32 (s.modem.serr * 2 ^ 24 + s.modem.lqi * 65536 + unsigned 16 s.modem.snr)),
   roReg 0x0810 "MODEM_LAST_SYNC_LO" [ro "sync_lo" 31 0] (fun s => lo32 s.modem.sync.toNat),
   roReg 0x0814 "MODEM_LAST_SYNC_HI" [ro "sync_hi" 31 0] (fun s => hi32 s.modem.sync.toNat),
   ctrReg 0x0818 "MODEM_SYNCS" (·.modem.syncs) (fun c => setModem (fun m => { m with syncs := c })),
   ctrReg 0x081C "MODEM_WAKES" (·.modem.wakes) (fun c => setModem (fun m => { m with wakes := c })),
   roReg 0x0820 "MODEM_WRAP" [ro "syncs" 0 0, ro "wakes" 1 1, ro "header_fail" 2 2] State.modemWrap,
   cfgReg 0x0880 "MODEM_DEEP_CONFIG" (some .modem) .deep [rw "d_err" 2 0] (fun s _ => s.modemErs),
   roReg 0x0884 "MODEM_LAST_CERR" [ro "cbits" 31 16, ro "cerr" 15 0] (fun s =>
      BitVec.ofNat 32 (s.modem.cbits * 65536 + s.modem.cerr)),
   ctrReg 0x0888 "MODEM_HEADER_FAIL" (·.modem.headerFail) (fun c => setModem (fun m => { m with headerFail := c }))]

end Sys2Proof.Machine
end

