-- ==== Sys2Proof/Machine/Census.lean ====
section
/-! DEFINITION. The census receiver and listen-before-talk (13_census): readings, scans, the settings of the census
and of clear-channel assessment, and their registers.  Windows, detections and hand-overs stand in Air.lean. -/
namespace Sys2Proof.Machine

open Sys2Proof

/-! ## The mean power of readings (R362) -/

/-- The greatest number whose 20th power is not above `m`; numbers of 80 bits. -/
def root20 (m : Nat) : Nat :=
  (List.range 80).foldr (fun i x => if (x + 2 ^ i) ^ 20 ≤ m then x + 2 ^ i else x) 0

/-- The power of a reading (0.5 dB steps from -135.0 dBm), scaled by 10^12. -/
def levelPower (v : Int) : Nat := root20 (10 ^ ((v + 270).toNat + 240))

/-- The level nearest to the mean of `n` powers, in 0.5 dB steps. -/
def powerLevel (sum n : Nat) : Int :=
  -270 + ((List.range' 1 190).filter (fun u => n ^ 40 * 10 ^ (2 * u - 1 + 480) ≤ sum ^ 40)).length

/-- The index of the best of sixteen values, the lower number winning ties. -/
def bestOf (v : Vector Int 16) (better : Int → Int → Bool) : Nat :=
  (List.range 16).foldl (fun b i => if better (vget v i 0) (vget v b 0) then i else b) 0

/-- The results of a scan's completed windows go to CENSUS_SCAN_k. -/
def State.scanStore (s : State) (x : Listener) : State :=
  if x.windows = 0 then s
  else { s with census := { s.census with scanMax := x.maxes,
                                          scanMean := x.sums.map (fun p => powerLevel p x.windows) } }

/-- Sixteen free levels, for the results of a scan in which no window closed (log entry 22). -/
def State.freeLevels (s : State) : State :=
  (List.range 16).foldl (fun s i =>
    let d := s.draw
    { d.2 with census := { d.2.census with
        scanMax := vset d.2.census.scanMax i (signed 16 d.1.toNat),
        scanMean := vset d.2.census.scanMean i (signed 16 (d.1.toNat / 65536)) } }) s

/-- The fields of a scan's DN line and of EV_CENSUS_SCAN. -/
def State.scanToks (s : State) (windows : Nat) : List Tok :=
  let c := s.census
  let hi := bestOf c.scanMax (fun a b => decide (b < a))
  let lo := bestOf c.scanMean (fun a b => decide (a < b))
  [kd "busiest" hi, .kv "max" (dbm (vget c.scanMax hi 0)), kd "quietest" lo, .kv "mean" (dbm (vget c.scanMean lo 0)),
   kd "windows" windows]

/-! ## CENSUS -/

def State.gate (s : State) : Option Int :=
  let g := fld s.cfg.census.thresh 31 16
  if g = 0x8000 then none else some (if s.has .census then signed 16 g else -240)

def State.levelThr (s : State) : Int := signed 16 (fld s.cfg.census.thresh 15 0)

/-- CENSUS_HOLD, fixed at 200 ms without the census (R354). -/
def State.holdMs (s : State) : Nat := if s.has .census then fld s.cfg.census.hold 15 0 else 200

def State.censusToks (s : State) : List Tok :=
  let sp := (s.planAt s.spanPlan).map (·.code)
  let spans := ["100", "200", "400", "800", "1600", "3200"]
  [w "CENSUS", w (if s.watching then "WATCH" else "OFF"), kd "plan" s.spanPlan, kd "base" s.spanBase,
   kw "spacing" ((sp.map (spacingText.getD · "")).getD "NONE"), kw "span" ((sp.map (spans.getD · "")).getD "NONE"),
   .kv "thr" (dbm s.levelThr),
   .kv "gate" (match s.gate with | none => .word "OFF" | some g => dbm g), kd "hold" s.holdMs,
   kw "hop" (onOff s.hopOn), .kv "allow" (.hex 4 (fld s.cfg.census.allow 15 0)), kw "stale" (yesNo s.census.stale),
   edTok s .census]

/-- The errors of a span (R337). -/
def State.spanErs (s : State) (p b : Nat) (kp kb : String) : List Er :=
  match s.planAt p with
  | none => [erRange kp]
  | some x => erIf (decide (2 < x.code)) (erRange kp) ++ erIf (decide (x.count ≤ b + 15)) (erRange kb)

def censusRegs4 : List CfgReg := [.census, .allow, .thresh, .hold]

def censusKeys : List (String × Kind) :=
  [("plan", .int 0 3), ("base", .int 0 1023), ("thr", .half (-270) (-80)), ("gate", .halfOr (-270) (-80) ["OFF"]),
   ("hold", .int 1 10000), ("hop", .word ["ON", "OFF"]), ("allow", .int 0 65535), saveKey]

/-- The census configuration replaced (R343, Table 13.3). -/
def State.setCensus (s : State) (c : CensusCfg) : State :=
  if s.cfg.census = c then s
  else (({ s with cfg := { s.cfg with census := c } }).bump .census).censusHold

/-- CENSUS with its settings and, for WATCH and OFF, the new state. -/
def censusLine (st : Option Bool) (pos : List (String × Kind)) (l : Line) (s : State) :
    Host.Outcome State Fault Refusal :=
  let c := s.cfg.census
  let p := (l.nat? "plan").getD s.spanPlan
  let b := (l.nat? "base").getD s.spanBase
  let on := st.getD s.watching
  let moved := p != s.spanPlan || b != s.spanBase
  runLine { noun := st.isNone, feat := some .census, pos := pos, minPos := pos.length, keys := censusKeys } l s
    (s.late (if l.has "plan" || l.has "base" || (on && !s.watching) then s.spanErs p b "plan" "base" else []) ++
      erIf (s.watching && moved) (erState "CENSUS" "WATCH")) (fun s =>
      let gate := match l.arg "gate" with
        | some (.word _) => 0x8000
        | some _ => unsigned 16 ((l.half? "gate").getD 0)
        | none => fld c.thresh 31 16
      let thr := ((l.half? "thr").map (unsigned 16)).getD (fld c.thresh 15 0)
      let n : CensusCfg :=
        { config := BitVec.ofNat 32 (b2n on * 2 ^ 31 + b2n ((l.on? "hop").getD s.hopOn) * 65536 + p * 4096 + b),
          allow := BitVec.ofNat 32 ((l.nat? "allow").getD (fld c.allow 15 0)),
          thresh := BitVec.ofNat 32 (gate * 65536 + thr),
          hold := BitVec.ofNat 32 ((l.nat? "hold").getD (fld c.hold 15 0)) }
      let s1 := s.setCensus n
      let s2 := if l.save then s1.save censusRegs4 else s1
      s2.ok l s2.censusToks)

/-- CENSUS (R337, R361). -/
def execCensusSettings (l : Line) (s : State) : Host.Outcome State Fault Refusal := censusLine none [] l s

/-- CENSUS WATCH (R360). -/
def execCensusWatch (l : Line) (s : State) : Host.Outcome State Fault Refusal := censusLine (some true) [] l s

/-- CENSUS OFF (R360). -/
def execCensusOff (l : Line) (s : State) : Host.Outcome State Fault Refusal := censusLine (some false) [] l s

/-- CENSUS LEVELS (R343): the readings, their flags and CENSUS_AT in one cycle. -/
def execCensusLevels (l : Line) (s : State) : Host.Outcome State Fault Refusal :=
  runLine { feat := some .census } l s [] (fun s =>
    let flag := if s.census.stale then "STALE" else if s.census.held then "HELD" else "FRESH"
    s.okMany l ([w "CENSUS", w "LEVELS", .kv "at" (.time s.census.at_.toNat), edTok s .census] ::
      (List.range 16).map (fun k => [w "CENSUS", w "LEVEL", n' k, kd "chan" (s.spanBase + k),
        .kv "level" (dbm (vget s.census.levels k 0)), kw "flag" flag])))

/-- CENSUS SCAN: a CENSUS ticket (R362). -/
def execCensusScan (l : Line) (s : State) : Host.Outcome State Fault Refusal :=
  runTicket { feat := some .census, keys := [("dur", .int 1 600000)] } .census l s (erIf (!l.has "dur") erMissing) []
    (.censusScan ((l.nat? "dur").getD 1))

/-! ## CCA -/

def ccaModes : List String := ["ED", "CS", "BOTH"]

def State.ccaMode (s : State) : Nat := fld s.cfg.radio.ccaConfig 1 0
def State.ccaThr (s : State) : Int := signed 16 (fld s.cfg.radio.ccaThr 15 0)
def State.ccaListen (s : State) : Nat := tickUs (fld s.cfg.radio.ccaConfig 31 16)

/-- CCA (R346). -/
def execCcaSettings (l : Line) (s : State) : Host.Outcome State Fault Refusal :=
  runLine { noun := true, keys := [("mode", .word ccaModes), ("thr", .half (-260) (-80)), ("listen", .int 500 65535), saveKey] } l s []
    (fun s =>
      let mode := match l.word? "mode" with | some x => ccaModes.idxOf x | none => s.ccaMode
      let a : Word := BitVec.ofNat 32 ((l.nat? "listen").getD (fld s.cfg.radio.ccaConfig 31 16) * 65536 + mode)
      let b : Word := BitVec.ofNat 32 (unsigned 16 ((l.half? "thr").getD s.ccaThr))
      let s1 := if s.cfg.radio.ccaConfig = a ∧ s.cfg.radio.ccaThr = b then s
        else ((s.cfgSet .ccaConfig a).cfgSet .ccaThr b).bump .radio
      let s2 := if l.save then s1.save [.ccaConfig, .ccaThr] else s1
      s2.ok l [w "CCA", kw "mode" (ccaModes.getD mode ""), .kv "thr" (dbm s2.ccaThr), kd "listen" (fld a 31 16),
               edTok s2 .radio])

/-- CCA CHECK (R363): a RADIO ticket; it takes the radio as an RX ticket does. -/
def execCcaCheck (l : Line) (s : State) : Host.Outcome State Fault Refusal :=
  runTicket { keys := [("chan", .any), ("plan", .any)] } .radio l s (s.chanErs l "c")
    [] (.ccaCheck (s.linePlan l) (s.lineChan l))

/-! ## Registers (Table 13.5) -/

def setCensusSt (f : CensusSt → CensusSt) (s : State) : State := { s with census := f s.census }

def outHalf (v : Nat) : Bool := !inRange (-270) (-80) (signed 16 v)

def censusRegs : List Reg :=
  [roReg 0x0A00 "CENSUS_STATUS" [ro "edition" 31 16, ro "stale" 3 3, ro "measuring" 2 2, ro "handed" 1 1,
      ro "state" 0 0] (fun s =>
      statusWord s .census (b2n s.census.stale * 8 + b2n s.measuring * 4 +
        b2n (match s.radio.handed with | some h => h.moved | none => false) * 2 + b2n s.watching)),
   { addr := 0x0A04, name := "CENSUS_CONFIG",
     fields := [rw "watch" 31 31, rw "hop" 16 16, rw "plan" 13 12, rw "base" 9 0],
     read := fun s => s.cfg.census.config,
     check := fun s v =>
       let moved := fld v 13 12 != s.spanPlan || fld v 9 0 != s.spanBase
       s.spanErs (fld v 13 12) (fld v 9 0) "value" "value" ++
         erIf (s.watching && moved) (erState "CENSUS" "WATCH"),
     apply := fun v s => s.setCensus { s.cfg.census with config := v } },
   cfgReg 0x0A08 "CENSUS_ALLOW" (some .census) .allow [rw "allow" 15 0],
   cfgReg 0x0A0C "CENSUS_THRESH" (some .census) .thresh [rws "gate" 31 16, rws "level_thr" 15 0] (fun _ v =>
      erIf (outHalf (fld v 15 0) || (fld v 31 16 != 0x8000 && outHalf (fld v 31 16))) (erRange "value")),
   cfgReg 0x0A10 "CENSUS_HOLD" (some .census) .hold [rw "hold_ms" 15 0] (fun _ v => fieldOut v 15 0 1 10000),
   roReg 0x0A14 "CENSUS_AT_LO" [ro "at_lo" 31 0] (fun s => lo32 s.census.at_.toNat),
   roReg 0x0A18 "CENSUS_AT_HI" [ro "at_hi" 31 0] (fun s => hi32 s.census.at_.toNat),
   ctrReg 0x0A20 "CENSUS_HOPS" (·.census.hops) (fun c => setCensusSt (fun x => { x with hops := c })),
   ctrReg 0x0A24 "CENSUS_HANDOVERS" (·.census.handovers) (fun c => setCensusSt (fun x => { x with handovers := c })),
   roReg 0x0A28 "CENSUS_WRAP" [ro "hops" 0 0, ro "handovers" 1 1]
      (fun s => wrapWord [s.census.hops, s.census.handovers])] ++
  (List.range 16).flatMap (fun k =>
    [roReg (0x0A40 + 4 * k) ("CENSUS_LEVEL_" ++ Nat.repr k) [ro "stale" 31 31, ro "held" 30 30, ro "above" 16 16,
       ros "level" 15 0] (fun s =>
       BitVec.ofNat 32 (b2n s.census.stale * 2 ^ 31 + b2n (!s.census.stale && s.census.held) * 2 ^ 30 +
         b2n (s.census.above.getLsbD k) * 65536 + unsigned 16 (vget s.census.levels k 0))),
     roReg (0x0A80 + 4 * k) ("CENSUS_SCAN_" ++ Nat.repr k) [ros "max" 31 16, ros "mean" 15 0] (fun s =>
       BitVec.ofNat 32 (unsigned 16 (vget s.census.scanMax k 0) * 65536 +
         unsigned 16 (vget s.census.scanMean k 0)))])

end Sys2Proof.Machine
end

