-- ==== Sys2Proof/Machine/Drbg.lean ====
section
/-! DEFINITION. The conditioner and the DRBG of grade A (18_noise_vault R472–R474): the CBC-MAC of raw bits, and the
CTR_DRBG with AES-128 and the derivation function.  The steps of CTR_DRBG are those of NIST SP 800-90A, which R473 names
and does not print: PRESUMED (log entry 80). -/
namespace Sys2Proof.Machine

open Sys2Proof

def zeroN (n : Nat) : List Nat := List.replicate n 0

/-- The conditioner's key: the EUI-64 followed by itself, most significant octet first (R472). -/
def condKey (eui : BitVec 64) : List Nat := octN 8 eui.toNat ++ octN 8 eui.toNat

/-- One seed block from 512 raw bits, packed into four blocks (R472). -/
def seedBlock (eui : BitVec 64) (raw : List (BitVec 128)) : BitVec 128 :=
  BitVec.ofNat 128 (natN (cbcMac (condKey eui) (raw.map keyN)))

/-- The counter blocks that follow V, encrypted: `n` of them. -/
def drbgBlocks (key : List Nat) : Nat → Nat → List Nat
  | 0, _ => []
  | n + 1, v => aesEnc key (octN 16 ((v + 1) % 2 ^ 128)) ++ drbgBlocks key n (v + 1)

/-- The update function, with 32 octets of provided data. -/
def Drbg.update (d : Drbg) (provided : List Nat) : Drbg :=
  let x := xorL (drbgBlocks (keyN d.key) 2 d.v.toNat) provided
  { key := BitVec.ofNat 128 (natN (x.take 16)), v := BitVec.ofNat 128 (natN (x.drop 16)) }

/-- The input of the derivation function as it is padded, for 32 octets of output. -/
def dfInput (x : List Nat) : List Nat := pad16 (octN 4 x.length ++ octN 4 32 ++ x ++ [0x80])

/-- Two encryptions in a chain. -/
def dfChain (key : List Nat) : Nat → List Nat → List Nat
  | 0, _ => []
  | n + 1, x =>
    let y := aesEnc key x
    y ++ dfChain key n y

/-- The derivation function: 32 octets. -/
def drbgDf (x : List Nat) : List Nat :=
  let s := dfInput x
  let mac (i : Nat) : List Nat := cbcMac (List.range 16) ((octN 4 i ++ zeroN 12) :: blocks16 (s.length + 1) s)
  dfChain (mac 0) 2 (mac 1)

/-- Instantiation (R473). -/
def drbgNew (entropy nonce personal : List Nat) : Drbg := Drbg.update {} (drbgDf (entropy ++ nonce ++ personal))

/-- A reseed (R474). -/
def Drbg.reseed (d : Drbg) (entropy : List Nat) : Drbg := d.update (drbgDf entropy)

/-- A generate request for `n` octets: the octets, and the state behind it (R474). -/
def Drbg.generate (d : Drbg) (n : Nat) : List Nat × Drbg :=
  let k := (n + 15) / 16
  ((drbgBlocks (keyN d.key) k d.v.toNat).take n,
   { d with v := BitVec.ofNat 128 (d.v.toNat + k) }.update (zeroN 32))

end Sys2Proof.Machine
end

