-- ==== Sys2Proof/Machine/Vault.lean ====
section
/-! DEFINITION. The grade-B pool, the DRBG's state, the key slots and the Vault verbs and registers (18_noise_vault).
The rows of the noise source, which may end a waiting draw of the link, stand in Noise.lean. -/
namespace Sys2Proof.Machine

open Sys2Proof

/-! ## The noise source -/

def NState.name : NState → String
  | .startup => "STARTUP" | .ready => "READY" | .raw => "RAW" | .failed => "FAILED"

def NState.index : NState → Nat
  | .startup => 0 | .ready => 1 | .raw => 2 | .failed => 3

/-- Octets that nothing determines (R468). -/
def State.drawOctets : Nat → State → List Byte × State
  | 0, s => ([], s)
  | k + 1, s =>
    let r := s.draw
    let rest := State.drawOctets k r.2
    (BitVec.ofNat 8 r.1.toNat :: rest.1, rest.2)

/-- Raw bits that passed the tests of R469: the count, the window's position, and the largest run and window count seen
and the run they end with, which are free values below the cut-offs. -/
def State.rawSeen (s : State) (bits : Nat) : State :=
  let r := s.draw
  let n := r.2.noise
  let top := max n.rctMax (r.1.toNat % 32)
  { r.2 with noise := { n with rawBits := n.rawBits.add bits, rctMax := top, aptMax := max n.aptMax (r.1.toNat / 32 % 589),
                               run := min top (r.1.toNat / 32768 % 32), aptPos := (n.aptPos + bits) % 1024 } }

/-- The bits of a start-up test, with which run and window restart (R469, R470). -/
def State.startupBits (s : State) : State := ({ s with noise := { s.noise with run := 0, aptPos := 0 } }).rawSeen 1024

/-- Raw bits of which the last fails a test: its figure stands at the cut-off or above. -/
def State.rawFailed (s : State) (bits : Nat) (apt : Bool) : State :=
  let t := s.rawSeen bits
  let n := t.noise
  { t with noise := if apt then { n with aptMax := max n.aptMax 589 } else { n with rctMax := max n.rctMax 32 } }

/-- A seed block from the next 512 raw bits (R472). -/
def State.seedNext (s : State) : BitVec 128 × State :=
  let a := s.draw
  let b := a.2.draw
  let c := b.2.draw
  let d := c.2.draw
  (seedBlock Config.eui [a.1, b.1, c.1, d.1], d.2.rawSeen 512)

/-- The NOISE state changes, and its edition with it (R493). -/
def State.noiseTo (s : State) (x : NState) : State :=
  if s.noise.st = x then s else ({ s with noise := { s.noise with st := x } }).bump .noise

/-- A refill starts when the pool holds fewer than 32 bits (R471). -/
def State.poolWant (s : State) : State :=
  if s.noise.st = .ready ∧ s.noise.pool < 32 then { s with noise := { s.noise with refill := true } } else s

/-- What a draw of grade-B bits finds (R471, R475, R479). -/
inductive Draw
  | stopped
  | wait
  | got (v : Nat)
  deriving DecidableEq, Repr

/-- A draw of k grade-B bits. -/
def State.drawB (s : State) (k : Nat) : Draw × State :=
  if k = 0 then (.got 0, s)
  else if s.noise.st ≠ .ready then (.stopped, s)
  else if s.noise.pool < k then (.wait, s.poolWant)
  else
    let r := s.draw
    let n := r.2.noise
    (.got (r.1.toNat % 2 ^ k),
     ({ r.2 with noise := { n with pool := n.pool - k, bBits := n.bBits.add k } }).poolWant)

/-- The pool is full again. -/
def State.refillPool (s : State) : State :=
  let need := 64 - s.noise.pool
  let r := s.draw
  (({ r.2 with noise := { r.2.noise with pool := 64, refill := false } }).rawSeen
    (2 * need + 2 * (r.1.toNat % 65536)))

/-- Grade A is present. -/
def State.gradeA (s : State) : Bool := s.has .vault && decide (s.noise.st = .ready) && s.noise.drbg.isSome

/-- The running VAULT ticket's operation. -/
def State.vaultOp (s : State) : Option TicketOp := (s.running .vault).map (·.op)

/-- A generate request of the DRBG runs. -/
def State.randRuns (s : State) : Bool := match s.vaultOp with | some (.vaultRand _) => true | _ => false

/-! ## Key slots (R480–R485) -/

def State.slotKey (s : State) (k : Nat) : Option (BitVec 128) := vget s.vault.slots k none

def State.slotsMask (s : State) : Nat :=
  ((List.range 8).filter (fun k => (s.slotKey k).isSome)).foldl (fun a k => a + 2 ^ k) 0

def maskOf (ks : List Nat) : Nat := ks.foldl (fun a k => a + 2 ^ k) 0

/-- The slots given are emptied, one row write each (R484). -/
def State.eraseSlots (s : State) (ks : List Nat) : State :=
  { s with vault := { s.vault with slots := ks.foldl (fun v k => vset v k none) s.vault.slots } }

/-- A loaded key is installed; the counters that R482 names go to 0. -/
def State.installKey (s : State) (k : Nat) (key : BitVec 128) : State :=
  let v := s.vault
  let s1 := ({ s with vault := { v with slots := vset v.slots k (some key), loads := v.loads.inc } }).bump .vault
  if k < 2 then s1
  else
    { s1 with frame := { s1.frame with fc := vset s1.frame.fc k 0, fcIn := 0 },
              link := if s1.isParent then { s1.link with cat := s1.link.cat.map (fun e => { e with fcIn := 0 }) }
                      else s1.link }

/-- The part's EUI-64. -/
def State.eui (_ : State) : BitVec 64 := Config.eui

/-! ## Refusals shared by the Vault verbs -/

/-- The tamper response runs (22 R571). -/
def State.tamperBusy (s : State) : Bool := s.tamper.resp.isSome

/-- The lockout of 22 R573. -/
def State.tamperLocked (s : State) : Bool :=
  s.tamper.latched && !s.tamperBusy && bit s.cfg.pins.tamper 8

def State.busyErs (s : State) : List Er := erIf s.tamperBusy ⟨"TAMPER-BUSY", []⟩
def State.tamperErs (s : State) : List Er := s.busyErs ++ erIf s.tamperLocked ⟨"TAMPER", []⟩

def State.noiseErs (s : State) (xs : List NState) : List Er :=
  erIf (xs.contains s.noise.st) (erState "NOISE" s.noise.st.name)

/-! ## VAULT -/

def sealName (b : Bool) : String := if b then "SEALED" else "OPEN"

/-- VAULT (R480). -/
def execVault (l : Line) (s : State) : Host.Outcome State Fault Refusal :=
  runLine { noun := true, feat := some .vault } l s [] (fun s =>
    s.okMany l ([w "VAULT", kw "state" (sealName s.vault.sealed), .kv "slots" (.hex 2 s.slotsMask),
                 .kv "erase" (.hex 2 s.vault.eraseMask.toNat), edTok s .vault] ::
      (List.range 8).filterMap (fun k => (s.slotKey k).map (fun x =>
        [w "VAULT", w "SLOT", n' k, w "VALID", .kv "kcv" (.hex 6 (kcv x)),
         kw "erase" (onOff (s.vault.eraseMask.getLsbD k))]))))

/-- A payload that must have a fixed number of octets. -/
def sizedErs (key : String) (n : Nat) (a : Option Arg) : List Er :=
  match a with
  | none => []
  | some (.octets x) => erIf (x.length != n) (erRange key)
  | some _ => [erRange key]

def octetsOf : Option Arg → List Byte
  | some (.octets x) => x
  | _ => []

/-- VAULT LOAD (R486, R488): a VAULT ticket. -/
def execVaultLoad (l : Line) (s : State) : Host.Outcome State Fault Refusal :=
  let k := (l.posNat? 0).getD 0
  let plain := l.has "key"
  runTicket { feat := some .vault, order := false, minPos := 1, pos := [("s", .int 0 7)],
              keys := [("key", .any), ("wrapped", .any)] } .vault l s
    (erIf (!plain && !l.has "wrapped") erMissing ++ erIf (plain && l.has "wrapped") erExtra ++
      sizedErs "key" 16 (l.arg "key") ++ sizedErs "wrapped" 24 (l.arg "wrapped") ++
      erIf (k == 0) ⟨"DENIED", ["KEK"]⟩ ++ erIf (s.slotKey 0).isNone ⟨"DENIED", ["NOKEK"]⟩ ++
      erIf (plain && s.vault.sealed) ⟨"LOCKED", ["PROVISIONING"]⟩ ++ s.tamperErs)
    (s.noiseErs [.raw, .failed])
    (.vaultLoad k (octetsOf (if plain then l.arg "key" else l.arg "wrapped")) (!plain))

/-- The key that a load yields: a wrapped one only where its initial value checks (R489). -/
def State.loadedKey (s : State) (key : List Byte) (wrapped : Bool) : Option (BitVec 128) :=
  if wrapped then
    match s.slotKey 1 with
    | none => none
    | some t => (keyUnwrap (keyN t) (toN key)).map (fun x => BitVec.ofNat 128 (natN x))
  else some (BitVec.ofNat 128 (beNat key))

/-- A load ends: FAIL UNWRAP, or the key is installed and the ticket completes with its last row write (R489). -/
def execVaultLoadDone (s : State) : Host.Outcome State Fault Refusal :=
  match s.running .vault with
  | none => .next s
  | some t =>
    match t.op with
    | .vaultLoad k key wr =>
      if !t.fields.isEmpty then .next s
      else
        match s.loadedKey key wr with
        | none =>
          let s1 := { s with vault := { s.vault with unwrapFails := s.vault.unwrapFails.inc } }
          .next ((s1.fire 85 [kd "slot" k]).complete t.n .fail [kw "why" "UNWRAP"])
        | some x =>
          let s1 := (s.installKey k x).updTicket t.n
            (fun t => { t with fields := [kd "slot" k, .kv "kcv" (.hex 6 (kcv x))] })
          .next (s1.rowWrites ([s1.keyRow k] ++
            (if k < 2 then [] else [s1.fcRowWhat] ++
              (if s1.isParent then [.cat s1.link.cat] else []))) (some t.n))
    | _ => .next s

/-- VAULT ERASE (R484): a VAULT ticket. -/
def execVaultErase (l : Line) (s : State) : Host.Outcome State Fault Refusal :=
  let all := l.at? 0 == some (.word "ALL")
  let k := (l.posNat? 0).getD 0
  runTicket { feat := some .vault, order := false, minPos := 1, pos := [("s", .intOr 0 7 ["ALL"])] } .vault l s
    (erIf (!all && k == 0) ⟨"DENIED", ["KEK"]⟩ ++ s.busyErs) []
    (.vaultErase (if all then [1, 2, 3, 4, 5, 6, 7] else [k]))

/-- The start of a VAULT ERASE ticket, which completes with its last row write. -/
def State.startErase (s : State) (t : Nat) (ks : List Nat) : State :=
  let s1 := ((s.eraseSlots ks).bump .vault).updTicket t (fun t => { t with fields := [.kv "slots" (.hex 2 (maskOf ks))] })
  s1.rowWrites (ks.map (fun k => .key k none)) (some t)

/-- The erase flags replaced: the edition, and the control record. -/
def State.setFlags (s : State) (m : BitVec 8) : State :=
  if s.vault.eraseMask = m then s
  else (({ s with vault := { s.vault with eraseMask := m } }).bump .vault).saveVault

/-- VAULT FLAGS (R486). -/
def execVaultFlags (l : Line) (s : State) : Host.Outcome State Fault Refusal :=
  let k := (l.posNat? 0).getD 0
  let on := (l.on? "erase").getD true
  runLine { feat := some .vault, order := false, minPos := 1, pos := [("s", .int 0 7)],
            keys := [("erase", .word ["ON", "OFF"])] } l s
    (erIf (!l.has "erase") erMissing ++ s.tamperErs ++
      erIf (s.vault.sealed && !on && s.vault.eraseMask.getLsbD k) ⟨"LOCKED", ["FLAGS"]⟩) (fun s =>
      let b : BitVec 8 := BitVec.ofNat 8 (2 ^ k)
      let s1 := s.setFlags (if on then s.vault.eraseMask ||| b else s.vault.eraseMask &&& ~~~b)
      s1.ok l [w "VAULT", w "FLAGS", .kv "erase" (.hex 2 s1.vault.eraseMask.toNat), edTok s1 .vault])

/-- VAULT SEAL (R487). -/
def execVaultSeal (l : Line) (s : State) : Host.Outcome State Fault Refusal :=
  runLine { feat := some .vault, order := false, keys := [("confirm", .int 0 65535)] } l s
    (erIf (!l.has "confirm") erMissing ++
      erIf (l.has "confirm" && l.nat? "confirm" != some (s.eui.toNat % 65536)) (erRange "confirm") ++
      erIf (s.slotKey 0).isNone ⟨"DENIED", ["NOKEK"]⟩ ++ erIf (s.slotKey 1).isNone ⟨"DENIED", ["NOTRANSPORT"]⟩ ++
      s.tamperErs ++ erIf s.vault.sealed (erState "VAULT" "SEALED")) (fun s =>
      let s1 := (({ s with vault := { s.vault with sealed := true } }).bump .vault).saveVault
      (s1.ok l [w "VAULT", w "SEAL", edTok s1 .vault]).fire 84 [])

/-- VAULT RAND (R474): a VAULT ticket. -/
def execVaultRand (l : Line) (s : State) : Host.Outcome State Fault Refusal :=
  runTicket { feat := some .vault, keys := [("n", .int 1 64)] } .vault l s (erIf (!l.has "n") erMissing ++ s.tamperErs)
    (s.noiseErs [.startup, .raw, .failed]) (.vaultRand ((l.nat? "n").getD 1))

/-- The start of a generate request: a reseed left due runs first (R477). -/
def State.startRand (s : State) : State :=
  if s.noise.due then { s with noise := { s.noise with due := false, reseeding := true, seed := none } } else s

/-- A request is counted; the 4096th makes the DRBG reseed at once (R474). -/
def State.countRequest (s : State) : State :=
  let n := s.noise
  { s with noise := { n with requests := n.requests + 1, aRequests := n.aRequests.inc,
                             reseeding := n.reseeding || decide (4096 ≤ n.requests + 1) } }

/-- A generate request of the DRBG: its octets (R474). -/
def State.generate (s : State) (n : Nat) : List Byte × State :=
  match s.noise.drbg with
  | none => ([], s)
  | some d =>
    let r := d.generate n
    (toB r.1, ({ s with noise := { s.noise with drbg := some r.2 } }).countRequest)

/-- A generate request returns its octets (R474), unless a reseed runs, which it waits for. -/
def execVaultRandDone (s : State) : Host.Outcome State Fault Refusal :=
  match s.running .vault with
  | none => .next s
  | some t =>
    match t.op with
    | .vaultRand n =>
      if s.noise.reseeding || !s.gradeA then .next s
      else
        let r := s.generate n
        .next (r.2.complete t.n .done [kd "n" n, .w (.octets r.1)])
    | _ => .next s

/-! ## VAULT CCM -/

def ccmLevels : List Int := [5, 6, 7]

/-- The octets a payload or block operand announces. -/
def argLen : Option Arg → Nat
  | some (.octets x) => x.length
  | some (.block n) => n
  | _ => 0

def isData : Option Arg → Bool
  | some (.octets _) => true
  | some (.block _) => true
  | _ => false

/-- VAULT CCM (R492): a VAULT ticket. -/
def execVaultCcm (l : Line) (s : State) : Host.Outcome State Fault Refusal :=
  let dec := l.posWord? 0 == some "DEC"
  let slot := (l.nat? "slot").getD 2
  let level := (l.nat? "level").getD 5
  let pay := l.at? 1
  runTicket { feat := some .vault, minPos := 2, pos := [("mode", .word ["ENC", "DEC"]), ("payload", .any)],
              keys := [("slot", .int 2 7), ("level", .oneOf ccmLevels), ("nonce", .any), ("adata", .any)] } .vault l s
    (erIf (!(l.has "slot" && l.has "level" && l.has "nonce")) erMissing ++
      s.late (erIf (l.has "slot" && (s.slotKey slot).isNone) (erRange "slot")) ++ sizedErs "nonce" 13 (l.arg "nonce") ++
      erIf (l.has "adata" && (!(isData (l.arg "adata")) || decide (64 < argLen (l.arg "adata")))) (erRange "adata") ++
      erIf (pay.isSome && (!isData pay || decide (1024 < argLen pay) || (dec && decide (argLen pay < micLen level))))
        (erRange "payload") ++ s.tamperErs) []
    (.vaultCcm dec slot level (octetsOf (l.arg "nonce")) (octetsOf (l.arg "adata")) (l.data pay)
      (match pay with | some (.block _) => true | _ => false))

/-- A CCM* operation ends: its output, or FAIL MIC (R492).  DESIGN CHOICE (log entry 73): where an earlier ticket of the
queue has emptied the slot, of which R492 does not speak, the result is FAIL with `why=KEY`, the word of 14 R385. -/
def execVaultCcmDone (s : State) : Host.Outcome State Fault Refusal :=
  match s.running .vault with
  | none => .next s
  | some t =>
    match t.op with
    | .vaultCcm dec slot level nonce aad data blk =>
      let done (o : List Byte) : State :=
        if blk then s.complete t.n .done [kd "n" o.length] o
        else s.complete t.n .done [kd "n" o.length, .w (.octets o)]
      match s.slotKey slot with
      | none => .next (s.complete t.n .fail [kw "why" "KEY"])
      | some k =>
        if dec then
          match ccmDec (keyN k) (toN nonce) (toN aad) (toN data) level with
          | some o => .next (done (toB o))
          | none =>
            let s1 := { s with vault := { s.vault with ccmFails := s.vault.ccmFails.inc } }
            .next (s1.complete t.n .fail [kw "why" "MIC"])
        else .next (done (toB (ccmEnc (keyN k) (toN nonce) (toN aad) (toN data) level)))
    | _ => .next s

/-! ## Registers (Tables 18.6, 18.7) -/

def setNoise (f : NoiseSt → NoiseSt) (s : State) : State := { s with noise := f s.noise }
def setVault (f : VaultSt → VaultSt) (s : State) : State := { s with vault := f s.vault }

def noiseRegs : List Reg :=
  [roReg 0x1400 "NOISE_STATUS" [ro "edition" 31 16, ro "fail_test" 9 8, ro "pool_low" 5 5, ro "grade_b_on" 4 4,
      ro "grade_a_on" 3 3, ro "state" 1 0] (fun s =>
      statusWord s .noise (s.noise.failTest * 256 + b2n (decide (s.noise.pool < 32)) * 32 +
        b2n (decide (s.noise.st = .ready)) * 16 + b2n s.gradeA * 8 + s.noise.st.index)),
   roReg 0x1404 "NOISE_HEALTH" [ro "apt_max" 26 16, ro "rct_max" 5 0] (fun s =>
      BitVec.ofNat 32 (s.noise.aptMax * 65536 + s.noise.rctMax)),
   ctrReg 0x1408 "NOISE_RAW_BITS" (·.noise.rawBits) (fun c => setNoise (fun x => { x with rawBits := c })),
   ctrReg 0x140C "NOISE_B_BITS" (·.noise.bBits) (fun c => setNoise (fun x => { x with bBits := c })),
   ctrReg 0x1410 "NOISE_RAW_ALARMS" (·.noise.rawAlarms) (fun c => setNoise (fun x => { x with rawAlarms := c })),
   wrapReg 0x1414 "NOISE_WRAP" 3 (fun s => [s.noise.rawBits, s.noise.bBits, s.noise.rawAlarms]),
   roReg 0x1500 "NOISE_DRBG" [ro "instantiated" 31 31, ro "reseeding" 30 30, ro "requests" 12 0] (fun s =>
      BitVec.ofNat 32 (b2n s.noise.drbg.isSome * 2 ^ 31 + b2n s.noise.reseeding * 2 ^ 30 + s.noise.requests)),
   ctrReg 0x1504 "NOISE_RESEEDS" (·.noise.reseeds) (fun c => setNoise (fun x => { x with reseeds := c })),
   ctrReg 0x1508 "NOISE_A_REQUESTS" (·.noise.aRequests) (fun c => setNoise (fun x => { x with aRequests := c })),
   roReg 0x150C "NOISE_DRBG_WRAP" [ro "reseeds" 0 0, ro "requests" 1 1]
      (fun s => wrapWord [s.noise.reseeds, s.noise.aRequests])]

/-- Slots are being erased: by a VAULT ERASE, or in answer to the tamper latch. -/
def State.erasing (s : State) : Bool :=
  (match s.vaultOp with | some (.vaultErase _) => true | _ => false) ||
    (match s.tamper.resp with | some r => r.erased != 0 | none => false)

def vaultRegs : List Reg :=
  [roReg 0x1600 "VAULT_STATUS" [ro "edition" 31 16, ro "erasing" 10 10, ro "busy" 9 9, ro "sealed" 8 8,
      ro "valid" 7 0] (fun s =>
      statusWord s .vault (b2n s.erasing * 1024 + b2n s.vaultOp.isSome * 512 + b2n s.vault.sealed * 256 +
        s.slotsMask)),
   { addr := 0x1604, name := "VAULT_CONFIG", fields := [rw "erase_mask" 7 0],
     read := fun s => BitVec.ofNat 32 s.vault.eraseMask.toNat,
     check := fun s v => erIf (s.vault.sealed && (s.vault.eraseMask &&& ~~~(BitVec.ofNat 8 v.toNat)) != 0)
       ⟨"LOCKED", ["FLAGS"]⟩,
     apply := fun v s => s.setFlags (BitVec.ofNat 8 v.toNat) },
   ctrReg 0x1640 "VAULT_LOADS" (·.vault.loads) (fun c => setVault (fun x => { x with loads := c })),
   ctrReg 0x1644 "VAULT_UNWRAP_FAILS" (·.vault.unwrapFails) (fun c => setVault (fun x => { x with unwrapFails := c })),
   ctrReg 0x1648 "VAULT_ERASURES" (·.vault.erasures) (fun c => setVault (fun x => { x with erasures := c })),
   ctrReg 0x164C "VAULT_CCM_FAILS" (·.vault.ccmFails) (fun c => setVault (fun x => { x with ccmFails := c })),
   wrapReg 0x1650 "VAULT_WRAP" 4 (fun s => [s.vault.loads, s.vault.unwrapFails, s.vault.erasures, s.vault.ccmFails])] ++
  (List.range 8).map (fun k => roReg (0x1610 + 4 * k) ("VAULT_SLOT_" ++ Nat.repr k)
    [ro "valid" 31 31, ro "erase" 30 30, ro "kcv" 23 0] (fun s =>
      BitVec.ofNat 32 (b2n (s.slotKey k).isSome * 2 ^ 31 + b2n (s.vault.eraseMask.getLsbD k) * 2 ^ 30 +
        ((s.slotKey k).map kcv).getD 0)))

end Sys2Proof.Machine
end

