-- ==== Sys2Proof/Machine/Frames.lean ====
section
/-! DEFINITION. Frames and the rings (14_frames): how a frame of each format is built and taken apart, the TX and RX
rings, the FRAME and FILTER verbs and the FRAME registers.  The receive decision stands in Air.lean. -/
namespace Sys2Proof.Machine

open Sys2Proof

/-! ## Addresses -/

/-- The addressing mode of Table 14.2. -/
def Addr.mode : Addr → Nat
  | .none => 0 | .short _ => 2 | .ext _ => 3

/-- Least significant octet first (R368). -/
def Addr.octets : Addr → List Byte
  | .none => [] | .short a => leBytes 2 a.toNat | .ext a => leBytes 8 a.toNat

/-- An `<address>` operand: up to four hex digits name a short address. -/
def addrOf (v : Nat) : Addr := if v < 65536 then .short (BitVec.ofNat 16 v) else .ext (BitVec.ofNat 64 v)

def Addr.val : Addr → Val
  | .none => .word "NONE" | .short a => .hex 4 a.toNat | .ext a => .hex 16 a.toNat

def State.ownPan (s : State) : BitVec 16 := BitVec.ofNat 16 (fld s.cfg.frame.filter 15 0)
def State.ownShort (s : State) : BitVec 16 := BitVec.ofNat 16 (fld s.cfg.frame.addr 15 0)

/-- The source of a frame the device sends (R387, R388). -/
def State.ownSrc (s : State) (ext : Bool) : Addr :=
  if ext || s.ownShort = 0xFFFE then .ext s.eui else .short s.ownShort

/-- The address is the device's own. -/
def State.isOwn (s : State) : Addr → Bool
  | .short a => decide (a = s.ownShort)
  | .ext a => decide (a = s.eui)
  | .none => false

/-! ## Format S (R366–R368, R384) -/

/-- Frame control (Table 14.2): version 2, PAN ID compression. -/
def TxFrame.control (f : TxFrame) : Nat :=
  f.ftype + b2n (decide (f.sec ≠ 0)) * 8 + b2n f.pending * 16 + b2n f.ackReq * 32 + 64 + f.dst.mode * 1024 + 2 * 4096 +
    f.src.mode * 16384

/-- The destination PAN ID stands in the header, by the compression rules for frame version 2. -/
def TxFrame.hasPan (f : TxFrame) : Bool :=
  decide (f.dst ≠ .none) && decide (f.src ≠ .none) && !(decide (f.dst.mode = 3) && decide (f.src.mode = 3))

/-- The MAC header with its auxiliary security header: the open data of CCM*. -/
def TxFrame.header (f : TxFrame) : List Byte :=
  leBytes 2 f.control ++ leBytes 1 f.seq ++ (if f.hasPan then leBytes 2 f.pan.toNat else []) ++ f.dst.octets ++
    f.src.octets ++
    (if f.sec = 0 then [] else leBytes 1 (f.sec + 8) ++ leBytes 4 f.counter ++ leBytes 1 f.key)

def fcsLen (fcs4 : Bool) : Nat := if fcs4 then 4 else 2

/-- The frame check sequence, least significant octet first (R367). -/
def fcsOf (fcs4 : Bool) (o : List Byte) : List Byte := if fcs4 then leBytes 4 (crcOf c32 o) else leBytes 2 (crcOf c16k o)

/-- The CCM* nonce (R384). -/
def nonceOf (eui : BitVec 64) (counter level : Nat) : List Nat := octN 8 eui.toNat ++ octN 4 counter ++ [level]

def micOf (sec : Nat) : Nat := if sec = 0 then 0 else micLen sec

/-- The payload as it stands in the frame: encrypted, with its MIC, where the frame is secured. -/
def TxFrame.body (f : TxFrame) (eui : BitVec 64) (key : BitVec 128) : List Byte :=
  if f.sec = 0 then f.payload
  else toB (ccmEnc (keyN key) (nonceOf eui f.counter f.sec) (toN f.header) (toN f.payload) f.sec)

/-- Octets of the PSDU (R366). -/
def TxFrame.psduLen (f : TxFrame) : Nat := f.header.length + f.payload.length + micOf f.sec + fcsLen f.fcs4

/-- The PHR: bits 0–15, sent in that order, bit 0 first (R366). -/
def phrOf (fcs4 whiten : Bool) (len : Nat) : List Byte :=
  -- as two octets, the bit sent first the most significant: mode switch, two reserved, FCS type, whitening, length
  beBytes 2 (b2n (!fcs4) * 4096 + b2n whiten * 2048 + len % 2048)

/-! ## Format M (R370): EN 13757-4 mode N, frame formats A and B (log entry 23) -/

/-- A list cut into pieces. -/
def cutAt : List Nat → List Byte → List (List Byte)
  | [], l => if l.isEmpty then [] else [l]
  | n :: ns, l => if l.isEmpty then [] else l.take n :: cutAt ns (l.drop n)

/-- The block lengths without their checks: format A has 10 octets and then 16 each, format B 126 and the rest. -/
def mBlocks (mB : Bool) : List Nat := if mB then [126, 126] else 10 :: List.replicate 16 16

def mChecks (mB : Bool) (n : Nat) : Nat := if mB then (if 125 < n then 2 else 1) else 1 + ceilDiv' (n - 9) 16

/-- The L-field of `n` octets from the C-field on. -/
def mLength (mB : Bool) (n : Nat) : Nat := if mB then n + 2 * mChecks true n else n

def withCrc (l : List Byte) : List Byte := l ++ beBytes 2 (crcOf c16m l)

/-- A format M frame from its L-field on. -/
def mBuild (mB : Bool) (o : List Byte) : List Byte :=
  (cutAt (mBlocks mB) (BitVec.ofNat 8 (mLength mB o.length) :: o)).flatMap withCrc

/-- A block's octets when its check holds. -/
def crcBlock (l : List Byte) : Option (List Byte) :=
  let d := l.take (l.length - 2)
  if 3 ≤ l.length ∧ withCrc d = l then some d else none

/-- The octets from the C-field on of a received format M frame, when every block check holds. -/
def mParse (mB : Bool) (o : List Byte) : Option (List Byte) :=
  let bs := (cutAt ((mBlocks mB).map (· + 2)) o).map crcBlock
  if bs.all Option.isSome then
    match bs.flatMap (·.getD []) with
    | [] => none
    | lf :: d => if lf.toNat = mLength mB d.length then some d else none
  else none

/-! ## Format D (R371, R372) -/

/-- A format D frame: header, payload and check, most significant octet first. -/
def dBuild (flags : Nat) (dst : Nat) (payload : List Byte) : List Byte :=
  let h := [BitVec.ofNat 8 payload.length, BitVec.ofNat 8 flags] ++ beBytes 2 dst ++ payload
  h ++ beBytes 2 (crcOf c16k h)

def Addr.shortNat : Addr → Nat
  | .short a => a.toNat
  | _ => 0xFFFE

/-- The payload octets of a frame the device sends: its short address first (R372). -/
def TxFrame.dPayload (f : TxFrame) : List Byte := beBytes 2 f.src.shortNat ++ f.payload

def TxFrame.dFlags (f : TxFrame) : Nat :=
  b2n f.ackReq * 128 + b2n f.pending * 32 + 16 + b2n f.poll * 8 + f.seq % 8

/-! ## What goes on the air -/

/-- The octets of the frame after its sync word, before whitening and coding: the PSDU, the blocks of format M, or the
octets of format D. -/
def TxFrame.air (f : TxFrame) (eui : BitVec 64) (key : BitVec 128) : List Byte :=
  match f.fmt with
  | .s =>
    let o := f.header ++ f.body eui key
    o ++ fcsOf f.fcs4 o
  | .m => mBuild f.mB f.payload
  | .d => dBuild f.dFlags f.dst.shortNat f.dPayload

/-- A PSDU behind its PHR, whitened where the settings say so (R366, 12 R324). -/
def sAir (fcs4 wh : Bool) (o : List Byte) : List Byte := phrOf fcs4 wh o.length ++ if wh then whitenPsdu o else o

/-- The tones of a frame from its preamble on, for its octets as they stand after the sync word (12 R318–R325). -/
def State.frameTones (s : State) (f : Fmt) (mB fcs4 : Bool) (pre : Nat) (o : List Byte) : List Int :=
  let p := s.profile
  p.tones (p.frameBits f mB pre (if f = .s then sAir fcs4 (bit s.cfg.modem.profile 8) o else o))

/-- The length that Table 12.3 counts: PSDU, format M frame with its checks, format D payload. -/
def TxFrame.airLen (f : TxFrame) : Nat :=
  match f.fmt with
  | .s => f.psduLen
  | .m => 1 + f.payload.length + 2 * mChecks f.mB f.payload.length
  | .d => f.payload.length + 2

/-- Ring octets of a frame: a descriptor and the octets, padded to a multiple of 4 (R373). -/
def ringSize (n : Nat) : Nat := 24 + (n + 3) / 4 * 4

/-- The frame octets counted in the TX ring, as R374 counts those of the RX ring (log entry 24). -/
def TxFrame.ringOctets (f : TxFrame) : Nat :=
  match f.fmt with
  | .s => f.psduLen - fcsLen f.fcs4
  | .m => f.payload.length
  | .d => 6 + f.payload.length

/-- The payload lies outside the limits of R366, R370 and R372. -/
def TxFrame.tooLong (f : TxFrame) : Bool :=
  match f.fmt with
  | .s => decide (2047 < f.psduLen)
  | .m => decide (255 < mLength f.mB f.payload.length)
  | .d => decide (125 < f.payload.length)

/-! ## Taking a format S frame apart -/

structure AuxHdr where
  level : Nat
  mode : Nat
  suppressed : Bool
  counter : Nat
  key : Nat
  deriving DecidableEq, Repr

/-- A format S frame: its control fields, addresses, auxiliary header, header octets and the rest. -/
structure SFrame where
  control : Nat
  seq : Nat
  dstPan : Option Nat
  dst : Addr
  srcPan : Option Nat
  src : Addr
  aux : Option AuxHdr
  header : List Byte
  rest : List Byte
  deriving DecidableEq, Repr

def SFrame.cbit (f : SFrame) (i : Nat) : Bool := decide (f.control / 2 ^ i % 2 = 1)
def SFrame.ftype (f : SFrame) : Nat := f.control % 8
def SFrame.version (f : SFrame) : Nat := f.control / 4096 % 4

/-- The octets taken from the front, and what is left; none where there are too few. -/
def takeN (n : Nat) (o : List Byte) : Option (Nat × List Byte) :=
  if o.length < n then none else some (leNat (o.take n), o.drop n)

def takeAddr (mode : Nat) (o : List Byte) : Option (Addr × List Byte) :=
  match mode with
  | 0 => some (.none, o)
  | 2 => (takeN 2 o).map (fun x => (.short (BitVec.ofNat 16 x.1), x.2))
  | 3 => (takeN 8 o).map (fun x => (.ext (BitVec.ofNat 64 x.1), x.2))
  | _ => none

def takeIf (b : Bool) (o : List Byte) : Option (Option Nat × List Byte) :=
  if b then (takeN 2 o).map (fun x => (some x.1, x.2)) else some (none, o)

/-- Which PAN IDs stand in a header: destination and source (the compression rules of IEEE 802.15.4-2020: for frame
version 2, and for versions 0 and 1). -/
def pansIn (version dm sm : Nat) (comp : Bool) : Bool × Bool :=
  if version = 2 then
    if dm = 0 ∧ sm = 0 then (comp, false)
    else if sm = 0 then (!comp, false)
    else if dm = 0 then (false, !comp)
    else if dm = 3 ∧ sm = 3 then (!comp, false)
    else (true, !comp)
  else (decide (dm ≠ 0), decide (sm ≠ 0) && !comp)

/-- The auxiliary security header: its key identifier field has the length of its mode. -/
def takeAux (o : List Byte) : Option (AuxHdr × List Byte) :=
  match o with
  | [] => none
  | c :: o1 =>
    let x := c.toNat
    let supp := decide (x / 32 % 2 = 1)
    let mode := x / 8 % 4
    match if supp then some (0, o1) else takeN 4 o1 with
    | none => none
    | some (ctr, o2) =>
      let kl := if mode = 0 then 0 else if mode = 1 then 1 else if mode = 2 then 5 else 9
      match takeN kl o2 with
      | none => none
      | some (k, o3) => some (⟨x % 8, mode, supp, ctr, k % 256⟩, o3)

/-- A format S PSDU without its check sequence; none where its fields do not fit. -/
def sParse (o : List Byte) : Option SFrame :=
  (takeN 2 o).bind fun c =>
  (takeN 1 c.2).bind fun q =>
    let fc := c.1
    let dm := fc / 1024 % 4
    let sm := fc / 16384 % 4
    let ps := pansIn (fc / 4096 % 4) dm sm (decide (fc / 64 % 2 = 1))
    (takeIf ps.1 q.2).bind fun dp =>
    (takeAddr dm dp.2).bind fun d =>
    (takeIf ps.2 d.2).bind fun sp =>
    (takeAddr sm sp.2).bind fun sa =>
      let done (a : Option AuxHdr) (r : List Byte) : SFrame :=
        { control := fc, seq := q.1, dstPan := dp.1, dst := d.1, srcPan := sp.1, src := sa.1, aux := a,
          header := o.take (o.length - r.length), rest := r }
      if fc / 8 % 2 = 1 then (takeAux sa.2).map (fun a => done (some a.1) a.2) else some (done none sa.2)

/-- A frame of type 2 has one of the two forms of R379: an Imm-Ack of frame version 0 or 1, or an Enh-Ack. -/
def SFrame.isAck (f : SFrame) : Bool :=
  ([0x0002, 0x0012, 0x1002, 0x1012].contains f.control && f.rest.isEmpty) ||
    ([0x2A42, 0x2A52, 0x2E42, 0x2E52].contains f.control && f.rest.length == 4 && f.rest.take 2 == leBytes 2 0x0F02)

/-- An identifier of the MAC commands that the device accepts (R369). -/
def macCommand (c : Option Byte) : Bool :=
  match c with
  | some c => decide (1 ≤ c.toNat) && decide (c.toNat ≤ 4)
  | none => false

/-- The command identifier of a MAC command that is not secured. -/
def SFrame.cmd (f : SFrame) : Option Nat :=
  if f.ftype = 3 ∧ f.aux.isNone then (f.rest.head?).map (·.toNat) else none

/-- Unsupported at step 3 of Table 14.7 (R369): frame type, version, sequence number suppression, header IEs, the
command, and the security level, key identifier mode and frame counter. -/
def SFrame.unsupported (f : SFrame) : Bool :=
  (f.ftype != 1 && f.ftype != 3) || f.version != 2 || f.cbit 8 || f.cbit 9 ||
  (match f.aux with
    | none => f.ftype == 3 && !macCommand f.rest.head?
    | some a => a.level < 5 || a.mode != 1 || a.suppressed)

/-! ## Taking a format D frame apart -/

structure DFrame where
  flags : Nat
  dst : Nat
  payload : List Byte
  deriving DecidableEq, Repr

def dParse (o : List Byte) : Option DFrame :=
  match o with
  | n :: fl :: a :: b :: r =>
    if r.length = n.toNat + 2 ∧ beBytes 2 (crcOf c16k (o.take (4 + n.toNat))) = r.drop n.toNat then
      some ⟨fl.toNat, a.toNat * 256 + b.toNat, r.take n.toNat⟩
    else none
  | _ => none

/-- The header of a received frame of format D tells a payload of more than 127 octets (12 R328). -/
def dHeaderBad (o : List Byte) : Bool := decide (127 < (o.headD 0).toNat)

def DFrame.fbit (f : DFrame) (i : Nat) : Bool := decide (f.flags / 2 ^ i % 2 = 1)

/-- The source address of a format D frame. -/
def DFrame.src (f : DFrame) : Addr :=
  if f.fbit 4 && decide (2 ≤ f.payload.length) then .short (BitVec.ofNat 16 (beNat (f.payload.take 2))) else .none

/-! ## Acknowledgements (R378, R379) -/

/-- The octets of an acknowledgement of a format S frame, without its check sequence. -/
def ackOctets (enh pend : Bool) (seq : Nat) (src : Addr) (sync : Nat) : List Byte :=
  if !enh then leBytes 2 (2 + b2n pend * 16) ++ leBytes 1 seq
  else
    let ctl := 0x2242 + b2n pend * 16 + src.mode * 1024
    let v : Int := ((usOf sync + 2048) % 4096 : Nat) - 2048
    leBytes 2 ctl ++ leBytes 1 seq ++ src.octets ++ leBytes 2 0x0F02 ++ leBytes 2 (unsigned 12 v)

/-! ## The rings (R373) -/

def ringOctets : Nat := 32768

def State.rxFree (s : State) : Nat := ringOctets - (s.frame.rx.map (fun e => ringSize e.octets.length)).sum

/-- Staged octets count against the TX ring (R375). -/
def State.txFree (s : State) : Nat := ringOctets - (s.frame.tx.map (·.size)).sum - s.frame.stage.length

/-- A frame joins the TX ring. -/
def State.ringPut (s : State) (f : TxFrame) (child : Option Nat) (kind : HeldKind) (octets : List Byte) : State × Nat :=
  let x := s.frame
  let e : TxEntry := { id := x.txNext, frame := f, size := ringSize f.ringOctets, child := child, octets := octets,
                       kind := kind, since := s.elapsed }
  ({ s.touch 1 with frame := { x with tx := x.tx ++ [e], txNext := (x.txNext + 1) % 65536 } }, x.txNext)

/-- The entry given leaves the TX ring. -/
def State.ringFree (s : State) (id : Nat) : State :=
  { s with frame := { s.frame with tx := s.frame.tx.filter (fun e => !(e.id == id)) } }

/-- The next sequence number (R387). -/
def State.nextSeq (s : State) : Nat × State :=
  (s.frame.seq, { s with frame := { s.frame with seq := (s.frame.seq + 1) % 256 } })

/-- The outgoing counter of the slot of key index k advances, is stored, and warns once (R385); 2^32 where it is
exhausted. -/
def State.nextCounter (s : State) (k : Nat) : Nat × State :=
  let slot := k + 1
  let c := (vget s.frame.fc slot 0).toNat
  if c = 0xFFFFFFFF then (2 ^ 32, s)
  else
    let s1 := ({ s with frame := { s.frame with fc := vset s.frame.fc slot (BitVec.ofNat 32 (c + 1)) } }).saveFc
    (c + 1, if BitVec.ofNat 32 (c + 1) = s.frame.fcWarn then s1.fire 59 [kd "slot" slot, .kv "counter" (.hex 8 (c + 1))]
            else s1)

/-- The frame needs a counter beyond 0xFFFF_FFFF, or its slot is empty: why its ticket fails at its start (R385). -/
def State.secWhy (s : State) (f : TxFrame) : Option String :=
  if f.sec = 0 then none
  else if 2 ^ 32 ≤ f.counter then some "COUNTER"
  else if (s.slotKey (f.key + 1)).isNone then some "KEY"
  else none

/-- A row of frame counters waits or is being written. -/
def RowWhat.isFc : RowWhat → Bool
  | .counters _ _ => true
  | _ => false

/-- The keying of a secured frame waits for the row that stores its counter (R385). -/
def State.fcWaits (s : State) (f : TxFrame) : Bool := decide (f.sec ≠ 0) && s.rows.any (fun r => r.what.isFc)

/-- A frame receives its sequence number and, where it is secured, its frame counter. -/
def State.number (s : State) (f : TxFrame) : TxFrame × State :=
  let q := s.nextSeq
  if f.sec = 0 then ({ f with seq := q.1 }, q.2)
  else
    let c := q.2.nextCounter f.key
    ({ f with seq := q.1, counter := c.1 }, c.2)

/-- The octets of a frame after its sync word, under the key its slot holds now. -/
def State.airOctets (s : State) (f : TxFrame) : List Byte :=
  f.air s.eui ((s.slotKey (f.key + 1)).getD 0)

/-! ## FRAME -/

def State.fcs4 (s : State) : Bool := bit s.cfg.frame.config 1
def State.enhAck (s : State) : Bool := bit s.cfg.frame.config 2
def State.autoAck (s : State) : Bool := bit s.cfg.frame.config 3
def State.waitTicks (s : State) : Nat := tickUs (fld s.cfg.frame.config 31 16)

/-- The refusal of a change in Receive or Transmit (R390). -/
def State.frameStateErs (s : State) : List Er :=
  erIf (decide (s.radio.st = .receive) || decide (s.radio.st = .transmit)) (erState "FRAME" s.radio.st.name)

/-- FRAME (R367). -/
def execFrameSettings (l : Line) (s : State) : Host.Outcome State Fault Refusal :=
  runLine { noun := true, keys := [("fcs", .oneOf [2, 4]), ("ack", .word ["IMM", "ENH"]), ("auto", .word ["ON", "OFF"]),
                     ("wait", .int 500 20000), saveKey] } l s (if l.sets then s.frameStateErs else []) (fun s =>
      let f4 := match l.nat? "fcs" with | some x => x == 4 | none => s.fcs4
      let enh := match l.word? "ack" with | some x => x == "ENH" | none => s.enhAck
      let auto := (l.on? "auto").getD s.autoAck
      let wait := (l.nat? "wait").getD (fld s.cfg.frame.config 31 16)
      let v : Word := BitVec.ofNat 32 (wait * 65536 + b2n auto * 8 + b2n enh * 4 + b2n f4 * 2)
      let s1 := if s.cfg.frame.config = v then s else (s.cfgSet .frame v).bump .frame
      let s2 := if l.save then s1.save [.frame] else s1
      s2.ok l [w "FRAME", kd "rx" s2.frame.rx.length, kd "rx_free" s2.rxFree, kd "tx" s2.frame.tx.length,
               kd "tx_free" s2.txFree, kd "stage" s2.frame.stage.length, kd "fcs" (fcsLen f4),
               kw "ack" (if enh then "ENH" else "IMM"), kw "auto" (onOff auto), kd "wait" wait, edTok s2 .frame])

/-! ## FRAME SEND -/

/-- The payload a line gives: its octets, those staged, or those of its block (R387). -/
def State.linePayload (s : State) (l : Line) (i : Nat) : List Byte :=
  if l.has "data" then s.frame.stage else l.data (l.at? i)

/-- The errors of the payload operand of a line that sends or queues a frame. -/
def payloadErs (l : Line) (i : Nat) : List Er :=
  if l.has "data" then erIf (l.at? i).isSome erExtra
  else erIf (l.at? i).isNone erMissing ++
    erIf ((l.at? i).isSome && !(match l.at? i with | some (.octets _) => true | some (.block _) => true | _ => false))
      (erRange "payload")

/-- The errors of sec= and key= (R383): security belongs to the Vault (08_bringup Table 8.5). -/
def State.secErs (s : State) (l : Line) : List Er :=
  let sec := (l.nat? "sec").getD 0
  (if 5 ≤ sec || l.has "key" then s.needs .vault else []) ++ erIf (decide (5 ≤ sec) && !l.has "key") erMissing

/-- The stage empties once its octets are taken (R375). -/
def State.unstage (s : State) (l : Line) : State :=
  if l.has "data" then { s with frame := { s.frame with stage := [], stageOver := false } } else s

def secKeys : List (String × Kind) := [("sec", .oneOf [0, 5, 6, 7]), ("key", .int 1 6), ("data", .word ["WINDOW"])]

def fmtOf (x : String) : Fmt := if x == "M" then .m else if x == "D" then .d else .s

/-- The frame that a FRAME SEND line describes, its numbers not yet assigned. -/
def State.sendFrame (s : State) (l : Line) : TxFrame :=
  let fmt := fmtOf ((l.word? "fmt").getD "S")
  let dst := (l.nat? "dst").map addrOf
  let sec := (l.nat? "sec").getD 0
  { fmt := fmt, mB := l.word? "mfmt" == some "B", pan := (l.nat? "pan").map (BitVec.ofNat 16) |>.getD s.ownPan,
    dst := if fmt = .m then .none else dst.getD .none,
    src := match fmt with
      | .m => .none
      | .d => .short s.ownShort
      | .s => s.ownSrc (l.word? "ext" == some "YES"),
    ackReq := fmt != .m && dst != some (.short 0xFFFF) && l.word? "ack" != some "NO",
    sec := sec, key := (l.nat? "key").getD 1, fcs4 := s.fcs4, payload := s.linePayload l 0 }

/-- Room in the TX ring for a frame, with the staged octets it takes (R375). -/
def State.ringErs (s : State) (l : Line) (f : TxFrame) : List Er :=
  erIf (decide (s.txFree + (if l.has "data" then s.frame.stage.length else 0) < ringSize f.ringOctets))
    ⟨"FULL", ["TXRING"]⟩

/-- FRAME SEND (R387): the frame is built into the TX ring, and a LINK ticket sends it. -/
def execFrameSend (l : Line) (s : State) : Host.Outcome State Fault Refusal :=
  let fmt := fmtOf ((l.word? "fmt").getD "S")
  let f := s.sendFrame l
  let plan := s.linePlan l
  let chan := s.lineChan l
  runTicketMk { pos := [("payload", .any)],
                keys := [("fmt", .word ["S", "M", "D"]), ("dst", .int 0 (2 ^ 64 - 1)), ("pan", .int 0 65535),
                         ("ext", .word ["YES", "NO"]), ("ack", .word ["YES", "NO"]), ("mfmt", .word ["A", "B"]),
                         ("chan", .any), ("plan", .any)] ++ secKeys } .link none l s
    ((if fmt = .d then s.needs .deep else []) ++ erIf (!l.has "fmt") erMissing ++
      erIf (fmt != .m && !l.has "dst") erMissing ++ payloadErs l 0 ++
      s.late (erIf (!s.profile.fmts.contains fmt) (erRange "fmt")) ++
      erIf (fmt == .d && (match f.dst with | .ext _ => true | _ => false)) (erRange "dst") ++
      erIf (fmt != .s && l.has "sec" && f.sec != 0) (erRange "sec") ++ s.secErs l ++ s.chanErs l "c" ++
      (if l.has "data" then s.late (erIf f.tooLong (erRange "payload")) else erIf f.tooLong (erRange "payload")) ++
      s.ringErs l f) []
    (fun s =>
      let n := s.number (s.sendFrame l)
      let r := (n.2.unstage l).ringPut n.1 none .data []
      (r.1, .frameSend n.1 plan chan r.2)) (fun _ s => s)

/-! ## FRAME READ, FRAME FREE, FILTER -/

/-- The source of a ring entry. -/
def RxEntry.src (e : RxEntry) : Addr :=
  match e.fmt with
  | .s => ((sParse e.octets).map (·.src)).getD .none
  | .m => .none
  | .d => (DFrame.mk ((e.octets.getD 1 0).toNat) 0 (e.octets.drop 4)).src

def RxEntry.seqNo (e : RxEntry) : Nat :=
  match e.fmt with
  | .s => (e.octets.getD 2 0).toNat
  | .m => 0
  | .d => (e.octets.getD 1 0).toNat % 8

def RxEntry.sec (e : RxEntry) : Nat :=
  if e.fmt = .s then (((sParse e.octets).bind (·.aux)).map (·.level)).getD 0 else 0

def fmtName : Fmt → String
  | .s => "S" | .m => "M" | .d => "D"

def fmtIndex : Fmt → Nat
  | .s => 0 | .m => 1 | .d => 2

/-- Octets in lines of 64 (typed mode). -/
def dataLines (head : List Tok) (o : List Byte) : List (List Tok) :=
  (List.range (ceilDiv' o.length 64)).map (fun i => head ++ [kd "off" (64 * i : Nat), .w (.octets ((o.drop (64 * i)).take 64))])

/-- The lines of FRAME READ, and the block that follows them in framed mode. -/
def State.sendData (s : State) (l : Line) (head : List Tok) (line : List Tok) (o : List Byte) : State :=
  match l.origin with
  | .port p =>
    if s.framed p then s.replyLines l (.reply true) true [w "OK" :: head] o
    else s.replyLines l (.reply true) true ((w "OK" :: head) :: dataLines (w "OK" :: line) o)
  | .order _ => s.replyLines l (.reply true) true [w "OK" :: head]

/-- FRAME READ (R376): the oldest entry, which stays. -/
def execFrameRead (l : Line) (s : State) : Host.Outcome State Fault Refusal :=
  runLine {} l s [] (fun s0 =>
    let s := { s0 with frame := { s0.frame with rxPos := 0 } }
    match s.frame.rx.head? with
    | none => s.ok l [w "FRAME", w "READ", w "NONE"]
    | some e =>
      s.sendData l [w "FRAME", w "READ", n' e.id, kw "fmt" (fmtName e.fmt), kd "len" e.octets.length, .kv "src" e.src.val,
        kd "seq" e.seqNo, kd "sec" e.sec, kw "acked" (yesNo (decide (e.flags / 8 % 2 = 1))), kd "chan" e.chan,
        .kv "sync" (.time e.sync.toNat), .kv "rssi" (dbm e.rssi), kd "lqi" e.lqi, kd "afc" e.afc]
        [w "FRAME", w "DATA"] e.octets)

/-- FRAME FREE (R376). -/
def execFrameFree (l : Line) (s : State) : Host.Outcome State Fault Refusal :=
  let all := l.at? 0 == some (.word "ALL")
  runLine { minPos := 1, pos := [("id", .intOr 0 65535 ["ALL"])] } l s
    (s.late (erIf (!all && (s.frame.rx.head?).map (·.id) != l.posNat? 0) (erRange "id"))) (fun s =>
      let s1 := { s with frame := { s.frame with rx := if all then [] else s.frame.rx.tail, rxPos := 0 } }
      s1.ok l [w "FRAME", w "FREE", if all then w "ALL" else n' ((l.posNat? 0).getD 0), kd "rx" s1.frame.rx.length,
               kd "rx_free" s1.rxFree])

def LState.name : LState → String
  | .unassoc => "UNASSOC" | .associating => "ASSOCIATING" | .associated => "ASSOCIATED" | .parent => "PARENT"
  | .exchange => "EXCHANGE"

def LState.index : LState → Nat
  | .unassoc => 0 | .associating => 1 | .associated => 2 | .parent => 3 | .exchange => 4

/-- pan and short may change only in UNASSOC and PARENT (R390). -/
def State.addrStateErs (s : State) : List Er :=
  erIf (!(decide (s.link.st = .unassoc) || decide (s.link.st = .parent))) (erState "LINK" s.link.st.name)

/-- FILTER (R388). -/
def execFilter (l : Line) (s : State) : Host.Outcome State Fault Refusal :=
  runLine { noun := true, keys := [("pan", .int 0 65535), ("short", .int 0 65535), ("promisc", .word ["ON", "OFF"]),
                     ("m_accept", .word ["ALL", "NONE"]), saveKey] } l s
    (if l.has "pan" || l.has "short" then s.addrStateErs else []) (fun s =>
      let c := s.cfg.frame.filter
      let m := match l.word? "m_accept" with | some x => x == "ALL" | none => bit c 17
      let p := (l.on? "promisc").getD (bit c 16)
      let v : Word := BitVec.ofNat 32 (b2n m * 131072 + b2n p * 65536 + (l.nat? "pan").getD (fld c 15 0))
      let a : Word := BitVec.ofNat 32 ((l.nat? "short").getD (fld s.cfg.frame.addr 15 0))
      let s1 := if s.cfg.frame.filter = v ∧ s.cfg.frame.addr = a then s
        else ((s.cfgSet .filter v).cfgSet .addr a).bump .frame
      let s2 := if l.save then s1.save [.filter, .addr] else s1
      s2.ok l [w "FILTER", .kv "pan" (.hex 4 (fld v 15 0)), .kv "short" (.hex 4 a.toNat), kw "promisc" (onOff p),
               kw "m_accept" (if m then "ALL" else "NONE"), edTok s2 .frame])

/-! ## Registers (Tables 14.10, 14.11) -/

def setFrame (f : FrameSt → FrameSt) (s : State) : State := { s with frame := f s.frame }

/-- An acknowledgement is awaited (R380). -/
def State.awaitingAck (s : State) : Bool :=
  (match s.link.op with | some o => decide (o.phase = .ackWait) | none => false) ||
    (match s.link.exch with | some x => decide (x.phase = .ackWait) | none => false)

def frameCtrNames : List String :=
  ["RX_ACCEPTED", "DROP_PHR", "DROP_CHECK", "DROP_UNSUPPORTED", "DROP_ADDR", "DROP_PARTNER", "DROP_EXCHANGE",
   "DROP_RINGFULL", "DUPLICATES", "DROP_SECURITY", "DROP_REPLAY", "DROP_UNKNOWN_SRC", "ACKS_SENT", "ACKS_WITHHELD"]

/-- Counter i of Table 14.10 increments. -/
def State.countFrame (s : State) (i : Nat) : State :=
  { s with frame := { s.frame with ctrs := vset s.frame.ctrs i (vget s.frame.ctrs i {}).inc } }

def frameRegs : List Reg :=
  [roReg 0x0C00 "FRAME_STATUS" [ro "edition" 31 16, ro "awaiting_ack" 1 1, ro "rx_unread" 0 0] (fun s =>
      statusWord s .frame (b2n s.awaitingAck * 2 + b2n (!s.frame.rx.isEmpty))),
   cfgReg 0x0C04 "FRAME_CONFIG" (some .frame) .frame [rw "wait_us" 31 16, rw "auto_ack" 3 3, rw "enh_ack" 2 2,
      rw "fcs4" 1 1] (fun s v => fieldOut v 31 16 500 20000 ++ s.frameStateErs),
   cfgReg 0x0C08 "FRAME_FILTER" (some .frame) .filter [rw "m_accept" 17 17, rw "promisc" 16 16, rw "pan_id" 15 0]
      (fun s v => if fld v 15 0 = fld s.cfg.frame.filter 15 0 then [] else s.addrStateErs),
   cfgReg 0x0C0C "FRAME_ADDR" (some .frame) .addr [rw "short" 15 0]
      (fun s v => if v = s.cfg.frame.addr then [] else s.addrStateErs),
   { addr := 0x0C10, name := "FRAME_SEQ", fields := [rw "value" 7 0],
     read := fun s => BitVec.ofNat 32 s.frame.seq,
     apply := fun v s => if s.frame.seq = v.toNat then s
       else ({ s with frame := { s.frame with seq := v.toNat % 256 } }).bump .frame },
   roReg 0x0C14 "FRAME_RING" [ro "rx_free" 31 16, ro "tx_free" 15 0] (fun s =>
      BitVec.ofNat 32 (s.rxFree * 65536 + s.txFree)),
   roReg 0x0C18 "FRAME_ENTRIES" [ro "rx" 31 16, ro "tx" 15 0] (fun s =>
      BitVec.ofNat 32 (s.frame.rx.length * 65536 + s.frame.tx.length)),
   roReg 0x0C1C "FRAME_TX_STAGE" [ro "overflow" 15 15, ro "staged" 10 0] (fun s =>
      BitVec.ofNat 32 (b2n s.frame.stageOver * 32768 + s.frame.stage.length)),
   wrapReg 0x0C78 "FRAME_WRAP" 14 (fun s => s.frame.ctrs.toList)] ++
  (List.range 14).map (fun i => ctrReg (0x0C40 + 4 * i) ("FRAME_" ++ frameCtrNames.getD i "")
    (fun s => vget s.frame.ctrs i {}) (fun c => setFrame (fun x => { x with ctrs := vset x.ctrs i c })))

def fcRegs : List Reg :=
  [{ addr := 0x17A0, name := "VAULT_FC_WARN", fields := [rw "value" 31 0], read := fun s => s.frame.fcWarn,
     apply := fun v s => if s.frame.fcWarn = v then s
       else (({ s with frame := { s.frame with fcWarn := v } }).bump .vault).saveFc },
   roVal 0x17A4 "VAULT_FC_IN" 31 (fun s => s.frame.fcIn)] ++
  (List.range' 2 6).map (fun k =>
    { addr := 0x1780 + 4 * k, name := "VAULT_FC_" ++ Nat.repr k, fields := [rw "value" 31 0],
      read := fun s => vget s.frame.fc k 0,
      check := fun s v => erIf (decide (v.toNat < (vget s.frame.fc k 0).toNat)) (erRange "value"),
      apply := fun v s => if vget s.frame.fc k 0 = v then s
        else ({ s with frame := { s.frame with fc := vset s.frame.fc k v } }).saveFc })

end Sys2Proof.Machine
end

