-- ==== Sys2Proof/Machine/Link.lean ====
section
/-! DEFINITION. The link (15_link): roles and states, the stored association, the Catalogue, channel access, the
booking and keying of what a LINK ticket sends, polls, exchanges and frames held for children.  The rows of the air
stand in Air.lean, the verbs in LinkVerbs.lean. -/
namespace Sys2Proof.Machine

open Sys2Proof

/-! ## Settings (Tables 15.3, 15.7) -/

def State.linkMinBe (s : State) : Nat := fld s.cfg.link.config 6 4
def State.linkMaxBe (s : State) : Nat := fld s.cfg.link.config 11 8
def State.maxBackoffs (s : State) : Nat := fld s.cfg.link.config 14 12
def State.linkRetries (s : State) : Nat := fld s.cfg.link.config 2 0
def State.partnerHop (s : State) : Bool := bit s.cfg.link.config 15
def State.unitTicks (s : State) : Nat := tickUs (fld s.cfg.link.timing 31 16)
def State.leadMs (s : State) : Nat := fld s.cfg.link.wait_ 31 16
/-- The key and field name of the admission setting (Table 15.3). -/
def admitKey : String := "ad" ++ "mit"
def State.admitMode (s : State) : Nat := fld s.cfg.link.catConfig 1 0
def State.poolLo (s : State) : Nat := fld s.cfg.link.pool 15 0
def State.poolHi (s : State) : Nat := fld s.cfg.link.pool 31 16

def linkCtrNames : List String := ["ATTEMPTS", "RETRIES", "NOACK", "CHANBUSY", "NORNG", "POLLS_SKIPPED", "SNIFF_SHORT"]
def catCtrNames : List String := ["JOINS", "LEAVES", "DENIALS", "LAPSES", "INDIRECT_SENT", "INDIRECT_EXPIRED"]

def State.countLink (s : State) (i : Nat) : State :=
  { s with link := { s.link with ctrs := vset s.link.ctrs i (vget s.link.ctrs i {}).inc } }

def State.countCat (s : State) (i : Nat) : State :=
  { s with link := { s.link with catCtrs := vset s.link.catCtrs i (vget s.link.catCtrs i {}).inc } }

/-- The link changes state, and its edition with it (R393). -/
def State.linkTo (s : State) (x : LState) : State :=
  if s.link.st = x then s else ({ s with link := { s.link with st := x } }).bump .link

/-! ## The association (R400, R406) -/

/-- The association is stored in End role and takes effect (R400). -/
def State.associate (s : State) (a : Assoc) : State :=
  let f : Word := BitVec.ofNat 32 (fld s.cfg.frame.filter 31 16 * 65536 + a.pan.toNat)
  let ad : Word := BitVec.ofNat 32 a.own.toNat
  let s1 := if s.cfg.frame.filter = f ∧ s.cfg.frame.addr = ad then s
    else ((s.cfgSet .filter f).cfgSet .addr ad).bump .frame
  let s2 := { s1 with link := { s1.link with assoc := some a, partnerPending := false },
                      frame := { s1.frame with fcIn := 0, dups := [] } }
  let s3 := (s2.partnerClear.linkTo .associated).saveAssoc
  s3.fire 51 [.kv "pan" (.hex 4 a.pan.toNat), .kv "short" (.hex 4 a.own.toNat), .kv "parent" (.hex 4 a.parent.toNat)]

/-- The stored association is cleared (R406). -/
def State.dissociate (s : State) (by_ : String) : State :=
  let ad : Word := 0xFFFE
  let s1 := if s.cfg.frame.addr = ad then s else (s.cfgSet .addr ad).bump .frame
  let s2 := { s1 with link := { s1.link with assoc := none, partnerPending := false, train := none } }
  ((s2.linkTo .unassoc).saveAssoc).fire 52 [kw "by" by_]

/-- The partner of End role (R394). -/
def State.partner (s : State) : Option Assoc :=
  if s.isEnd && decide (s.link.st = .associated) then s.link.assoc else none

/-- The address is the partner's. -/
def Assoc.isParent (a : Assoc) : Addr → Bool
  | .short x => decide (x = a.parent)
  | .ext x => decide (x = a.eui)
  | .none => false

/-! ## The Catalogue (R395–R405) -/

def State.entry (s : State) (i : Nat) : Option CatEntry := s.link.cat.find? (fun e => e.idx == i)

/-- The entry of a source address: a valid entry by its short address, any entry by its EUI-64. -/
def State.entryOf (s : State) : Addr → Option CatEntry
  | .short a => s.link.cat.find? (fun e => e.valid && decide (e.short = a))
  | .ext a => s.link.cat.find? (fun e => decide (e.eui = a))
  | .none => none

/-- The valid or listed entry that holds a short address. -/
def State.entryShort (s : State) (a : Nat) : Option CatEntry :=
  s.link.cat.find? (fun e => !e.prov && decide (e.short.toNat = a))

def State.setEntry (s : State) (x : CatEntry) : State :=
  ({ s with link := { s.link with cat := s.link.cat.map (fun (e : CatEntry) => if e.idx = x.idx then x else e) } }).saveCat

/-- The lowest free index of the Catalogue. -/
def State.freeIdx (s : State) : Option Nat := (List.range 256).find? (fun i => (s.entry i).isNone)

def insertEntry (x : CatEntry) : List CatEntry → List CatEntry
  | [] => [x]
  | y :: r => if x.idx < y.idx then x :: y :: r else y :: insertEntry x r

/-- A new entry is made and written through. -/
def State.addEntry (s : State) (x : CatEntry) : State :=
  ({ s with link := { s.link with cat := insertEntry x s.link.cat } }).saveCat

/-- A short address is held by an entry, provisional ones included (R403). -/
def State.shortHeld (s : State) (a : Nat) : Bool := s.link.cat.any (fun e => decide (e.short.toNat = a))

/-- The lowest free short address of the pool. -/
def State.freeShort (s : State) : Option Nat :=
  (List.range' s.poolLo (s.poolHi + 1 - s.poolLo)).find? (fun a => !s.shortHeld a)

/-- EV_ADDR_POOL_EMPTY holds in Parent role while no short address of the pool is free (R403). -/
def State.poolCheck (s : State) : State :=
  if s.isParent && s.freeShort.isNone then s.condOn 55 [] else s.condOff 55

/-- The index under which the frames of a removed child stay in the ring until they expire. -/
def goneChild : Nat := 256

/-- An entry is removed; its held frames stay (R407). -/
def State.dropEntry (s : State) (i : Nat) : State :=
  let tx := s.frame.tx.map (fun e => if e.child = some i then { e with child := some goneChild } else e)
  (({ s with link := { s.link with cat := s.link.cat.filter (fun (e : CatEntry) => !(e.idx == i)) },
             frame := { s.frame with tx := tx } }).saveCat).poolCheck

/-- A child leaves: EV_CHILD_LEAVE and the count (R407). -/
def State.childLeave (s : State) (e : CatEntry) (by_ : String) : State :=
  ((s.dropEntry e.idx).countCat 1).fire 54 [.kv "short" (.hex 4 e.short.toNat), kw "by" by_]

/-- Frames held for an entry, in queue order; its pending flag is whether there is one (R396). -/
def State.heldFor (s : State) (i : Nat) : List TxEntry := s.frame.tx.filter (fun e => e.child == some i)

/-- A frame the link builds takes its numbers and is held for a child (R418). -/
def State.hold (s : State) (f : TxFrame) (i : Nat) (k : HeldKind) : State × TxFrame :=
  let n := s.number f
  let r := n.2.ringPut n.1 (some i) k (n.2.airOctets n.1)
  (r.1, n.1)

/-- The Association Response for an entry (R402). -/
def State.responseFrame (s : State) (e : CatEntry) (status : Nat) : TxFrame :=
  { ftype := 3, pan := s.ownPan, dst := .ext e.eui, src := .ext s.eui, ackReq := true, fcs4 := s.fcs4,
    payload := [0x02] ++ leBytes 2 (if status = 0 then e.short.toNat else 0xFFFF) ++ leBytes 1 status }

/-- The Response of an entry is not delivered: a new or provisional entry is removed, and a listed one returns to not
valid (R402). -/
def State.responseLost (s : State) (e : CatEntry) : State :=
  if e.valid then s
  else if e.listed then s.setEntry { e with prov := false }
  else s.dropEntry e.idx

/-- The Response is queued.  DESIGN CHOICE (log entry 74): where the TX ring has no room for it, it has expired at once;
R402 does not say. -/
def State.respond (s : State) (e : CatEntry) (status : Nat) : State :=
  let f := s.responseFrame e status
  let s1 := if status = 0 then s else s.countCat 2
  if s1.txFree < ringSize f.ringOctets then s1.responseLost e else (s1.hold f e.idx (.response status)).1

/-- The provisional entry of an EUI is made where there is room, and its Response queued (R402). -/
def State.refuseChild (s : State) (eui : BitVec 64) (status : Nat) (old : Option CatEntry) : State :=
  match old with
  | some e =>
    if e.valid then s.respond e status
    else (s.setEntry { e with prov := true }).respond { e with prov := true } status
  | none =>
    match s.freeIdx with
    | none => if status = 0 then s else s.countCat 2
    | some i =>
      let e : CatEntry := { idx := i, short := 0xFFFE, prov := true, eui := eui }
      (s.addEntry e).respond e status

/-- The responses that wait for an entry are replaced (Table 15.9). -/
def State.dropResponses (s : State) (i : Nat) : State :=
  { s with frame := { s.frame with tx := s.frame.tx.filter (fun e =>
      !(e.child == some i && (match e.kind with | .response _ => true | _ => false))) } }

/-- An Association Request is decided (R402). -/
def State.admitChild (s0 : State) (eui : BitVec 64) : State :=
  let old := s0.link.cat.find? (fun e => decide (e.eui = eui))
  -- a purely provisional entry of the same EUI is decided afresh
  let s := match old with
    | some e =>
      let s1 := s0.dropResponses e.idx
      if e.prov && !e.listed && !e.valid then s1.dropEntry e.idx else s1
    | none => s0
  let cur := s.link.cat.find? (fun e => decide (e.eui = eui))
  let listed : Bool := match cur with | some e => e.listed | none => false
  if s.admitMode = 0 || (s.admitMode = 1 && !listed) then s.refuseChild eui 2 cur
  else
    match cur with
    | some e =>
      if e.valid then
        let e1 := { e with fcIn := 0 }
        (s.setEntry e1).respond e1 0
      else
        -- listed, not yet valid: its listed short address, or one of the pool
        let sh := if e.short.toNat < 0xFFFE then some e.short.toNat else s.freeShort
        match sh with
        | none => s.refuseChild eui 1 (some e)
        | some a =>
          let e1 := { e with short := BitVec.ofNat 16 a, prov := true, fcIn := 0 }
          ((s.setEntry e1).respond e1 0).poolCheck
    | none =>
      match s.freeShort, s.freeIdx with
      | some a, some i =>
        let e : CatEntry := { idx := i, short := BitVec.ofNat 16 a, prov := true, eui := eui }
        ((s.addEntry e).respond e 0).poolCheck
      | _, _ => s.refuseChild eui 1 none

/-- A held frame leaves the ring without having been sent: what its kind leaves behind (R402, R407, R418). -/
def State.heldLost (s : State) (x : TxEntry) : State :=
  match x.child with
  | none => s
  | some i =>
    match s.entry i, x.kind with
    | some e, .response _ => s.responseLost e
    | some e, .notice => s.childLeave e "PARENT"
    | _, _ => s

/-- A held frame has been acknowledged (R402, R407, R412). -/
def State.heldSent (s : State) (x : TxEntry) : State :=
  let s1 := (s.ringFree x.id).countCat 4
  match x.child with
  | none => s1
  | some i =>
    match s1.entry i, x.kind with
    | some e, .response 0 =>
      if e.valid then s1
      else
        ((s1.setEntry { e with valid := true, prov := false, fcIn := 0 }).countCat 0).fire 53
          [.kv "short" (.hex 4 e.short.toNat), .kv "eui" (.hex 16 e.eui.toNat)]
    | some e, .response _ => s1.responseLost e
    | some e, .notice => s1.childLeave e "PARENT"
    | _, _ => s1

/-- Frames held as long as indirect_s are discarded (R418); one that is on the air completes its attempt. -/
def State.expireHeld (s : State) : State :=
  let life := fld s.cfg.link.catConfig 31 16 * 19200000
  let busy (id : Nat) : Bool :=
    match s.link.exch with | some x => x.entry == some id | none => false
  let old := s.frame.tx.filter (fun e => e.child.isSome && decide (e.since + life ≤ s.elapsed) && !busy e.id)
  old.foldl (fun s e => ((s.ringFree e.id).countCat 5).heldLost e) s

/-! ## Booking and keying (R397, R399, 16 R431) -/

def State.setOp (s : State) (f : LinkOp → LinkOp) : State :=
  { s with link := { s.link with op := s.link.op.map f } }

/-- Airtime and time to the end of the sync word of a frame now. -/
def State.frameAir (s : State) (f : TxFrame) (hop : Bool) : Nat × Nat :=
  let p := s.profile
  let pre := s.preambleOctets hop
  (p.airtime f.fmt pre f.airLen, p.shr f.fmt pre)

/-- The port and level of a transmission: TX_HP falls back to RF_LO and at most +14 dBm in band L (11 R286). -/
def State.txFill (s : State) (t : Tx) : Tx :=
  let low := bandOf (s.chanFreq t.plan t.chan) == some 0
  { t with hp := s.txPortHp && !low, level := if s.txPortHp && low then min s.txLevel 14 else s.txLevel }

/-- The radio takes a booked transmission up. -/
def State.txTake (s : State) (t : Tx) : State :=
  let low := bandOf (s.chanFreq t.plan t.chan) == some 0
  { s with radio := { s.radio with tx := some (s.txFill t), hpBandL := s.txPortHp && low } }

/-- The radio enters Transmit for the transmission it has taken up (R304). -/
def State.txEnter (s : State) : State :=
  ({ s with radio := { s.radio with portHp := match s.radio.tx with | some t => t.hp | none => false, spanTuned := false } }).radioTo .transmit

/-- A transmission that has been decided is booked and its keying begins: the synthesizer tunes to it and the radio
enters Transmit.  `none` where the Ledger refuses it. -/
def State.startTx (s : State) (t : Tx) (ack : Bool) : Option State :=
  if s.canBook t.air ack then some ((((s.book t.air ack).tune t.plan t.chan true).txTake t).txEnter)
  else none

/-- An operation ends: its ring entry, its counters, what its kind leaves behind, the radio's rest, and its ticket
(R399, R401, R406, R409). -/
def State.linkEnd (s : State) (r : Result) (fields : List Tok) : State :=
  match s.link.op with
  | none => s
  | some o =>
    let s1 := { s with link := { s.link with op := none } }
    let s2 := match o.entry with | some id => s1.ringFree id | none => s1
    let s3 := if r = .noack then s2.countLink 2 else if r = .chanbusy then s2.countLink 3
      else if r = .norng then s2.countLink 4 else s2
    let s4 := match o.kind with
      | .assocReq => if (r == Result.done) then s3 else s3.linkTo .unassoc
      | .assocData => if (r == Result.done) then s3 else s3.linkTo .unassoc
      | .leave => if s3.link.assoc.isSome then s3.dissociate "SELF" else s3
      | .poll => { s3 with link := { s3.link with lastPoll := (r.index, o.pendBit, o.frames) } }
      | _ => s3
    s4.radioRest.complete o.ticket r fields

/-- The wake train that precedes a LINK WAKE frame: its whole patterns (R423). -/
def State.trainPatterns (s : State) : Nat :=
  let t := s.profile.pattern
  ceilDiv' (s.leadMs * tickMs + t + 2 * tickMs) t

/-- The active profile does not carry what the operation sends (12 R312, R333): its format, or a wake train. -/
def State.linkUncarried (s : State) (o : LinkOp) : Bool :=
  o.kind != .cw && (!s.profile.fmts.contains o.frame.fmt || (o.kind == .wake && !s.profile.wakes))

/-- What the operation transmits on a channel of its plan. -/
def State.linkTx (s : State) (o : LinkOp) (chan : Nat) (hop : Bool) : Tx :=
  let a := s.frameAir o.frame hop
  let tones := s.frameTones o.frame.fmt o.frame.mB o.frame.fcs4 (s.preambleOctets hop) o.octets
  match o.kind with
  | .cw => { kind := .cw, plan := o.plan, chan := chan, air := o.dur * tickMs }
  | .wake =>
    let lead := s.trainPatterns * s.profile.pattern
    { kind := .train, plan := o.plan, chan := chan, air := lead + a.1, shr := lead + a.2,
      tones := s.profile.tones (s.profile.trainBits s.trainPatterns) ++ tones }
  | _ => { kind := .frame, plan := o.plan, chan := chan, air := a.1, shr := a.2, tones := tones }

/-- The operation books and keys its frame on a channel of its plan.  DESIGN CHOICE (log entry 75): a frame that the
profile in force does not carry is not keyed, and its ticket fails with why=PROFILE; R312 leaves the result open. -/
def State.linkKey (s : State) (chan : Nat) (hop : Bool) : State :=
  match s.link.op with
  | none => s
  | some o =>
    let t := s.linkTx o chan hop
    if s.linkUncarried o then s.linkEnd .fail [kw "why" "PROFILE"]
    else
    match s.startTx t false with
    | none => (s.bookRefused t.air false).linkEnd .overbudget (s.overFields t.air)
    | some s1 => s1.setOp (fun o => { o with phase := .tx, keyChan := chan })

/-- A frame the link builds for its operation takes its numbers. -/
def State.buildOp (s : State) (f : TxFrame) : State :=
  let n := s.number { f with fcs4 := s.fcs4 }
  n.2.setOp (fun o => { o with frame := n.1, octets := n.2.airOctets n.1, tries := o.tries })

/-- The Data Request of a poll or an association, or the poll of format D (R401, R408); a poll goes to the parent under
which it was started (R406), with the extended source where no short address is held (14 R388). -/
def State.pollFrame (s : State) (o : LinkOp) : TxFrame :=
  match o.kind with
  | .assocData =>
    { ftype := 3, pan := s.ownPan, dst := o.parent, src := .ext s.eui, ackReq := true, payload := [0x04] }
  | _ =>
    let p := (o.peer.map (·.parent)).getD 0xFFFE
    if 6 ≤ s.profile.code then
      { fmt := .d, dst := .short p, src := .short s.ownShort, ackReq := true, poll := true }
    else
      { ftype := 3, pan := s.ownPan, dst := .short p, src := s.ownSrc false, ackReq := true, payload := [0x04] }

/-! ## Channel access (R397, R398) -/

/-- What an operation waits for before its procedure goes on: an exchange, a reception, a transmission of an
acknowledgement, a trim item (R305, R397, 17 R461). -/
def State.linkBlocked (s : State) : Bool :=
  s.link.exch.isSome || s.radio.rx.isSome || s.radio.tx.isSome || s.trimStops

/-- The operation's CCA begins: its listen counts from the moment the receive chain runs on its channel (R347). -/
def State.linkCca (s : State) : State :=
  let s1 := (s.setOp (fun o => { o with phase := .cca, cca := {} })).radioRest
  if s1.radio.locked then s1.setOp (fun o => { o with cca := { o.cca with since := some s1.day.cyc } }) else s1

/-- The procedure goes on: it draws its backoff, or for a carrier and a wake train does without. -/
def State.linkGo (s : State) : State :=
  match s.link.op with
  | none => s
  | some o =>
    if s.linkBlocked then (s.setOp (fun o => { o with phase := .wait })).radioRest
    else if o.kind = .cw then s.linkKey o.chan false
    else if o.kind = .wake then s.linkCca
    else
      match s.drawB o.be with
      | (.stopped, s1) => s1.linkEnd .norng []
      | (.wait, s1) => (s1.setOp (fun o => { o with phase := .draw })).radioRest
      | (.got k, s1) =>
        if k = 0 then s1.linkCca
        else (s1.setOp (fun o => { o with phase := .backoff (s1.day.cyc + k * s1.unitTicks) })).radioRest

/-- An attempt begins with the settings of channel access (R397). -/
def State.linkAttempt (s : State) : State :=
  (s.setOp (fun o => { o with nb := 0, be := s.linkMinBe })).linkGo

/-- A busy CCA: one backoff more, or CHANBUSY; a wake train moves to its child's next sniff (R397, R423). -/
def State.linkBusy (s : State) (goOn : Bool) : State :=
  match s.link.op with
  | none => s
  | some o =>
    if s.maxBackoffs < o.nb + 1 then s.linkEnd .chanbusy []
    else
      let s1 := s.setOp (fun o => { o with nb := o.nb + 1, be := min (o.be + 1) s.linkMaxBe })
      if o.kind = .wake then (s1.setOp (fun o => { o with phase := .wakeWait })).radioRest
      else if goOn then s1.linkGo
      else s1.setOp (fun o => { o with phase := .busy })

/-- The operation goes on once what it waited for has ended (R397, R398). -/
def State.linkResume (s : State) : State :=
  match s.link.op with
  | none => s.radioRest
  | some o =>
    if s.linkBlocked then s.radioRest
    else
      match o.phase with
      | .wait => s.linkGo
      | .busy => s.linkGo
      | .extended => s.linkCca
      | _ => s.radioRest

/-- A failed acknowledgement wait: a retry through the whole procedure, or NOACK (R399, R423). -/
def State.linkNoAck (s : State) : State :=
  match s.link.op with
  | none => s
  | some o =>
    if o.retries < s.linkRetries then
      let s1 := (s.setOp (fun o => { o with retries := o.retries + 1 })).countLink 1
      if o.kind = .wake then (s1.setOp (fun o => { o with phase := .wakeWait })).radioRest
      else s1.linkAttempt
    else s.linkEnd .noack [kd "retries" o.retries]

/-- The poll goes on, or completes, once a frame of its window has been answered (R409). -/
def State.pollNext (s : State) : State :=
  match s.link.op with
  | none => s
  | some o =>
    if o.pendBit && decide (o.repolls < o.repoll) then
      let s1 := s.setOp (fun o => { o with repolls := o.repolls + 1, retries := 0 })
      (s1.buildOp (s1.pollFrame o)).linkAttempt
    else s.linkEnd .done [kd "pending" (b2n o.pendBit), kd "frames" o.frames, kd "tries" o.tries]

/-- The exchange ends (R415). -/
def State.exchEnd (s : State) : State :=
  ({ s with link := { s.link with exch := none } }).linkTo .parent |>.linkResume

/-! ## Schedules (R417) -/

/-- The least value at or above `d` that is `phase` past a multiple of `every`, both in ticks. -/
def leastAt (every phase d : Nat) : Nat := if d ≤ phase then phase else phase + ceilDiv' (d - phase) every * every

/-- The next poll time is that of the present Daybook. -/
def State.schedPoll (s : State) : State :=
  let e := s.cfg.link.pollEvery.toNat * tickMs
  { s with link := { s.link with
      nextPoll := if e = 0 then none else some (leastAt e (s.cfg.link.pollPhase.toNat * tickMs) s.now) } }

/-- The greatest value at or below `d` that is `phase` past a multiple of `every`, both in ticks, or the phase itself. -/
def lastAt (every phase d : Nat) : Nat := if d ≤ phase then phase else phase + (d - phase) / every * every

/-- The partner time s of the wake train that is being received (R424): that of the sniff in progress, else the last sniff
time that the train's lead has reached. -/
def State.trainTime (s : State) : Option Nat :=
  let e := s.cfg.link.sniffEvery.toNat * tickMs
  if !s.isEnd || decide (e = 0) then none
  else
    match s.radio.sniff with
    | some x => some x.at_
    | none => some (lastAt e (s.cfg.link.sniffPhase.toNat * tickMs)
        (((s.now : Int) + s.offsetAt s.now).toNat + s.leadMs * tickMs))

/-- The next sniff: its partner time s, the Daybook at which its listen starts, and its guard in µs (R419, R420). -/
def State.nextListen (s : State) : Option (Nat × Nat × Nat) :=
  let e := s.cfg.link.sniffEvery.toNat * tickMs
  if !s.isEnd || decide (e = 0) then none
  else
    let p := ((s.now : Int) + s.offsetAt s.now).toNat
    let at_ := leastAt e (s.cfg.link.sniffPhase.toNat * tickMs) p
    let d := ((at_ : Int) - s.offsetAt s.now).toNat
    (s.guardAt d).map (fun g => (at_, (((at_ : Int) - s.offsetAt d).toNat - tickUs g / 2), g))

end Sys2Proof.Machine
end

