-- ==== Sys2Proof/Machine/LinkVerbs.lean ====
section
/-! DEFINITION. The LINK and CAT verbs and the LINK registers (15_link). -/
namespace Sys2Proof.Machine

open Sys2Proof

/-! ## LINK -/

def roleNames : List String := ["NONE", "END", "PARENT"]

/-- LINK_CONFIG takes a value; a change of role enters the state of that role and is written to the Record (R392), the
partner offset is held at 0 outside End role (10 R274), and the poll schedule begins at the present Daybook (R417). -/
def State.putLink (s : State) (v : Word) : State :=
  if s.cfg.link.config = v then s
  else
    let role := fld v 17 16
    let s1 := (s.cfgSet .link v).bump .link
    if role = s.role then s1
    else
      let s2 := { s1 with link := { s1.link with st := if role = 2 then .parent else .unassoc } }
      ((s2.rowWrite { what := .twin 8 [(0, leBytes 1 role)] }).poolCheck).partnerRole.schedPoll

/-- The refusals of a role (R392). -/
def State.roleErs (s : State) (role : Nat) : List Er :=
  (if role = 2 then s.needs .parent else []) ++ s.addrStateErs

def State.linkToks (s : State) : List Tok :=
  [w "LINK", kw "role" (roleNames.getD s.role ""), kw "state" s.link.st.name, .kv "pan" (.hex 4 s.ownPan.toNat),
   .kv "short" (.hex 4 s.ownShort.toNat),
   .kv "parent" (match s.link.assoc with | some a => .hex 4 a.parent.toNat | none => .word "NONE"),
   kd "retries" s.linkRetries, kd "min_be" s.linkMinBe, kd "max_be" s.linkMaxBe, kd "backoffs" s.maxBackoffs,
   kd "unit" (fld s.cfg.link.timing 31 16), kd "poll_win" (fld s.cfg.link.timing 15 0), kw "hop" (onOff s.partnerHop),
   edTok s .link]

def linkCfgRegs : List CfgReg :=
  [.link, .timing, .wait, .pollEvery, .pollPhase, .sniffEvery, .sniffPhase, .pool, .catConfig]

def linkKeys : List (String × Kind) :=
  [("role", .word roleNames), ("retries", .int 0 7), ("min_be", .int 0 8), ("max_be", .int 3 8),
   ("backoffs", .int 0 5), ("unit", .int 250 10000), ("poll_win", .int 500 20000), ("hop", .word ["ON", "OFF"]),
   ("resp", .int 1 1000), ("lead", .int 1 1000), saveKey]

/-- LINK (R392, Table 15.3); hop= belongs to the Census (00_scope Table 0.1, 08_bringup Table 8.5). -/
def execLinkSettings (l : Line) (s : State) : Host.Outcome State Fault Refusal :=
  let minBe := (l.nat? "min_be").getD s.linkMinBe
  let maxBe := (l.nat? "max_be").getD s.linkMaxBe
  let role := match l.word? "role" with | some x => roleNames.idxOf x | none => s.role
  runLine { noun := true, keys := linkKeys } l s
    ((if l.has "min_be" && l.has "max_be" then id else s.late)
        (erIf (decide (maxBe < minBe)) (erRange (if l.has "min_be" then "min_be" else "max_be"))) ++
      (if l.has "role" then s.roleErs role else []) ++ (if l.has "hop" then s.needs .census else [])) (fun s =>
      let c := s.cfg.link
      let v : Word := BitVec.ofNat 32 (fld c.config 20 18 * 2 ^ 18 + role * 65536 +
        b2n ((l.on? "hop").getD s.partnerHop) * 32768 + (l.nat? "backoffs").getD s.maxBackoffs * 4096 + maxBe * 256 +
        minBe * 16 + (l.nat? "retries").getD s.linkRetries)
      let ti : Word := BitVec.ofNat 32 ((l.nat? "unit").getD (fld c.timing 31 16) * 65536 +
        (l.nat? "poll_win").getD (fld c.timing 15 0))
      let wa : Word := BitVec.ofNat 32 ((l.nat? "lead").getD (fld c.wait_ 31 16) * 65536 +
        (l.nat? "resp").getD (fld c.wait_ 15 0))
      let s1 := (s.cfgSet .timing ti).cfgSet .wait wa
      let s2 := if c.config = v then (if c.timing = ti ∧ c.wait_ = wa then s1 else s1.bump .link) else s1.putLink v
      let s3 := if l.save then s2.save linkCfgRegs else s2
      s3.ok l s3.linkToks)

/-! ## LINK ASSOC, LEAVE, POLL, SCHED, WAKE -/

/-- The refusal outside a role. -/
def State.needRole (s : State) (role : Nat) : List Er := s.late (erIf (s.role != role) ⟨"DENIED", ["ROLE"]⟩)

def assocKeys : List (String × Kind) :=
  [("pan", .int 0 65535), ("parent", .int 0 (2 ^ 64 - 1)), ("chan", .any), ("plan", .any),
   ("parent_eui", .int 0 (2 ^ 64 - 1)), ("short", .int 0 65535)]

/-- LINK ASSOC over the air (R401): a LINK ticket. -/
def execLinkAssoc (l : Line) (s : State) : Host.Outcome State Fault Refusal :=
  runTicket { order := false, keys := assocKeys } .link l s
    (erIf (!(l.has "pan" && l.has "parent")) erMissing ++ erIf (l.has "parent_eui" || l.has "short") erExtra ++
      s.chanErs l "c" ++ s.needRole 1 ++ erIf (decide (6 ≤ s.profile.code)) ⟨"DENIED", ["PROFILE"]⟩)
    (erIf (decide (s.link.st ≠ .unassoc)) (erState "LINK" s.link.st.name))
    (.assoc (addrOf ((l.nat? "parent").getD 0)) (BitVec.ofNat 16 ((l.nat? "pan").getD 0)) (s.linePlan l) (s.lineChan l))

/-- LINK ASSOC short= (R404): a local association. -/
def execLinkAssocLocal (l : Line) (s : State) : Host.Outcome State Fault Refusal :=
  let own := (l.nat? "short").getD 0
  runLine { order := false, keys := assocKeys } l s
    (erIf (!(l.has "pan" && l.has "parent" && l.has "parent_eui" && l.has "short")) erMissing ++
      erIf (l.has "chan" || l.has "plan") erExtra ++
      erIf (decide (65535 < (l.nat? "parent").getD 0)) (erRange "parent") ++
      erIf (decide (0xFFFE ≤ own)) (erRange "short") ++ s.needRole 1 ++
      erIf (decide (s.link.st ≠ .unassoc)) (erState "LINK" s.link.st.name)) (fun s =>
      let a : Assoc := { pan := BitVec.ofNat 16 ((l.nat? "pan").getD 0), own := BitVec.ofNat 16 own,
                         parent := BitVec.ofNat 16 ((l.nat? "parent").getD 0),
                         eui := BitVec.ofNat 64 ((l.nat? "parent_eui").getD 0) }
      -- the reply is queued before the event's line, and carries the edition after the change
      (s.ok l [w "LINK", w "ASSOC", .kv "short" (.hex 4 own), kd "ed" (s.edition .link + 1).toNat]).associate a)

/-- The refusal outside ASSOCIATED. -/
def State.needAssoc (s : State) : List Er :=
  erIf (decide (s.link.st ≠ .associated)) (erState "LINK" s.link.st.name)

/-- LINK LEAVE (R406): a LINK ticket. -/
def execLinkLeave (l : Line) (s : State) : Host.Outcome State Fault Refusal :=
  runTicket { keys := [("notify", .word ["YES", "NO"])] } .link l s [] s.needAssoc (.leave (l.word? "notify" != some "NO"))

/-- LINK POLL (R408): a LINK ticket. -/
def execLinkPoll (l : Line) (s : State) : Host.Outcome State Fault Refusal :=
  runTicket { keys := [("repoll", .int 0 7)] } .link l s [] s.needAssoc
    (.poll ((l.nat? "repoll").getD (fld s.cfg.link.config 20 18)))

/-- A phase must lie below its period; a period of 0 goes with a phase of 0. -/
def phaseErs (every phase : Nat) (key : String) : List Er :=
  erIf (!(decide (phase < every) || (every == 0 && phase == 0))) (erRange key)

/-- LINK SCHED (R417, R419). -/
def execLinkSched (l : Line) (s : State) : Host.Outcome State Fault Refusal :=
  let c := s.cfg.link
  let get (k : String) (d : Word) : Nat := (l.nat? k).getD d.toNat
  let pe := get "poll_every" c.pollEvery
  let pp := get "poll_phase" c.pollPhase
  let se := get "sniff_every" c.sniffEvery
  let sp := get "sniff_phase" c.sniffPhase
  let k : Kind := .int 0 4294967295
  runLine { keys := [("poll_every", k), ("poll_phase", k), ("sniff_every", k), ("sniff_phase", k), saveKey] } l s
    ((if l.has "poll_every" && l.has "poll_phase" then id else s.late) (phaseErs pe pp "poll_phase") ++
      (if l.has "sniff_every" && l.has "sniff_phase" then id else s.late) (phaseErs se sp "sniff_phase") ++ s.needRole 1) (fun s =>
      let n : LinkCfg := { c with pollEvery := BitVec.ofNat 32 pe, pollPhase := BitVec.ofNat 32 pp,
                                  sniffEvery := BitVec.ofNat 32 se, sniffPhase := BitVec.ofNat 32 sp }
      let s1 := if c = n then s
        else (({ s with cfg := { s.cfg with link := n } }).bump .link).schedPoll
      let s2 := if l.save then s1.save [.pollEvery, .pollPhase, .sniffEvery, .sniffPhase] else s1
      s2.ok l [w "LINK", w "SCHED", kd "poll_every" pe, kd "poll_phase" pp, kd "sniff_every" se, kd "sniff_phase" sp,
               edTok s2 .link])

/-- The frame that the link sends to a child: format S or D by the profile (R418). -/
def State.childFrame (s : State) (l : Line) (e : CatEntry) (i : Nat) : TxFrame :=
  let d := decide (6 ≤ s.profile.code)
  { fmt := if d then .d else .s, pan := s.ownPan, dst := .short e.short, src := if d then .short s.ownShort else s.ownSrc false,
    ackReq := true, sec := (l.nat? "sec").getD 0, key := (l.nat? "key").getD 1, fcs4 := s.fcs4,
    payload := s.linePayload l i }

def noEntry : CatEntry := { idx := goneChild, short := 0xFFFE, eui := 0 }

/-- The child's next sniff time that lies lead_ms + 10 ms ahead (R422). -/
def State.nextSniff (s : State) (e : CatEntry) : Nat :=
  leastAt (e.sniffEvery.toNat * tickMs) (e.sniffPhase.toNat * tickMs) (s.now + (s.leadMs + 10) * tickMs)

/-- The errors of a frame for a child. -/
def State.childErs (s : State) (l : Line) (f : TxFrame) : List Er :=
  s.late (erIf (f.fmt == .d && f.sec != 0) (erRange "sec")) ++ s.secErs l ++ s.late (erIf f.tooLong (erRange "payload")) ++
    s.ringErs l f

/-- LINK WAKE (R422): a LINK ticket whose start is fixed to its train. -/
def execLinkWake (l : Line) (s : State) : Host.Outcome State Fault Refusal :=
  let e := ((l.nat? "dst").bind s.entryShort).getD noEntry
  let f := s.childFrame l e 0
  let at_ := s.nextSniff e
  runTicketMk { feat := some .parent, pos := [("payload", .any)], keys := [("dst", .int 0 65535)] ++ secKeys } .link
    (some (at_ - s.leadMs * tickMs)) l s
    (erIf (!l.has "dst") erMissing ++ payloadErs l 0 ++
      s.late (erIf (l.has "dst" && (!e.valid || e.sniffEvery == 0)) (erRange "dst")) ++ s.childErs l f ++ s.needRole 2 ++
      s.late (erIf (!s.profile.wakes) ⟨"DENIED", ["PROFILE"]⟩)) []
    (fun s =>
      let n := s.number (s.childFrame l e 0)
      let r := (n.2.unstage l).ringPut n.1 none .data []
      (r.1, .linkWake n.1 e.idx at_ r.2)) (fun _ s => s)

/-! ## CAT -/

def admitNames : List String := ["CLOSED", "LIST", "OPEN"]

def State.catPending (s : State) : Nat := (s.link.cat.filter (fun e => !(s.heldFor e.idx).isEmpty)).length

def State.catToks (s : State) : List Tok :=
  [w "CAT", kd "entries" s.link.cat.length, kd "pending" s.catPending, kw admitKey (admitNames.getD s.admitMode ""),
   .kv "lo" (.hex 4 s.poolLo), .kv "hi" (.hex 4 s.poolHi),
   .kv "exch" (match s.link.exch with | some x => .hex 4 x.short.toNat | none => .word "NONE"), edTok s .link]

/-- The names of an entry's flags (Table 15.2), or NONE. -/
def CatEntry.flagNames (e : CatEntry) : List String :=
  (if e.valid then ["VALID"] else []) ++ (if e.hop then ["HOP"] else []) ++ (if e.prov then ["PROVISIONAL"] else []) ++
    (if e.listed then ["LISTED"] else []) ++ (if e.leaving then ["LEAVING"] else [])

def State.entryToks (s : State) (e : CatEntry) : List Tok :=
  [w "CAT", .w (.hex 4 e.short.toNat), .kv "eui" (.hex 16 e.eui.toNat),
   .kv "flags" (if e.flagNames.isEmpty then .word "NONE" else .list e.flagNames), kd "lqi" e.lqi,
   kd "queued" (s.heldFor e.idx).length,
   kw "sniff" (Nat.repr e.sniffEvery.toNat ++ "/" ++ Nat.repr e.sniffPhase.toNat)]

def catPos : List (String × Kind) := [("short", .int 0 65535)]

/-- The entry that a line's first operand names. -/
def State.lineEntry (s : State) (l : Line) : Option CatEntry := (l.posNat? 0).bind s.entryShort

/-- CAT (R395). -/
def execCat (l : Line) (s : State) : Host.Outcome State Fault Refusal :=
  runLine { feat := some .parent, pos := catPos } l s
    (s.needRole 2 ++ s.late (erIf (!l.pos.isEmpty && (s.lineEntry l).isNone) (erRange "short"))) (fun s =>
      let es := match s.lineEntry l with
        | some e => [e]
        | none => (s.link.cat.filter (fun (e : CatEntry) => e.valid || e.prov)).insertionSort (fun a b => a.short.toNat ≤ b.short.toNat)
      s.okMany l (s.catToks :: es.map s.entryToks))

/-- The errors of a pool (R403). -/
def State.poolErs (s : State) (lo hi : Nat) (key : String) : List Er :=
  erIf (decide (hi < lo) || decide (0xFFFE ≤ hi) || (decide (lo ≤ s.ownShort.toNat) && decide (s.ownShort.toNat ≤ hi)))
    (erRange key)

/-- CAT POOL (R403). -/
def execCatPool (l : Line) (s : State) : Host.Outcome State Fault Refusal :=
  let lo := (l.nat? "lo").getD s.poolLo
  let hi := (l.nat? "hi").getD s.poolHi
  runLine { feat := some .parent, order := false,
            keys := [("lo", .int 0 65535), ("hi", .int 0 65535), (admitKey, .word admitNames), ("exch", .int 5 1000),
                     ("indirect", .int 1 65535)] } l s
    ((if l.has "lo" || l.has "hi" then s.poolErs lo hi "pool" else []) ++ s.needRole 2) (fun s =>
      let c := s.cfg.link
      let p : Word := BitVec.ofNat 32 (hi * 65536 + lo)
      let ad := match l.word? admitKey with | some x => admitNames.idxOf x | none => s.admitMode
      let v : Word := BitVec.ofNat 32 ((l.nat? "indirect").getD (fld c.catConfig 31 16) * 65536 +
        (l.nat? "exch").getD (fld c.catConfig 15 4) * 16 + ad)
      let s1 := if c.pool = p ∧ c.catConfig = v then s
        else (((s.cfgSet .pool p).cfgSet .catConfig v).bump .link).poolCheck
      s1.ok l s1.catToks)

def sniffKeys : List (String × Kind) :=
  [("hop", .word ["ON", "OFF"]), ("sniff_every", .int 0 4294967295), ("sniff_phase", .int 0 4294967295)]

/-- An entry with the settings that a line gives. -/
def entrySet (l : Line) (e : CatEntry) : CatEntry :=
  { e with hop := (l.on? "hop").getD e.hop, sniffEvery := BitVec.ofNat 32 ((l.nat? "sniff_every").getD e.sniffEvery.toNat),
           sniffPhase := BitVec.ofNat 32 ((l.nat? "sniff_phase").getD e.sniffPhase.toNat) }

def entrySniffErs (l : Line) (e : CatEntry) : List Er :=
  let x := entrySet l e
  phaseErs x.sniffEvery.toNat x.sniffPhase.toNat "sniff_phase"

/-- The entry of an EUI that CAT ADD replaces: a provisional one that is not listed. -/
def CatEntry.replaceable (e : CatEntry) : Bool := !e.valid && !e.listed

/-- CAT ADD (R405). -/
def execCatAdd (l : Line) (s : State) : Host.Outcome State Fault Refusal :=
  let eui : BitVec 64 := BitVec.ofNat 64 ((l.nat? "eui").getD 0)
  let old := s.link.cat.find? (fun e => decide (e.eui = eui))
  let gone : Bool := match old with | some e => e.replaceable | none => false
  runLine { feat := some .parent, order := false,
            keys := [("eui", .int 0 (2 ^ 64 - 1)), ("short", .int 0 0xFFFD)] ++ sniffKeys } l s
    (erIf (!l.has "eui") erMissing ++ erIf (old.isSome && !gone) (erRange "eui") ++
      (match l.nat? "short" with | some a => erIf (s.shortHeld a) (erRange "short") | none => []) ++
      entrySniffErs l noEntry ++ s.needRole 2 ++ erIf (decide (256 ≤ s.link.cat.length) && !gone) ⟨"FULL", ["CATALOGUE"]⟩)
    (fun s =>
      let s0 := match old with | some e => (s.dropResponses e.idx).dropEntry e.idx | none => s
      let i := s0.freeIdx.getD 0
      let e := entrySet l { idx := i, short := BitVec.ofNat 16 ((l.nat? "short").getD 0xFFFE), valid := l.has "short",
                            listed := true, eui := eui }
      let s1 := ((s0.addEntry e).poolCheck).bump .link
      s1.ok l (s1.entryToks e))

/-- CAT SET (R425). -/
def execCatSet (l : Line) (s : State) : Host.Outcome State Fault Refusal :=
  let e := (s.lineEntry l).getD noEntry
  runLine { feat := some .parent, minPos := 1, pos := catPos, keys := sniffKeys } l s
    (s.late (erIf (!l.pos.isEmpty && (s.lineEntry l).isNone) (erRange "short")) ++
      (if l.has "sniff_every" && l.has "sniff_phase" then id else s.late) (entrySniffErs l e) ++ s.needRole 2) (fun s =>
      let x := entrySet l e
      let s1 := if x = e then s else (s.setEntry x).bump .link
      s1.ok l (s1.entryToks x))

/-- The Disassociation Notification for a child (R407). -/
def State.noticeFrame (s : State) (e : CatEntry) : TxFrame :=
  { ftype := 3, pan := s.ownPan, dst := .ext e.eui, src := .ext s.eui, ackReq := true, fcs4 := s.fcs4,
    payload := [0x03, 0x01] }

/-- CAT REMOVE (R407). -/
def execCatRemove (l : Line) (s : State) : Host.Outcome State Fault Refusal :=
  let e := (s.lineEntry l).getD noEntry
  let tell := l.word? "notify" != some "NO"
  runLine { feat := some .parent, order := false, minPos := 1, pos := catPos, keys := [("notify", .word ["YES", "NO"])] } l s
    (s.late (erIf (!l.pos.isEmpty && (s.lineEntry l).isNone) (erRange "short")) ++ s.needRole 2 ++
      erIf (tell && decide (s.txFree < ringSize (s.noticeFrame e).ringOctets)) ⟨"FULL", ["TXRING"]⟩) (fun s =>
      if tell then
        let x := { e with leaving := true }
        let s1 := (((s.hold (s.noticeFrame e) e.idx .notice).1).setEntry x).bump .link
        s1.ok l (s1.entryToks x)
      else ((s.bump .link).ok l (s.entryToks e)).childLeave e "PARENT")

/-- The slot of a queued frame's key must hold a key, and its counter must not be exhausted (log entry 25). -/
def State.queueKeyErs (s : State) (f : TxFrame) : List Er :=
  s.late (erIf (f.sec != 0 && ((s.slotKey (f.key + 1)).isNone || vget s.frame.fc (f.key + 1) 0 == 0xFFFFFFFF))
    (erRange "key"))

/-- CAT QUEUE (R418). -/
def execCatQueue (l : Line) (s : State) : Host.Outcome State Fault Refusal :=
  let e := (s.lineEntry l).getD noEntry
  let f := s.childFrame l e 1
  runLine { feat := some .parent, minPos := 1, pos := catPos ++ [("payload", .any)], keys := secKeys } l s
    (s.late (erIf (!l.pos.isEmpty && !e.valid) (erRange "short")) ++ payloadErs l 1 ++ s.queueKeyErs f ++ s.childErs l f ++
      s.needRole 2 ++ erIf (decide (16 ≤ (s.heldFor e.idx).length)) ⟨"FULL", ["QUEUE"]⟩) (fun s =>
      let r := s.hold (s.childFrame l e 1) e.idx .data
      let s1 := r.1.unstage l
      s1.ok l [w "CAT", w "QUEUE", .w (.hex 4 e.short.toNat), kd "seq" r.2.seq, kd "queued" (s1.heldFor e.idx).length,
               edTok s1 .link])

/-! ## Registers (Table 15.7) -/

def setLink (f : LinkSt → LinkSt) (s : State) : State := { s with link := f s.link }

/-- An entry in the layout of Table 15.2, as six words. -/
def CatEntry.word (e : CatEntry) (i : Nat) : Word :=
  let fl := b2n e.valid + b2n e.hop * 2 + b2n e.prov * 4 + b2n e.listed * 8 + b2n e.leaving * 16
  match i with
  | 0 => BitVec.ofNat 32 (e.short.toNat + fl * 65536 + e.lqi * 2 ^ 24)
  | 1 => lo32 e.eui.toNat
  | 2 => hi32 e.eui.toNat
  | 3 => e.fcIn
  | 4 => e.sniffEvery
  | _ => e.sniffPhase

/-- The sniff schedule is suspended while the guard is NONE (R420). -/
def State.schedSuspended (s : State) : Bool := s.isEnd && s.cfg.link.sniffEvery != 0 && s.guardUs.isNone

def linkRegs : List Reg :=
  [roReg 0x0E00 "LINK_STATUS" [ro "edition" 31 16, ro "partner_pending" 9 9, ro "sched_suspended" 8 8, ro "role" 7 6,
      ro "state" 2 0] (fun s =>
      statusWord s .link (b2n s.link.partnerPending * 512 + b2n s.schedSuspended * 256 + s.role * 64 + s.link.st.index)),
   { addr := 0x0E04, name := "LINK_CONFIG",
     fields := [rw "repoll" 20 18, rw "role" 17 16, rw "partner_hop" 15 15, rw "max_backoffs" 14 12, rw "max_be" 11 8,
       rw "min_be" 6 4, rw "retries" 2 0],
     read := fun s => s.cfg.link.config,
     check := fun s v => fieldOut v 17 16 0 2 ++ fieldOut v 14 12 0 5 ++ fieldOut v 11 8 3 8 ++
       erIf (decide (fld v 11 8 < fld v 6 4)) (erRange "value") ++
       (if fld v 17 16 = s.role then [] else s.roleErs (fld v 17 16)),
     apply := fun v s => s.putLink v },
   cfgReg 0x0E08 "LINK_TIMING" (some .link) .timing [rw "unit_us" 31 16, rw "poll_us" 15 0]
      (fun _ v => fieldOut v 31 16 250 10000 ++ fieldOut v 15 0 500 20000),
   cfgReg 0x0E0C "LINK_WAIT" (some .link) .wait [rw "lead_ms" 31 16, rw "resp_ms" 15 0]
      (fun _ v => fieldOut v 31 16 1 1000 ++ fieldOut v 15 0 1 1000),
   roReg 0x0E10 "LINK_PARENT_EUI_LO" [ro "value" 31 0] (fun s => lo32 ((s.link.assoc.map (·.eui.toNat)).getD 0)),
   roReg 0x0E14 "LINK_PARENT_EUI_HI" [ro "value" 31 0] (fun s => hi32 ((s.link.assoc.map (·.eui.toNat)).getD 0)),
   roReg 0x0E18 "LINK_PARENT" [ro "pan_id" 31 16, ro "value" 15 0] (fun s =>
      match s.link.assoc with
      | some a => BitVec.ofNat 32 (a.pan.toNat * 65536 + a.parent.toNat)
      | none => 0),
   roVal 0x0E1C "LINK_POLL_EVERY" 31 (fun s => s.cfg.link.pollEvery),
   roVal 0x0E20 "LINK_POLL_PHASE" 31 (fun s => s.cfg.link.pollPhase),
   roVal 0x0E24 "LINK_SNIFF_EVERY" 31 (fun s => s.cfg.link.sniffEvery),
   roVal 0x0E28 "LINK_SNIFF_PHASE" 31 (fun s => s.cfg.link.sniffPhase),
   roReg 0x0E2C "LINK_LAST_POLL" [ro "result" 19 16, ro "pending" 8 8, ro "frames" 7 0] (fun s =>
      let p := s.link.lastPoll
      BitVec.ofNat 32 (p.1 * 65536 + b2n p.2.1 * 256 + min p.2.2 255)),
   wrapReg 0x0E5C "LINK_WRAP" 7 (fun s => s.link.ctrs.toList),
   roReg 0x0F00 "LINK_CAT_STATUS" [ro "pending" 24 16, ro "entries" 8 0] (fun s =>
      BitVec.ofNat 32 (s.catPending * 65536 + s.link.cat.length)),
   cfgReg 0x0F04 "LINK_CAT_POOL" (some .link) .pool [rw "pool_hi" 31 16, rw "pool_lo" 15 0]
      (fun s v => s.poolErs (fld v 15 0) (fld v 31 16) "value") State.poolCheck,
   cfgReg 0x0F08 "LINK_CAT_CONFIG" (some .link) .catConfig [rw "indirect_s" 31 16, rw "exch_ms" 15 4, rw admitKey 1 0]
      (fun _ v => fieldOut v 31 16 1 65535 ++ fieldOut v 15 4 5 1000 ++ fieldOut v 1 0 0 2),
   roReg 0x0F0C "LINK_CAT_EXCH" [ro "active" 16 16, ro "child" 15 0] (fun s =>
      match s.link.exch with | some x => BitVec.ofNat 32 (65536 + x.short.toNat) | none => 0),
   { addr := 0x0F10, name := "LINK_CAT_SEL", fields := [rw "index" 7 0],
     read := fun s => BitVec.ofNat 32 s.link.catSel,
     apply := fun v s => if s.link.catSel = v.toNat then s
       else ({ s with link := { s.link with catSel := v.toNat % 256 } }).bump .link },
   roReg 0x0F2C "LINK_CAT_LIVE" [ro "pending" 8 8, ro "held" 7 0] (fun s =>
      let k := if (s.entry s.link.catSel).isSome then (s.heldFor s.link.catSel).length else 0
      BitVec.ofNat 32 (b2n (k != 0) * 256 + k)),
   wrapReg 0x0F58 "LINK_CAT_WRAP" 6 (fun s => s.link.catCtrs.toList)] ++
  (List.range 6).map (fun i => roVal (0x0F14 + 4 * i) ("LINK_CAT_ENTRY_" ++ Nat.repr i) 31 (fun s =>
    match s.entry s.link.catSel with | some e => e.word i | none => 0)) ++
  (List.range 7).map (fun i => ctrReg (0x0E40 + 4 * i) ("LINK_" ++ linkCtrNames.getD i "")
    (fun s => vget s.link.ctrs i {}) (fun c => setLink (fun x => { x with ctrs := vset x.ctrs i c }))) ++
  (List.range 6).map (fun i => ctrReg (0x0F40 + 4 * i) ("LINK_CAT_" ++ catCtrNames.getD i "")
    (fun s => vget s.link.catCtrs i {}) (fun c => setLink (fun x => { x with catCtrs := vset x.catCtrs i c })))

end Sys2Proof.Machine
end

