-- ==== Sys2Proof/Machine/Noise.lean ====
section
/-! DEFINITION. The noise source's verbs and rows (18_noise_vault R468–R479): raw mode, tests and failures, refills of
the grade-B pool, and reseeds of the DRBG. -/
namespace Sys2Proof.Machine

open Sys2Proof

/-! ## Stopping the outputs (R475, R478) -/

/-- A generate request that runs cannot be served. -/
def State.failRand (s : State) (why : String) : State :=
  if s.randRuns then s.completeRunning .vault .fail [kw "why" why] else s

/-- A draw of the link that waits for the pool finds the output stopped. -/
def State.failDraw (s : State) : State :=
  if s.link.op.map (·.phase) = some .draw then s.linkEnd .norng [] else s

/-- The tests of R469 and R470 as the fail_test codes of NOISE_STATUS. -/
def testName : Nat → String
  | 1 => "RCT" | 2 => "APT" | _ => "STARTUP"

/-- A failed test: FAILED, both outputs stop, and the pool and the DRBG's state are discarded (R478). -/
def State.noiseFail (s : State) (test : Nat) : State :=
  let s1 := { s with noise := { s.noise with pool := 0, refill := false, drbg := none, reseeding := false, due := false,
                                             seed := none, requests := 0, failTest := test } }
  (((s1.noiseTo .failed).condOn 80 [kw "test" (testName test)]).failRand "HEALTH").failDraw

/-! ## NOISE -/

/-- NOISE (R493). -/
def execNoise (l : Line) (s : State) : Host.Outcome State Fault Refusal :=
  runLine { noun := true } l s [] (fun s =>
    s.ok l ([w "NOISE", kw "state" s.noise.st.name,
             kw "grade_a" (if s.has .vault then onOff s.gradeA else "ABSENT"),
             kw "grade_b" (onOff (decide (s.noise.st = .ready)))] ++
      (if s.has .vault then [kd "since_reseed" s.noise.requests, kd "reseeds" s.noise.reseeds.val.toNat] else []) ++
      [kd "rct_max" s.noise.rctMax, kd "apt_max" s.noise.aptMax, edTok s .noise]))

/-- The state becomes RAW: the pool is discarded, a reseed in progress is abandoned and left due, and what waits on
either output ends (R475). -/
def State.enterRaw (s : State) : State :=
  let n := s.noise
  let s1 := { s with noise := { n with pool := 0, refill := false, due := n.due || n.reseeding, reseeding := false,
                                       seed := none } }
  ((((s1.noiseTo .raw).fire 81 []).failRand "NORNG")).failDraw

/-- NOISE RAW ON (R475): its reply precedes the event's line (07_events R198). -/
def execNoiseRawOn (l : Line) (s : State) : Host.Outcome State Fault Refusal :=
  runLine { order := false } l s (s.noiseErs [.startup, .failed]) (fun s =>
    if s.noise.st = .raw then s.ok l [w "NOISE", w "RAW", w "ON", edTok s .noise]
    else (s.ok l [w "NOISE", w "RAW", w "ON", kd "ed" (s.edition .noise + 1).toNat]).enterRaw)

def State.rawErs (s : State) : List Er := erIf (decide (s.noise.st ≠ .raw)) ⟨"DENIED", ["NOTRAW"]⟩

/-- NOISE RAW OFF (R477): a NOISE ticket. -/
def execNoiseRawOff (l : Line) (s : State) : Host.Outcome State Fault Refusal :=
  runTicket { order := false } .noise l s s.rawErs [] .rawOff

/-- NOISE RAW CAPTURE (R476): a NOISE ticket. -/
def execNoiseRawCapture (l : Line) (s : State) : Host.Outcome State Fault Refusal :=
  runTicket { order := false, keys := [("n", .int 1 4096)] } .noise l s (erIf (!l.has "n") erMissing ++ s.rawErs) []
    (.rawCapture ((l.nat? "n").getD 1))

/-- A ticket that needs raw mode starts once an earlier one has left it.  DESIGN CHOICE (log entry 73): READY is no word
that NOISE can report (06_tickets Table 6.3), so that the ticket ends FAIL with `why=NOTRAW`, the word of its refusal. -/
def State.notRaw (s : State) (n : Nat) : State := s.complete n .fail [kw "why" "NOTRAW"]

/-- The start of a RAW OFF ticket: the start-up test runs. -/
def State.startRawOff (s : State) (n : Nat) : State := if s.noise.st = .ready then s.notRaw n else s.noiseTo .startup

/-- The start of a capture. -/
def State.startCapture (s : State) (n : Nat) : State :=
  if s.noise.st = .ready then s.notRaw n else { s with noise := { s.noise with capAlarms := 0 } }

/-- The octets of a ticket's result, on a port: a block after its DN line in framed mode, lines in typed mode. -/
def State.completeData (s : State) (t : Ticket) (fields : List Tok) (line : List Tok) (o : List Byte) : State :=
  match t.owner with
  | .host p =>
    if s.framed p then s.complete t.n .done fields o
    else
      let s1 := s.complete t.n .done fields
      (dataLines line o).foldl (fun s x => s.push p { kind := .reply true, tag := t.tag, toks := x }) s1
  | _ => s.complete t.n .done fields

/-- A capture has collected its bits (R476). -/
def execRawCaptureDone (s : State) : Host.Outcome State Fault Refusal :=
  match s.running .noise with
  | none => .next s
  | some t =>
    match t.op with
    | .rawCapture n =>
      if s.noise.st ≠ .raw then .next s
      else
        let r := s.drawOctets n
        .next (r.2.completeData t [kd "n" n, kd "alarms" s.noise.capAlarms] [w "OK", w "NOISE", w "RAW", w "DATA"] r.1)
    | _ => .next s

/-! ## Tests, refills and reseeds -/

/-- The start-up test that leaves raw mode ends (R470, R477). -/
def execNoiseStartupTestEnd (passed aptFailed : Bool) (s : State) : Host.Outcome State Fault Refusal :=
  if !(s.inRun && decide (s.noise.st = .startup)) then .next s
  else if passed then
    let s1 := s.startupBits.noiseTo .ready
    .next (({ s1 with noise := { s1.noise with refill := true } }).completeRunning .noise .done [])
  else
    let s1 := ({ s with noise := { s.noise with run := 0, aptPos := 0 } }).rawFailed 1024 aptFailed
    .next ((s1.noiseFail 3).completeRunning .noise .fail
      [kw "why" "HEALTH", kw "test" (if aptFailed then "APT" else "RCT")])

/-- The source runs outside the start-up test and raw mode: for a refill or a seed (R468). -/
def State.sourceRuns (s : State) : Bool :=
  decide (s.noise.st = .ready) && (s.noise.refill || s.noise.reseeding)

/-- A health test fails: counted in raw mode, FAILED otherwise (R476, R478); how many bits the source had given by then is a
free value. -/
def execNoiseHealthFail (apt : Bool) (s : State) : Host.Outcome State Fault Refusal :=
  if !s.inRun then .next s
  else if s.noise.st = .raw then
    .next { s with noise := { s.noise with rawAlarms := s.noise.rawAlarms.inc, capAlarms := s.noise.capAlarms + 1 } }
  else if s.sourceRuns then
    .next ((s.draw.2.rawFailed (1 + s.draw.1.toNat % 512) apt).noiseFail (if apt then 2 else 1))
  else .next s

/-- The pool is refilled, and a draw that waited for it proceeds (R471). -/
def execGradeBRefillDone (s : State) : Host.Outcome State Fault Refusal :=
  if !(s.inRun && s.noise.refill && decide (s.noise.st = .ready)) then .next s
  else
    let s1 := s.refillPool
    .next (if s1.link.op.map (·.phase) = some .draw then s1.linkGo else s1)

/-- The seed block of a reseed has been collected and conditioned (R472). -/
def execSeedBlockDone (s : State) : Host.Outcome State Fault Refusal :=
  if s.inRun && s.noise.reseeding && s.noise.seed.isNone then
    let r := s.seedNext
    .next { r.2 with noise := { r.2.noise with seed := some r.1 } }
  else .next s

/-- A reseed completes (R474); a request that waited goes on. -/
def execDrbgReseedDone (s : State) : Host.Outcome State Fault Refusal :=
  match s.inRun && s.noise.reseeding, s.noise.seed with
  | true, some x =>
    let n := s.noise
    let s1 := { s with noise := { n with drbg := n.drbg.map (fun d => Drbg.reseed d (keyN x)), reseeding := false, seed := none,
                                         requests := 0, reseeds := n.reseeds.inc } }
    .next (s1.fire 82 [kd "count" s1.noise.reseeds.val.toNat])
  | _, _ => .next s

end Sys2Proof.Machine
end

