-- ==== Sys2Proof/Machine/Events.lean ====
section
/-! DEFINITION. The event verbs and registers (07_events). -/
namespace Sys2Proof.Machine

open Sys2Proof

/-- An `<event>` operand names a number from 0 to 127 or an event name (07_events, "Commands"). -/
def eventOf (a : Arg) : Option Nat :=
  match a with
  | .int v => if inRange 0 127 v then some v.toNat else none
  | .word x => (eventTable.find? (fun e => e.2.1 == x)).map (·.1)
  | _ => none

/-- The errors of an `<event>` operand: a reserved or impossible number, an unknown name, an absent event. -/
def State.eventErs (s : State) (key : String) (a : Option Arg) : List Er :=
  match a with
  | none => []
  | some (.word x) =>
    match eventOf (.word x) with
    | none => [⟨"UNKNOWN", [x]⟩]
    | some n => (match eventFeat n with | none => [] | some f => s.needs f)
  | some a =>
    match eventOf a with
    | none => [erRange key]
    | some n => erIf (!eventDefined n) (erRange key) ++ (match eventFeat n with | none => [] | some f => s.needs f)

/-- The line of EVENT for one event. -/
def State.eventLine (s : State) (n : Nat) : List Tok :=
  [w "EVENT", n' n, w (eventName n), kd "pending" (b2n (s.events.pend.getLsbD n)),
   kd "attn" (b2n (s.cfg.events.attn.getLsbD n)), kd "line" (b2n (s.cfg.events.line.getLsbD n)),
   kd "wake" (b2n (s.cfg.events.wake.getLsbD n))]

def attnWord (b : Bool) : String := if b then "ASSERTED" else "RELEASED"

def State.pendingList (s : State) : List Nat := (List.range 128).filter (fun i => s.events.pend.getLsbD i)

/-- EVENT (R188). -/
def execEvent (l : Line) (s : State) : Host.Outcome State Fault Refusal :=
  runLine { pos := [("event", .any)] } l s (s.eventErs "event" (l.at? 0)) (fun s =>
    match (l.at? 0).bind eventOf with
    | some n => s.ok l (s.eventLine n)
    | none =>
      s.okMany l ([w "EVENT", kd "pending" s.pendingList.length, kw "attn" (attnWord s.events.attn),
                   .kv "last" (noneOr s.events.last), edTok s .events] :: s.pendingList.map s.eventLine))

/-- EVENT CLEAR (R191): the number of bits found set is reported, and kind-C bits whose condition holds stay. -/
def execEventClear (l : Line) (s : State) : Host.Outcome State Fault Refusal :=
  let all := (l.at? 0) == some (.word "ALL")
  runLine { minPos := 1, pos := [("event", .any)] } l s (if all then [] else s.eventErs "event" (l.at? 0)) (fun s =>
    if all then
      let k := s.pendingList.length
      ((s.clearPend (BitVec.allOnes 128)).ok l [w "EVENT", w "CLEAR", w "ALL", kd "count" k]).waitCheck
    else
      match (l.at? 0).bind eventOf with
      | some n => ((s.clearPend ((1 : BitVec 128) <<< n)).ok l [w "EVENT", w "CLEAR", n' n]).waitCheck
      | none => s)

/-- One bit of a mask set or cleared. -/
def maskBit (m : BitVec 128) (n : Nat) (v : Option Nat) : BitVec 128 :=
  match v with
  | none => m
  | some 0 => m &&& ~~~((1 : BitVec 128) <<< n)
  | some _ => m ||| ((1 : BitVec 128) <<< n)

/-- The event masks replaced; a change counts for the EVENTS edition and ATTN follows (R191, R192). -/
def State.setMasks (s : State) (a li wk : BitVec 128) : State :=
  let e := s.cfg.events
  if e.attn = a ∧ e.line = li ∧ e.wake = wk then s
  else
    (({ s with cfg := { s.cfg with events := { e with attn := a, line := li, wake := wk } } }).bump .events).attnFollow

/-- EVENT MASK (R192, R199). -/
def execEventMask (l : Line) (s : State) : Host.Outcome State Fault Refusal :=
  runLine { minPos := 1, pos := [("event", .any)],
            keys := [("attn", .int 0 1), ("line", .int 0 1), ("wake", .int 0 1)] } l s
    (s.eventErs "event" (l.at? 0) ++ erIf l.named.isEmpty erMissing) (fun s =>
      match (l.at? 0).bind eventOf with
      | some n =>
        let e := s.cfg.events
        let s1 := s.setMasks (maskBit e.attn n (l.nat? "attn")) (maskBit e.line n (l.nat? "line"))
          (maskBit e.wake n (l.nat? "wake"))
        s1.ok l (s1.eventLine n)
      | none => s)

/-- EVENT RAISE (R189): the reply precedes the event's line (R198); an absent event is ABSENT (R201). -/
def execEventRaise (l : Line) (s : State) : Host.Outcome State Fault Refusal :=
  let n := ((l.at? 0).bind eventOf).getD 0
  runLine { minPos := 1, pos := [("event", .any)] } l s
    (s.eventErs "event" (l.at? 0) ++ erIf (decide (n < 115) || decide (119 < n)) (erRange "event")) (fun s =>
      let by_ := match l.origin with
        | .port _ => [kw "by" "HOST"]
        | .order k => [kw "by" "ORDER", kd "order" k]
      (s.ok l [w "EVENT", w "RAISE", n' n]).fire n by_)

/-- EVENT ATTN (R206). -/
def execEventAttn (l : Line) (s : State) : Host.Outcome State Fault Refusal :=
  runLine { order := false, keys := [("drive", .word ["OD", "PP"]), ("min", .int 0 255)] } l s [] (fun s =>
    let c := s.cfg.events.attnCfg
    let d := match l.word? "drive" with | some x => if x == "PP" then 1 else 0 | none => fld c 0 0
    let v : Word := BitVec.ofNat 32 ((l.nat? "min").getD (fld c 15 8) * 256 + d)
    let s1 := if v = c then s else (s.cfgSet .attnCfg v).bump .events
    s1.ok l [w "EVENT", w "ATTN", kw "drive" (if d = 1 then "PP" else "OD"), kd "min" (fld v 15 8),
             kw "level" (attnWord s1.events.attn), edTok s1 .events])

/-- EVENT SAVE: a STACKS ticket (R204). -/
def execEventSave (l : Line) (s : State) : Host.Outcome State Fault Refusal :=
  runTicket {} .stacks l s [] [] .eventSave

/-- The registers EVENT SAVE stores. -/
def eventCfgRegs : List CfgReg :=
  [.attnCfg] ++ (List.range 4).map .attnEn ++ (List.range 4).map .lineEn ++ (List.range 4).map .wakeEn

/-- The start of an EVENT SAVE ticket: the masks as they stand go to the Record. -/
def State.startEventSave (s : State) (n : Nat) : State :=
  s.rowWrites (regRows (eventCfgRegs.map (fun r => (r, s.cfgGet r)))) (some n)

/-- EV_CHUTE_OUT and EV_LINE_DROPPED fire in the cycle after their cause (R198). -/
def execDeferredEvent (s : State) : Host.Outcome State Fault Refusal :=
  match s.events.deferred with
  | [] => .next s
  | d :: ds =>
    let s1 := { s with events := { s.events with deferred := ds } }
    match d with
    | .chuteOut => .next (s1.fire 125 [kd "count" (s1.outCount .chute)])
    | .lineDropped p n => .next (s1.fire 127 [kw "port" (portName p), kd "event" n])

/-- The minimum width of an ATTN assertion ends: a release held back takes effect (R193). -/
def execAttnMinWidthEnd (s : State) : Host.Outcome State Fault Refusal := .next s.attnFollow

/-! ## Registers (Table 7.2) -/

/-- A mask word write: bits of reserved events are refused, bits of absent events are ignored (R187, R201). -/
def maskReg (addr : Nat) (name fname : String) (k : Nat) (get : EventsCfg → BitVec 128)
    (put : State → BitVec 128 → State) : Reg :=
  { addr := addr, name := name ++ Nat.repr k, fields := [rw fname 31 0],
    read := fun s => maskWord (get s.cfg.events) k,
    check := fun _ v => erIf ((v &&& ~~~(maskWord definedMask k)) != 0) (erRange "value"),
    apply := fun v s => put s (setMaskWord (get s.cfg.events) k (v &&& maskWord s.presentMask k)) }

def eventRegs : List Reg :=
  [roReg 0x2200 "EVENTS_STATUS" [ro "edition" 31 16, ro "pending_count" 15 8, ro "wake_pending" 2 2,
      ro "attn_pending" 1 1, ro "attn" 0 0] (fun s =>
      statusWord s .events (s.pendingList.length * 256 + b2n ((s.events.pend &&& s.cfg.events.wake) != 0) * 4 +
        b2n ((s.events.pend &&& s.cfg.events.attn) != 0) * 2 + b2n s.events.attn)),
   cfgReg 0x2204 "EVENTS_ATTN_CONFIG" (some .events) .attnCfg [rw "min_us" 15 8, rw "drive" 0 0],
   roReg 0x2208 "EVENTS_LAST" [ro "valid" 7 7, ro "number" 6 0] (fun s =>
      match s.events.last with | none => 0 | some n => BitVec.ofNat 32 (128 + n)),
   ctrReg 0x2250 "EVENTS_FIRED" (fun s => s.events.fired)
      (fun c s => { s with events := { s.events with fired := c } }),
   ctrReg 0x2254 "EVENTS_HOST_WAKES" (fun s => s.events.hostWakes)
      (fun c s => { s with events := { s.events with hostWakes := c } }),
   wrapReg 0x2258 "EVENTS_WRAP" 2 (fun s => [s.events.fired, s.events.hostWakes])] ++
  (List.range 4).flatMap (fun k =>
    [{ addr := 0x2210 + 4 * k, name := "EVENTS_PEND_" ++ Nat.repr k,
       fields := [{ name := "pending", hi := 31, lo := 0, acc := .w1c }],
       read := fun s => maskWord s.events.pend k,
       check := fun _ v => erIf ((v &&& ~~~(maskWord definedMask k)) != 0) (erRange "value"),
       apply := fun v s => (s.clearPend (BitVec.ofNat 128 (v.toNat * 2 ^ (32 * k)))).waitCheck },
     maskReg (0x2220 + 4 * k) "EVENTS_ATTN_EN_" "attn_en" k (·.attn)
       (fun s m => s.setMasks m s.cfg.events.line s.cfg.events.wake),
     maskReg (0x2230 + 4 * k) "EVENTS_LINE_EN_" "line_en" k (·.line)
       (fun s m => s.setMasks s.cfg.events.attn m s.cfg.events.wake),
     maskReg (0x2240 + 4 * k) "EVENTS_WAKE_EN_" "wake_en" k (·.wake)
       (fun s m => s.setMasks s.cfg.events.attn s.cfg.events.line m)])

end Sys2Proof.Machine
end

