-- ==== Sys2Proof/Machine/Trim.lean ====
section
/-! DEFINITION. Self-trim (17_trim): the items, their start, passes, agreement and commit, and the TRIM verbs and
registers.  What the passes select and measure enters with the rows that end them. -/
namespace Sys2Proof.Machine

open Sys2Proof

/-! ## Items (Table 17.1) -/

def itemName : TrimItem → String
  | .adcsel => "ADCSEL" | .dcoff => "DCOFF" | .iqbal => "IQBAL" | .filtcap => "FILTCAP" | .censuseq => "CENSUSEQ"

def itemIndex : TrimItem → Nat
  | .adcsel => 0 | .dcoff => 1 | .iqbal => 2 | .filtcap => 3 | .censuseq => 4

/-- Duration in ticks. -/
def itemTicks : TrimItem → Nat
  | .adcsel => 6 * tickMs | .dcoff => 2 * tickMs | .iqbal => 12 * tickMs | .filtcap => 8 * tickMs
  | .censuseq => 40 * tickMs

def itemOf (x : String) : Option TrimItem :=
  [TrimItem.adcsel, .dcoff, .iqbal, .filtcap, .censuseq].find? (fun i => itemName i == x)

/-- The items of ALL (R464). -/
def State.allItems (s : State) : List TrimItem :=
  [.adcsel, .dcoff, .iqbal, .filtcap] ++ if s.has .census then [.censuseq] else []

/-- The band of the trim channel. -/
def State.trimBand (s : State) (r : TrimRun) : Nat := (bandOf (s.chanFreq r.plan r.chan)).getD s.radio.band

/-! ## Refusals (R459) -/

/-- Something scheduled falls due before the end of the items plus 1 ms. -/
def State.dueBefore (s : State) (items : List TrimItem) : Bool :=
  let stop := items.filter (fun i => i != TrimItem.censuseq)
  let len := ((if stop.isEmpty then items else stop).map itemTicks).sum
  let lim := s.now + len + tickUs 200 + tickMs
  s.tickets.pool.any (fun t => t.unstarted && (match t.startAt with | some x => decide (x < lim) | none => false)) ||
    (match s.link.nextPoll with | some x => decide (x < lim) | none => false) ||
    (match s.nextListen with | some x => decide (x.2.1 < lim) | none => false)

/-- A LINK operation holds the radio for a CCA listen, an acknowledgement wait, a poll window or an exchange. -/
def State.linkHolds (s : State) : Bool :=
  s.link.exch.isSome ||
  (match s.link.op.map (·.phase) with
    | some LinkPhase.cca => true
    | some LinkPhase.ackWait => true
    | some (LinkPhase.window _) => true
    | _ => false)

/-- What forbids the items now: the unit and its word. -/
def State.trimForbids (s : State) (items : List TrimItem) : Option (String × String) :=
  let stops := items.any (fun i => i != TrimItem.censuseq)
  if stops && (decide (s.radio.st = .receive) || s.radio.handed.isSome || s.linkHolds) then some ("TRIM", "RXBUSY")
  else if stops && decide (s.radio.st = .transmit) then some ("RADIO", "TRANSMIT")
  else if s.dueBefore items then some ("TRIM", "RXBUSY")
  else none

/-! ## Starting and ending items -/

/-- The stale condition of the readings (13 R344). -/
def State.ceqStale (s : State) (b : Bool) : State :=
  let s1 := ({ s with census := { s.census with stale := b } }).bump .census
  if b then s1.condOn 75 [] else s1.condOff 75

def State.setRun (s : State) (f : TrimRun → TrimRun) : State :=
  { s with trim := { s.trim with run := s.trim.run.map f } }

def State.trimLast (s : State) (i : TrimItem) (result cause : Nat) (peak : Int) : State :=
  { s with trim := { s.trim with
      last := vset s.trim.last (itemIndex i) (some ⟨result, cause, if peak = -32768 then 0 else peak⟩) } }

/-- The item lists of a TRIM RUN ALL's DN line. -/
def itemList (xs : List String) : String := if xs.isEmpty then "NONE" else ",".intercalate xs

/-- The running ticket ends: IDLE, the edition, and the radio as at an item's end (Table 17.4). -/
def State.trimFinish (s : State) (r : Result) (fields : List Tok) : State :=
  match s.trim.run with
  | none => s
  | some x =>
    let s1 := ({ s with trim := { s.trim with run := none } }).bump .trim
    let ceq := x.item = .censuseq ∧ s.census.stale
    let s2 := if ceq then s1.ceqStale false else s1
    let f := if x.all && !(r == Result.cancelled) then [kw "done" (itemList x.done), kw "disagree" (itemList x.bad)]
      else fields
    (s2.linkResume).complete x.ticket r f

/-- The result of a ticket whose items have all been decided (R464). -/
def TrimRun.result (x : TrimRun) : Result :=
  if x.failed then .fail else if x.bad.isEmpty then .done else .disagree

/-- An item begins. -/
def State.trimItem (s : State) : State :=
  match s.trim.run with
  | none => s
  | some x =>
    if x.item = .censuseq then
      if !s.profile.wakes then
        (s.setRun (fun x => { x with failed := true })).trimFinish .fail [kw "why" "PROFILE"]
      else
        let s1 := { s with trim := { s.trim with runs := s.trim.runs.inc } }
        (s1.ceqStale true).linkResume
    else
      let s1 := { s with trim := { s.trim with runs := s.trim.runs.inc } }
      if s.radio.st = .trim then s1 else (s1.tune x.plan x.chan false).radioTo .trim

/-- A TRIM RUN ticket starts (Table 17.4); CENSUSEQ alone under W19 or S50 has no effect (R462). -/
def State.startTrim (s : State) (n : Nat) (items : List TrimItem) (all : Bool) (plan chan : Nat) : State :=
  match items with
  | [] => s.complete n .done []
  | i :: rest =>
    if i = .censuseq && !s.profile.wakes then s.complete n .fail [kw "why" "PROFILE"]
    else
      let r : TrimRun := { ticket := n, item := i, rest := rest, all := all, plan := plan, chan := chan }
      (({ s with trim := { s.trim with run := some r } }).bump .trim).trimItem

/-- The item is decided: the next one begins, or the ticket ends, at once or with its slot write. -/
def State.trimNext (s : State) (fields : List Tok) (wrote : Bool) : State :=
  match s.trim.run with
  | none => s
  | some x =>
    match x.rest with
    | i :: rest =>
      let s0 := if x.item = .censuseq then s.ceqStale false else s
      (s0.setRun (fun x => { x with item := i, rest := rest, second := false, sel1 := [], stat1 := [], dirty1 := false,
                                    dirty2 := false, warned := false, peak := -32768 })).trimItem
    | [] =>
      if wrote then
        let s0 := if x.item = .censuseq then s.ceqStale false else s
        (s0.setRun (fun x => { x with writing := some fields })).linkResume
      else s.trimFinish x.result fields

/-- A reading of R456 in the running pass: the peak, and contamination from -100.0 dBm. -/
def State.trimReading (s : State) (level : Int) (sync : Bool) : State :=
  match s.trim.run with
  | none => s
  | some x =>
    if x.writing.isSome then s
    else
      let dirty := sync || decide (-200 ≤ level)
      let was := if x.second then x.dirty2 else x.dirty1
      let s1 := s.setRun (fun x => { x with peak := max x.peak level,
                                            dirty1 := x.dirty1 || (dirty && !x.second),
                                            dirty2 := x.dirty2 || (dirty && x.second), warned := x.warned || dirty })
      let s2 := if dirty && !was then { s1 with trim := { s1.trim with contaminated := s1.trim.contaminated.inc } } else s1
      if dirty && !x.warned then
        s2.fire 74 [kw "item" (itemName x.item), kd "pass" (if x.second then 2 else 1), .kv "level" (dbm level)]
      else s2

/-! ## Agreement and commit (R455–R458) -/

def absDiff (a b : Int) : Nat := (a - b).natAbs

def lAt (l : List Int) (i : Nat) : Int := l.getD i 0

/-- The operands of a pass are those of its item, within their encodings. -/
def selValid (i : TrimItem) (sel : List Int) (stats : List Int) : Bool :=
  match i with
  | .adcsel => sel.length == 2 && sel.all (inRange 0 3)
  | .dcoff => sel.length == 2 && sel.all (inRange (-512) 511) && stats.length == 2
  | .iqbal => sel.length == 4 && sel.all (inRange 0 15) && decide (lAt sel 0 < lAt sel 1) && decide (lAt sel 2 < lAt sel 3) &&
      stats.length == 1 && stats.all (inRange 0 12700)
  | .filtcap => sel.length == 1 && sel.all (inRange 0 63)
  | .censuseq => sel.length == 16 && sel.all (inRange 0 3) && stats.length == 17

/-- The two passes agree (Table 17.1). -/
def passesAgree (i : TrimItem) (sel1 stat1 sel2 stat2 : List Int) : Bool :=
  match i with
  | .adcsel => sel1 == sel2
  | .dcoff => stat2.all (fun x => decide (x.natAbs ≤ 2))
  | .iqbal => decide (absDiff (lAt stat1 0) (lAt stat2 0) ≤ 150)
  | .filtcap => decide (absDiff (lAt sel1 0) (lAt sel2 0) ≤ 1)
  | .censuseq => (List.range 16).all (fun k => decide (absDiff (lAt stat1 k) (lAt stat2 k) ≤ 50))

/-- An image estimate in half-decibels (R453). -/
def halfDb (v : Int) : Nat := (roundUp v 50).toNat

/-- The selections with an item's replaced. -/
def putSel (t : TrimSel) (i : TrimItem) (band : Nat) (sel stats : List Int) : TrimSel :=
  let n (k : Nat) : Nat := (lAt sel k).toNat
  let src (b : Nat) : BitVec 7 := t.source ||| BitVec.ofNat 7 (2 ^ b)
  match i with
  | .adcsel => { t with adcI := n 0, adcQ := n 1, source := src 0 }
  | .dcoff => { t with dcI := lAt sel 0, dcQ := lAt sel 1, source := src 1 }
  | .iqbal => { t with iq := vset t.iq band (n 0, n 1, n 2, n 3), image := vset t.image band (halfDb (lAt stats 0)),
                       source := src (2 + band) }
  | .filtcap => { t with filt := n 0, source := src 5 }
  | .censuseq => { t with ceq := Vector.ofFn (fun k => n k.val), source := src 6 }

/-- The selections in force go to the other slot of the Record (R458). -/
def State.trimSlot (s : State) (t : Option Nat) : State :=
  s.rowWrite { what := .twin 17 [(0, s.trim.sel.body)], last := t }

def bandTok (s : State) (x : TrimRun) : List Tok :=
  if x.item = .iqbal then [kw "band" (bandName (s.trimBand x))] else []

/-- CENSUSEQ's selection as octets 12–15 of Table 17.3. -/
def ceqWord (t : TrimSel) : Nat := (t.ceq.toList.zipIdx).foldl (fun a c => a + c.1 * 4 ^ c.2) 0

def iqText (x : Nat × Nat × Nat × Nat) : String :=
  "i" ++ Nat.repr x.1 ++ "." ++ Nat.repr x.2.1 ++ ",q" ++ Nat.repr x.2.2.1 ++ "." ++ Nat.repr x.2.2.2

def intText (v : Int) : String := (Val.dec v).text

/-- The selection of an item as TRIM RUN and TRIM show it. -/
def selVal (t : TrimSel) (i : TrimItem) (band : Nat) : Val :=
  match i with
  | .adcsel => .word ("i" ++ Nat.repr t.adcI ++ ",q" ++ Nat.repr t.adcQ)
  | .dcoff => .word ("i" ++ intText t.dcI ++ ",q" ++ intText t.dcQ)
  | .iqbal => .word (iqText (vget t.iq band (14, 15, 14, 15)))
  | .filtcap => .dec t.filt
  | .censuseq => .hex 8 (ceqWord t)

/-- The fields of a committed item's DN line. -/
def commitToks (x : TrimRun) (band : Nat) (t : TrimSel) (stats : List Int) : List Tok :=
  let b : List Tok := if x.item = .iqbal then [kw "band" (bandName band)] else []
  [kw "item" (itemName x.item)] ++ b ++ [.kv "sel" (selVal t x.item band)] ++
  (match x.item with
    | .adcsel => []
    | .dcoff => [kd "resid" (max (lAt stats 0).natAbs (lAt stats 1).natAbs : Nat)]
    | .iqbal => [.kv "image" (dbm (halfDb (lAt stats 0))), .kv "pass1" (dbm (halfDb (lAt x.stat1 0)))]
    | .filtcap => [kd "pass1" (lAt x.sel1 0)]
    | .censuseq => [.kv "flat" (.fix 1 (roundUp (((List.range 16).map (fun k => absDiff (lAt stats k) (lAt stats 16))).foldl max 0 : Nat) 10))])

/-- Pass 1 ends with its selection and statistics. -/
def execTrimPassEnd (sel stats : List Int) (s : State) : Host.Outcome State Fault Refusal :=
  match s.trim.run with
  | none => .next s
  | some x =>
    if x.writing.isSome || x.second || !selValid x.item sel stats then .next s
    else .next (s.setRun (fun x => { x with second := true, sel1 := sel, stat1 := stats }))

/-- Pass 2 ends: the passes agree and the selection is committed, or they do not (R455–R457). -/
def execTrimItemEnd (sel stats : List Int) (s : State) : Host.Outcome State Fault Refusal :=
  match s.trim.run with
  | none => .next s
  | some x =>
    if x.writing.isSome || !x.second || !selValid x.item sel stats then .next s
    else
      let dirty := x.dirty1 || x.dirty2
      let band := s.trimBand x
      if !dirty && passesAgree x.item x.sel1 x.stat1 sel stats then
        let t := putSel s.trim.sel x.item band sel stats
        let s1 := ({ s with trim := { s.trim with sel := t, commits := s.trim.commits.inc } }).bump .trim
        let s2 := s1.trimLast x.item 0 0 x.peak
        let s3 := s2.fire 72 (kw "item" (itemName x.item) :: bandTok s x)
        let s4 := s3.setRun (fun x => { x with done := x.done ++ [itemName x.item] })
        .next ((s4.trimSlot (if x.rest.isEmpty then some x.ticket else none)).trimNext (commitToks x band t stats) true)
      else
        let cause := if dirty then "CONTAMINATED" else "MISMATCH"
        let s1 := { s with trim := { s.trim with disagrees := s.trim.disagrees.inc } }
        let s2 := s1.trimLast x.item 1 (if dirty then 2 else 1) x.peak
        let s3 := s2.fire 73 [kw "item" (itemName x.item), kw "cause" cause]
        let s4 := s3.setRun (fun x => { x with bad := x.bad ++ [itemName x.item] })
        .next (s4.trimNext [kw "item" (itemName x.item), kw "cause" cause] false)

/-- CENSUSEQ has not ended 400 ms after its start (R462). -/
def execCensuseqTimeout (s : State) : Host.Outcome State Fault Refusal :=
  match s.trim.run with
  | none => .next s
  | some x =>
    if s.ceqRuns then
      let s1 := (s.trimLast .censuseq 3 0 x.peak).setRun (fun x => { x with failed := true })
      .next (s1.trimFinish .fail [kw "why" "TIMEOUT"])
    else .next s

/-- CANCEL stops the item and commits nothing (R463). -/
def State.trimCancel (s : State) (by_ : String) : State :=
  match s.trim.run with
  | none => s
  | some x =>
    let s1 := if x.writing.isSome then s else s.trimLast x.item 2 0 x.peak
    s1.trimFinish .cancelled [kw "by" by_]

/-- The slot write of the last item has ended (R458). -/
def State.trimWritten (s : State) : State :=
  match s.trim.run with
  | none => s
  | some x =>
    match x.writing with
    | some f => s.trimFinish x.result f
    | none => s

/-! ## Verbs -/

/-- The item operand of a TRIM line. -/
def State.itemErs (s : State) (l : Line) : List Er :=
  match l.posWord? 0 with
  | some x =>
    if x == "ALL" then []
    else
      match itemOf x with
      | none => [⟨"UNKNOWN", [x]⟩]
      | some .censuseq => s.needs .census
      | some _ => []
  | none => []

def State.lineItems (s : State) (l : Line) : List TrimItem :=
  match l.posWord? 0 with
  | some x => if x == "ALL" then s.allItems else (itemOf x).toList
  | none => []

/-- TRIM RUN (R451, R459): a TRIM ticket. -/
def execTrimRun (l : Line) (s : State) : Host.Outcome State Fault Refusal :=
  let items := s.lineItems l
  let ceq := items == [.censuseq]
  runTicket { minPos := 1, pos := [("item", .name)], keys := [("chan", .any), ("plan", .any)] } .trim l s
    (s.itemErs l ++ (if ceq then erIf (l.has "chan") (erRange "chan") ++ erIf (l.has "plan") (erRange "plan")
                     else s.chanErs l "chan"))
    (match s.trimForbids items with | some x => [erState x.1 x.2] | none => [])
    (.trimRun items (l.posWord? 0 == some "ALL") (s.linePlan l) (s.lineChan l))

def lastName : Nat → String
  | 0 => "DONE" | 1 => "DISAGREE" | 2 => "CANCELLED" | 3 => "FAIL" | _ => "STATE"

/-- The lines of TRIM: one for each item, IQBAL once per band. -/
def State.trimLines (s : State) : List (List Tok) :=
  let t := s.trim.sel
  let line (i : TrimItem) (b : Option Nat) (src : Nat) : List Tok :=
    [w "TRIM", w (itemName i)] ++ (match b with | some x => [kw "band" (bandName x)] | none => []) ++
    [.kv "sel" (selVal t i (b.getD 0)), kw "src" (if t.source.getLsbD src then "TRIMMED" else "FACTORY"),
     kw "last" (match vget s.trim.last (itemIndex i) none with | some x => lastName x.result | none => "NONE")]
  [line .adcsel none 0, line .dcoff none 1, line .iqbal (some 0) 2, line .iqbal (some 1) 3, line .iqbal (some 2) 4,
   line .filtcap none 5] ++ if s.has .census then [line .censuseq none 6] else []

/-- TRIM (R465). -/
def execTrimStatus (l : Line) (s : State) : Host.Outcome State Fault Refusal :=
  runLine { noun := true } l s [] (fun s =>
    s.okMany l ([w "TRIM", kw "state" (if s.trim.run.isSome then "RUNNING" else "IDLE"),
                 kw "item" (match s.trim.run with | some x => itemName x.item | none => "NONE"), edTok s .trim] ::
      s.trimLines))

/-- The factory selection of one item, in one band or in every band (R454). -/
def factorySel (t : TrimSel) (band : Option Nat) (i : TrimItem) : TrimSel :=
  let f : TrimSel := {}
  let src (ks : List Nat) : BitVec 7 := ks.foldl (fun m b => m &&& ~~~(BitVec.ofNat 7 (2 ^ b))) t.source
  match i with
  | .adcsel => { t with adcI := f.adcI, adcQ := f.adcQ, source := src [0] }
  | .dcoff => { t with dcI := f.dcI, dcQ := f.dcQ, source := src [1] }
  | .iqbal =>
    match band with
    | some b => { t with iq := vset t.iq b (14, 15, 14, 15), image := vset t.image b 0, source := src [2 + b] }
    | none => { t with iq := f.iq, image := f.image, source := src [2, 3, 4] }
  | .filtcap => { t with filt := f.filt, source := src [5] }
  | .censuseq => { t with ceq := f.ceq, source := src [6] }

def bandWords : List String := ["L", "M", "H"]

/-- TRIM RESTORE (R454, R466). -/
def execTrimRestore (l : Line) (s : State) : Host.Outcome State Fault Refusal :=
  let items := s.lineItems l
  let stops := items.any (fun i => i != TrimItem.censuseq)
  runLine { order := false, minPos := 1, pos := [("item", .name)], keys := [("band", .word bandWords)] } l s
    (s.itemErs l ++ erIf (l.has "band" && items != [.iqbal]) (erRange "band") ++
      erIf s.trim.run.isSome (erState "TRIM" "RUNNING") ++
      erIf (stops && decide (s.radio.st = .receive)) (erState "TRIM" "RXBUSY") ++
      erIf (stops && decide (s.radio.st = .transmit)) (erState "RADIO" "TRANSMIT")) (fun s =>
      let band := (l.word? "band").map bandWords.idxOf
      let t := items.foldl (fun t i => factorySel t band i) s.trim.sel
      let s1 := (({ s with trim := { s.trim with sel := t } }).bump .trim).trimSlot none
      s1.ok l [w "TRIM", w "RESTORE", w ((l.posWord? 0).getD ""), edTok s1 .trim])

/-! ## Registers (Table 17.5) -/

def setTrim (f : TrimSt → TrimSt) (s : State) : State := { s with trim := f s.trim }

def lastWord (x : Option TrimLast) : Word :=
  match x with
  | none => 0
  | some t => BitVec.ofNat 32 (2 ^ 31 + t.result * 2 ^ 24 + t.cause * 65536 + unsigned 16 t.peak)

def lastFields : List Field := [ro "valid" 31 31, ro "result" 26 24, ro "cause" 17 16, ros "peak" 15 0]

def trimRegs : List Reg :=
  [roReg 0x1200 "TRIM_STATUS" [ro "edition" 31 16, ro "running" 8 8, ro "item" 2 0] (fun s =>
      statusWord s .trim (match s.trim.run with | some x => 256 + itemIndex x.item + 1 | none => 0)),
   roReg 0x1204 "TRIM_SEL_ADC" [ro "trimmed" 31 31, ro "q" 3 2, ro "i" 1 0] (fun s =>
      let t := s.trim.sel
      BitVec.ofNat 32 (b2n (t.source.getLsbD 0) * 2 ^ 31 + t.adcQ * 4 + t.adcI)),
   roReg 0x1208 "TRIM_SEL_DCOFF" [ros "q" 31 16, ros "i" 15 0] (fun s =>
      BitVec.ofNat 32 (unsigned 16 s.trim.sel.dcQ * 65536 + unsigned 16 s.trim.sel.dcI)),
   roReg 0x120C "TRIM_SEL_FILTCAP" [ro "trimmed" 31 31, ro "code" 5 0] (fun s =>
      BitVec.ofNat 32 (b2n (s.trim.sel.source.getLsbD 5) * 2 ^ 31 + s.trim.sel.filt)),
   ctrReg 0x1240 "TRIM_RUNS" (·.trim.runs) (fun c => setTrim (fun x => { x with runs := c })),
   ctrReg 0x1244 "TRIM_COMMITS" (·.trim.commits) (fun c => setTrim (fun x => { x with commits := c })),
   ctrReg 0x1248 "TRIM_DISAGREES" (·.trim.disagrees) (fun c => setTrim (fun x => { x with disagrees := c })),
   ctrReg 0x124C "TRIM_CONTAMINATED" (·.trim.contaminated) (fun c => setTrim (fun x => { x with contaminated := c })),
   wrapReg 0x1250 "TRIM_WRAP" 4 (fun s => [s.trim.runs, s.trim.commits, s.trim.disagrees, s.trim.contaminated]),
   roReg 0x1300 "TRIM_SEL_CENSUSEQ" [ro "taps" 31 0] (fun s => BitVec.ofNat 32 (ceqWord s.trim.sel)),
   roReg 0x1304 "TRIM_LAST_4" lastFields (fun s => lastWord (vget s.trim.last 4 none))] ++
  (List.range 3).map (fun b => roReg (0x1210 + 4 * b) ("TRIM_SEL_IQBAL_" ++ Nat.repr b)
    [ro "factory" 31 31, ro "image" 23 16, ro "q_hi" 15 12, ro "q_lo" 11 8, ro "i_hi" 7 4, ro "i_lo" 3 0] (fun s =>
      let x := vget s.trim.sel.iq b (14, 15, 14, 15)
      BitVec.ofNat 32 (b2n (!s.trim.sel.source.getLsbD (2 + b)) * 2 ^ 31 + vget s.trim.sel.image b 0 * 65536 +
        x.2.2.2 * 4096 + x.2.2.1 * 256 + x.2.1 * 16 + x.1))) ++
  (List.range 4).map (fun i => roReg (0x1220 + 4 * i) ("TRIM_LAST_" ++ Nat.repr i) lastFields
    (fun s => lastWord (vget s.trim.last i none)))

end Sys2Proof.Machine
end

