-- ==== Sys2Proof/Machine/Air.lean ====
section
/-! DEFINITION. The radio's own course (11_radio, 13_census): tuning and unlock, keying and the end of a transmission,
readings, clear-channel assessment with its hop, census windows, scans and hand-overs, and the waits of the link.
Reception stands in Receive.lean. -/
namespace Sys2Proof.Machine

open Sys2Proof

/-! ## Listening tickets (R305, R308) -/

/-- The radio works: in Run, from LOGIC_RDY of a full wake, and in a quiet wake's sniff. -/
def State.onAir (s : State) : Bool := s.awake || s.radio.sniff.isSome

def setRad (f : RadioSt → RadioSt) (s : State) : State := { s with radio := f s.radio }

/-- The listening ticket that holds the radio now. -/
def State.holder (s : State) : Option Listener :=
  let free := match s.link.op.map (·.phase) with
    | none => true
    | some LinkPhase.wait => true
    | some LinkPhase.wakeWait => true
    | _ => false
  let exch := match s.link.exch with | some x => decide (x.phase = .ackWait) | none => false
  if free && !exch && !s.trimStops then s.radio.listeners.head? else none

def State.setListener (s : State) (n : Nat) (f : Listener → Listener) : State :=
  { s with radio := { s.radio with listeners := s.radio.listeners.map (fun (x : Listener) => if x.ticket = n then f x else x) } }

def State.listenerOf (s : State) (k : ListenKind) : Option Listener :=
  s.radio.listeners.find? (fun x => decide (x.kind = k))

/-- CANCELLED carries who cancelled it; another result carries `why=UNLOCK` (R291). -/
def State.completeCancel (s : State) (n : Nat) (r : Result) : State :=
  match r, (s.ticket? n).bind (·.cancelBy) with
  | .cancelled, some b => s.complete n .cancelled [kw "by" b]
  | _, _ => s.complete n r [kw "why" "UNLOCK"]

/-- A listening ticket ends; the radio is released first (Table 11.7). -/
def State.listenerEnd (s : State) (x : Listener) (r : Result) : State :=
  let s1 := { s with radio := { s.radio with listeners := s.radio.listeners.filter (fun (y : Listener) => !(y.ticket == x.ticket)) } }
  let s2 := s1.radioRest
  match x.kind, r with
  | .scan, .done =>
    let s3 := if x.windows = 0 then s2.freeLevels else s2.scanStore x
    let f := s3.scanToks x.windows
    (s3.fire 38 f).complete x.ticket .done f
  | .scan, _ => (s2.scanStore x).completeCancel x.ticket r
  | .rx, .done => s2.complete x.ticket .done [kd "frames" x.frames, .kv "rssi_max" (dbm (x.rssiMax.getD (-280)))]
  | .check, .done => s2.complete x.ticket .done x.fin
  | _, _ => s2.completeCancel x.ticket r

/-- A listening ticket is to end: at once, or with the frame in Receive that it holds (R308). -/
def State.listenerStop (s : State) (x : Listener) (r : Result) : State :=
  if s.radio.rx.isSome && (s.holder.map (·.ticket)) = some x.ticket then
    s.setListener x.ticket (fun y => { y with ending := some r })
  else s.listenerEnd x r

/-- The listening of a CCA counts from the moment the receive chain runs (13 R347, R299). -/
def State.ccaBegin (s : State) (cyc : Nat) : State :=
  match s.link.op.map (fun o => (o.phase, o.cca.since)) with
  | some (LinkPhase.cca, none) => s.setOp (fun o => { o with cca := { o.cca with since := some cyc } })
  | some (LinkPhase.cca, some _) => s
  | _ =>
    match s.holder with
    | some x =>
      if x.kind = .check ∧ x.cca.since = none then
        s.setListener x.ticket (fun y => { y with cca := { y.cca with since := some cyc } })
      else s
    | none => s

/-- A listening ticket starts (R308, R362, R363). -/
def State.listenerStart (s : State) (x : Listener) : State :=
  let s1 := ({ s with radio := { s.radio with listeners := s.radio.listeners ++ [x] } }).radioRest
  if s1.radio.locked && decide (s1.radio.st = .listen) then s1.ccaBegin s1.day.cyc else s1

/-! ## The end of a transmission -/

/-- The fields of a completed frame (14 FRAME SEND, 15 LINK WAKE and LINK POLL). -/
def LinkOp.doneToks (o : LinkOp) (ack : String) (pend : Bool) : List Tok :=
  match o.kind with
  | .send =>
    (if o.frame.fmt = .m then [] else [kd "seq" o.frame.seq]) ++ [.kv "sync" (.time o.lastSync), kd "tries" o.tries,
      kw "ack" ack] ++ (if o.frame.fmt = .m then [] else [kd "pending" (b2n pend)])
  | .wake => [kd "seq" o.frame.seq, .kv "sync" (.time o.lastSync), kd "tries" o.tries]
  | _ => []

/-- The oldest frame held for the exchange's child is booked and follows one turnaround later (15 R411, 16 R434); one
that the profile in force does not carry is not keyed and stays held (log entry 75). -/
def State.heldStart (s : State) (x : Exch) : State :=
  match s.heldFor x.idx with
  | [] => s.exchEnd
  | e :: more =>
    let f : TxFrame := { e.frame with pending := !more.isEmpty }
    let a := s.frameAir f false
    if !s.profile.fmts.contains f.fmt then s.exchEnd
    else if s.canBook a.1 false then
      let t : Tx := { kind := .held e.id, plan := s.radio.plan, chan := s.radio.chan, air := a.1, shr := a.2,
                      turn := true, phase := .lead,
                      tones := s.frameTones f.fmt f.mB f.fcs4 (s.preambleOctets false)
                        (if more.isEmpty then e.octets else s.airOctets f) }
      let s1 := (((s.book a.1 false).txTake t).txEnter)
      { s1 with link := { s1.link with exch := some { x with phase := .heldTx, entry := some e.id, late := false } } }
    else (s.bookRefused a.1 false).exchEnd

/-- What the link does once an acknowledgement has ended (15 R398, R401, R409). -/
def State.afterAck (s : State) : State :=
  match s.link.op with
  | none => s.linkResume
  | some o =>
    if o.phase = .finishing then
      let s1 := match o.joined with | some a => s.associate a | none => s
      match o.fin with
      | some (r, f) => s1.linkEnd r f
      | none => s1.pollNext
    else s.linkResume

/-- A transmission has ended: PA_EN falls, the Ledger corrects and closes the booking, and the radio moves on
(R296, R291, 16 R433). -/
def State.txEnd (s : State) : State :=
  match s.radio.tx with
  | none => s
  | some t =>
    let s0 := { s with pads := { s.pads with paEn := false },
                       radio := { s.radio with tx := none, antLag := true, locked := s.radio.locked && !t.cut } }
    let s1 := s0.padFollow.settleBooking t.actual
    let sent (s : State) : State :=
      if t.cut then s.linkEnd .fail [kw "why" "UNLOCK"]
      else
        match s.link.op with
        | none => s.radioRest
        | some o =>
          if o.frame.ackReq then (s.setOp (fun o => { o with phase := .ackWait, late := false })).radioRest
          else s.linkEnd .done (o.doneToks "NONE" false)
    match t.kind with
    | .cw =>
      if t.cut then s1.linkEnd .fail [kw "why" "UNLOCK"]
      else s1.linkEnd .done [kd "level" t.level, kd "vddpa" s1.pwr.vddpa.toNat]
    | .frame => sent s1
    | .train => sent s1
    | .ack pend =>
      let s2 := if t.cut then s1 else s1.countFrame 12
      match s2.link.exch with
      | some x =>
        if x.phase = .ack then (if pend && !t.cut then s2.heldStart x else s2.exchEnd) else s2.afterAck
      | none => s2.afterAck
    | .held _ =>
      match s1.link.exch with
      | some x =>
        if t.cut then s1.exchEnd
        else ({ s1 with link := { s1.link with exch := some { x with phase := .ackWait, late := false } } }).radioRest
      | none => s1.linkResume

/-! ## Tuning (R290, R291) -/

/-- SYNTH_LOCK: the receive chain starts, or the leads of keying begin. -/
def execSynthLock (s : State) : Host.Outcome State Fault Refusal :=
  if !(s.onAir && s.radio.tuning) then .next s
  else
    let s1 := setRad (fun r => { r with locked := true, tuning := false }) s
    match s.radio.tx with
    | some t => .next (setRad (fun r => { r with tx := some { t with phase := .lead } }) s1)
    | none => .next ((s1.ccaBegin (s.day.cyc + tickUs 20)).censusHold)

/-- The temperature is read at the start of a quiet wake's return (10 R261).  No command carries the reading there: it
is a free value (log entry 70). -/
def State.returnTemp (s : State) : State :=
  let d := s.draw
  let t := signed 16 (d.1.toNat % 65536)
  { d.2 with day := { d.2.day with temp := t, tempEntry := t } }

/-- A poll window has ended without a further frame (15 R401, R409). -/
def State.windowEnd (s : State) : State :=
  match s.link.op with
  | none => s
  | some o =>
    if o.kind = .assocData then s.linkEnd .fail [kw "why" "NORESPONSE"]
    else if o.frames = 0 then s.linkEnd .fail [kw "why" "NODATA"]
    else s.linkEnd .done [kd "pending" (b2n o.pendBit), kd "frames" o.frames, kd "tries" o.tries]

/-- A quiet-wake sniff ends and the device returns through the entry sequence (13 R355, 09 R245). -/
def State.sniffStop (s : State) : State :=
  let s1 := (setRad (fun r => { r with sniff := none, handed := none, rx := none, failed := false }) s).radioTo .idle
  ({ s1 with pwr := { s1.pwr with state := .entry false true } }).returnTemp.alarmSet

/-- A radio in TRIM retunes there; else what holds it tunes again. -/
def State.relock (s : State) : State :=
  if s.radio.st = .trim then setRad (fun r => { r with tuning := true }) s else s.linkResume

/-- The operation listens on after an unlock: its wait goes on, or ends where its deadline passed during the frame that the
unlock has abandoned (R291, 14 R380, 15 R413). -/
def State.listenAgain (s : State) (o : LinkOp) : State :=
  match o.phase with
  | .ackWait => if o.late then s.linkNoAck else s.linkResume
  | .window true => s.windowEnd
  | _ => s.linkResume

/-- The operation that holds the radio fails to lock, or loses lock, while it listens: any frame in progress is abandoned,
and it retunes the first time, and fails the second (R291); a listening ticket that was to end with that frame ends
(R308). -/
def State.unlockListen (s : State) : State :=
  let s1 := setRad (fun r => { r with rx := none }) s
  let opHolds : Bool := match s.link.op.map (·.phase) with
    | some LinkPhase.wait => false
    | some LinkPhase.wakeWait => false
    | none => false
    | _ => !s.trimStops
  match opHolds, s.link.op, s.holder with
  | true, some o, _ =>
    if o.failed then s1.linkEnd .fail [kw "why" "UNLOCK"]
    else (s1.setOp (fun o => { o with failed := true })).listenAgain o
  | _, _, some x =>
    if x.failed then s1.listenerEnd x .fail
    else if x.ending.isSome then s1.listenerEnd x (x.ending.getD .done)
    else (s1.setListener x.ticket (fun y => { y with failed := true })).linkResume
  | _, _, none =>
    if s.link.exch.any (fun y => y.late && decide (y.phase = .ackWait)) then s1.exchEnd
    else if !s.radio.failed then (setRad (fun r => { r with failed := true }) s1).relock
    else
      let s2 := setRad (fun r => { r with failed := false, handed := none }) s1
      if s.radio.sniff.isSome then s2.sniffStop
      else if s.link.exch.isSome then s2.exchEnd
      else if s.trimStops || s.ceqRuns then s2.trimFinish .fail [kw "why" "UNLOCK"]
      else s2.linkResume

/-- EV_SYNTH_UNLOCK, and what follows it (R291). -/
def State.unlock (s : State) : State :=
  let s1 := (setRad (fun r => { r with locked := false, tuning := false, unlocks := r.unlocks.inc }) s).fire 32
    [.kv "word" (.hex 8 s.radio.word), kw "state" s.radio.st.name]
  match s1.radio.tx with
  | some t =>
    match t.phase with
    | .rampUp => setRad (fun r => { r with tx := some { t with phase := .rampDown, cut := true, actual := 0 } }) s1
    | .symbols =>
      setRad (fun r => { r with tx := some { t with phase := .rampDown, cut := true,
                                                     actual := min (s1.day.cyc - t.symCyc) t.air } }) s1
    | .rampDown => setRad (fun r => { r with tx := some { t with cut := true } }) s1
    | _ => (setRad (fun r => { r with tx := some { t with cut := true, actual := 0 } }) s1).txEnd
  | none => s1.unlockListen

/-- LOCK_TIMEOUT. -/
def execLockTimeout (s : State) : Host.Outcome State Fault Refusal :=
  if s.onAir && s.radio.tuning then .next s.unlock else .next s

/-- LOCK_LOST. -/
def execLockLost (s : State) : Host.Outcome State Fault Refusal :=
  if s.onAir && s.radio.locked && decide (s.radio.st ≠ .idle) then .next s.unlock else .next s

/-! ## Keying (R293–R296) -/

def txPair (t : Tx) : Nat := if t.hp then 3 else 2

def State.paOn (s : State) : State :=
  if bit s.cfg.radio.txConfig 13 then ({ s with pads := { s.pads with paEn := true } }).padFollow else s

/-- The leads before keying: PA_EN rises, or the antenna controls take their transmit mapping (R296). -/
def execKeyingLead (pa : Bool) (s : State) : Host.Outcome State Fault Refusal :=
  match s.radio.tx with
  | some t => if t.phase = .lead then .next (if pa then s.paOn else s.antSet (txPair t)) else .next s
  | none => .next s

/-- Keying: the ramp-up begins; a ticket's frame counts a try. -/
def State.keyUp (s : State) (t : Tx) : State :=
  let s1 := setRad (fun r => { r with keyings := r.keyings.inc, tx := some { t with phase := .rampUp } }) s
  let s2 := (s1.antSet (txPair t)).paOn
  let mine : Bool := match t.kind with | .frame => true | .train => true | _ => false
  if mine then
    (s2.setOp (fun o => { o with tries := o.tries + 1,
                                 lastSync := s.now + s.rampTicks + t.shr })).countLink 0
  else s2

/-- Keying waits for the BOOK record (16 R431), and that of a secured frame for the row of its counter (14 R385). -/
def State.keyWaits (s : State) : Bool :=
  s.journalBusy || (match s.link.op with | some o => s.fcWaits o.frame | none => false)

/-- KEYING. -/
def execKeying (s : State) : Host.Outcome State Fault Refusal :=
  match s.radio.tx with
  | some t => if t.phase = .lead && !t.turn && !s.keyWaits then .next (s.keyUp t) else .next s
  | none => .next s

/-- RAMP_UP_END: the first symbol, and a supply measurement (03 R58, R59). -/
def execRampUpEnd (s : State) : Host.Outcome State Fault Refusal :=
  match s.radio.tx with
  | some t =>
    if t.phase = .rampUp then
      .next ((setRad (fun r => { r with tx := some { t with phase := .symbols, symCyc := s.day.cyc } }) s).startMeasure
        (t.hp && decide (20 < t.level)))
    else .next s
  | none => .next s

/-- TX_SYMBOLS_END: the last symbol, and the ramp-down. -/
def execTxSymbolsEnd (s : State) : Host.Outcome State Fault Refusal :=
  match s.radio.tx with
  | some t =>
    if t.phase = .symbols then
      .next (setRad (fun r => { r with tx := some { t with phase := .rampDown, actual := t.air } }) s)
    else .next s
  | none => .next s

/-- RAMP_DOWN_END. -/
def execRampDownEnd (s : State) : Host.Outcome State Fault Refusal :=
  match s.radio.tx with
  | some t => if t.phase = .rampDown then .next s.txEnd else .next s
  | none => .next s

/-- ANTENNA_LAG_END (R296). -/
def execAntennaLagEnd (s : State) : Host.Outcome State Fault Refusal :=
  if s.radio.antLag then .next ((setRad (fun r => { r with antLag := false }) s).antFollow) else .next s

/-- ACK_TURNAROUND: the booked acknowledgement, to which the synthesizer has been tuned since, is keyed (14 R378). -/
def execAckTurnaround (s : State) : Host.Outcome State Fault Refusal :=
  match s.radio.tx with
  | some t =>
    match t.kind with
    | .ack _ => if t.phase = .lead && !s.journalBusy then .next (s.keyUp t) else .next s
    | _ => .next s
  | none => .next s

/-- HELD_FRAME_TURNAROUND: the booked held frame is keyed (15 R411). -/
def execHeldFrameTurnaround (s : State) : Host.Outcome State Fault Refusal :=
  match s.radio.tx with
  | some t =>
    match t.kind with
    | .held _ => if t.phase = .lead && !s.journalBusy then .next (s.keyUp t) else .next s
    | _ => .next s
  | none => .next s

/-! ## Clear-channel assessment (13 R347–R349, R356–R358) -/

/-- The census channel of the hop, and its reading (R357). -/
def State.candidate (s : State) (o : LinkOp) : Option Nat :=
  let base := s.spanBase
  let own := o.chan - base
  let ok := (List.range 16).filter (fun k => bit s.census.allow k && k != own &&
    decide (vget o.cca.peak k 0 < s.ccaThr) && !o.cca.seen.getLsbD k)
  let lev (k : Nat) : Int := vget s.census.levels k 0
  let dist (k : Nat) : Nat := ((k : Int) - (own : Int)).natAbs
  ok.foldl (fun b k =>
    match b with
    | none => some k
    | some j => if lev k < lev j ∨ (lev k = lev j ∧ dist k < dist j) then some k else some j) none

/-- The partner is recorded as watching the same span with hop on (15 R425). -/
def State.partnerWatches (s : State) (f : TxFrame) : Bool :=
  f.dst != .short 0xFFFF && f.dst != .none &&
    ((s.isEnd && s.partnerHop) ||
      (s.isParent && (match s.entryOf f.dst with | some e => e.hop | none => false)))

/-- R356 allows a hop. -/
def State.hopTo (s : State) (o : LinkOp) : Option Nat :=
  if s.watching && s.census.hop && !s.census.stale && s.inSpan o.plan o.chan && s.detecting &&
      (o.frame.fmt == .s || o.frame.fmt == .d) && o.kind != .wake && s.partnerWatches o.frame && decide (1 ≤ o.cca.windows) then
    s.candidate o
  else none

/-- A busy CCA is counted and reported (R349). -/
def State.ccaBusyEvent (s : State) (chan : Nat) (cause : String) : State :=
  (setRad (fun r => { r with ccaBusy := r.ccaBusy.inc }) s).fire 36
    [kd "chan" chan, kw "cause" cause, .kv "level" (dbm s.radio.rssiNow)]

/-- The operation's CCA is busy: the hop of R358, or one backoff more. -/
def State.opBusy (s : State) (cause : String) : State :=
  match s.link.op with
  | none => s
  | some o =>
    let s1 := s.ccaBusyEvent o.chan cause
    match s.hopTo o with
    | some k =>
      let c := s.spanBase + k
      let s2 := { s1 with census := { s1.census with hops := s1.census.hops.inc } }
      (s2.fire 37 [kd "from" o.chan, kd "to" c, .kv "level" (dbm (vget s.census.levels k 0))]).linkKey c true
    | none => s1.linkBusy true

/-- A CCA CHECK has its result (R363). -/
def State.checkEnd (s : State) (x : Listener) (clear : Bool) (cause : String) : State :=
  let f : List Tok := [kw "clear" (yesNo clear), kw "cause" cause, .kv "level" (dbm s.radio.rssiNow)]
  let s1 := s.setListener x.ticket (fun y => { y with fin := f })
  s1.listenerStop { x with fin := f } .done

/-- A CCA in progress on the listened channel: 1 the link's, 2 that of a CCA CHECK. -/
inductive CcaOf | op (o : LinkOp) (since : Nat) | check (x : Listener) (since : Nat) | none
  deriving DecidableEq, Repr

def State.ccaNow (s : State) : CcaOf :=
  match s.link.op.map (fun o => (o, o.phase, o.cca.since)) with
  | some (o, LinkPhase.cca, some t) => .op o t
  | _ =>
    match s.holder with
    | some x =>
      if x.kind = .check && x.fin.isEmpty then (match x.cca.since with | some t => .check x t | none => .none) else .none
    | none => .none

/-- A carrier is seen on the listened channel (R347, R348). -/
def State.carrierSeen (s : State) : State :=
  if s.ccaMode = 0 then s
  else
    match s.ccaNow with
    | .op _ _ => s.opBusy "CS"
    | .check x _ => (s.ccaBusyEvent x.chan "CS").checkEnd x false "CS"
    | .none => s

/-- CCA_LISTEN_END: the channel is clear, and the waiting operation books and keys (R347). -/
def execCcaListenEnd (s : State) : Host.Outcome State Fault Refusal :=
  let s1 := setRad (fun r => { r with ccaClear := r.ccaClear.inc }) s
  if !s.inRun then .next s
  else
    match s.ccaNow with
    | .op o _ => .next (s1.linkKey o.chan false)
    | .check x _ => .next (s1.checkEnd x true "NONE")
    | .none => .next s

/-! ## Readings -/

def satRssi (v : Int) : Int := clampInt (-280) (-20) v

/-- The radio receives: its chain runs in Listen or Receive. -/
def State.receiving (s : State) : Bool :=
  s.onAir && s.radio.locked && (decide (s.radio.st = .listen) || decide (s.radio.st = .receive))

/-- The LNA's share of a gain (R300): the share asked for where it and the rest fit, else the greatest that does.
DESIGN CHOICE (log entry 76): the split is the device's own, and an operand that fits no gain is no split of it. -/
def lnaShare (gain lna : Nat) : Nat :=
  if [0, 12, 24].contains lna && decide (lna ≤ gain) && decide (gain ≤ lna + 54) then lna
  else if 24 ≤ gain then 24
  else if 12 ≤ gain then 12
  else 0

/-- AGC_UPDATE: in Listen, the gain and the LNA's share of it (R300, R301); a fixed gain is that of the settings. -/
def execAgcUpdate (gain lna : Nat) (s : State) : Host.Outcome State Fault Refusal :=
  if !(s.receiving && decide (s.radio.st = .listen)) then .next s
  else
    let g := if bit s.cfg.radio.rxConfig 0 then min (gain / 2 * 2) 78 else s.gainNow
    .next (setRad (fun r => { r with gain := g, lna := lnaShare g lna, frozen := false }) s).padFollow

def State.rssiOffset (s : State) : Int := signed 8 (fld s.cfg.radio.rxConfig 23 16)

/-- A power at the port pin as it is reported: with rssi_offset, saturated (R303). -/
def State.rssiOf (s : State) (v : Int) : Int := satRssi (v + s.rssiOffset)

/-- RSSI_UPDATE: the Listen RSSI, a CCA's energy test, and the contamination of a trim pass (R303, 13 R347, 17 R456). -/
def execRssiUpdate (rssi : Int) (s : State) : Host.Outcome State Fault Refusal :=
  if s.inRun && decide (s.radio.st = .trim) then .next (s.trimReading rssi false)
  else if !s.receiving then .next s
  else
    let v := s.rssiOf rssi
    let s1 := setRad (fun r => { r with rssiNow := v }) s
    let s2 := match s1.holder with
      | some x => s1.setListener x.ticket (fun y => { y with rssiMax := some (match y.rssiMax with | some m => max m v | none => v) })
      | none => s1
    let due (t : Nat) : Bool := s.ccaMode != 1 && decide (t + tickUs 256 ≤ s.day.cyc) && decide (s.ccaThr ≤ v)
    match s2.ccaNow with
    | .op _ t => .next (if due t then s2.opBusy "ED" else s2)
    | .check x t => .next (if due t then (s2.ccaBusyEvent x.chan "ED").checkEnd x false "ED" else s2)
    | .none => .next s2

/-- AFC_LIMIT: the estimate reaches ±3000 Hz while a preamble is being detected (R302). -/
def execAfcLimit (offset : Int) (s : State) : Host.Outcome State Fault Refusal :=
  if s.receiving && decide (s.radio.st = .listen) && !s.radio.afcOnce && decide (3000 ≤ offset.natAbs) then
    .next ((setRad (fun r => { r with afcOnce := true, afcLimits := r.afcLimits.inc }) s).fire 34
      [kd "offset" (clampInt (-32767) 32767 offset)])
  else .next s

/-- The duration of a listening ticket has run (R308). -/
def State.durationOver (s : State) (x : Listener) : Bool :=
  match x.endAt with
  | some t => decide (t ≤ s.day.cyc)
  | none => false

/-- RX_DURATION_END (R308). -/
def execRxDurationEnd (s : State) : Host.Outcome State Fault Refusal :=
  match s.listenerOf .rx with
  | some x => if s.inRun && s.durationOver x then .next (s.listenerStop x .done) else .next s
  | none => .next s

/-- CENSUS_SCAN_END (13 R362). -/
def execCensusScanEnd (s : State) : Host.Outcome State Fault Refusal :=
  match s.listenerOf .scan with
  | some x => if s.inRun && s.durationOver x then .next (s.listenerStop x .done) else .next s
  | none => .next s

/-! ## The census (13 R341–R345, R350–R355) -/

def satLevel (v : Int) : Int := clampInt (-270) (-80) v

/-- The readings of a window that counts: levels, their comparison with the threshold, and EV_CENSUS_LEVEL. -/
def State.setReadings (s : State) (v : Vector Int 16) : State :=
  let above : BitVec 16 := BitVec.ofNat 16 (((List.range 16).filter (fun k => decide (s.levelThr ≤ vget v k 0))).map (fun k => 2 ^ k)).sum
  let rise := above &&& ~~~s.census.above
  let s1 := { s with census := { s.census with levels := v, above := above, at_ := s.day.now, held := false } }
  if rise = 0 then s1 else s1.fire 39 [.kv "chans" (.hex 4 rise.toNat)]

/-- A window that a CCA or a scan counts. -/
def State.countWindow (s : State) (v : Vector Int 16) : State :=
  let up (c : Cca) : Cca := { c with windows := c.windows + 1, peak := Vector.zipWith max c.peak v }
  let s1 := match s.ccaNow with
    | .op _ _ => s.setOp (fun o => { o with cca := up o.cca })
    | _ => s
  match s1.holder with
  | some x =>
    if x.kind = .scan then
      s1.setListener x.ticket (fun y => { y with windows := y.windows + 1, maxes := Vector.zipWith max y.maxes v,
                                                 sums := Vector.zipWith (fun a l => a + levelPower l) y.sums v })
    else s1
  | none => s1

/-- The gate of a sniff, at its first window close (R355). -/
def State.gateCheck (s : State) (census : Bool) (v : Vector Int 16) : State :=
  match s.radio.sniff with
  | none => s
  | some x =>
    if x.gated then s
    else
      let pass := match s.gate with
        | none => true
        | some g => if census then v.toList.any (fun l => decide (g ≤ l)) else decide (g ≤ s.radio.rssiNow)
      if pass then setRad (fun r => { r with sniff := some { x with gated := true } }) s else s.sniffStop

/-- The settings written since the last window close apply (R361). -/
def State.censusApply (s : State) : State :=
  { s with census := { s.census with hop := s.hopOn, allow := s.cfg.census.allow } }

/-- CENSUS_WINDOW_CLOSE: the mean powers of the sixteen channels at the port pin (R341); a sniff without the census gives
none. -/
def execCensusWindowClose (readings : List Int) (s : State) : Host.Outcome State Fault Refusal :=
  if !s.receiving then .next s
  else
    let v : Vector Int 16 := Vector.ofFn (fun k => satLevel (readings.getD k.val (-270) + s.rssiOffset))
    let live := s.measuring && readings.length == 16
    let used := live && s.watching && s.detecting
    if live then
      if s.census.stale then
        .next (s.trimReading (readings.foldl max (-270)) false)
      else .next (((s.censusApply.setReadings v).countWindow v).gateCheck used v)
    else .next (s.gateCheck false v)

/-- The reading of a plan channel of the span. -/
def State.spanLevel (s : State) (c : Nat) : Int := vget s.census.levels (c - s.spanBase) (-270)

/-- A hand-over of this cycle stands (R352). -/
def State.handedNow (s : State) : Bool :=
  match s.radio.handed with
  | some h => h.moved && h.since == s.day.cyc
  | none => false

/-- The demodulator is handed to a channel of the span, or held on its own after a wake pattern (R352–R354); of several
detections in one cycle the better one stands, and is counted once. -/
def State.handOver (s : State) (c : Nat) (wake : Bool) : State :=
  let lev := s.spanLevel c
  let better : Bool := match s.radio.handed with
    | none => true
    | some h =>
      h.since != s.day.cyc || (wake && !h.wake) ||
        (wake == h.wake && (decide (h.level < lev) || (h.level == lev && decide (c < h.chan))))
  if !better then s
  else if c = s.radio.chan then
    if wake then
      setRad (fun r => { r with handed := some { chan := c, wake := true, since := s.day.cyc, level := lev,
                                                 moved := match r.handed with | some h => h.moved | none => false } }) s
    else s
  else
    let s1 := { s with census := { s.census with handovers := s.census.handovers.incIf (!s.handedNow) } }
    setRad (fun r => { r with chan := c, word := synthWord (s.chanFreq r.plan c),
                              ownSeen := if wake then none else some s.day.cyc,
                              handed := some { chan := c, wake := wake, moved := true, since := s.day.cyc, level := lev } }) s1

/-- The census searches a channel beside the demodulator's (R350). -/
def State.searches (s : State) (c : Nat) : Bool :=
  s.watching && s.detecting && s.radio.spanTuned && s.inSpan s.radio.plan c && s.inSpan s.radio.plan s.radio.chan &&
    c != s.radio.chan

/-- PREAMBLE_DETECTED on a plan channel (R347, R348, R351, R352). -/
def execPreambleDetected (chan : Nat) (s : State) : Host.Outcome State Fault Refusal :=
  if !(s.receiving && decide (s.radio.st = .listen)) then .next s
  else if chan = s.radio.chan then
    .next (setRad (fun r => { r with ownSeen := some s.day.cyc }) s).carrierSeen
  else if !(s.inRun && s.searches chan && s.census.hop) then .next s
  else
    match s.ccaNow with
    | .op _ _ => .next (s.setOp (fun o => { o with cca := { o.cca with
        seen := o.cca.seen ||| BitVec.ofNat 16 (2 ^ (chan - s.spanBase)) } }))
    | .check _ _ => .next s
    | .none =>
      let own : Bool := match s.radio.ownSeen with
        | some t => decide (s.day.cyc < t + 16 * s.profile.sym) && !s.handedNow
        | none => false
      .next (if own then s else s.handOver chan false)

/-- HANDOVER_HOLD_END (R353); a wake train that no frame has followed updates nothing (15 R424). -/
def execHandoverHoldEnd (s : State) : Host.Outcome State Fault Refusal :=
  if s.inRun && s.radio.handed.isSome && s.radio.rx.isNone && s.radio.tx.isNone then
    let s1 := { s with link := { s.link with train := none } }
    .next ((setRad (fun r => { r with handed := none }) s1).radioRest)
  else .next s

/-! ## Waits of the link (15) -/

/-- BACKOFF_END (R397, R398). -/
def execBackoffEnd (s : State) : Host.Outcome State Fault Refusal :=
  match s.link.op.map (·.phase) with
  | some (LinkPhase.backoff _) =>
    if !s.inRun then .next s
    else .next (if s.linkBlocked then s.setOp (fun o => { o with phase := .extended }) else s.linkCca)
  | _ => .next s

/-- ACK_WAIT_TIMEOUT (14 R380); a frame whose sync came in time is heard to its end. -/
def execAckWaitTimeout (s : State) : Host.Outcome State Fault Refusal :=
  if !s.inRun then .next s
  else if s.link.op.map (·.phase) = some .ackWait then
    .next (if s.radio.rx.isSome then s.setOp (fun o => { o with late := true }) else s.linkNoAck)
  else
    match s.link.exch with
    | some x =>
      if x.phase = .ackWait then
        .next (if s.radio.rx.isSome then { s with link := { s.link with exch := some { x with late := true } } }
               else s.exchEnd)
      else .next s
    | none => .next s

/-- ASSOC_RESPONSE_WAIT_END: the Data Request of an association follows (15 R401). -/
def execAssocResponseWaitEnd (s : State) : Host.Outcome State Fault Refusal :=
  match s.link.op with
  | some o =>
    if s.inRun && decide (o.phase = .respWait) then
      let s1 := s.setOp (fun o => { o with kind := .assocData, retries := 0 })
      .next ((s1.buildOp (s1.pollFrame { o with kind := .assocData })).linkAttempt)
    else .next s
  | none => .next s

/-- POLL_WINDOW_END (R413); a sync declared in time holds the window open. -/
def execPollWindowEnd (s : State) : Host.Outcome State Fault Refusal :=
  match s.link.op.map (·.phase) with
  | some (LinkPhase.window _) =>
    if !s.inRun then .next s
    else .next (if s.radio.rx.isSome || s.radio.tx.isSome then s.setOp (fun o => { o with phase := .window true })
                else s.windowEnd)
  | _ => .next s

/-- EXCHANGE_LAPSE (R416): cycles in Transmit, and in Receive on the child's frame, are not counted. -/
def execExchangeLapse (s : State) : Host.Outcome State Fault Refusal :=
  match s.link.exch with
  | some x =>
    if s.inRun && s.radio.tx.isNone && decide (s.radio.st ≠ .receive) then
      .next (((s.countCat 3).fire 56 [.kv "child" (.hex 4 x.short.toNat)]).exchEnd)
    else .next s
  | none => .next s

/-- A poll is running. -/
def State.pollRuns (s : State) : Bool :=
  s.tickets.pool.any (fun t => decide (t.st = .running) && (match t.op with | .poll _ => true | _ => false))

/-- A poll time is reached. -/
def State.pollDue (s : State) : Bool :=
  s.isEnd && (match s.link.nextPoll with | some t => decide (t ≤ s.now) | none => false)

/-- A due poll is issued as an order ticket, or skipped and counted (R417). -/
def State.pollIssue (s : State) : State :=
  let s1 := { s with link := { s.link with
    nextPoll := s.link.nextPoll.map (fun t => t + s.cfg.link.pollEvery.toNat * tickMs) } }
  if s.pollRuns then s1.countLink 5
  else if s.noTicketFor .link then
    let s2 := { s1 with tickets := { s1.tickets with noTicket := s1.tickets.noTicket.inc } }
    (s2.countLink 5).fire 123 [kw "from" "LINK"]
  else (s1.issue { queue := .link, op := .poll (fld s.cfg.link.config 20 18), owner := .link }).1

/-- HELD_FRAME_EXPIRY: the check of each second (R418). -/
def execHeldFrameExpiry (s : State) : Host.Outcome State Fault Refusal :=
  if s.inRun then .next s.expireHeld else .next s

/-- LINK_WAKE_NEXT_SNIFF (R423): the child's next sniff time is reached. -/
def execLinkWakeNextSniff (s : State) : Host.Outcome State Fault Refusal :=
  match s.link.op with
  | some o =>
    if s.inRun && decide (o.phase = .wakeWait) then
      let every := match s.entry o.child with | some e => e.sniffEvery.toNat * tickMs | none => 0
      .next ((s.setOp (fun o => { o with sniffAt := o.sniffAt + every })).linkGo)
    else .next s
  | none => .next s

end Sys2Proof.Machine
end

