-- ==== Sys2Proof/Machine/Receive.lean ====
section
/-! DEFINITION. Reception: the declaration of sync, the decision of 14_frames Table 14.7 with the acknowledgement it
books, acknowledgements received, the frame's place in the RX ring, and what the link makes of it (12_modem,
14_frames, 15_link). -/
namespace Sys2Proof.Machine

open Sys2Proof

/-! ## Sync (12 R330) -/

/-- The radio passes to Receive: gain and offset are frozen and EV_RX_SYNC fires with the Listen RSSI. -/
def State.syncNow (s : State) (x : Synced) (afc : Int) (sync : Ticks) : State :=
  let a := clampInt (-3000) 3000 afc
  let rx : RxNow := { fmt := x.fmt, plan := s.radio.plan, chan := s.radio.chan,
                      handed := (match s.radio.handed with | some h => h.moved | none => false),
                      mB := x.mB, sync := sync, serr := x.errors,
                      filter := s.cfg.frame.filter, addr := s.cfg.frame.addr }
  let s1 := { s with modem := { s.modem with syncs := s.modem.syncs.inc },
                     radio := { s.radio with afc := a, rx := some rx, frozen := true, afcOnce := false } }
  (s1.radioTo .receive).fire 33
    [kw "fmt" (fmtName x.fmt), .kv "sync" (.time sync.toNat), .kv "rssi" (dbm s.radio.rssiNow), kd "afc" a]

/-- What a sync does to channel access: busy in every CCA mode for the link's attempt, and by R347 for the CCA itself
(13 R347, 15 R398). -/
def State.syncBusy (s : State) : State :=
  match s.ccaNow with
  | .op o _ => (if s.ccaMode = 0 then s else s.ccaBusyEvent o.chan "CS").linkBusy false
  | .check x _ => if s.ccaMode = 0 then s else (s.ccaBusyEvent x.chan "CS").checkEnd x false "CS"
  | .none =>
    match s.link.op.map (·.phase) with
    | some (LinkPhase.backoff _) => s.linkBusy false
    | some LinkPhase.cca => s.linkBusy false
    | _ => s

/-- SYNC_DECLARED (R330): the bits received last match a sync word of the profile (R321); in a trim pass the sync
contaminates (17 R456). -/
def execSyncDeclared (bits : BitVec 32) (rssi afc : Int) (sync : Ticks) (s : State) : Host.Outcome State Fault Refusal :=
  match s.syncOf bits with
  | none => .next s
  | some x =>
    if s.inRun && decide (s.radio.st = .trim) then .next (s.trimReading rssi true)
    else if s.inRun && s.radio.locked && decide (s.radio.st = .listen) && s.radio.tx.isNone then
      .next (s.syncNow x afc sync).syncBusy
    else .next s

/-! ## A received frame -/

/-- What the decision needs of a frame that passes step 2.  `ring` are the octets of its RX entry, a secured payload
still in place. -/
structure Rcv where
  fmt : Fmt
  src : Addr := .none
  dst : Addr := .none
  seq : Nat := 0
  ackReq : Bool := false
  pending : Bool := false
  poll : Bool := false             -- a Data Request or a format D poll
  sframe : Option SFrame := none
  ring : List Byte
  deriving DecidableEq, Repr

/-- An acknowledgement as it is received (R378, R379). -/
structure RcvAck where
  fmt : Fmt
  dst : Option Addr                -- none for an Imm-Ack
  seq : Nat
  pending : Bool
  correction : Option Nat := none
  deriving DecidableEq, Repr

/-- A frame after steps 1 to 3 of Table 14.7. -/
inductive Parsed
  | phr
  | header                         -- format D: the header cannot be a header (12 R328)
  | check
  | unsupported
  | ack (a : RcvAck)
  | frame (r : Rcv)
  deriving DecidableEq, Repr

/-- The Time Correction IE of an Enh-Ack. -/
def timeIe : List Byte → Option Nat
  | a :: b :: c :: d :: _ => if a = 0x02 ∧ b = 0x0F then some ((c.toNat + 256 * d.toNat) % 4096) else none
  | _ => none

def SFrame.ackOf (f : SFrame) : Parsed :=
  if f.version ≤ 1 then .ack { fmt := .s, dst := none, seq := f.seq, pending := f.cbit 4 }
  else .ack { fmt := .s, dst := some f.dst, seq := f.seq, pending := f.cbit 4,
              correction := if f.cbit 9 then timeIe f.rest else none }

/-- Format S: the PHR's mode switch bit, FCS type and length, and the PSDU with the whitening removed that the PHR tells
(R366, R367, 12 R324). -/
def parseS (x : RxFrame) : Parsed :=
  let h := beNat (x.octets.take 2)
  let fcs4 := decide (h / 4096 % 2 = 0)
  let raw := (x.octets.drop 2).take (h % 2048)
  let o := if h / 2048 % 2 = 1 then whitenPsdu raw else raw
  let body := o.take (o.length - fcsLen fcs4)
  if decide (32768 ≤ h) || decide (h % 2048 < 5) then .phr
  else if o.length ≠ h % 2048 ∨ body ++ fcsOf fcs4 body ≠ o then .check
  else
    match sParse body with
    | none => .unsupported
    | some f =>
      if f.isAck then f.ackOf
      else if f.unsupported then .unsupported
      else .frame { fmt := .s, src := f.src, dst := f.dst, seq := f.seq, ackReq := f.cbit 5, pending := f.cbit 4,
                    poll := f.cmd == some 4, sframe := some f, ring := body }

/-- Format M, in the frame format that its sync word told. -/
def parseM (x : RxFrame) (mB : Bool) : Parsed :=
  if (x.octets.headD 0).toNat < 9 then .phr
  else match mParse mB x.octets with
    | none => .check
    | some o => .frame { fmt := .m, ring := o }

/-- Format D, its whitening removed (12 R325). -/
def parseD (x : RxFrame) : Parsed :=
  let o := dewhiten x.octets
  if dHeaderBad o then .header
  else
  match dParse o with
  | none => .check
  | some f =>
    let dst : Addr := .short (BitVec.ofNat 16 f.dst)
    if f.fbit 6 then .ack { fmt := .d, dst := some dst, seq := f.flags % 8, pending := f.fbit 5 }
    else if f.src = .none then .unsupported
    else .frame { fmt := .d, src := f.src, dst := dst, seq := f.flags % 8, ackReq := f.fbit 7, pending := f.fbit 5,
                  poll := f.fbit 3, ring := o.take (4 + f.payload.length) }

def parseFrame (x : RxFrame) (n : RxNow) : Parsed :=
  match n.fmt with
  | .s => parseS x
  | .m => parseM x n.mB
  | .d => parseD x

/-! ## The steps of Table 14.7 -/

/-- Step 4 drops the frame, by the filter in force when its sync was declared. -/
def State.addrDrop (s : State) (n : RxNow) (r : Rcv) : Bool :=
  let pan := fld n.filter 15 0
  let own : Addr → Bool
    | .short a => decide (a.toNat = 0xFFFF) || (decide (a.toNat ≠ 0xFFFE) && decide (a.toNat = fld n.addr 15 0))
    | .ext a => decide (a = s.eui)
    | .none => false
  match r.fmt with
  | .m => !bit n.filter 17
  | .d => !own r.dst
  | .s =>
    let f := r.sframe
    let panBad : Bool := match f.bind (·.dstPan) with | some p => p != pan && p != 0xFFFF | none => false
    let noDst : Bool := r.dst == .none && !(s.isParent && (f.bind (·.srcPan)) == some pan)
    panBad || noDst || (r.dst != .none && !own r.dst)

/-- Step 5 drops the frame. -/
def State.partnerDrop (s : State) (r : Rcv) : Bool :=
  match s.partner with
  | some a => !a.isParent r.src
  | none => false

/-- Step 6 drops the frame (15 R410). -/
def State.exchDrop (s : State) (r : Rcv) : Bool :=
  match s.link.exch with
  | some x => (s.entryOf r.src).map (·.idx) != some x.idx
  | none => false

/-- The address under which duplicates of a source are known: the partner, or a catalogued child (R377). -/
def State.dupKey (s : State) (src : Addr) : Option Addr :=
  match s.partner with
  | some a => if a.isParent src then some (.short a.parent) else none
  | none => if s.isParent then (s.entryOf src).map (fun e => .ext e.eui) else none

def State.isDup (s : State) (r : Rcv) : Bool :=
  r.fmt != .m &&
    (match s.dupKey r.src with
      | some k => s.frame.dups.any (fun d => d.src == k && d.seq == r.seq && decide (s.elapsed ≤ d.at_ + 576000000))
      | none => false)

/-- The last frame accepted from a source. -/
def State.dupSet (s : State) (r : Rcv) : State :=
  match r.fmt, s.dupKey r.src with
  | .m, _ => s
  | _, none => s
  | _, some k =>
    { s with frame := { s.frame with dups := { src := k, seq := r.seq, at_ := s.elapsed } ::
                          s.frame.dups.filter (fun d => !(d.src == k)) } }

/-! ## Step 9 (R386) -/

/-- The EUI-64 of a source, and the incoming counter held for it. -/
def State.sourceOf (s : State) (src : Addr) : Option (BitVec 64 × Option Nat) :=
  match s.partner with
  | some a =>
    if a.isParent src then some (a.eui, some s.frame.fcIn.toNat)
    else match src with | .ext e => some (e, none) | _ => none
  | none =>
    match (if s.isParent then s.entryOf src else none) with
    | some e => some (e.eui, some e.fcIn.toNat)
    | none => match src with | .ext e => some (e, none) | _ => none

inductive Opened
  | plain
  | clear (payload : List Byte) (counter : Nat)
  | fails (why : String)
  deriving DecidableEq, Repr

/-- A secured frame is verified and decrypted. -/
def State.openFrame (s : State) (r : Rcv) : Opened :=
  match r.sframe with
  | none => .plain
  | some f =>
    match f.aux with
    | none => .plain
    | some a =>
      match s.sourceOf r.src with
      | none => .fails "UNKNOWN_SRC"
      | some (eui, held) =>
        match if 1 ≤ a.key ∧ a.key ≤ 6 then s.slotKey (a.key + 1) else none with
        | none => .fails "KEY"
        | some k =>
          let old : Bool := match held with | some c => decide (a.counter ≤ c) | none => false
          if old then .fails "REPLAY"
          else if f.rest.length < micLen a.level then .fails "MIC"
          else
            match ccmDec (keyN k) (nonceOf eui a.counter a.level) (toN f.header) (toN f.rest) a.level with
            | none => .fails "MIC"
            | some p => .clear (toB p) a.counter

/-- The source's incoming counter is set to the frame's. -/
def State.counterIn (s : State) (src : Addr) (c : Nat) : State :=
  match s.partner with
  | some a =>
    if a.isParent src then
      ({ s with frame := { s.frame with fcIn := BitVec.ofNat 32 c } }).saveFc
    else s
  | none =>
    match (if s.isParent then s.entryOf src else none) with
    | some e => s.setEntry { e with fcIn := BitVec.ofNat 32 c }
    | none => s

/-! ## Acknowledging (R378, R379, R381) -/

/-- The frame asks for an acknowledgement that the device gives. -/
def State.acks (s : State) (n : RxNow) (r : Rcv) : Bool :=
  s.autoAck && !bit n.filter 16 && r.ackReq && r.fmt != .m && r.dst != .none && r.dst != .short 0xFFFF

/-- The pending bit of the acknowledgement. -/
def State.ackPend (s : State) (r : Rcv) : Bool :=
  s.isParent && r.poll && (match s.entryOf r.src with | some e => !(s.heldFor e.idx).isEmpty | none => false)

/-- The acknowledgement's octets after its sync word, before whitening and coding, and the length that its airtime
counts. -/
def State.ackAir (s : State) (r : Rcv) (pend : Bool) (sync : Nat) : List Byte × Nat :=
  match r.fmt with
  | .d => (dBuild (0x40 + b2n pend * 0x20 + r.seq % 8) r.src.shortNat [], 0)
  | _ =>
    let o := ackOctets s.enhAck pend r.seq r.src sync
    (o ++ fcsOf s.fcs4 o, o.length + fcsLen s.fcs4)

/-- The acknowledgement is booked and the synthesizer tunes to it (11 Table 11.3), or it is withheld where the Ledger
refuses it; the answer says which. -/
def State.bookAck (s : State) (n : RxNow) (r : Rcv) (pend : Bool) : State × Bool :=
  let a := s.ackAir r pend n.sync.toNat
  let pre := s.preambleOctets false
  let air := s.profile.airtime r.fmt pre a.2
  let t : Tx := { kind := .ack pend, plan := n.plan, chan := n.chan, air := air, shr := s.profile.shr r.fmt pre,
                  tones := s.frameTones r.fmt false s.fcs4 pre a.1, turn := true }
  match s.startTx t true with
  | some s1 => (s1, true)
  | none => ((s.bookRefused air true).countFrame 13, false)

/-- The exchange that a Data Request or poll of a valid or provisional entry begins (15 R410). -/
def State.beginExch (s : State) (r : Rcv) (pend : Bool) : State :=
  match (if s.isParent && r.poll && s.link.exch.isNone then s.entryOf r.src else none) with
  | some e =>
    if e.valid || e.prov then
      ({ s with link := { s.link with exch := some { idx := e.idx, short := e.short, pend := pend } } }).linkTo .exchange
    else s
  | none => s

/-! ## The RX ring (R374) -/

/-- The entry is placed; EV_RX_FRAME fires. -/
def State.place (s : State) (n : RxNow) (x : RxFrame) (r : Rcv) (ring : List Byte) (secured acked pend : Bool) : State :=
  let cat := s.isParent && (s.entryOf r.src).isSome
  let e : RxEntry :=
    { id := s.frame.rxNext, fmt := r.fmt,
      flags := fmtIndex r.fmt + b2n secured * 4 + b2n acked * 8 + b2n cat * 16 + b2n (acked && pend) * 32 +
        b2n n.handed * 64 + b2n (r.fmt == .m && n.mB) * 128,
      octets := ring, lqi := lqiOf x.snr, sync := n.sync, rssi := s.rssiOf x.rssi, afc := s.radio.afc, plan := n.plan,
      chan := n.chan, snr := clampInt (-128) 255 x.snr, serr := n.serr }
  let f := s.frame
  let s1 := { s.touch 2 with
    frame := { f with rx := f.rx ++ [e], rxNext := (f.rxNext + 1) % 65536, rxPos := if f.rx.isEmpty then 0 else f.rxPos } }
  let s2 := match s1.holder with
    | some y => s1.setListener y.ticket (fun y => { y with frames := y.frames + 1 })
    | none => s1
  (s2.countFrame 0).fire 48
    [kd "id" e.id, kw "fmt" (fmtName r.fmt), kd "len" ring.length, .kv "src" r.src.val, .kv "rssi" (dbm e.rssi)]

/-- A frame placed from a child renews its entry's lqi (15 Table 15.2). -/
def State.childLqi (s : State) (r : Rcv) (lqi : Nat) : State :=
  match (if s.isParent then s.entryOf r.src else none) with
  | some e => if e.lqi = lqi then s else s.setEntry { e with lqi := lqi }
  | none => s

/-! ## What the link makes of a placed frame (15) -/

/-- The MAC command of a placed frame and what follows its identifier. -/
def Rcv.command (r : Rcv) (ring : List Byte) : Option (Nat × List Byte) :=
  match r.sframe with
  | none => none
  | some f =>
    if f.ftype = 3 then
      match ring.drop f.header.length with
      | c :: rest => some (c.toNat, rest)
      | [] => none
    else none

/-- The Association Response received in the window of an association (R401). -/
def State.assocResponse (s : State) (o : LinkOp) (r : Rcv) (p : List Byte) : State :=
  match r.src, p with
  | .ext eui, a :: b :: st :: _ =>
    let mine : Bool := match o.parent with | .ext x => x == eui | _ => true
    let own : BitVec 16 := BitVec.ofNat 16 (a.toNat + 256 * b.toNat)
    let fin (res : Result) (f : List Tok) (j : Option Assoc) : State :=
      s.setOp (fun o => { o with phase := .finishing, fin := some (res, f), joined := j })
    if !mine then s
    else if st = 0 then
      fin .done [.kv "short" (.hex 4 own.toNat), .kv "eui" (.hex 16 eui.toNat)]
        (some { pan := s.ownPan, parent := BitVec.ofNat 16 o.parent.shortNat, eui := eui, own := own })
    else if st = 1 then fin .fail [kw "why" "CAPACITY"] none
    else if st = 2 then fin .fail [kw "why" "DENIED"] none
    else s
  | _, _ => s

/-- A frame placed in the window of the running poll or association (R401, R409). -/
def State.windowFrame (s : State) (r : Rcv) (cmd : Option (Nat × List Byte)) : State :=
  match s.link.op with
  | none => s
  | some o =>
    match o.phase with
    | .window _ =>
      if o.kind = .assocData then
        match cmd with
        | some (2, p) => s.assocResponse o r p
        | _ => s
      else
        match o.peer with
        | some a =>
          if a.isParent r.src then
            s.setOp (fun o => { o with frames := o.frames + 1, pendBit := r.pending, phase := .finishing })
          else s
        | none => s
    | _ => s

/-- Commands placed that change an association (R402, R406, R407). -/
def State.commandIn (s : State) (r : Rcv) (cmd : Option (Nat × List Byte)) : State :=
  match cmd with
  | some (1, _) => match r.src with | .ext e => if s.isParent then s.admitChild e else s | _ => s
  | some (3, _) =>
    if s.isParent then match s.entryOf r.src with | some e => s.childLeave e "CHILD" | none => s
    else
      match s.partner with
      | some a => if a.isParent r.src then s.dissociate "PARENT" else s
      | none => s
  | _ => s

/-- The residual of a frame after a wake train (R424). -/
def State.trainUpdate (s : State) (r : Rcv) (sync : Nat) : State :=
  match s.link.train with
  | none => s
  | some (at_, pat) =>
    let s1 := { s with link := { s.link with train := none } }
    match s.partner with
    | some a =>
      if a.isParent r.src then
        let n := ceilDiv' (s.leadMs * tickMs + pat + 2 * tickMs) pat
        let want : Int := (at_ : Int) - s.leadMs * tickMs - s.offsetAt sync + n * pat +
          s.profile.shr r.fmt (s.preambleOctets false)
        s1.partnerUpdate ((sync : Int) - want)
      else s1
    | none => s1

/-- What follows a placed frame. -/
def State.placed (s : State) (r : Rcv) (ring : List Byte) (lqi sync : Nat) : State :=
  let cmd := r.command ring
  let s1 := (s.childLqi r lqi).trainUpdate r sync
  (s1.windowFrame r cmd).commandIn r cmd

/-! ## Acknowledgements received (R380, R382) -/

/-- The acknowledgement answers the frame sent. -/
def State.ackMatches (s : State) (f : TxFrame) (a : RcvAck) : Bool :=
  a.fmt == f.fmt && (match f.fmt with | .d => a.seq == f.seq % 8 | _ => a.seq == f.seq) &&
    (match a.dst with | none => true | some d => s.isOwn d)

/-- The residual of R382, from the content of an Enh-Ack. -/
def State.ackResidual (s : State) (sent v : Nat) : Int :=
  let p := ((sent : Int) + s.offsetAt sent).toNat
  let sv : Int := signed 12 v
  let wv : Int := (sv - (usOf p : Int) + 2048) % 4096 - 2048
  let t : Int := (tickUs wv.natAbs : Nat)
  if wv < 0 then -t else t

/-- What an accepted acknowledgement does to the running operation (R399, R401, R408, R409). -/
def State.opAcked (s : State) (o : LinkOp) (a : RcvAck) : State :=
  let form := if o.frame.fmt = .d then "D" else if a.dst.isSome then "ENH" else "IMM"
  match o.kind with
  | .assocReq => (s.setOp (fun o => { o with phase := .respWait, late := false })).radioRest
  | .assocData =>
    if a.pending then (s.setOp (fun o => { o with phase := .window false, late := false })).radioRest
    else s.linkEnd .fail [kw "why" "NORESPONSE"]
  | .poll =>
    if a.pending then (s.setOp (fun o => { o with phase := .window false, late := false, pendBit := true })).radioRest
    else (s.setOp (fun o => { o with pendBit := false })).linkEnd .done
      [kd "pending" 0, kd "frames" o.frames, kd "tries" o.tries]
  | _ => s.linkEnd .done (o.doneToks form a.pending)

/-- An acknowledgement that the link's operation awaits is accepted. -/
def State.ackOp (s : State) (o : LinkOp) (a : RcvAck) : State :=
  let s1 := ({ s with link := { s.link with partnerPending := a.pending } }).bump .link
  let s2 := if a.pending then s1.fire 57 [.kv "src" o.frame.dst.val] else s1
  let toPartner : Bool := match s.partner with | some p => p.isParent o.frame.dst | none => false
  let s3 := match a.correction with
    | some v => if toPartner then s2.partnerUpdate (s2.ackResidual o.lastSync v) else s2
    | none => s2
  s3.opAcked o a

/-- The child's acknowledgement of the held frame of an exchange (R412, R415). -/
def State.ackExch (s : State) (x : Exch) (a : RcvAck) : State :=
  match s.frame.tx.find? (fun e => some e.id == x.entry) with
  | none => s.exchEnd
  | some e =>
    let s1 := if a.pending then s.fire 57 [.kv "src" e.frame.dst.val] else s
    (s1.heldSent e).exchEnd

/-! ## The end of a frame -/

/-- The reception has ended: what waited for it goes on (11 Table 11.7, 13 R353, 15 R398, R413). -/
def State.afterFrame (s : State) : State :=
  let s2 := match s.holder with
    | some x => match x.ending with | some r => s.listenerEnd x r | none => s
    | none => s
  match s2.link.op, s2.link.exch with
  | some o, x =>
    match o.phase with
    | .ackWait => if o.late then s2.linkNoAck else s2.linkResume
    | .window past => if past && s2.radio.tx.isNone then s2.windowEnd else s2.linkResume
    | .finishing => if s2.radio.tx.isSome then s2.radioRest else s2.afterAck
    | _ =>
      match x with
      | some y => if y.late && decide (y.phase = .ackWait) then s2.exchEnd else s2.linkResume
      | none => s2.linkResume
  | none, some y => if y.late && decide (y.phase = .ackWait) then s2.exchEnd else s2.linkResume
  | none, none => s2.linkResume

/-- The receiver lets go of the frame. -/
def State.rxOver (s : State) : State := { s with radio := { s.radio with rx := none, handed := none } }

/-- A frame is dropped: its counter and event. -/
def State.drop (s : State) (i : Nat) : State := (s.countFrame i).rxOver.afterFrame

def State.dropWhy (s : State) (i : Nat) (why : String) (src : Addr) : State :=
  ((s.countFrame i).fire 50 [kw "why" why, .kv "src" src.val]).rxOver.afterFrame

/-- A frame of format D whose header tells more than 127 octets is abandoned (12 R328, step 1). -/
def State.headerFailed (s : State) : State :=
  ({ s with modem := { s.modem with headerFail := s.modem.headerFail.inc } }).drop 1

/-- D_HEADER_DECODED (12 R328, step 1): the length octet of the header, its whitening removed. -/
def execDHeaderDecoded (len : Nat) (s : State) : Host.Outcome State Fault Refusal :=
  match s.radio.rx with
  | some n => if s.inRun && n.fmt == .d && decide (127 < len) then .next s.headerFailed else .next s
  | none => .next s

/-- The coded bits whose hard decision differs from the decoded data encoded again (12 R332). -/
def codedErrors (x : RxFrame) : Nat :=
  ((List.zipWith xor x.hard (dCoded (bitsOf x.octets))).filter id).length

/-- What was measured of the last frame (12 R332). -/
def State.measured (s : State) (n : RxNow) (x : RxFrame) : State :=
  let m := s.modem
  let m1 := { m with serr := n.serr, lqi := lqiOf x.snr, snr := clampInt (-128) 255 x.snr, sync := n.sync,
                     cbits := if n.fmt == .d then dCodedBits (x.octets.length - 6) else m.cbits,
                     cerr := if n.fmt == .d then codedErrors x else m.cerr }
  { s with modem := m1, radio := { s.radio with rssiFrame := s.rssiOf x.rssi } }

/-- An acknowledgement bypasses the table: it is taken where it is awaited (R380). -/
def State.ackIn (s : State) (a : RcvAck) : State :=
  match s.link.op, s.link.exch with
  | some o, x =>
    if o.phase = .ackWait ∧ s.ackMatches o.frame a then s.rxOver.ackOp o a
    else
      match x with
      | some y => exch s y
      | none => s.rxOver.afterFrame
  | none, some y => exch s y
  | none, none => s.rxOver.afterFrame
where
  /-- The acknowledgement of an exchange's held frame. -/
  exch (s : State) (y : Exch) : State :=
    match s.frame.tx.find? (fun e => some e.id == y.entry) with
    | some e =>
      if y.phase = .ackWait ∧ s.ackMatches e.frame a then s.rxOver.ackExch y a else s.rxOver.afterFrame
    | none => s.rxOver.afterFrame

/-- A secured MAC command whose identifier, once decrypted, is not one that the device accepts (R369). -/
def Rcv.badCommand (r : Rcv) (clear : List Byte) : Bool :=
  match r.sframe with
  | some f => f.ftype == 3 && !macCommand clear.head?
  | none => false

/-- Steps 8 and 9, after the acknowledgement has been booked (R377).  DESIGN CHOICE (log entry 77): the identifier of a
secured command is known once it is decrypted, and its step 3 falls there. -/
def State.accept (s : State) (n : RxNow) (x : RxFrame) (r : Rcv) (acked pend : Bool) : State :=
  if s.isDup r then (s.dupSet r).drop 8
  else
    match s.openFrame r with
    | .fails y =>
      let i := if y == "REPLAY" then 10 else if y == "UNKNOWN_SRC" then 11 else 9
      ((s.countFrame i).fire 58 [kw "why" y, .kv "src" r.src.val]).rxOver.afterFrame
    | .plain =>
      (((s.dupSet r).place n x r r.ring false acked pend).rxOver.placed r r.ring (lqiOf x.snr) n.sync.toNat).afterFrame
    | .clear p c =>
      if r.badCommand p then s.drop 3
      else
      let ring := r.ring.take (r.ring.length - (r.sframe.map (·.rest.length)).getD 0) ++ p
      ((((s.counterIn r.src c).dupSet r).place n x r ring true acked pend).rxOver.placed r ring (lqiOf x.snr)
        n.sync.toNat).afterFrame

/-- The decision from step 4 on (Table 14.7). -/
def State.decideFrame (s : State) (n : RxNow) (x : RxFrame) (r : Rcv) : State :=
  let promisc := bit n.filter 16
  if !promisc && s.addrDrop n r then s.dropWhy 4 "ADDR" r.src
  else if !promisc && s.partnerDrop r then s.dropWhy 5 "PARTNER" r.src
  else if s.exchDrop r then s.dropWhy 6 "EXCHANGE" r.src
  else if s.rxFree < ringSize r.ring.length then
    ((s.countFrame 7).fire 49 [kd "len" r.ring.length, kd "free" s.rxFree]).rxOver.afterFrame
  else
    let pend := s.ackPend r
    let a := if s.acks n r then s.bookAck n r pend else (s, false)
    (a.1.beginExch r pend).accept n x r a.2 pend

/-- FRAME_DECISION (14 R377). -/
def execFrameDecision (x : RxFrame) (s : State) : Host.Outcome State Fault Refusal :=
  match s.radio.rx with
  | none => .next s
  | some n =>
    if !s.inRun then .next s
    else
      let s1 := s.measured n x
      match parseFrame x n with
      | .phr => .next (s1.drop 1)
      | .header => .next s.headerFailed
      | .check => .next (s1.drop 2)
      | .unsupported => .next (s1.drop 3)
      | .ack a => .next (s1.ackIn a)
      | .frame r => .next (s1.decideFrame n x r)

end Sys2Proof.Machine
end

