-- ==== Sys2Proof/Machine/Orders.lean ====
section
/-! DEFINITION. Standing orders (21_orders): their storage and schedules, the ORDER verbs but STORE and STOP, WAIT, and
the ORDERS registers.  The taking of an order's lines, ORDER STORE's check of them, SKIP and the stopping of an order
stand in Scripts.lean, after the verbs they run. -/
namespace Sys2Proof.Machine

open Sys2Proof

/-! ## Storage and schedules (R537–R541) -/

/-- Octets of an order's text, with one LF for each line (R537). -/
def textOctets (ls : List String) : Nat := (ls.map (fun x => x.length + 1)).sum

/-- The next schedule time of a slot at or above a Daybook value (R541); a disabled order has none (R543). -/
def OrderSlot.nextAt (x : OrderSlot) (v : Nat) : Option Nat :=
  match x.enabled, x.trigger with
  | true, .schedule e p => some (leastAt (e * 19200000) (p * 19200000) v)
  | _, _ => none

/-- The next schedule time of order k is that of the Daybook value given. -/
def State.scheduleOrder (s : State) (k v : Nat) : State :=
  { s with orders := { s.orders with next := vset s.orders.next k ((s.slot k).bind (·.nextAt v)) } }

/-- The schedules of all orders at READY and after a DAY SET (R541, R557). -/
def State.scheduleOrders (s : State) : State :=
  (List.range 32).foldl (fun s k => s.scheduleOrder k s.now) s

/-- The order that the Record's slot holds (R538). -/
def State.recordOrder (s : State) (k : Nat) : Option OrderSlot :=
  let x := vget s.record.orders k ([], [])
  orderOf x.1 x.2

/-- A store, change or erasure of order k counts (R558, R559): its trigger is armed anew unless it stays as it was. -/
def State.orderCommit (s : State) (k : Nat) : State :=
  let was := s.slot k
  let s1 := { s with orders := { s.orders with slots := vset s.orders.slots k (s.recordOrder k) } }
  let same : Bool := match was, s1.slot k with
    | some a, some b => decide (a.trigger = b.trigger) && a.enabled == b.enabled
    | _, _ => false
  (if same then s1 else s1.scheduleOrder k s1.now).bump .orders

/-- A schedule time of order k is reached: the next one is set and the order triggered (R541). -/
def State.orderDue (s : State) (k : Nat) (afterReady : Bool) : State :=
  (s.scheduleOrder k (s.now + 1)).triggerOrder k none afterReady

/-! ## ORDER LIST and ORDER -/

def OrderSlot.triggerToks (x : OrderSlot) : List Tok :=
  match x.trigger with
  | .none => [kw "trigger" "NONE"]
  | .schedule e p => [kd "every" e, kd "phase" p]
  | .event n => [kd "on" n]

def State.orderToks (s : State) (k : Nat) (x : OrderSlot) : List Tok :=
  [w "ORDER", n' k, w x.name] ++ x.triggerToks ++
    [kw "last" (match vget s.orders.last k none with | some r => r.result.name | none => "NONE"), edTok s .orders]

/-- ORDER LIST. -/
def execOrderList (l : Line) (s : State) : Host.Outcome State Fault Refusal :=
  runLine {} l s [] (fun s =>
    let ls := (List.range 32).filterMap (fun k => (s.slot k).map (s.orderToks k))
    s.okMany l (if ls.isEmpty then [[w "ORDER", w "LIST", n' 0]] else ls))

def orderPos : List (String × Kind) := [("k", .int 0 31)]

/-- The order that a line's first operand names. -/
def lineOrder (l : Line) : Nat := (l.posNat? 0).getD 0

/-- The slot named is empty. -/
def State.emptyErs (s : State) (l : Line) : List Er :=
  s.late (erIf (!l.pos.isEmpty && (s.slot (lineOrder l)).isNone) (erRange "k"))

/-- ORDER k. -/
def execOrderShow (l : Line) (s : State) : Host.Outcome State Fault Refusal :=
  let k := lineOrder l
  runLine { minPos := 1, pos := orderPos } l s (s.emptyErs l) (fun s =>
    match s.slot k with
    | none => s
    | some x =>
      s.okMany l ((s.orderToks k x ++ [kw "policy" (if x.cont then "CONTINUE" else "STOP"), kd "retries" x.retries,
          kd "limit" x.limitMs, kw "enabled" (yesNo x.enabled),
          .kv "next" (match vget s.orders.next k none with | some t => .time t | none => .word "NONE")]) ::
        x.lines.zipIdx.map (fun y => [w "ORDER", w "LINE", n' y.2, .w (.str y.1)])))

/-! ## ORDER DRAFT and ORDER LINE (R539) -/

def State.putDraft (s : State) (d : List String) : State := { s with orders := { s.orders with draft := d } }

def draftToks (d : List String) : List Tok := [kd "lines" d.length, kd "octets" (textOctets d)]

/-- ORDER DRAFT. -/
def execOrderDraft (l : Line) (s : State) : Host.Outcome State Fault Refusal :=
  let k := lineOrder l
  let empty := (l.at? 1).isSome
  runLine { order := false, minPos := 1, pos := orderPos ++ [("draft", .any)] } l s
    ((match l.at? 1 with
      | none => []
      | some (.word x) => erIf (x != "EMPTY") ⟨"UNKNOWN", [x]⟩
      | some _ => [erExtra]) ++ (if empty then [] else s.emptyErs l)) (fun s =>
      let d := if empty then [] else ((s.slot k).map (·.lines)).getD []
      (s.putDraft d).ok l ([w "ORDER", w "DRAFT", n' k] ++ draftToks d))

/-- The draft with line i replaced, appended or, with no text, deleted. -/
def editDraft (d : List String) (i : Nat) (text : Option String) : List String :=
  match text with
  | none => d.take i ++ d.drop (i + 1)
  | some x => d.take i ++ [x] ++ d.drop (i + 1)

/-- ORDER LINE. -/
def execOrderLine (l : Line) (s : State) : Host.Outcome State Fault Refusal :=
  let i := lineOrder l
  let text : Option String := match l.at? 1 with | some (.str x) => some x | _ => none
  let d := s.orders.draft
  let new := editDraft d i text
  runLine { order := false, minPos := 2, pos := [("i", .int 0 16), ("text", .any)] } l s
    ((match l.at? 1 with
      | some (.word x) => erIf (x != "DELETE") ⟨"UNKNOWN", [x]⟩
      | some (.str _) => []
      | some _ => [erRange "text"]
      | none => []) ++
      erIf (decide (d.length < i) || (text.isNone && decide (i = d.length))) (erRange "i") ++
      erIf (decide (16 < new.length) || decide (448 < textOctets new)) ⟨"FULL", ["ORDER"]⟩) (fun s =>
      (s.putDraft new).ok l ([w "ORDER", w "LINE", n' i] ++ draftToks new))

/-! ## ORDER STORE, SET and ERASE -/

def settingKeys : List (String × Kind) :=
  [("every", .int 1 31536000), ("phase", .int 0 31535999), ("on", .any), ("policy", .word ["STOP", "CONTINUE"]),
   ("retries", .int 0 7), ("limit", .int 0 600000), ("enable", .word ["YES", "NO"])]

/-- The trigger that a line gives, over the one the order has. -/
def lineTrigger (l : Line) (old : Trigger) : Trigger :=
  let oe : Nat × Nat := match old with | .schedule e p => (e, p) | _ => (0, 0)
  if l.has "on" then (match (l.arg "on").bind eventOf with | some n => .event n | none => old)
  else if l.has "every" || l.has "phase" then .schedule ((l.nat? "every").getD oe.1) ((l.nat? "phase").getD oe.2)
  else if l.has "trigger" then .none
  else old

/-- An order with the settings that a line gives. -/
def lineSlot (l : Line) (x : OrderSlot) : OrderSlot :=
  { x with enabled := (l.on? "enable").getD x.enabled,
           cont := (match l.word? "policy" with | some y => y == "CONTINUE" | none => x.cont),
           retries := (l.nat? "retries").getD x.retries, trigger := lineTrigger l x.trigger,
           limitMs := (l.nat? "limit").getD x.limitMs }

/-- The errors of an on= event: a reserved one, or one of an absent unit (R540). -/
def State.onErs (s : State) (l : Line) : List Er :=
  match l.arg "on" with
  | none => []
  | some a =>
    match eventOf a with
    | none => [erRange "on"]
    | some n => erIf (!eventDefined n) (erRange "on") ++ (match eventFeat n with | none => [] | some f => s.needs f)

/-- An empty slot, whose settings a line is checked against. -/
def emptySlot : OrderSlot :=
  { enabled := true, cont := false, retries := 0, trigger := .none, limitMs := 0, name := "", lines := [] }

/-- The errors of the settings of an order. -/
def State.settingErs (s : State) (l : Line) (x : OrderSlot) : List Er :=
  erIf (l.has "on" && (l.has "every" || l.has "phase")) erExtra ++
    erIf (l.has "trigger" && (l.has "on" || l.has "every" || l.has "phase")) erExtra ++
    erIf (l.has "phase" && !l.has "every" && !(match x.trigger with | .schedule _ _ => true | _ => false)) erMissing ++
    s.onErs l ++
    (match lineTrigger l x.trigger with
      | .schedule e p => erIf (decide (e ≤ p)) (erRange "phase")
      | _ => [])

/-- An order that runs or is pending cannot be stored into or erased (R540). -/
def State.orderBusy (s : State) (k : Nat) : Bool :=
  (s.orders.run.map (·.k)) == some k || s.orders.pending.any (fun p => p.k == k)

def State.orderBusyErs (s : State) (k : Nat) : List Er := erIf (s.orderBusy k) (erState "ORDERS" "RUNNING")

/-- ORDER SET: a STACKS ticket (R558). -/
def execOrderSet (l : Line) (s : State) : Host.Outcome State Fault Refusal :=
  let k := lineOrder l
  runTicket { order := false, minPos := 1, pos := orderPos, keys := settingKeys ++ [("trigger", .word ["NONE"])] } .stacks l s
    (s.emptyErs l ++ s.settingErs l ((s.slot k).getD emptySlot)) [] (.orderSet k l.named)

/-- The start of an ORDER SET ticket: row 0 alone (R538).  A slot that an earlier ticket has erased stays empty. -/
def State.startOrderSet (s : State) (n k : Nat) (changes : List (String × Arg)) : State :=
  match s.slot k with
  | none => s.complete n .done [kd "order" k, kd "octets" 0]
  | some x =>
    let l : Line := { origin := .order k, tag := none, pos := [], named := changes, block := .absent }
    s.ticketRows n [.order k 0 ((lineSlot l x).header 0xA5)] [kd "order" k, kd "octets" (textOctets x.lines)]

/-- ORDER ERASE: a STACKS ticket. -/
def execOrderErase (l : Line) (s : State) : Host.Outcome State Fault Refusal :=
  let k := lineOrder l
  runTicket { order := false, minPos := 1, pos := orderPos } .stacks l s (s.emptyErs l) (s.orderBusyErs k) (.orderErase k)

/-- The start of an ORDER ERASE ticket: commit 0x00 in row 0. -/
def State.startOrderErase (s : State) (n k : Nat) : State :=
  s.ticketRows n [.order k 0 (overlay (padTo 64 (vget s.record.orders k ([], [])).1) 0 [0])] [kd "order" k, kd "octets" 0]

/-- The start of an ORDER STORE ticket: the nine row writes of R538.  From the first, the slot is empty until the store
has ended. -/
def State.startOrderStore (s : State) (n k : Nat) (x : OrderSlot) : State :=
  let s1 := { s with orders := { s.orders with slots := vset s.orders.slots k none } }
  s1.ticketRows n ([RowWhat.order k 0 (x.header 0x5A)] ++ (List.range' 1 7).map (fun j => .order k j (x.row j)) ++
      [RowWhat.order k 0 (x.header 0xA5)])
    [kd "order" k, kd "octets" (textOctets x.lines)]

/-! ## ORDER RUN (R543) -/

/-- ORDER RUN: a ticket of the ORDERS queue. -/
def execOrderRun (l : Line) (s : State) : Host.Outcome State Fault Refusal :=
  runTicket { order := false, minPos := 1, pos := orderPos } .orders l s (s.emptyErs l) [] (.orderRun (lineOrder l))

/-- The start of an ORDER RUN ticket: a command trigger. -/
def State.startOrderRun (s : State) (n k : Nat) : State :=
  if (s.missWhy k).isSome then (s.triggerOrder k none false).complete n .fail [kw "why" "MISSED"]
  else s.triggerOrder k (some n) false

/-! ## WAIT (R554) -/

/-- The running order waits. -/
def State.orderAwait (s : State) (a : Await) : State :=
  { s with orders := { s.orders with said := .nothing, run := s.orders.run.map (fun r => { r with await := a }) } }

/-- WAIT. -/
def execWait (l : Line) (s : State) : Host.Outcome State Fault Refusal :=
  runLine { port := false, minPos := 1, pos := [("ms", .int 1 600000)] } l s [] (fun s =>
    s.orderAwait (.waitUntil (s.day.cyc + (l.posNat? 0).getD 0 * tickMs)))

/-- WAIT CLEAR: it ends at once where the pending bit reads 0. -/
def execWaitClear (l : Line) (s : State) : Host.Outcome State Fault Refusal :=
  runLine { port := false, minPos := 1, pos := [("event", .any)], keys := [("max", .int 1 600000)] } l s
    (s.eventErs "event" (l.at? 0)) (fun s =>
      match (l.at? 0).bind eventOf with
      | none => s
      | some n =>
        (s.orderAwait (.waitClear n (s.day.cyc + (l.nat? "max").getD 600000 * tickMs))).waitCheck)

/-- WAIT_EXPIRY: a wait's time, or max of a WAIT CLEAR, has passed (R554). -/
def execWaitExpiry (s : State) : Host.Outcome State Fault Refusal :=
  match s.orders.run.map (·.await) with
  | some (Await.waitUntil c) => .next (if c ≤ s.day.cyc then s.orderLineDone none else s)
  | some (Await.waitClear _ c) => .next (if c ≤ s.day.cyc then s.orderLineDone none else s)
  | _ => .next s

/-! ## Registers (Table 21.3) -/

/-- A word with bit k set where the predicate holds. -/
def slotMask (p : Nat → Bool) : Word := BitVec.ofNat 32 (((List.range 32).filter p).map (fun k => 2 ^ k)).sum

def OrderResult.code : OrderResult → Nat
  | .done => 0 | .fail => 1 | .stopped => 2 | .timeout => 3

def OrderLast.word (x : OrderLast) : Word :=
  BitVec.ofNat 32 (2 ^ 31 + x.result.code * 2 ^ 28 + x.line % 16 * 2 ^ 24 + x.code % 256 * 65536 + x.errors % 256)

def setOrders (f : OrdersSt → OrdersSt) (s : State) : State := { s with orders := f s.orders }

def orderRegs : List Reg :=
  [roReg 0x1E00 "ORDERS_STATUS" [ro "edition" 31 16, ro "running" 8 8, ro "order" 4 0] (fun s =>
      statusWord s .orders (match s.orders.run with | some r => 256 + r.k | none => 0)),
   roVal 0x1E04 "ORDERS_VALID" 31 (fun s => slotMask (fun k => (s.slot k).isSome)),
   roVal 0x1E08 "ORDERS_ENABLED" 31 (fun s => slotMask (fun k => (s.slot k).any (·.enabled))),
   roVal 0x1E0C "ORDERS_PENDING" 31 (fun s => slotMask (fun k => s.orders.pending.any (fun p => p.k == k))),
   { addr := 0x1E10, name := "ORDERS_DAMAGED", fields := [{ name := "value", hi := 31, lo := 0, acc := .w1c }],
     read := fun s => s.orders.damaged,
     apply := fun v => setOrders (fun o => { o with damaged := o.damaged &&& ~~~v }) },
   roReg 0x1E14 "ORDERS_LINE" [ro "retries" 10 8, ro "line" 3 0] (fun s =>
      match s.orders.run with
      | some r => BitVec.ofNat 32 (r.retriesUsed * 256 + r.line % 16)
      | none => 0),
   ctrReg 0x1E18 "ORDERS_RUNS" (·.orders.runs) (fun c => setOrders (fun o => { o with runs := c })),
   ctrReg 0x1E1C "ORDERS_FAILS" (·.orders.fails) (fun c => setOrders (fun o => { o with fails := c })),
   ctrReg 0x1E20 "ORDERS_MISSED" (·.orders.missed) (fun c => setOrders (fun o => { o with missed := c })),
   wrapReg 0x1E24 "ORDERS_WRAP" 3 (fun s => [s.orders.runs, s.orders.fails, s.orders.missed])] ++
  (List.range 32).map (fun k =>
    roReg (0x1E40 + 4 * k) ("ORDERS_LAST_" ++ Nat.repr k)
      [ro "valid" 31 31, ro "result" 30 28, ro "line" 27 24, ro "code" 23 16, ro "errors" 7 0]
      (fun s => match vget s.orders.last k none with | some x => x.word | none => 0))

end Sys2Proof.Machine
end

