-- ==== Sys2Proof/Machine/Stores.lean ====
section
/-! DEFINITION. The Record's host scratch, the Reading Room, and the Stacks with its archive (19_stacks_porter): reads,
writes, accessions, their verbs and the STACKS registers. -/
namespace Sys2Proof.Machine

open Sys2Proof

/-! ## Octets of the stores -/

/-- The cell at an address. -/
def cellAt (m : List Host.Cell) (a : Nat) : Option Byte := (m.find? (fun x => x.1 == a)).map (·.2)

/-- An octet of the Reading Room; its contents are undefined until it is written (R500, 09_dormant R251). -/
def State.carrelByte (s : State) (a : Nat) : Byte :=
  (cellAt s.store.carrels a).getD (Config.freeOctet (vget s.store.carrelGone (a / 0x8000) 0) a)

def State.carrelRead (s : State) (a n : Nat) : List Byte := (List.range n).map (fun i => s.carrelByte (a + i))

def State.carrelWrite (s : State) (a : Nat) (o : List Byte) : State :=
  { s with store := { s.store with carrels := cellsPutAll s.store.carrels a o } }

/-- The carrels that a span meets. -/
def spanCarrels (a n : Nat) : List Nat := List.range' (a / 0x8000) ((a + n - 1) / 0x8000 + 1 - a / 0x8000)

/-- The carrels of a span are powered. -/
def State.touchSpan (s : State) (a n : Nat) : State := (spanCarrels a n).foldl State.touch s

/-- The loss under which a Stacks octet that nothing has written since is undefined (R501). -/
def goneOf : List (Nat × Nat × Nat) → Nat → Nat
  | [], _ => 0
  | (lo, hi, e) :: r, a => if lo ≤ a ∧ a < hi then e else goneOf r a

def State.shelfByte (s : State) (a : Nat) : Byte :=
  (cellAt s.store.shelf a).getD (Config.freeOctet (goneOf s.store.shelfGone a) (0x10000000 + a))

def State.shelfRead (s : State) (a n : Nat) : List Byte := (List.range n).map (fun i => s.shelfByte (a + i))

/-! ## The partition and the accessions (R501–R503) -/

/-- Octets of the Stacks. -/
def State.stacksSize (s : State) : Nat := if s.has .stacks2m then 2097152 else if s.has .stacks then 524288 else 0

/-- Where the archive begins. -/
def archBase : Nat := 8192

def Part19.slot (p : Part19) : Nat := 16 * ceilDiv' (20 + p.pmax) 16
def Part19.capacity (p : Part19) : Nat := p.kib * 1024 / p.slot

def State.archKib (s : State) : Nat := match s.store.part with | some p => p.kib | none => 0

/-- Where the free shelves begin. -/
def State.freeBase (s : State) : Nat := archBase + s.archKib * 1024

def State.archFirst (s : State) : Nat := s.store.first.toNat
def State.archNext (s : State) : Nat := s.store.next.toNat

/-- The slot index of an accession number, and the Stacks offset of its slot (R502). -/
def State.slotIndex (s : State) (p : Part19) (n : Nat) : Nat := (n - s.store.origin.toNat) % p.capacity
def State.slotAt (s : State) (p : Part19) (n : Nat) : Nat := archBase + p.slot * s.slotIndex p n

/-- The archive holds as many accessions as it has slots. -/
def State.archFull (s : State) : Bool :=
  match s.store.part with
  | some p => decide (p.capacity ≤ s.archNext - s.archFirst)
  | none => false

/-- The slot of a number holds a committed accession of that number. -/
def State.committed (s : State) (p : Part19) (n : Nat) : Bool :=
  let a := s.slotAt p n
  s.shelfByte (a + 15) == 0xC5 && leNat (s.shelfRead a 4) == n

/-- The accession is present (R503). -/
def State.present (s : State) (p : Part19) (n : Nat) : Bool :=
  decide (s.archFirst ≤ n) && decide (n < s.archNext) && s.committed p n

/-- The present accessions, oldest first. -/
def State.accessions (s : State) (p : Part19) : List Nat :=
  (List.range' s.archFirst (s.archNext - s.archFirst)).filter (s.committed p)

/-- The fields of an accession's slot. -/
def State.accStamp (s : State) (p : Part19) (n : Nat) : Nat := leNat (s.shelfRead (s.slotAt p n + 4) 8)
def State.accLen (s : State) (p : Part19) (n : Nat) : Nat := (s.shelfByte (s.slotAt p n + 12)).toNat
def State.accKind (s : State) (p : Part19) (n : Nat) : Nat := (s.shelfByte (s.slotAt p n + 13)).toNat
def State.accMarks (s : State) (p : Part19) (n : Nat) : Nat := (s.shelfByte (s.slotAt p n + 14)).toNat

/-- The crc of an accession is right. -/
def State.accGood (s : State) (p : Part19) (n : Nat) : Bool :=
  let a := s.slotAt p n
  let k := s.accLen p n
  crcOf c32c (s.shelfRead a 14 ++ s.shelfRead (a + 16) k) == leNat (s.shelfRead (a + 16 + k) 4)

/-! ## RECORD READ and RECORD WRITE (R498) -/

/-- An error of a span that runs past an end. -/
def spanErs (a n hi : Nat) (key : String) : List Er := erIf (decide (hi < a + n)) (erRange key)

/-- The payload a line of the stores gives. -/
def storeData (l : Line) (i : Nat) : List Byte := l.data (l.at? i)

/-- The errors of a payload operand: missing, not octets, or longer than a block. -/
def dataErs (l : Line) (i : Nat) : List Er :=
  match l.at? i with
  | none => [erMissing]
  | some (.octets o) => erIf (decide (4096 < o.length)) (erRange "payload")
  | some (.block n) => erIf (decide (4096 < n)) (erRange "payload")
  | some _ => [erRange "payload"]

def readKeys : List (String × Kind) := [("n", .int 1 64)]
def count16 (l : Line) : Nat := (l.nat? "n").getD 16

/-- Pieces that end at multiples of 64: the rows that a run of octets touches. -/
def rowPieces : Nat → Nat → List Byte → List (Nat × List Byte)
  | 0, _, _ => []
  | k + 1, a, l =>
    if l.isEmpty then []
    else (a, l.take (64 - a % 64)) :: rowPieces k (a + (64 - a % 64)) (l.drop (64 - a % 64))

/-- RECORD READ. -/
def execRecordRead (l : Line) (s : State) : Host.Outcome State Fault Refusal :=
  let a := (l.posNat? 0).getD 0
  runLine { minPos := 1, pos := [("off", .int 0 8191)], keys := readKeys } l s (spanErs a (count16 l) 8192 "n") (fun s =>
    s.ok l [w "RECORD", n' a, .w (.octets (cellsReadAll s.store.scratch a (count16 l)))])

/-- RECORD WRITE: a STACKS ticket. -/
def execRecordWrite (l : Line) (s : State) : Host.Outcome State Fault Refusal :=
  let a := (l.posNat? 0).getD 0
  runTicket { minPos := 2, pos := [("off", .int 0 8191), ("payload", .any)] } .stacks l s
    (dataErs l 1 ++ spanErs a (storeData l 1).length 8192 "payload") [] (.recordWrite a (storeData l 1))

/-- The start of a RECORD WRITE. -/
def State.startRecordWrite (s : State) (n a : Nat) (o : List Byte) : State :=
  let ps := rowPieces (o.length + 1) a o
  s.ticketRows n (ps.map (fun x => .scratch x.1 x.2)) [kd "off" a, kd "n" o.length, kd "rows" ps.length]

/-! ## CARREL (R500) -/

/-- The errors of a span in carrels 3–7. -/
def carrelErs (a n : Nat) (key : String) : List Er :=
  erIf (decide (a < 0x18000)) ⟨"DENIED", ["PROTECTED"]⟩ ++ spanErs a n 0x40000 key

def hex8 (v : Nat) : Val := .hex 8 v

/-- CARREL. -/
def execCarrel (l : Line) (s : State) : Host.Outcome State Fault Refusal :=
  runLine { noun := true } l s [] (fun s =>
    s.ok l [w "CARREL", .kv "powered" (.hex 2 (s.pwr.powered ||| 1).toNat), .kv "lost" (.hex 2 s.pwr.lost.toNat),
            .kv "retain" (.hex 2 (fld s.cfg.sys.dorm 15 8))])

/-- CARREL READ. -/
def execCarrelRead (l : Line) (s : State) : Host.Outcome State Fault Refusal :=
  let a := (l.posNat? 0).getD 0
  runLine { minPos := 1, pos := [("addr", .int 0 (2 ^ 32 - 1))], keys := readKeys } l s (carrelErs a (count16 l) "addr")
    (fun s => (s.touchSpan a (count16 l)).okAccess l (spanCarrels a (count16 l)) [w "CARREL", .w (hex8 a), .w (.octets (s.carrelRead a (count16 l)))])

/-- CARREL WRITE. -/
def execCarrelWrite (l : Line) (s : State) : Host.Outcome State Fault Refusal :=
  let a := (l.posNat? 0).getD 0
  let o := storeData l 1
  runLine { minPos := 2, pos := [("addr", .int 0 (2 ^ 32 - 1)), ("payload", .any)] } l s
    (dataErs l 1 ++ carrelErs a o.length "addr") (fun s =>
      ((s.touchSpan a o.length).carrelWrite a o).okAccess l (spanCarrels a o.length) [w "CARREL", w "WRITE", .w (hex8 a), kd "n" o.length])

/-- The end of a power-up stall (09_dormant R250): the access that waited may be made. -/
def execArrayPowerUpEnd (s : State) : Host.Outcome State Fault Refusal :=
  .next { s with pwr := { s.pwr with stall := s.pwr.stall.tail } }

/-- The Stacks array powers down once it has had no access for 1 ms (R250). -/
def execStacksPowerDown (s : State) : Host.Outcome State Fault Refusal :=
  if s.pwr.stacksOn && !s.stalled 8 then .next { s with pwr := { s.pwr with stacksOn := false } } else .next s

/-! ## STACKS (R501) -/

/-- A Porter channel is active. -/
def State.porterActive (s : State) : Bool := s.porter.chans.toList.any (fun c => c.run.isSome)

def State.porterErs (s : State) : List Er := erIf s.porterActive (erState "PORTER" "ACTIVE")

def policyName (refuse : Bool) : String := if refuse then "REFUSE" else "WRAP"

/-- STACKS. -/
def execStacks (l : Line) (s : State) : Host.Outcome State Fault Refusal :=
  runLine { noun := true, feat := some .stacks } l s [] (fun s =>
    let p := s.store.part
    s.ok l [w "STACKS", kw "part" (yesNo p.isSome), kd "archive" s.archKib,
            kd "pmax" ((p.map (·.pmax)).getD 0 : Nat), kd "slot" ((p.map Part19.slot).getD 0 : Nat),
            kd "capacity" ((p.map Part19.capacity).getD 0 : Nat), kw "policy" (policyName ((p.map (·.refuse)).getD false)),
            kd "free" ((s.stacksSize - s.freeBase) / 1024 : Nat), edTok s .stacks])

/-- STACKS PART: a STACKS ticket. -/
def execStacksPart (l : Line) (s : State) : Host.Outcome State Fault Refusal :=
  let k := (l.nat? "archive").getD 0
  runTicket { feat := some .stacks, order := false,
              keys := [("archive", .int 8 2040), ("pmax", .int 1 240), ("policy", .word ["WRAP", "REFUSE"])] } .stacks l s
    (erIf (!(l.has "archive" && l.has "pmax" && l.has "policy")) erMissing ++
      erIf (decide (k % 8 ≠ 0) || decide (s.stacksSize < (k + 8) * 1024)) (erRange "archive")) s.porterErs
    (.stacksPart k ((l.nat? "pmax").getD 1) (l.word? "policy" == some "REFUSE"))

/-- The start of a STACKS PART: the archive is empty and its octets are undefined. -/
def State.startPart (s : State) (n : Nat) (kib pmax : Nat) (refuse : Bool) : State :=
  let hi := archBase + (max kib s.archKib) * 1024
  let p : Part19 := { kib := kib, pmax := pmax, refuse := refuse }
  let e := s.pwr.lostCount + 1
  let t := s.store
  let s1 := { s with
    pwr := { s.pwr with lostCount := e },
    store := { t with part := some p, origin := t.next, first := t.next,
                      shelf := t.shelf.filter (fun x => x.1 < archBase || hi ≤ x.1),
                      shelfGone := (archBase, hi, e) :: t.shelfGone } }
  (s1.bump .stacks).ticketRows n [.twin 10 [(0, partRow (some p) t.next)], .archFirst t.next.toNat]
    [kd "archive" kib, kd "slot" p.slot, kd "capacity" p.capacity, kd "origin" t.next.toNat]

/-- STACKS READ. -/
def execStacksRead (l : Line) (s : State) : Host.Outcome State Fault Refusal :=
  let a := (l.posNat? 0).getD 0
  runLine { feat := some .stacks, minPos := 1, pos := [("off", .int 0 (2 ^ 32 - 1))], keys := readKeys } l s
    (erIf (decide (a < archBase)) ⟨"DENIED", ["PROTECTED"]⟩ ++ spanErs a (count16 l) s.stacksSize "off") (fun s =>
      (s.touch 8).okAccess l [8] [w "STACKS", n' a, .w (.octets (s.shelfRead a (count16 l)))])

/-- STACKS WRITE: a STACKS ticket. -/
def execStacksWrite (l : Line) (s : State) : Host.Outcome State Fault Refusal :=
  let a := (l.posNat? 0).getD 0
  let o := storeData l 1
  runTicket { feat := some .stacks, order := false, minPos := 2,
              pos := [("off", .int 0 (2 ^ 32 - 1)), ("payload", .any)] } .stacks l s
    (dataErs l 1 ++ erIf (decide (a < s.freeBase)) ⟨"DENIED", ["PROTECTED"]⟩ ++ spanErs a o.length s.stacksSize "off")
    [] (.stacksWrite a o)

/-- The start of a STACKS WRITE; a partition made since its acceptance may have taken its octets. -/
def State.startStacksWrite (s : State) (n a : Nat) (o : List Byte) : State :=
  if a < s.freeBase then s.complete n .fail [kw "why" "PROTECTED"]
  else s.ticketRows n [.stacks a o] [kd "off" a, kd "n" o.length]

/-! ## ARCH (R503–R508) -/

def State.partErs (s : State) : List Er := erIf s.store.part.isNone (erState "STACKS" "UNPARTITIONED")

/-- How many accessions the archive holds. -/
def State.archCount (s : State) : Nat := match s.store.part with | some p => (s.accessions p).length | none => 0

/-- ARCH. -/
def execArch (l : Line) (s : State) : Host.Outcome State Fault Refusal :=
  runLine { noun := true, feat := some .stacks } l s [] (fun s =>
    s.ok l [w "ARCH", kd "first" s.archFirst, kd "next" s.archNext, kd "count" s.archCount, edTok s .stacks])

/-- The octets from= and n= name. -/
def lineSource (l : Line) : Option (Nat × Nat) := (l.nat? "from").map (fun a => (a, (l.nat? "n").getD 0))

/-- ARCH ADD: a STACKS ticket. -/
def execArchAdd (l : Line) (s : State) : Host.Outcome State Fault Refusal :=
  let pmax := match s.store.part with | some p => p.pmax | none => 240
  let src := lineSource l
  let o := storeData l 0
  runTicket { feat := some .stacks, pos := [("payload", .any)],
              keys := [("kind", .int 0 255), ("from", .int 0 (2 ^ 32 - 1)), ("n", .int 1 4096)] } .stacks l s
    ((match src with
      | some (a, n) => erIf (l.at? 0).isSome erExtra ++ erIf (!l.has "n") erMissing ++ carrelErs a n "from" ++
          s.late (erIf (decide (pmax < n)) (erRange "n"))
      | none => erIf (l.has "n") erExtra ++ dataErs l 0 ++
          erIf ((l.at? 0).isSome && decide (o.length = 0)) (erRange "payload") ++
          s.late (erIf (decide (pmax < o.length)) (erRange "payload"))) ++
      erIf (s.archFull && (s.store.part.map (·.refuse)).getD false) ⟨"FULL", ["ARCHIVE"]⟩)
    s.partErs (.archAdd ((l.nat? "kind").getD 0) o src)

/-- The rows of an ARCH ADD in the order of R503; what the slot holds behind the crc is undefined. -/
def State.addRows (s : State) (p : Part19) (kind : Nat) (o : List Byte) (e : Nat) : List RowWhat :=
  let n := s.archNext
  let a := s.slotAt p n
  let head := leBytes 4 n ++ leBytes 8 s.now ++ leBytes 1 o.length ++ leBytes 1 kind
  let rest := (List.range (p.slot - 20 - o.length)).map (fun i => Config.freeOctet e (0x10000000 + a + 20 + o.length + i))
  (if s.archFull then [RowWhat.archFirst (s.archFirst + 1)] else []) ++
    [.stacks (a + 15) [0], .stacks a head, .stacks (a + 16) (o ++ leBytes 4 (crcOf c32c (head ++ o)) ++ rest),
     .stacks (a + 14) [0], .stacks (a + 15) [0xC5], .archNext (n + 1)]

/-- The start of an ARCH ADD (R503, R505). -/
def State.startArchAdd (s : State) (n : Nat) (kind : Nat) (data : List Byte) (src : Option (Nat × Nat)) : State :=
  match s.store.part with
  | none => s
  | some p =>
    let o := match src with | some (a, k) => s.carrelRead a k | none => data
    let s1 := match src with | some (a, k) => s.touchSpan a k | none => s
    if s1.archFull && p.refuse then s1.complete n .fail [kw "why" "FULL"]
    else if p.pmax < o.length then s1.complete n .fail [kw "why" "RANGE"]
    else
      let e := s1.pwr.lostCount + 1
      let s2 := { s1 with pwr := { s1.pwr with lostCount := e },
                          store := { s1.store with wraps := s1.store.wraps.incIf s1.archFull } }
      s2.ticketRows n (s1.addRows p kind o e) [kd "n" s1.archNext, .kv "at" (.time s1.now)]

def marksName (m : Nat) : String :=
  if m % 4 = 0 then "NONE" else if m % 4 = 1 then "SENT" else if m % 4 = 2 then "ACKED" else "SENT,ACKED"

/-- ARCH READ (R506). -/
def execArchRead (l : Line) (s : State) : Host.Outcome State Fault Refusal :=
  let n := (l.posNat? 0).getD 0
  let here : Bool := match s.store.part with | some p => s.present p n | none => true
  runLine { feat := some .stacks, minPos := 1, pos := [("n", .int 0 (2 ^ 32 - 1))] } l s
    (s.late (erIf (!here) (erRange "n")) ++ s.partErs) (fun s =>
      match s.store.part with
      | none => s
      | some p =>
        let good := s.accGood p n
        let s1 := { s.touch 8 with store := { s.store with checkFails := s.store.checkFails.incIf (!good) } }
        s1.okAccess l [8] [w "ARCH", n' n, .kv "at" (.time (s.accStamp p n)), kd "kind" (s.accKind p n),
                 kd "len" (s.accLen p n), kw "marks" (marksName (s.accMarks p n)),
                 kw "check" (if good then "OK" else "BAD"),
                 .w (.octets (s.shelfRead (s.slotAt p n + 16) (s.accLen p n)))])

/-- The errors of a list of half-words in carrels 3–7. -/
def listErs (a n : Nat) : List Er := carrelErs a (2 * n) "list" ++ erIf (decide (a % 2 ≠ 0)) (erRange "list")

/-- ARCH FIND: a STACKS ticket. -/
def execArchFind (l : Line) (s : State) : Host.Outcome State Fault Refusal :=
  let mx := (l.nat? "max").getD 4096
  let cap := match s.store.part with | some p => p.capacity | none => 4096
  let num (k : String) : Option Nat := l.nat? k
  let tm (k : String) : Option Nat := (l.arg k).bind (s.timeOf l)
  runTicket { feat := some .stacks,
              keys := [("from", .int 0 (2 ^ 32 - 1)), ("to", .int 0 (2 ^ 32 - 1)), ("since", .time), ("until", .time),
                       ("kind", .int 0 255), ("unsent", .word ["YES"]), ("unacked", .word ["YES"]),
                       ("max", .int 1 4096), ("list", .int 0 (2 ^ 32 - 1))] } .stacks l s
    (match num "list" with
      | some a => listErs a 1 ++ s.late (listErs a (min mx cap))
      | none => []) s.partErs
    (.archFind (num "from") (num "to") (tm "since") (tm "until") (num "kind") (l.has "unsent") (l.has "unacked") mx
      (num "list"))

/-- An accession matches the criteria of a FIND (R507). -/
def State.matchesFind (s : State) (p : Part19) (fromN toN since til cls : Option Nat) (unsent unacked : Bool) (n : Nat) :
    Bool :=
  let least (x : Option Nat) (v : Nat) : Bool := match x with | some a => decide (a ≤ v) | none => true
  let most (x : Option Nat) (v : Nat) : Bool := match x with | some a => decide (v ≤ a) | none => true
  least fromN n && most toN n && least since (s.accStamp p n) && most til (s.accStamp p n) &&
    (match cls with | some k => s.accKind p n == k | none => true) &&
    (!unsent || decide (s.accMarks p n % 2 = 0)) && (!unacked || decide (s.accMarks p n / 2 % 2 = 0))

/-- ARCH_FIND_DONE (R507). -/
def execArchFindDone (s : State) : Host.Outcome State Fault Refusal :=
  match s.running .stacks, s.store.part with
  | some t, some p =>
    match t.op with
    | .archFind fromN toN since til cls us ua mx list =>
      let ns := ((s.accessions p).filter (s.matchesFind p fromN toN since til cls us ua)).take mx
      let o := ns.flatMap (fun n => leBytes 2 (s.slotIndex p n))
      let s1 := match list with
        | some a => if o.isEmpty then s else (s.touchSpan a o.length).carrelWrite a o
        | none => s
      .next ((s1.touch 8).complete t.n .done
        [kd "count" ns.length, .kv "first" (noneOr ns.head?), .kv "last" (noneOr ns.getLast?),
         .kv "base" (hex8 (0x10000000 + archBase)), kd "scale" p.slot])
    | _ => .next s
  | _, _ => .next s

/-- The marks a word list names. -/
def marksOf (ws : List String) : Nat := b2n (ws.contains "SENT") + 2 * b2n (ws.contains "ACKED")

def lineMarks (l : Line) (k : String) : Nat := marksOf (((l.arg k).map argWords).getD [])

/-- ARCH MARK: a STACKS ticket. -/
def execArchMark (l : Line) (s : State) : Host.Outcome State Fault Refusal :=
  let range : Option (Nat × Nat) := match l.nat? "from", l.nat? "to" with | some a, some b => some (a, b) | _, _ => none
  let list : Option (Nat × Nat) := (l.nat? "list").map (fun a => (a, (l.nat? "n").getD 1))
  runTicket { feat := some .stacks,
              keys := [("from", .int 0 (2 ^ 32 - 1)), ("to", .int 0 (2 ^ 32 - 1)), ("list", .int 0 (2 ^ 32 - 1)),
                       ("n", .int 1 65535), ("set", .words ["SENT", "ACKED"]), ("clear", .words ["SENT", "ACKED"])] }
    .stacks l s
    ((match list with
      | some (a, n) => erIf (l.has "from" || l.has "to") erExtra ++ erIf (!l.has "n") erMissing ++ listErs a n
      | none => erIf range.isNone erMissing ++ erIf (l.has "n") erExtra)) s.partErs
    (.archMark range list (lineMarks l "set") (lineMarks l "clear"))

/-- The present accessions that an ARCH MARK names: by number, or by slot index. -/
def State.marked (s : State) (p : Part19) (range list : Option (Nat × Nat)) : List Nat :=
  match range, list with
  | some (a, b), _ => (s.accessions p).filter (fun n => decide (a ≤ n) && decide (n ≤ b))
  | none, some (a, k) =>
    let idx := (List.range k).map (fun i => leNat (s.carrelRead (a + 2 * i) 2))
    (s.accessions p).filter (fun n => idx.contains (s.slotIndex p n))
  | none, none => []

/-- The start of an ARCH MARK (R508): a mark named under set= and under clear= is cleared. -/
def State.startMark (s : State) (n : Nat) (range list : Option (Nat × Nat)) (setM clearM : Nat) : State :=
  match s.store.part with
  | none => s
  | some p =>
    let ns := s.marked p range list
    let new (m : Nat) : Nat := ((m % 4) ||| setM) &&& (3 - clearM)
    let s1 := match list with | some (a, k) => s.touchSpan a (2 * k) | none => s
    s1.ticketRows n (ns.map (fun i => .stacks (s.slotAt p i + 14) (leBytes 1 (new (s.accMarks p i)))))
      [kd "marked" ns.length]

/-- ARCH DROP: a STACKS ticket. -/
def execArchDrop (l : Line) (s : State) : Host.Outcome State Fault Refusal :=
  runTicket { feat := some .stacks, keys := [("up", .int 0 (2 ^ 32 - 1))] } .stacks l s
    (erIf (!l.has "up") erMissing) s.partErs (.archDrop ((l.nat? "up").getD 0))

/-- The start of an ARCH DROP: `first` moves forward only, and at most to `next`. -/
def State.startDrop (s : State) (n up : Nat) : State :=
  let f := max s.archFirst (min (up + 1) s.archNext)
  s.ticketRows n [.archFirst f] [kd "first" f]

/-- Recovery of an accession whose commit was the last step before a reset (R504). -/
def State.archRecover (s : State) : State :=
  match s.store.part with
  | none => s
  | some p =>
    if s.has .stacks && s.committed p s.archNext && s.accGood p s.archNext then
      let t := s.store
      ({ s with store := { t with recovered := t.recovered.inc } }).rowWrite { what := .archNext (s.archNext + 1) }
    else s

/-- RECORD_ROW_WRITE_DONE (R495): the next row write begins, and a ticket whose last row it was completes. -/
def execRecordRowWriteDone (s : State) : Host.Outcome State Fault Refusal :=
  let shelf : Bool := match s.rows.head? with
    | some r => (match r.what with | .stacks _ _ => true | .cat _ => true | _ => false)
    | none => false
  if shelf && s.stalled 8 then .next s
  else
    let r := s.rowDone
    match r.2 with
    | none => .next r.1
    | some n =>
      match r.1.ticket? n with
      | none => .next r.1
      | some t =>
        match t.op with
        | .trimRun _ _ _ _ => .next r.1.trimWritten
        | .archAdd _ _ _ =>
          let s1 := { r.1 with store := { r.1.store with adds := r.1.store.adds.inc } }
          .next (s1.complete n .done t.fields)
        | .orderStore k _ => .next ((r.1.orderCommit k).complete n .done t.fields)
        | .orderSet k _ => .next ((r.1.orderCommit k).complete n .done t.fields)
        | .orderErase k => .next ((r.1.orderCommit k).complete n .done t.fields)
        | _ => .next (r.1.complete n .done t.fields)

/-! ## Registers (Table 19.9) -/

def setStore (f : StoreSt → StoreSt) (s : State) : State := { s with store := f s.store }

def State.stacksStatus (s : State) : Word :=
  let busy := (s.running .stacks).isSome
  statusWord s .stacks (b2n s.archFull * 8 + b2n ((s.store.part.map (·.refuse)).getD false) * 4 + b2n busy * 2 +
    b2n s.store.part.isSome)

def storeRegs : List Reg :=
  [roReg 0x1800 "STACKS_STATUS" [ro "edition" 31 16, ro "full" 3 3, ro "policy" 2 2, ro "busy" 1 1, ro "partitioned" 0 0]
      State.stacksStatus,
   { addr := 0x1804, name := "CARREL_STATUS", fields := [ro "powered" 15 8, { name := "lost", hi := 7, lo := 1, acc := .w1c }],
     read := fun s => BitVec.ofNat 32 ((s.pwr.powered ||| 1).toNat * 256 + (s.pwr.lost &&& 0xFE).toNat),
     apply := fun v s => { s with pwr := { s.pwr with lost := s.pwr.lost &&& ~~~(v.setWidth 8) } } },
   roReg 0x1808 "RECORD_STATUS" [ro "defaults" 31 16, ro "repaired" 15 0] (fun s =>
      BitVec.ofNat 32 (s.store.rowDefaults.toNat * 65536 + s.store.rowRepaired.toNat)),
   ctrReg 0x180C "RECORD_WRITES" (·.store.recordWrites) (fun c => setStore (fun x => { x with recordWrites := c })),
   wrapReg 0x1810 "RECORD_WRAP" 1 (fun s => [s.store.recordWrites]),
   roReg 0x1880 "STACKS_PART" [ro "archive_kib" 31 16, ro "pmax" 15 8] (fun s =>
      match s.store.part with | some p => BitVec.ofNat 32 (p.kib * 65536 + p.pmax * 256) | none => 0),
   roReg 0x1884 "ARCH_SLOT" [ro "capacity" 31 16, ro "slot" 8 0] (fun s =>
      match s.store.part with | some p => BitVec.ofNat 32 (p.capacity * 65536 + p.slot) | none => 0),
   roVal 0x1888 "ARCH_FIRST" 31 (·.store.first),
   roVal 0x188C "ARCH_NEXT" 31 (·.store.next),
   roVal 0x1890 "ARCH_ORIGIN" 31 (·.store.origin),
   ctrReg 0x18A0 "ARCH_ADDS" (·.store.adds) (fun c => setStore (fun x => { x with adds := c })),
   ctrReg 0x18A4 "ARCH_WRAPS" (·.store.wraps) (fun c => setStore (fun x => { x with wraps := c })),
   ctrReg 0x18A8 "ARCH_CHECK_FAILS" (·.store.checkFails) (fun c => setStore (fun x => { x with checkFails := c })),
   ctrReg 0x18AC "ARCH_RECOVERED" (·.store.recovered) (fun c => setStore (fun x => { x with recovered := c })),
   wrapReg 0x18B0 "STACKS_WRAP" 4 (fun s => [s.store.adds, s.store.wraps, s.store.checkFails, s.store.recovered])]

end Sys2Proof.Machine
end

