-- ==== Sys2Proof/Machine/Collators.lean ====
section
/-! DEFINITION. The Collators (20_collators): feeding, opening, closing and comparing, their verbs and registers. -/
namespace Sys2Proof.Machine

open Sys2Proof

/-! ## A Collator -/

def State.col (s : State) (n : Nat) : Collator := vget s.collate.cols n {}

def State.setCol (s : State) (n : Nat) (c : Collator) : State :=
  { s with collate := { s.collate with cols := vset s.collate.cols n c } }

/-- The parameter set of a Collator, and its width in bits. -/
def Collator.crc (c : Collator) : CrcSet := crcSet c.set
def Collator.width (c : Collator) : Nat := c.crc.width

/-- COLLATE_n_VALUE: live while OPEN, frozen while CLOSED (R530, R531). -/
def Collator.shows (c : Collator) : Word := if c.isOpen then BitVec.ofNat 32 (crcValue c.crc c.reg) else c.value

/-- Octets enter the computation in their order (R525, R526). -/
def Collator.take (c : Collator) (o : List Byte) : Collator :=
  { c with reg := crcRun c.crc c.reg o, count := min (c.count + o.length) 0xFFFFFFFF }

/-- A feed of one, two or four octets is accepted into a stage (R527). -/
def Collator.accept (c : Collator) (o : List Byte) : Collator := { c.take o with stages := c.stages ++ [o.length] }

/-- One SCLK cycle of the stage in progress. -/
def Collator.drain (c : Collator) : Collator :=
  match c.stages with
  | [] => c
  | k :: r => { c with stages := if k ≤ 1 then r else (k - 1) :: r }

/-- The Collator holds two feeds (R527). -/
def Collator.full (c : Collator) : Bool := decide (2 ≤ c.stages.length)

/-- A Porter element at a Collator's port (R528). -/
def State.feedPort (s : State) (n : Nat) (o : List Byte) : State :=
  if (s.col n).isOpen then s.setCol n ((s.col n).accept o)
  else { s with collate := { s.collate with stray := s.collate.stray.add o.length } }

/-! ## A value's text -/

/-- A value of the set's width: w/4 hexadecimal digits, without grouping up to 16 bits. -/
def Collator.hex (c : Collator) (v : Nat) : Val := .hex (c.width / 4) v

def Collator.expectVal (c : Collator) : Val := if c.check then c.hex c.expect.toNat else .word "NONE"

def lastOutcome (n : Nat) : String :=
  if n = 0 then "NONE" else if n = 1 then "MATCH" else if n = 2 then "MISMATCH" else "UNCHECKED"

def State.colToks (s : State) (n : Nat) : List Tok :=
  let c := s.col n
  [w "COLLATE", n' n, w (if c.isOpen then "OPEN" else "CLOSED"), kw "set" (if c.opened then c.crc.name else "NONE"),
   .kv "value" (c.hex c.shows.toNat), kd "count" c.count, .kv "expect" c.expectVal, kw "last" (lastOutcome c.last),
   edTok s .collate]

/-! ## Verbs -/

/-- Collators 2 and 3 belong to COLLATE_4 (R523). -/
def State.colAbsent (s : State) (n : Nat) : List Er := if n = 2 ∨ n = 3 then s.needs .collate4 else []

def colPos : List (String × Kind) := [("n", .int 0 3)]

def State.colCount (s : State) : Nat := if s.has .collate4 then 4 else 2

/-- The operation needs an OPEN Collator. -/
def State.closedErs (s : State) (n : Nat) : List Er := erIf (!(s.col n).isOpen) (erState "COLLATE" "CLOSED")

/-- COLLATE. -/
def execCollate (l : Line) (s : State) : Host.Outcome State Fault Refusal :=
  runLine { pos := colPos } l s (s.colAbsent ((l.posNat? 0).getD 0)) (fun s =>
    match l.posNat? 0 with
    | some n => s.ok l (s.colToks n)
    | none => s.okMany l ((List.range s.colCount).map s.colToks))

/-- The code of a set by its name. -/
def setCode (x : String) : Nat := (crcSets.findIdx? (fun c => c.name == x)).getD 0

def setNames : List String := crcSets.map (·.name)

/-- COLLATE OPEN (R529). -/
def execCollateOpen (l : Line) (s : State) : Host.Outcome State Fault Refusal :=
  let n := (l.posNat? 0).getD 0
  let k := setCode ((l.word? "set").getD "C8")
  let e := l.nat? "expect"
  runLine { minPos := 1, pos := colPos, keys := [("set", .word setNames), ("expect", .int 0 (2 ^ 32 - 1))] } l s
    (s.colAbsent n ++ erIf (!l.has "set") erMissing ++
      erIf (decide (2 ^ (crcSet k).width ≤ e.getD 0)) (erRange "expect") ++
      erIf (s.col n).isOpen (erState "COLLATE" "OPEN")) (fun s =>
      let c : Collator := { s.col n with isOpen := true, set := k, opened := true, reg := (crcSet k).init, count := 0,
                                         expect := (e.map (BitVec.ofNat 32)).getD (s.col n).expect, check := e.isSome, stages := [], fed := 0 }
      let s1 := (s.setCol n c).bump .collate
      s1.ok l [w "COLLATE", w "OPEN", n' n, kw "set" c.crc.name, .kv "expect" c.expectVal, edTok s1 .collate])

def colQueue (n : Nat) : Queue := .collate (Fin.ofNat 4 n)

/-- COLLATE FEED: a ticket of COLLATE_n. -/
def execCollateFeed (l : Line) (s : State) : Host.Outcome State Fault Refusal :=
  let n := (l.posNat? 0).getD 0
  let src := lineSource l
  let o := storeData l 1
  runTicket { minPos := 1, pos := [("n", .int 0 3), ("payload", .any)],
              keys := [("from", .int 0 (2 ^ 32 - 1)), ("n", .int 1 4096)] } (colQueue n) l s
    (s.colAbsent n ++
      (match src with
        | some (a, k) => erIf (l.at? 1).isSome erExtra ++ erIf (!l.has "n") erMissing ++ carrelErs a k "from"
        | none => erIf (l.has "n") erExtra ++ dataErs l 1 ++
            erIf ((l.at? 1).isSome && decide (o.length = 0)) (erRange "n"))) (s.closedErs n)
    (.collateFeed n o src)

/-- The start of a FEED ticket. -/
def State.startFeed (s : State) (n : Nat) (src : Option (Nat × Nat)) : State :=
  let s1 := match src with | some (a, k) => s.touchSpan a k | none => s
  s1.setCol n { s1.col n with fed := 0 }

/-- The octets that a FEED ticket feeds. -/
def State.feedOctet (s : State) (data : List Byte) (src : Option (Nat × Nat)) (i : Nat) : Byte :=
  match src with
  | some (a, _) => s.carrelByte (a + i)
  | none => data.getD i 0

def feedLen (data : List Byte) : Option (Nat × Nat) → Nat
  | some (_, k) => k
  | none => data.length

/-- The running FEED ticket of a Collator feeds its next octet, where a stage is free and its carrel has power (R527,
R535). -/
def State.feedStep (s : State) (n : Nat) : State :=
  match (s.running (colQueue n)).map (·.op) with
  | some (TicketOp.collateFeed _ data src) =>
    let c := s.col n
    let waits : Bool := c.full || (match src with | some (a, _) => s.stalled ((a + c.fed) / 0x8000) | none => false)
    if waits || decide (feedLen data src ≤ c.fed) || !c.isOpen then s
    else s.setCol n { c.accept [s.feedOctet data src c.fed] with fed := c.fed + 1 }
  | _ => s

/-- One SCLK cycle of the Collators. -/
def State.collateTick (s : State) : State :=
  (List.range 4).foldl (fun s n => (s.setCol n (s.col n).drain).feedStep n) s

/-- The last octets of a FEED ticket are fed, and it completes (R535). -/
def execCollateFeedDone (q : Fin 4) (s : State) : Host.Outcome State Fault Refusal :=
  match s.running (.collate q) with
  | none => .next s
  | some t =>
    match t.op with
    | .collateFeed n data src =>
      let c := s.col n
      let k := feedLen data src
      let rest := (List.range' c.fed (k - c.fed)).map (s.feedOctet data src)
      let c1 := { c.take rest with fed := k, stages := [] }
      .next ((s.setCol n c1).complete t.n .done [kd "n" k, kd "count" c1.count])
    | _ => .next s

/-- COLLATE CLOSE: a ticket of COLLATE_n. -/
def execCollateClose (l : Line) (s : State) : Host.Outcome State Fault Refusal :=
  let n := (l.posNat? 0).getD 0
  let e : Option (Option Nat) := (l.arg "expect").map (fun a => (argInt a).map Int.toNat)
  runTicket { minPos := 1, pos := colPos, keys := [("expect", .intOr 0 (2 ^ 32 - 1) ["NONE"])] } (colQueue n) l s
    (s.colAbsent n ++ s.late (erIf ((s.col n).isOpen && decide (2 ^ (s.col n).width ≤ (l.nat? "expect").getD 0)) (erRange "expect")))
    (s.closedErs n) (.collateClose n e)

/-- The close cycle (R531, R532). -/
def State.closeCycle (s : State) (t n : Nat) (e : Option (Option Nat)) : State :=
  let c := s.col n
  let v := crcValue c.crc c.reg
  let want : Option Nat := match e with
    | some x => x
    | none => if c.check then some c.expect.toNat else none
  let c1 (k : Nat) : Collator := { c with isOpen := false, value := BitVec.ofNat 32 v, last := k, stages := [] }
  match want with
  | none => ((s.setCol n (c1 3)).bump .collate).complete t .done
      [.kv "result" (c.hex v), kw "match" "NONE", kd "count" c.count]
  | some x =>
    if v = x then ((s.setCol n (c1 1)).bump .collate).complete t .done
      [.kv "result" (c.hex v), kw "match" "YES", kd "count" c.count]
    else
      let s1 := (s.setCol n (c1 2)).bump .collate
      let s2 := { s1 with collate := { s1.collate with mismatches := s1.collate.mismatches.inc } }
      let f : List Tok := [.kv "result" (c.hex v), .kv "expect" (c.hex x), kd "count" c.count]
      (s2.fire (104 + n) f).complete t .fail (kw "why" "MISMATCH" :: f)

/-- COLLATE_CLOSE_CYCLE: the stages have emptied. -/
def execCollateCloseCycle (q : Fin 4) (s : State) : Host.Outcome State Fault Refusal :=
  match s.running (.collate q) with
  | none => .next s
  | some t =>
    match t.op with
    | .collateClose n e => .next (s.closeCycle t.n n e)
    | _ => .next s

/-! ## Registers (Tables 20.4, 20.5) -/

def setCollate (f : CollateSt → CollateSt) (s : State) : State := { s with collate := f s.collate }

def Collator.ctrl (c : Collator) : Word :=
  BitVec.ofNat 32 (b2n c.isOpen * 2 ^ 31 + c.last * 4096 + b2n c.check * 256 + c.set)

/-- A change of EXPECT or check counts for the edition (R530). -/
def State.putCol (s : State) (n : Nat) (c : Collator) : State :=
  if c = s.col n then s else (s.setCol n c).bump .collate

/-- Another path feeds the Collator now: only then can a register feed find both stages occupied (R527). -/
def State.colBusy (s : State) (n : Nat) : Bool :=
  (s.running (colQueue n)).isSome || s.porter.chans.toList.any (fun c => c.run.isSome)

def feedReg (n : Nat) (off k : Nat) (name : String) : Reg :=
  { addr := 0x1C40 + 0x40 * n + off, name := "COLLATE_" ++ Nat.repr n ++ "_" ++ name,
    fields := [{ name := "value", hi := 8 * k - 1, lo := 0, acc := .wo }], read := fun _ => 0,
    check := fun s _ => s.closedErs n ++ erIf (s.colBusy n && (s.col n).full) ⟨"FULL", ["COLLATE"]⟩,
    apply := fun v s =>
      let c := s.col n
      let c1 := if s.colBusy n then c else { c with stages := [] }
      s.setCol n (c1.accept (leBytes k v.toNat)) }

def colRegs (n : Nat) : List Reg :=
  let a := 0x1C40 + 0x40 * n
  let nm (x : String) : String := "COLLATE_" ++ Nat.repr n ++ "_" ++ x
  [{ addr := a, name := nm "CTRL", fields := [ro "open" 31 31, ro "last" 13 12, rw "check" 8 8, ro "set" 2 0],
     read := fun s => (s.col n).ctrl, check := fun s _ => s.closedErs n,
     apply := fun v s => s.putCol n { s.col n with check := bit v 8 } },
   { addr := a + 4, name := nm "EXPECT", fields := [rw "value" 31 0], read := fun s => (s.col n).expect,
     check := fun s v => s.closedErs n ++ erIf (decide (2 ^ (s.col n).width ≤ v.toNat)) (erRange "value"),
     apply := fun v s => s.putCol n { s.col n with expect := v } },
   roVal (a + 8) (nm "VALUE") 31 (fun s => (s.col n).shows),
   roVal (a + 12) (nm "COUNT") 31 (fun s => BitVec.ofNat 32 (s.col n).count),
   feedReg n 0x10 1 "FEED_BYTE", feedReg n 0x14 2 "FEED_HALF", feedReg n 0x18 4 "FEED_WORD"]

def collateRegs : List Reg :=
  [roReg 0x1C00 "COLLATE_STATUS" [ro "edition" 31 16, ro "busy" 7 4, ro "open" 3 0] (fun s =>
      statusWord s .collate (((List.range 4).map (fun n =>
        b2n (!(s.col n).stages.isEmpty) * 2 ^ (4 + n) + b2n (s.col n).isOpen * 2 ^ n)).sum)),
   ctrReg 0x1C04 "COLLATE_MISMATCHES" (·.collate.mismatches) (fun c => setCollate (fun x => { x with mismatches := c })),
   ctrReg 0x1C08 "COLLATE_STRAY" (·.collate.stray) (fun c => setCollate (fun x => { x with stray := c })),
   wrapReg 0x1C0C "COLLATE_WRAP" 2 (fun s => [s.collate.mismatches, s.collate.stray])] ++
  (List.range 4).flatMap colRegs

end Sys2Proof.Machine
end

