-- ==== Sys2Proof/Machine/Porter.lean ====
section
/-! DEFINITION. The Porter (19_stacks_porter R509–R521): its address space, call slips, the moving of elements, the
channels, and the PORTER and SLIP verbs and registers. -/
namespace Sys2Proof.Machine

open Sys2Proof

/-! ## The address space (Table 19.5) -/

inductive Target
  | carrel (n : Nat)
  | archive (off : Nat)
  | shelf (off : Nat)
  | txWindow
  | rxWindow
  | port (n : Nat) (size : Nat)
  | fifo
  | fault (why : Nat)
  deriving DecidableEq, Repr

def faultNames : List String := ["NONE", "ADDR", "ALIGN", "PROTECTED", "ABSENT", "RANGE", "SLIP", "CHAIN", "ACCESS"]

/-- The target at a Stacks offset. -/
def State.shelfTarget (s : State) (o : Nat) (wr : Bool) : Target :=
  if !s.has .stacks then .fault 4
  else if s.stacksSize ≤ o then .fault 5
  else if o < archBase then .fault 3
  else if o < s.freeBase then (if wr then .fault 3 else .archive o)
  else .shelf o

/-- The target at a Collator's port. -/
def State.portTarget (s : State) (a : Nat) (wr : Bool) : Target :=
  let n := (a - 0x30000000) / 0x100
  let o := (a - 0x30000000) % 0x100
  if 4 ≤ n ∨ !(o = 0 ∨ o = 4 ∨ o = 8) then .fault 1
  else if s.colCount ≤ n then .fault 4
  else if !wr then .fault 8
  else .port n (if o = 0 then 1 else if o = 4 then 2 else 4)

/-- The target of an access at an address (R509). -/
def State.target (s : State) (a : Nat) (wr : Bool) : Target :=
  if a < 0x18000 then .fault 3
  else if a < 0x40000 then .carrel (a / 0x8000)
  else if 0x10000000 ≤ a ∧ a < 0x10200000 then s.shelfTarget (a - 0x10000000) wr
  else if a = 0x20000000 then (if wr then .txWindow else .fault 8)
  else if a = 0x21000000 then (if wr then .fault 8 else .rxWindow)
  else if 0x30000000 ≤ a ∧ a < 0x30000400 then s.portTarget a wr
  else if a = 0x40000000 then .fifo
  else .fault 1

/-- The fault of an address, or of its alignment (R515). -/
def Target.fault? : Target → Option Nat
  | .fault y => some y
  | _ => none

def Target.misfit (t : Target) (a size : Nat) : Bool :=
  decide (a % size ≠ 0) || (match t with | .port _ k => decide (k ≠ size) | _ => false)

/-- The first failed check of an element, with the failing address. -/
def State.elementFault (s : State) (src dst size : Nat) : Option (Nat × Nat) :=
  let a := s.target src false
  let b := s.target dst true
  match a.fault?, b.fault? with
  | some y, _ => some (y, src)
  | none, some y => some (y, dst)
  | none, none => if a.misfit src size then some (2, src) else if b.misfit dst size then some (2, dst) else none

/-! ## Windows (14_frames R374–R376) -/

/-- An RX entry as the RX window reads it (14 Table 14.5). -/
def RxEntry.bytes (e : RxEntry) : List Byte :=
  leBytes 2 e.octets.length ++ leBytes 1 e.flags ++ leBytes 1 e.lqi ++ leBytes 8 e.sync.toNat ++
    leBytes 2 (unsigned 16 e.rssi) ++ leBytes 2 (unsigned 16 e.afc) ++ leBytes 2 (e.plan * 4096 + e.chan) ++
    leBytes 2 (unsigned 16 e.snr) ++ leBytes 1 e.serr ++ [0] ++ leBytes 2 e.id ++ e.octets

/-- The RX window gives its next octets; the answer tells whether it has passed the end of the oldest entry (R516). -/
def State.rxWindow (s : State) (k : Nat) : List Byte × Bool × State :=
  let e := match s.frame.rx.head? with | some e => e.bytes | none => []
  let p := s.frame.rxPos
  ((List.range' p k).map (fun i => e.getD i 0), decide (e.length < p + k),
    { s with frame := { s.frame with rxPos := p + k } })

/-- The TX window takes an element (R375). -/
def State.txWindow (s : State) (o : List Byte) : State :=
  if 2047 < s.frame.stage.length + o.length then { s with frame := { s.frame with stageOver := true } }
  else { s.touch 1 with frame := { s.frame with stage := s.frame.stage ++ o } }

/-! ## Call slips (R511) -/

/-- A signed 24-bit step. -/
def step24 (l : List Byte) : Int := signed 24 (leNat l)

/-- The fields of a slip's 32 octets. -/
def slipOf (o : List Byte) : Slip :=
  let f (i k : Nat) : List Byte := (o.drop i).take k
  let c := leNat (f 12 1)
  let nx := leNat (f 0 4)
  let base : Slip :=
    { next := nx / 32 * 32, last := decide (nx % 2 = 1), src := leNat (f 4 4), dst := leNat (f 8 4),
      size := if c % 4 = 3 then 3 else 2 ^ (c % 4), shelf := decide (c / 4 % 2 = 1), walkDst := decide (c / 8 % 2 = 1),
      other := step24 (f 13 3), c0 := 0, s0 := 0 }
  if base.shelf then
    { base with list := leNat (f 16 4), n := leNat (f 20 2), scale := leNat (f 22 2), c0 := leNat (f 24 2),
                s0 := step24 (f 26 3) }
  else
    { base with c0 := leNat (f 16 2), c1 := leNat (f 18 2), c2 := leNat (f 20 2), s0 := step24 (f 22 3),
                s1 := step24 (f 25 3), s2 := step24 (f 28 3) }

/-- The octets of a slip, every reserved field 0. -/
def Slip.bytes (x : Slip) : List Byte :=
  let sz := if x.size = 1 then 0 else if x.size = 2 then 1 else if x.size = 4 then 2 else 3
  let st (v : Int) : List Byte := leBytes 3 (unsigned 24 v)
  leBytes 4 (x.next / 32 * 32 + b2n x.last) ++ leBytes 4 x.src ++ leBytes 4 x.dst ++
    leBytes 1 (sz + b2n x.shelf * 4 + b2n x.walkDst * 8) ++ st x.other ++
    (if x.shelf then leBytes 4 x.list ++ leBytes 2 x.n ++ leBytes 2 x.scale ++ leBytes 2 x.c0 ++ st x.s0 ++ [0, 0, 0]
     else leBytes 2 x.c0 ++ leBytes 2 x.c1 ++ leBytes 2 x.c2 ++ st x.s0 ++ st x.s1 ++ st x.s2 ++ [0])

/-- An address in carrels 3–7. -/
def inCarrels (a n : Nat) : Bool := decide (0x18000 ≤ a) && decide (a + n ≤ 0x40000)

/-- The slip's octets are refused (R514). -/
def slipBad (a : Nat) (o : List Byte) : Bool :=
  let x := slipOf o
  !inCarrels a 32 || decide (a % 32 ≠ 0) || x.bytes != o || decide (x.size = 3) ||
    decide (x.c0 = 0) || (!x.shelf && (decide (x.c1 = 0) || decide (x.c2 = 0))) ||
    (x.shelf && (decide (x.n = 0) || decide (x.scale = 0) || !inCarrels x.list (2 * x.n) || decide (x.list % 2 ≠ 0)))

/-! ## Channels (R515–R519) -/

def State.chan (s : State) (n : Nat) : Chan := vget s.porter.chans n {}

def State.setChan (s : State) (n : Nat) (c : Chan) : State :=
  { s with porter := { s.porter with chans := vset s.porter.chans n c } }

/-- A channel stops: IDLE, with its result; the PORTER edition counts it. -/
def State.chanStop (s : State) (n : Nat) (last why : Nat) : State :=
  (s.setChan n { s.chan n with run := none, last := last, why := why }).bump .porter

/-- A fault ends the run (R515). -/
def State.chanFault (s : State) (n : Nat) (x : PRun) (why at_ : Nat) : State :=
  let f : List Tok := [kw "why" (faultNames.getD why ""), .kv "slip" (hex8 x.at_), .kv "at" (hex8 at_)]
  let s1 := (s.setChan n { s.chan n with addr := at_, slip := x.at_ }).chanStop n 2 why
  let s2 := { s1 with porter := { s1.porter with faults := s1.porter.faults.inc } }
  (s2.fire (100 + n) f).complete x.ticket .fail f

/-- The last slip has ended (R518). -/
def State.chanDone (s : State) (n : Nat) (x : PRun) : State :=
  let c := s.chan n
  let f : List Tok := [kd "slips" c.slips, kd "elements" c.elements]
  let s1 := s.chanStop n 1 0
  let s2 := { s1 with porter := { s1.porter with runs := s1.porter.runs.inc } }
  (s2.fire (96 + n) f).complete x.ticket .done (f ++ if c.pastEnd then [kd "short" 1] else []) x.output

/-- The start of a PORTER GO ticket. -/
def State.startPorter (s : State) (t n slip max : Nat) (input : Option (List Byte)) (fifo : Bool) : State :=
  let c := s.chan n
  let r : PRun := { ticket := t, max := max, at_ := slip, fifo := fifo, input := input }
  (s.setChan n { c with run := some r, pastEnd := false, slips := 0, slip := slip, addr := 0, elements := 0 }).bump .porter

/-- A cancelled run stops after its element in progress. -/
def State.cancelPorter (s : State) (n : Nat) (by_ : String) : State :=
  match (s.chan n).run with
  | none => s
  | some x => (s.chanStop n 3 0).complete x.ticket .cancelled [kw "by" by_, kd "elements" (s.chan n).elements]

/-- The carrel, or the Stacks array (8), that an access meets. -/
def Target.place : Target → Option Nat
  | .carrel n => some n
  | .archive _ => some 8
  | .shelf _ => some 8
  | .txWindow => some 1
  | _ => none

/-- An access waits for the power of the carrel or array it meets (09_dormant R250). -/
def State.power (s : State) (ts : List Target) : State × Bool :=
  ts.foldl (fun acc t =>
    match t.place with
    | some n => (acc.1.touch n, acc.2 || (acc.1.touch n).stalled n)
    | none => acc) (s, false)

/-- PORTER_SLIP_FETCH (R514, R518). -/
def execPorterSlipFetch (q : Fin 4) (s : State) : Host.Outcome State Fault Refusal :=
  let n := q.val
  let c := s.chan n
  match c.run with
  | none => .next s
  | some x =>
    if !s.inRun || x.slip.isSome then .next s
    else if x.max ≤ c.slips then .next (s.chanFault n x 7 x.at_)
    else if !inCarrels x.at_ 32 then .next (s.chanFault n x 6 x.at_)
    else
      let p := s.power [.carrel (x.at_ / 0x8000)]
      if p.2 then .next p.1
      else
        let o := p.1.carrelRead x.at_ 32
        if slipBad x.at_ o then .next (p.1.chanFault n x 6 x.at_)
        else
          let sl := slipOf o
          let r := { x with slip := some sl, k0 := 0, k1 := 0, k2 := 0, off := 0, p := if sl.walkDst then sl.src else sl.dst }
          .next (p.1.setChan n { c with run := some r, slips := c.slips + 1, slip := x.at_ })

/-- The walked address of the next element (R512, R513), modulo 2³². -/
def PRun.walked (x : PRun) (sl : Slip) : Nat :=
  let base : Int := ((if sl.walkDst then sl.dst else sl.src : Nat) : Int)
  unsigned 32 (if sl.shelf then base + x.off * sl.scale + x.k0 * sl.s0
    else base + x.k2 * sl.s2 + x.k1 * sl.s1 + x.k0 * sl.s0)

/-- The counts after an element; none once the slip has ended. -/
def PRun.advance (x : PRun) (sl : Slip) : Option PRun :=
  let y := { x with p := unsigned 32 ((x.p : Int) + sl.other) }
  if x.k0 + 1 < sl.c0 then some { y with k0 := x.k0 + 1 }
  else if sl.shelf then (if x.k1 + 1 < sl.n then some { y with k0 := 0, k1 := x.k1 + 1 } else none)
  else if x.k1 + 1 < sl.c1 then some { y with k0 := 0, k1 := x.k1 + 1 }
  else if x.k2 + 1 < sl.c2 then some { y with k0 := 0, k1 := 0, k2 := x.k2 + 1 }
  else none

/-- What a read gives: the octets and the state, with the run; none where the FIFO faults (R521). -/
def State.readElement (s : State) (n : Nat) (x : PRun) (t : Target) (a size : Nat) : Option (List Byte × State × PRun) :=
  match t with
  | .carrel _ => some (s.carrelRead a size, s, x)
  | .archive o => some (s.shelfRead o size, s, x)
  | .shelf o => some (s.shelfRead o size, s, x)
  | .rxWindow =>
    let r := s.rxWindow size
    let c := r.2.2.chan n
    some (r.1, if r.2.1 then r.2.2.setChan n { c with pastEnd := true } else r.2.2, x)
  | .fifo =>
    match x.fifo, x.input with
    | true, some i => if i.length < size then none else some (i.take size, s, { x with input := some (i.drop size) })
    | _, _ => none
  | _ => none

/-- What a write does; none where the FIFO faults. -/
def State.writeElement (s : State) (x : PRun) (t : Target) (a : Nat) (o : List Byte) : Option (State × PRun) :=
  match t with
  | .carrel _ => some (s.carrelWrite a o, x)
  | .shelf off => some ({ s with store := { s.store with shelf := cellsPutAll s.store.shelf off o } }, x)
  | .txWindow => some (s.txWindow o, x)
  | .port n _ => some (s.feedPort n o, x)
  | .fifo =>
    if x.fifo && decide (x.output.length + o.length ≤ 4096) then some (s, { x with output := x.output ++ o }) else none
  | _ => none

/-- A Collator's port is ready for an element (R527). -/
def State.portReady (s : State) (t : Target) : Bool :=
  match t with
  | .port n _ => !((s.col n).isOpen && (s.col n).full)
  | _ => true

/-- An element that has passed its checks is moved, and the run goes on. -/
def State.moveElement (s : State) (n : Nat) (x : PRun) (sl : Slip) (src dst : Nat) : State :=
  match s.readElement n x (s.target src false) src sl.size with
  | none => s.chanFault n x 8 src
  | some (o, s1, x1) =>
    match s1.writeElement x1 (s.target dst true) dst o with
    | none => s.chanFault n x 8 dst
    | some (s2, x2) =>
      let c := s2.chan n
      let c1 := { c with addr := if sl.walkDst then dst else src, elements := (c.elements + 1) % 2 ^ 32 }
      match x2.advance sl with
      | some x3 => s2.setChan n { c1 with run := some x3 }
      | none =>
        let s3 := s2.setChan n { c1 with run := some { x2 with slip := none, at_ := sl.next } }
        if sl.last then s3.chanDone n x2 else s3

/-- The next element of a channel: its slip, and its run and the source and destination of the element, a shelf-list entry
being read when it begins; with the carrel that such a read meets. -/
def State.nextElement (s : State) (n : Nat) : Option (Slip × PRun × Nat × Nat × List Target) :=
  (s.chan n).run.bind (fun x0 => x0.slip.map (fun sl =>
    let la := sl.list + 2 * x0.k1
    let reads := sl.shelf && decide (x0.k0 = 0)
    let x := if reads then { x0 with off := leNat (s.carrelRead la 2) } else x0
    let wk := x.walked sl
    (sl, x, if sl.walkDst then x.p else wk, if sl.walkDst then wk else x.p, if reads then [.carrel (la / 0x8000)] else [])))

/-- A channel has an element to move that waits for no power and no Collator: it takes part in the turns. -/
def State.elementReady (s : State) (n : Nat) : Bool :=
  match s.nextElement n with
  | none => false
  | some (_, _, src, dst, list) =>
    (list ++ [s.target src false, s.target dst true]).all (fun t => match t.place with
      | some k => !s.stalled k
      | none => true) && s.portReady (s.target dst true)

/-- The channels take turns in ascending order, one element each (R517); a stall delays the access alone that meets it
(09_dormant R250). -/
def State.elementTurn (s : State) (n : Nat) : Bool :=
  ((List.range 4).map (fun i => (s.porter.turn + 1 + i) % 4)).find? s.elementReady == some n

/-- PORTER_ELEMENT (R512–R517): an element whose channel has not the turn waits. -/
def execPorterElement (q : Fin 4) (s : State) : Host.Outcome State Fault Refusal :=
  let n := q.val
  match s.nextElement n with
  | none => .next s
  | some (sl, x, src, dst, list) =>
    if !s.inRun || !s.elementTurn n then .next s
    else
      let lp := s.power list
      if lp.2 then .next lp.1
      else
        match s.elementFault src dst sl.size with
        | some (y, a) => .next (lp.1.chanFault n x y a)
        | none =>
          let p := lp.1.power [s.target src false, s.target dst true]
          if p.2 then .next p.1
          else
            let t := p.1.moveElement n x sl src dst
            .next { t with porter := { t.porter with turn := n } }

/-! ## PORTER -/

def chanPos : List (String × Kind) := [("ch", .int 0 3)]

/-- Channels 2 and 3 belong to PORTER_4. -/
def State.chanAbsent (s : State) (n : Nat) : List Er := if n = 2 ∨ n = 3 then s.needs .porter4 else []

def runName (n : Nat) : String :=
  if n = 0 then "NONE" else if n = 1 then "DONE" else if n = 2 then "FAIL" else "CANCELLED"

def State.chanToks (s : State) (n : Nat) : List Tok :=
  let c := s.chan n
  [w "PORTER", n' n, w (if c.run.isSome then "ACTIVE" else "IDLE"), .kv "slip" (hex8 c.slip),
   kd "elements" c.elements, kw "last" (runName c.last), edTok s .porter]

/-- PORTER. -/
def execPorter (l : Line) (s : State) : Host.Outcome State Fault Refusal :=
  runLine { pos := chanPos } l s (s.chanAbsent ((l.posNat? 0).getD 0)) (fun s =>
    match l.posNat? 0 with
    | some n => s.ok l (s.chanToks n)
    | none => s.okMany l ((List.range (if s.has .porter4 then 4 else 2)).map s.chanToks))

/-- PORTER GO: a ticket of PORTER_ch (R518, R521). -/
def execPorterGo (l : Line) (s : State) : Host.Outcome State Fault Refusal :=
  let n := (l.posNat? 0).getD 0
  let a := (l.nat? "slip").getD 0x18000
  let blk : Option (List Byte) := match l.blockGot with | .good o => some o | _ => none
  let fifo : Bool := match l.origin with | .port p => s.framed p | .order _ => false
  runTicket { minPos := 1, pos := [("ch", .int 0 3), ("block", .any)],
              keys := [("slip", .int 0 (2 ^ 32 - 1)), ("max", .int 1 65535)] } (.porter (Fin.ofNat 4 n)) l s
    (s.chanAbsent n ++ erIf (!l.has "slip") erMissing ++
      (match l.at? 1 with
        | none => []
        | some (.block k) => erIf (decide (4096 < k)) (erRange "block")
        | some _ => [erRange "block"]) ++
      erIf (!inCarrels a 32 || decide (a % 32 ≠ 0)) (erRange "slip")) []
    (.porterGo n a ((l.nat? "max").getD 256) blk fifo)

/-! ## SLIP -/

def Slip.toks (a : Nat) (x : Slip) : List Tok :=
  [w "SLIP", .w (hex8 a), w (if x.shelf then "SHELF" else "LOOP"), .kv "src" (hex8 x.src), .kv "dst" (hex8 x.dst),
   kd "size" x.size, kw "walk" (if x.walkDst then "DST" else "SRC"), kd "other" x.other,
   .kv "next" (if x.last then .word "END" else hex8 x.next)] ++
  (if x.shelf then [.kv "list" (hex8 x.list), kd "n" x.n, kd "scale" x.scale, kd "c0" x.c0, kd "s0" x.s0]
   else [kd "c0" x.c0, kd "s0" x.s0, kd "c1" x.c1, kd "s1" x.s1, kd "c2" x.c2, kd "s2" x.s2])

/-- The errors of a slip's address. -/
def slipErs (a : Nat) : List Er :=
  erIf (decide (a < 0x18000)) ⟨"DENIED", ["PROTECTED"]⟩ ++ erIf (decide (0x40000 < a + 32) || decide (a % 32 ≠ 0)) (erRange "addr")

/-- SLIP without fields. -/
def execSlip (l : Line) (s : State) : Host.Outcome State Fault Refusal :=
  let a := (l.posNat? 0).getD 0
  runLine { minPos := 1, pos := [("addr", .int 0 (2 ^ 32 - 1))] } l s (slipErs a) (fun s =>
    (s.touch (a / 0x8000)).okAccess l [a / 0x8000] ((slipOf (s.carrelRead a 32)).toks a))

def stepKind : Kind := .int (-8388608) 8388607
def addrKind : Kind := .int 0 (2 ^ 32 - 1)

/-- The slip a line describes. -/
def lineSlip (l : Line) : Slip :=
  let num (k : String) (d : Nat) : Nat := (l.nat? k).getD d
  let st (k : String) : Int := (l.int? k).getD 0
  { next := num "next" 0, last := (l.nat? "next").isNone, src := num "src" 0, dst := num "dst" 0, size := num "size" 1,
    shelf := l.has "list", walkDst := l.word? "walk" == some "DST", other := st "other", c0 := num "c0" 1,
    c1 := num "c1" 1, c2 := num "c2" 1, s0 := st "s0", s1 := st "s1", s2 := st "s2", list := num "list" 0,
    n := num "n" 1, scale := num "scale" 1 }

/-- SLIP with fields: 32 octets in one cycle. -/
def execSlipWrite (l : Line) (s : State) : Host.Outcome State Fault Refusal :=
  let a := (l.posNat? 0).getD 0
  let count : Kind := .int 1 65535
  runLine { minPos := 1, pos := [("addr", .int 0 (2 ^ 32 - 1))],
            keys := [("src", addrKind), ("dst", addrKind), ("size", .oneOf [1, 2, 4]), ("walk", .word ["SRC", "DST"]),
                     ("other", stepKind), ("next", .intOr 0 (2 ^ 32 - 1) ["END"]), ("c0", count), ("s0", stepKind),
                     ("c1", count), ("s1", stepKind), ("c2", count), ("s2", stepKind), ("list", addrKind),
                     ("n", count), ("scale", count)] } l s
    (slipErs a ++ erIf (!(l.has "src" && l.has "dst" && l.has "size")) erMissing ++
      erIf (decide ((l.nat? "next").getD 0 % 32 ≠ 0)) (erRange "next")) (fun s =>
      let s1 := (s.touch (a / 0x8000)).carrelWrite a (lineSlip l).bytes
      s1.okAccess l [a / 0x8000] ((slipOf (s1.carrelRead a 32)).toks a))

/-! ## Registers (Table 19.10) -/

def setPorter (f : PorterSt → PorterSt) (s : State) : State := { s with porter := f s.porter }

def porterRegs : List Reg :=
  [roReg 0x1A00 "PORTER_STATUS" [ro "edition" 31 16, ro "active" 3 0] (fun s =>
      statusWord s .porter ((List.range 4).map (fun n => b2n (s.chan n).run.isSome * 2 ^ n)).sum),
   ctrReg 0x1A04 "PORTER_RUNS" (·.porter.runs) (fun c => setPorter (fun x => { x with runs := c })),
   ctrReg 0x1A08 "PORTER_FAULTS" (·.porter.faults) (fun c => setPorter (fun x => { x with faults := c })),
   wrapReg 0x1A0C "PORTER_WRAP" 2 (fun s => [s.porter.runs, s.porter.faults])] ++
  (List.range 4).flatMap (fun n =>
    let a := 0x1A20 + 0x20 * n
    let nm (x : String) : String := "PORTER_" ++ Nat.repr n ++ "_" ++ x
    [roReg a (nm "STATE") [ro "active" 31 31, ro "last" 30 28, ro "why" 27 24, ro "past_end" 16 16, ro "slips" 15 0]
      (fun s =>
        let c := s.chan n
        BitVec.ofNat 32 (b2n c.run.isSome * 2 ^ 31 + c.last * 2 ^ 28 + c.why * 2 ^ 24 + b2n c.pastEnd * 65536 + c.slips % 65536)),
     roVal (a + 4) (nm "SLIP") 31 (fun s => BitVec.ofNat 32 (s.chan n).slip),
     roVal (a + 8) (nm "ADDR") 31 (fun s => BitVec.ofNat 32 (s.chan n).addr),
     roVal (a + 12) (nm "ELEMENTS") 31 (fun s => BitVec.ofNat 32 (s.chan n).elements)])

end Sys2Proof.Machine
end

