-- ==== Sys2Proof/Machine/Gpio.lean ====
section
/-! DEFINITION. The pads and the general pins: PINS and the pad registers (02_pins R30–R34), GPIO, its edges and its
registers (22 R576–R581). -/
namespace Sys2Proof.Machine

open Sys2Proof

/-! ## PINS (R30) -/

/-- The digital pads: pin, name, the bit of SYS_PAD_LEVEL, and the unit it needs. -/
def digitalPads : List (Nat × String × Nat × Option Feat) :=
  [(8, "ANT_CTL_A", 8, none), (9, "ANT_CTL_B", 9, none), (10, "PA_EN", 10, none), (22, "TAMP", 20, none),
   (23, "NRST", 21, none), (24, "WAKE_IN", 18, none), (25, "ATTN", 19, none), (26, "DESK_RX", 11, none),
   (27, "DESK_TX", 12, none), (28, "DESK_BUSY", 13, none), (29, "CHUTE_CS", 14, some .chute),
   (30, "CHUTE_SCK", 15, some .chute), (31, "CHUTE_SDI", 16, some .chute), (32, "CHUTE_SDO", 17, some .chute),
   (33, "GPIO_0", 0, none), (34, "GPIO_1", 1, none), (35, "GPIO_2", 2, none), (36, "GPIO_3", 3, none),
   (38, "GPIO_4", 4, none), (39, "GPIO_5", 5, none), (40, "GPIO_6", 6, none), (41, "GPIO_7", 7, none),
   (43, "SSW_OUT", 23, some .ssw), (45, "TEST_EN", 22, none)]

/-- A pad nothing drives, or whose level changes bit by bit as an octet is sent: its level is free. -/
def State.freePad (s : State) (i : Nat) : Bool := Config.padLevel s.day.cyc i

/-- The level of a digital pad, by its bit of Table 2.8 (R31). -/
def State.pinLevel (s : State) (i : Nat) : Bool :=
  match i with
  | 11 => s.pads.deskRx
  | 12 => if s.deskSending then s.freePad 12 else s.pads.deskTx
  | 14 => s.pads.chuteCs
  | 15 => s.pads.chuteSck
  | 16 => s.pads.chuteSdi
  | 17 => if s.sdoDriven && decide (0 < s.chute.octets) then s.chute.sdo.getLsbD 0 else s.freePad 17
  | 18 => s.pads.wakeIn
  | 19 => !s.events.attn
  | 20 => s.pads.tamp
  | 21 => s.pads.nrst
  | 22 => s.pads.testEn
  | _ => s.padLevel i

/-- The state word of a pad. -/
def State.pinState (s : State) (i : Nat) : String :=
  if bit s.pads.held i then "HELD"
  else if i < 8 then (if s.inBoot || decide (s.gpioFn i = 0) then "IN" else "OUT")
  else if i = 17 then (if s.sdoDriven then "OUT" else "OFF")
  else if [8, 9, 10, 12, 13, 19, 23].contains i then "OUT"
  else "IN"

def levelWord (b : Bool) : String := if b then "H" else "L"

def State.pinToks (s : State) (p : Nat × String × Nat × Option Feat) : List Tok :=
  [w "PIN", n' p.1, w p.2.1, w (levelWord (s.pinLevel p.2.2.1)), w (s.pinState p.2.2.1)]

def padNamed (x : String) : Option (Nat × String × Nat × Option Feat) := digitalPads.find? (fun p => p.2.1 == x)

/-- The pad's unit is present. -/
def State.padErs (s : State) (p : Nat × String × Nat × Option Feat) : List Er :=
  match p.2.2.2 with
  | none => []
  | some f => s.needs f

/-- PINS. -/
def execPins (l : Line) (s : State) : Host.Outcome State Fault Refusal :=
  runLine { pos := [("name", .name)] } l s
    (match l.posWord? 0 with
      | none => []
      | some x => (match padNamed x with | none => [erRange "name"] | some p => s.padErs p)) (fun s =>
      match (l.posWord? 0).bind padNamed with
      | some p => s.ok l (s.pinToks p)
      | none => s.okMany l ((digitalPads.filter (fun p => (s.padErs p).isEmpty)).map s.pinToks))

/-! ## GPIO (22 R576–R579) -/

def fnNames : List String := ["IN", "OUT", "ANT_A", "ANT_B", "EVENT", "ORDER", "LNA"]
def pullNames : List String := ["NONE", "UP", "DOWN"]
def edgeNames : List String := ["NONE", "RISE", "FALL", "BOTH"]

/-- A held pad that becomes plain I/O is host-held from then on (09_dormant R254). -/
def State.hostHeld (s : State) (n : Nat) : State :=
  if s.gpioFn n < 2 then
    { s with pads := { s.pads with heldDev := s.pads.heldDev &&& ~~~(BitVec.ofNat 32 (2 ^ n)) } }
  else s

/-- GPIO configuration replaced: a change counts once for the edition (R579), and pads follow it. -/
def State.setGpio (s : State) (cfg : Vector Word 8) (out : Word) : State :=
  if s.cfg.pins.gpio = cfg ∧ s.cfg.pins.gpioOut = out then s
  else
    let s1 := ({ s with cfg := { s.cfg with pins := { s.cfg.pins with gpio := cfg, gpioOut := out } } }).bump .gpio
    ((List.range 8).foldl State.hostHeld s1).padFollow

def State.gpioToks (s : State) (n : Nat) : List Tok :=
  let v := s.gpioCfg n
  [w "GPIO", n' n, kw "fn" (fnNames.getD (s.gpioFn n) ""),
   .kv "src" (if s.gpioFn n = 4 then .dec (fld v 22 16) else .word "NONE"), kw "invert" (yesNo (bit v 12)),
   kw "pull" (pullNames.getD (fld v 5 4) ""), kw "edge" (edgeNames.getD (fld v 9 8) ""),
   kw "level" (levelWord (s.pinLevel n)), edTok s .gpio]

/-- The refusal of an event that an EVENT pin names (R577). -/
def State.srcErs (s : State) (n : Nat) : List Er :=
  erIf (!eventDefined n) (erRange "src") ++ (match eventFeat n with | none => [] | some f => s.needs f)

/-- The configuration of a pin with the settings of a line. -/
def lineGpio (l : Line) (v : Word) : Word :=
  let code (k : String) (ws : List String) (old : Nat) : Nat := match l.word? k with | some x => ws.idxOf x | none => old
  BitVec.ofNat 32 (((l.arg "src").bind eventOf).getD (fld v 22 16) * 65536 + b2n ((l.on? "invert").getD (bit v 12)) * 4096 +
    code "edge" edgeNames (fld v 9 8) * 256 + code "pull" pullNames (fld v 5 4) * 16 + code "fn" fnNames (fld v 2 0))

def gpioCfgRegs : List CfgReg := (List.range 8).map .gpio ++ [.gpioOut]

/-- A bit of a word. -/
def putBit (v : Word) (n : Nat) (b : Bool) : Word := setFld v n n (b2n b)

/-- GPIO. -/
def execGpio (l : Line) (s : State) : Host.Outcome State Fault Refusal :=
  let n := (l.posNat? 0).getD 0
  let v := lineGpio l (s.gpioCfg n)
  let fn := fld v 2 0
  runLine { pos := [("n", .int 0 7)],
            keys := [("fn", .word fnNames), ("src", .any), ("invert", .word ["YES", "NO"]), ("pull", .word pullNames),
                     ("edge", .word edgeNames), ("level", .word ["H", "L"]), saveKey] } l s
    (erIf (l.pos.isEmpty && l.sets) erMissing ++ erIf (l.word? "fn" == some "EVENT" && !l.has "src") erMissing ++
      (match l.arg "src" with
        | none => []
        | some a => (match eventOf a with | none => [erRange "src"] | some e => s.srcErs e)) ++
      s.late (erIf (l.has "level" && fn != 1 && fn != 5) (erRange "level")) ++
      erIf (l.has "level" && fn == 5 && (match l.origin with | .port _ => true | .order _ => false))
        ⟨"DENIED", ["ORDERONLY"]⟩) (fun s =>
      let c := s.cfg.pins
      let out := match l.word? "level" with | some x => putBit c.gpioOut n (x == "H") | none => c.gpioOut
      let s1 := if l.pos.isEmpty then s else s.setGpio (vset c.gpio n v) out
      let s2 := if l.save then s1.save gpioCfgRegs else s1
      if l.pos.isEmpty then s2.okMany l ((List.range 8).map s2.gpioToks) else s2.ok l (s2.gpioToks n))

/-- An IN pin's new level holds for two cycles: the selected direction fires EV_GPIO_EDGE in Run (R578).  The level is
what the surroundings apply to the pin. -/
def execGpioEdge (n : Fin 8) (level : Bool) (s : State) : Host.Outcome State Fault Refusal :=
  let m : BitVec 8 := BitVec.ofNat 8 (2 ^ n.val)
  let was := s.gpio.filt.getLsbD n.val
  let put (v : BitVec 8) : BitVec 8 := if level then v ||| m else v &&& ~~~m
  let s1 := { s with pads := { s.pads with gpioIn := put s.pads.gpioIn },
                     gpio := { s.gpio with filt := put s.gpio.filt } }
  let e := fld (s.gpioCfg n.val) 9 8
  if s.awake && s.gpioFn n.val = 0 && was != level && (if level then e % 2 = 1 else 2 ≤ e) then
    .next (({ s1 with gpio := { s1.gpio with edges := s1.gpio.edges.inc } }).fire 94 [.kv "pins" (.hex 2 (2 ^ n.val))])
  else .next s1

/-! ## Registers (Tables 2.7, 22.6) -/

/-- The errors of a word written to GPIO_n_CONFIG (Table 22.6, R577). -/
def State.gpioWordErs (s : State) (v : Word) : List Er :=
  erIf (fld v 5 4 == 3 || fld v 2 0 == 7) (erRange "value") ++ (if fld v 2 0 = 4 then s.srcErs (fld v 22 16) else [])

def padRegs : List Reg :=
  [roReg 0x0040 "SYS_PAD_LEVEL" [ro "test_en" 22 22, ro "nrst" 21 21, ro "tamp" 20 20, ro "attn" 19 19, ro "wake_in" 18 18,
      ro "chute_sdo" 17 17, ro "chute_sdi" 16 16, ro "chute_sck" 15 15, ro "chute_cs" 14 14, ro "desk_busy" 13 13,
      ro "desk_tx" 12 12, ro "desk_rx" 11 11, ro "pa_en" 10 10, ro "ant_ctl_b" 9 9, ro "ant_ctl_a" 8 8, ro "gpio" 7 0]
      (fun s => BitVec.ofNat 32 (((List.range 23).filter (fun i => s.pinLevel i &&
        (s.has .chute || !(decide (14 ≤ i) && decide (i ≤ 17))))).map (fun i => 2 ^ i)).sum),
   roReg 0x0044 "SYS_PAD_HELD" [ro "ssw" 23 23, ro "chute_sdo" 17 17, ro "desk_busy" 13 13, ro "pa_en" 10 10,
      ro "ant_ctl_b" 9 9, ro "ant_ctl_a" 8 8, ro "gpio" 7 0] (fun s => s.pads.held),
   cfgReg 0x0048 "SYS_PAD_DRIVE" (some .sys) .padDrive [rw "gpio_drive" 5 4, rw "ctl_drive" 3 2, rw "host_drive" 1 0]
      (fun _ v => erIf (fld v 5 4 == 3 || fld v 3 2 == 3 || fld v 1 0 == 3) (erRange "value"))]

def gpioRegs : List Reg :=
  [roReg 0x2080 "GPIO_STATUS" [ro "edition" 31 16, ro "in" 7 0] (fun s =>
      statusWord s .gpio (((List.range 8).filter s.pinLevel).map (fun i => 2 ^ i)).sum),
   { addr := 0x2084, name := "GPIO_OUT", fields := [rw "value" 7 0], read := fun s => s.cfg.pins.gpioOut,
     apply := fun v s => s.setGpio s.cfg.pins.gpio v },
   ctrReg 0x2088 "GPIO_EDGES" (·.gpio.edges) (fun c s => { s with gpio := { s.gpio with edges := c } }),
   wrapReg 0x208C "GPIO_WRAP" 1 (fun s => [s.gpio.edges])] ++
  (List.range 8).map (fun n =>
    { addr := 0x20A0 + 4 * n, name := "GPIO_" ++ Nat.repr n ++ "_CONFIG",
      fields := [rw "src" 22 16, rw "invert" 12 12, rw "edge" 9 8, rw "pull" 5 4, rw "fn" 2 0],
      read := fun s => s.gpioCfg n, check := State.gpioWordErs,
      apply := fun v s => s.setGpio (vset s.cfg.pins.gpio n v) s.cfg.pins.gpioOut })

end Sys2Proof.Machine
end

