-- ==== Sys2Proof/Machine/Switch.lean ====
section
/-! DEFINITION. The sensor supply switch (22 R560–R567, R580). -/
namespace Sys2Proof.Machine

open Sys2Proof

def SState.name : SState → String
  | .off => "OFF" | .ramp => "RAMP" | .on => "ON" | .fault => "FAULT"

def SState.index : SState → Nat
  | .off => 0 | .ramp => 1 | .on => 2 | .fault => 3

/-- The causes of Table 22.3, from 1. -/
def causeName (c : Nat) : String := ["NONE", "SHORT", "OVERLOAD", "THERMAL"].getD c ""

/-- The switch changes state (R560); a held switch follows at once (09_dormant R253). -/
def State.sswTo (s : State) (x : SState) : State :=
  (({ s with ssw := { s.ssw with st := x, ramped := false } }).bump .ssw).padFollow

/-- The switch trips (R563): FAULT with its cause, the event, the counter, and the SSW ON ticket. -/
def State.sswTrip (s : State) (cause : Nat) (fields : List Tok) : State :=
  let s1 := ({ s with ssw := { s.ssw with cause := cause, limit := false, faults := s.ssw.faults.inc } }).sswTo .fault
  let s2 := s1.condOn (89 + cause) fields
  match s2.running .ssw with
  | some t => (match t.op with | .sswOn => s2.complete t.n .fault [kw "why" (causeName cause)] | _ => s2)
  | none => s2

/-- A soft-start code: 0.5 is written like a Daybook value. -/
def softOf : Arg → Option Nat
  | .time t false => if t = 9600000 then some 0 else none
  | .int v => if v = 1 then some 1 else if v = 2 then some 2 else if v = 4 then some 3 else none
  | _ => none

def softText : List String := ["0.5", "1", "2", "4"]

/-- SSW. -/
def execSsw (l : Line) (s : State) : Host.Outcome State Fault Refusal :=
  runLine { noun := true, feat := some .ssw, keys := [("soft", .any), saveKey] } l s
    ((match l.arg "soft" with | some a => erIf (softOf a).isNone (erRange "soft") | none => []) ++
      erIf (l.sets && decide (s.ssw.st = .ramp)) (erState "SSW" "RAMP")) (fun s =>
      let v : Word := match (l.arg "soft").bind softOf with | some c => BitVec.ofNat 32 c | none => s.cfg.pins.ssw
      let s1 := if v = s.cfg.pins.ssw then s else (s.cfgSet .ssw v).bump .ssw
      let s2 := if l.save then s1.save [.ssw] else s1
      s2.ok l [w "SSW", w s2.ssw.st.name, kw "soft" (softText.getD (fld s2.cfg.pins.ssw 1 0) ""),
               kw "fault" (causeName s2.ssw.cause), edTok s2 .ssw])

/-- SSW ON is legal only in OFF. -/
def State.sswOnErs (s : State) : List Er := erIf (decide (s.ssw.st ≠ .off)) (erState "SSW" s.ssw.st.name)

/-- SSW OFF is legal in RAMP, behind the ON ticket, and in ON. -/
def State.sswOffErs (s : State) : List Er :=
  erIf (decide (s.ssw.st = .off) || decide (s.ssw.st = .fault)) (erState "SSW" s.ssw.st.name)

/-- SSW ON: an SSW ticket (R561). -/
def execSswOn (l : Line) (s : State) : Host.Outcome State Fault Refusal :=
  runTicket { feat := some .ssw } .ssw l s [] s.sswOnErs .sswOn

/-- SSW OFF: an SSW ticket (R580). -/
def execSswOff (l : Line) (s : State) : Host.Outcome State Fault Refusal :=
  runTicket { feat := some .ssw } .ssw l s [] s.sswOffErs .sswOff

/-- The start of an SSW ON ticket: the ramp. -/
def State.startSswOn (s : State) : State := s.sswTo .ramp

/-- The start of an SSW OFF ticket: the switch opens. -/
def State.startSswOff (s : State) (n : Nat) : State :=
  (({ s with ssw := { s.ssw with limit := false } }).sswTo .off).complete n .done []

/-- SSW CLEAR (R564). -/
def execSswClear (l : Line) (s : State) : Host.Outcome State Fault Refusal :=
  runLine { feat := some .ssw } l s
    (erIf (decide (s.ssw.st = .ramp)) (erState "SSW" "RAMP") ++
      erIf (decide (s.ssw.st = .fault) && s.ssw.cause == 3 && s.ssw.hot) (erState "SSW" "FAULT")) (fun s =>
      let s1 := if s.ssw.st = .fault then
          (({ s with ssw := { s.ssw with cause := 0 } }).sswTo .off).condOff (89 + s.ssw.cause)
        else s
      s1.ok l [w "SSW", w "CLEAR", w s1.ssw.st.name])

/-- The ramp ends (R561). -/
def execSswRampEnd (s : State) : Host.Outcome State Fault Refusal :=
  .next (if s.ssw.st = .ramp then { s with ssw := { s.ssw with ramped := true } } else s)

/-- The check 200 µs after the ramp, with SSW_OUT and SSW_IN in mV (R561). -/
def execSswCheck (sswOut sswIn : Nat) (s : State) : Host.Outcome State Fault Refusal :=
  if s.ssw.st = .ramp && s.ssw.ramped then
    if 9 * sswIn ≤ 10 * sswOut && 1600 ≤ sswIn then
      .next (((s.sswTo .on).fire 93 []).completeRunning .ssw .done [])
    else .next (s.sswTrip 1 [kd "ssw_in" sswIn])
  else .next s

/-- The limit has been active for too long (R563): a SHORT in RAMP, an OVERLOAD in ON. -/
def execSswLimitTimeout (sswIn : Nat) (s : State) : Host.Outcome State Fault Refusal :=
  if !s.ssw.limit then .next s
  else
    match s.ssw.st with
    | .ramp => .next (if s.ssw.ramped then s else s.sswTrip 1 [kd "ssw_in" sswIn])
    | .on => .next (s.sswTrip 2 [])
    | _ => .next s

/-- The switch is held on through Dormant. -/
def State.sswHeldOn (s : State) : Bool :=
  decide (s.pwr.state = .dormant) && bit s.pads.held 23 && bit s.pads.heldLevel 23

/-- A trip in Dormant: the switch turns off, its hold ends, and the fault waits for LOGIC_RDY (R565). -/
def State.sswDormantTrip (s : State) (cause : Nat) : State :=
  ({ s with ssw := { s.ssw with st := .off, latched := cause, limit := false } }).release (BitVec.ofNat 32 (2 ^ 23))

/-- The junction reaches 150 °C (R563, R565). -/
def execSswThermal (s : State) : Host.Outcome State Fault Refusal :=
  let s1 := { s with ssw := { s.ssw with hot := true } }
  if s.sswHeldOn then .next (s1.sswDormantTrip 3)
  else if s.awake && s.sswClosed then .next (s1.sswTrip 3 [])
  else .next s

/-- The limit has been active on 33 consecutive keeper edges in Dormant (R565). -/
def execSswDormantOverload (s : State) : Host.Outcome State Fault Refusal :=
  .next (if s.sswHeldOn then s.sswDormantTrip 2 else s)

/-- A fault latched in Dormant shows at LOGIC_RDY of the next full wake (R565). -/
def State.sswWake (s : State) : State :=
  if s.ssw.latched = 0 then s
  else ({ s with ssw := { s.ssw with latched := 0 } }).sswTrip s.ssw.latched []

/-- The current limit becomes active or ceases (R563). -/
def execSswCurrentLimit (active : Bool) (s : State) : Host.Outcome State Fault Refusal :=
  .next (if s.sswClosed then { s with ssw := { s.ssw with limit := active } } else s)

/-- The junction crosses 130 °C (R564). -/
def execSswHotChange (hot : Bool) (s : State) : Host.Outcome State Fault Refusal :=
  .next (if s.has .ssw then { s with ssw := { s.ssw with hot := hot } } else s)

/-- SSW registers (Table 22.6). -/
def sswRegs : List Reg :=
  [roReg 0x2000 "SSW_STATUS" [ro "edition" 31 16, ro "fault_cause" 9 8, ro "limit" 4 4, ro "hot" 3 3, ro "state" 1 0] (fun s =>
      statusWord s .ssw (s.ssw.cause * 256 + b2n s.ssw.limit * 16 + b2n s.ssw.hot * 8 + s.ssw.st.index)),
   cfgReg 0x2004 "SSW_CONFIG" (some .ssw) .ssw [rw "soft" 1 0]
      (fun s _ => erIf (decide (s.ssw.st = .ramp)) (erState "SSW" "RAMP")),
   ctrReg 0x2008 "SSW_FAULTS" (·.ssw.faults) (fun c s => { s with ssw := { s.ssw with faults := c } }),
   wrapReg 0x200C "SSW_WRAP" 1 (fun s => [s.ssw.faults])]

end Sys2Proof.Machine
end

