-- ==== Sys2Proof/Machine/Tamper.lean ====
section
/-! DEFINITION. The tamper input, its latch, the response and the log (22 R568–R575). -/
namespace Sys2Proof.Machine

open Sys2Proof

/-! ## The log (R575) -/

def ctxName (c : Nat) : String := ["BOOT", "RUN", "DORMANT"].getD c ""

/-- The sources of an entry or of the latch. -/
def srcText (v : BitVec 2) : String := if v = 1 then "TAMP" else if v = 2 then "DIP" else "TAMP,DIP"

/-- A response writes its entry, over the one 32 before it. -/
def State.tamperEntry (s : State) (r : TamperResp) : State :=
  let q := if (s.tamper.seq + 1) % 2 ^ 32 = 0 then 1 else (s.tamper.seq + 1) % 2 ^ 32
  let old := vget s.tamper.log (q % 32) none
  let e : TamperEntry := { seq := q, at_ := r.at_, source := r.what.source.toNat, ctx := r.what.ctx, erased := r.erased }
  let s1 := { s with tamper := { s.tamper with log := vset s.tamper.log (q % 32) (some e), seq := q } }
  (if old.isSome then s1.fire 89 [kd "seq" q] else s1).rowWrite { what := .tamperLog (q % 32) e.octets }

/-! ## The response (R571, R572, 18 R490) -/

/-- The slots that a response erases. -/
def State.eraseList (s : State) (x : TamperSet) : List Nat :=
  if !s.has .vault then []
  else (List.range 8).filter (fun k => s.vault.eraseMask.getLsbD 0 || s.vault.eraseMask.getLsbD k || x.slot == some k)

/-- A response begins: the flagged slots are erased; without a Vault the log entry is all there is (R571). -/
def State.tamperRespond (s : State) : State :=
  match s.tamper.owed, s.tamper.resp with
  | some x, none =>
    let ks := s.eraseList x
    let r : TamperResp := { what := x, at_ := s.now, erased := BitVec.ofNat 8 (maskOf ks) }
    let s1 := { s with tamper := { s.tamper with owed := none } }
    if !s.has .vault then s1.tamperEntry r
    else
      let s2 := if ks.isEmpty then s1 else ((s1.eraseSlots ks).bump .vault).rowWrites (ks.map (fun k => .key k none)) none
      { s2 with tamper := { s2.tamper with resp := some r } }
  | _, _ => s

/-- Erasure completes: its event and counter, and the log entry; a setting that came meanwhile is answered next. -/
def State.tamperFinish (s : State) : State :=
  match s.tamper.resp with
  | none => s
  | some r =>
    let s1 := { s with tamper := { s.tamper with resp := none } }
    let s2 := if r.erased = 0 then s1
      else ({ s1 with vault := { s1.vault with erasures := s1.vault.erasures.inc } }).fire 83
        [.kv "slots" (.hex 2 r.erased.toNat)]
    (s2.tamperEntry r).tamperRespond

/-- ERASURE_DONE. -/
def execErasureDone (s : State) : Host.Outcome State Fault Refusal := .next s.tamperFinish

/-! ## The latch (R570) -/

/-- The context of a setting of the latch. -/
def State.tamperCtx (s : State) : Nat :=
  match s.pwr.state with
  | .dormant => 2
  | .wake _ _ => 1
  | _ => if s.sys.stage = .ready then 1 else 0

/-- The key operation that a setting of the latch aborts, and the slot it would have written (R572). -/
def State.keyOp (s : State) : Option (Nat × Option Nat) :=
  match s.running .vault with
  | none => none
  | some t =>
    match t.op with
    | .vaultLoad k _ _ => some (t.n, some k)
    | .vaultCcm _ _ _ _ _ _ _ => some (t.n, none)
    | _ => none

/-- EV_TAMPER fires as its condition begins, with the latch's counter (R570): in Dormant both wait for LOGIC_RDY. -/
def State.tamperEvent (s : State) (x : TamperSet) : State :=
  ({ s with tamper := { s.tamper with latches := s.tamper.latches.inc } }).condOn 88
    [kw "src" (srcText x.source), kw "ctx" (ctxName x.ctx)]

/-- The latch is set. -/
def State.tamperLatch (s : State) (src : BitVec 2) : State :=
  let t := s.tamper
  let per := s.day.keeper
  let s1 := { s with tamper := { t with latched := true, source := t.source ||| src } }
  let s2 := if t.latched then s1 else s1.bump .tamper
  -- both sources in one keeper period make one setting (Table 22.9)
  match t.owed, t.resp with
  | some x, _ =>
    if x.period = per then { s2 with tamper := { s2.tamper with owed := some { x with source := x.source ||| src } } } else s2
  | none, some r =>
    if r.what.period = per then
      { s2 with tamper := { s2.tamper with resp := some { r with what := { r.what with source := r.what.source ||| src } } } }
    else
      let x : TamperSet := { source := src, ctx := s.tamperCtx, period := per }
      ({ s2 with tamper := { s2.tamper with owed := some x } }).tamperEvent x
  | none, none =>
    let k := s.keyOp
    let x : TamperSet := { source := src, ctx := s.tamperCtx, slot := k.bind (·.2), period := per }
    let s3 := { s2 with tamper := { s2.tamper with owed := some x } }
    let s4 := match k with | some (n, _) => s3.complete n .tampered [] | none => s3
    if !(s.booting || s.awake || decide (s.pwr.state = .entry false false) || decide (s.pwr.state = .entry true false)) then s4
    else if s.inRun then (s4.tamperEvent x).tamperRespond
    else s4.tamperEvent x

/-- Sensing runs from the end of the POWER stage (R568). -/
def State.senses (s : State) (mode : Nat) : Bool :=
  decide (s.sys.hold = .none) && decide (s.sys.stage ≠ .power) && decide (fld s.cfg.pins.tamper 1 0 = mode)

/-- A level is the active one; in Dormant TAMP is inactive while VDDIO is low (02_pins R17). -/
def State.tampActive (s : State) (level : Bool) : Bool :=
  (level != bit s.cfg.pins.tamper 2) && (s.pwr.vddioOk || decide (s.pwr.state ≠ .dormant))

/-- One sample in SAMPLED mode (R568): the latch is set by an active reading that follows an inactive one. -/
def State.tamperSampled (s : State) (level : Bool) : State :=
  if s.senses 1 then
    let a := s.tampActive level
    let s1 := { s with pads := { s.pads with tamp := level }, tamper := { s.tamper with level := a } }
    if a && !s.tamper.level then s1.tamperLatch 1 else s1
  else s

/-- One keeper edge in CONTINUOUS mode: the second active reading in a row latches (R568). -/
def State.tamperEdge (s : State) (level : Bool) : State :=
  if s.senses 2 then
    let a := s.tampActive level
    let s1 := { s with pads := { s.pads with tamp := level },
                       tamper := { s.tamper with level := a, seenOnce := a && !s.tamper.level } }
    if a && s.tamper.seenOnce then s1.tamperLatch 1 else s1
  else s

/-- A fast dip of VBAT (R569). -/
def State.tamperDip (s : State) : State :=
  if decide (s.sys.hold = .none) && decide (s.sys.stage ≠ .power) && bit s.cfg.pins.tamper 4 then s.tamperLatch 2 else s

/-! ## TAMPER -/

def modeNames : List String := ["OFF", "SAMPLED", "CONTINUOUS"]

def State.tamperToks (s : State) : List Tok :=
  let c := s.cfg.pins.tamper
  [w "TAMPER", w (if s.tamper.latched then "LATCHED" else "CLEAR"), kw "mode" (modeNames.getD (fld c 1 0) ""),
   kw "polarity" (if bit c 2 then "LOW" else "HIGH"), kw "dip" (onOff (bit c 4)), kw "lockout" (onOff (bit c 8)),
   kw "level" (if s.tamper.level then "ACTIVE" else "INACTIVE"), edTok s .tamper]

/-- TAMPER. -/
def execTamper (l : Line) (s : State) : Host.Outcome State Fault Refusal := runLine { noun := true } l s [] (fun s => s.ok l s.tamperToks)

/-- TAMPER_CONFIG replaced: a change of mode or polarity restarts the filter. -/
def State.setTamper (s : State) (v : Word) : State :=
  if v = s.cfg.pins.tamper then s
  else
    let s1 := (s.cfgSet .tamper v).bump .tamper
    if fld v 2 0 = fld s.cfg.pins.tamper 2 0 then s1 else { s1 with tamper := { s1.tamper with seenOnce := false } }

def State.tamperLatchedErs (s : State) : List Er := erIf s.tamper.latched (erState "TAMPER" "LATCHED")

/-- TAMPER with settings (R570). -/
def execTamperSettings (l : Line) (s : State) : Host.Outcome State Fault Refusal :=
  let onOffKey : Kind := .word ["ON", "OFF"]
  runLine { noun := true, order := false, keys := [("mode", .word modeNames), ("polarity", .word ["HIGH", "LOW"]), ("dip", onOffKey),
                                     ("lockout", onOffKey), saveKey] } l s
    ((if l.has "lockout" then s.needs .vault else []) ++ (if l.sets then s.tamperLatchedErs else [])) (fun s =>
      let c := s.cfg.pins.tamper
      let mode := match l.word? "mode" with | some x => modeNames.idxOf x | none => fld c 1 0
      let low := match l.word? "polarity" with | some x => x == "LOW" | none => bit c 2
      let v : Word := BitVec.ofNat 32 (b2n ((l.on? "lockout").getD (bit c 8)) * 256 + b2n ((l.on? "dip").getD (bit c 4)) * 16 +
        b2n low * 4 + mode)
      let s1 := s.setTamper v
      let s2 := if l.save then s1.save [.tamper] else s1
      s2.ok l s2.tamperToks)

/-- TAMPER CLEAR (R570). -/
def execTamperClear (l : Line) (s : State) : Host.Outcome State Fault Refusal :=
  runLine { order := false } l s
    (erIf s.tamper.level ⟨"DENIED", ["ACTIVE"]⟩ ++ s.busyErs) (fun s =>
      let s1 := { s with tamper := { s.tamper with latched := false, source := 0 } }
      let s2 := if s.tamper.latched then (s1.bump .tamper).condOff 88 else s1
      s2.ok l [w "TAMPER", w "CLEAR", edTok s2 .tamper])

/-- The valid entries, the latest first, at most k. -/
def State.logEntries (s : State) (k : Nat) : List TamperEntry :=
  (List.range k).filterMap (fun i =>
    let q := (s.tamper.seq + 2 ^ 32 - i) % 2 ^ 32
    (vget s.tamper.log (q % 32) none).bind (fun e => if e.seq = q then some e else none))

/-- TAMPER LOG (R575). -/
def execTamperLog (l : Line) (s : State) : Host.Outcome State Fault Refusal :=
  runLine { keys := [("n", .int 1 32)] } l s [] (fun s =>
    let es := s.logEntries ((l.nat? "n").getD 8)
    s.okMany l (if es.isEmpty then [[w "TAMPER", w "LOG", w "NONE"]]
      else es.map (fun e => [w "TAMPER", w "LOG", n' e.seq, .kv "at" (.time e.at_),
        kw "src" (srcText (BitVec.ofNat 2 e.source)), kw "ctx" (ctxName e.ctx), .kv "erased" (.hex 2 e.erased.toNat)])))

/-- TAMPER registers (Table 22.6). -/
def tamperRegs : List Reg :=
  [roReg 0x2040 "TAMPER_STATUS" [ro "edition" 31 16, ro "responding" 8 8, ro "level" 4 4, ro "source" 3 2, ro "latched" 0 0]
      (fun s => statusWord s .tamper (b2n s.tamper.resp.isSome * 256 + b2n s.tamper.level * 16 +
        s.tamper.source.toNat * 4 + b2n s.tamper.latched)),
   { addr := 0x2044, name := "TAMPER_CONFIG",
     fields := [rw "lockout" 8 8, rw "dip" 4 4, rw "polarity" 2 2, rw "mode" 1 0], read := fun s => s.cfg.pins.tamper,
     check := fun s v => erIf (fld v 1 0 == 3) (erRange "value") ++ (if bit v 8 then s.needs .vault else []) ++
       s.tamperLatchedErs,
     apply := fun v s => s.setTamper v },
   ctrReg 0x2048 "TAMPER_LATCHES" (·.tamper.latches) (fun c s => { s with tamper := { s.tamper with latches := c } }),
   wrapReg 0x204C "TAMPER_WRAP" 1 (fun s => [s.tamper.latches]),
   roVal 0x2050 "TAMPER_LOG_SEQ" 31 (fun s => BitVec.ofNat 32 s.tamper.seq)]

end Sys2Proof.Machine
end

