-- ==== Sys2Proof/Machine/Tickets.lean ====
section
/-! DEFINITION. The ticket verbs that report, returns, editions and the TICKETS registers (06_tickets).  Starting,
cancelling and timing tickets stands in Start.lean, after the units that run them. -/
namespace Sys2Proof.Machine

open Sys2Proof

def posN : List (String × Kind) := [("n", .int 0 511)]

/-- The tokens that describe a ticket or a free number (R153, TICKET's entry). -/
def State.ticketLine (s : State) (n : Nat) : List Tok :=
  match s.ticket? n with
  | some t =>
    [w "TICKET", n' n, w t.st.name, kw "queue" (queueName t.queue)] ++
      (match t.after with | none => [] | some m => [kd "after" m]) ++
      (match t.due with | none => [] | some d => [.kv "due" (.time d)]) ++
      (match t.guard with | none => [] | some g => [kw "if" (g.1.name ++ ":" ++ Nat.repr g.2)]) ++
      (match t.result with | none => [] | some r => [kw "result" r.name])
  | none =>
    match s.past? n with
    | some p => [w "TICKET", n' n, w "FREE", kw "queue" (queueName p.queue)] ++
        (match p.result with | none => [] | some r => [kw "result" r.name])
    | none => [w "TICKET", n' n, w "FREE", kw "queue" "NONE"]

/-- Tickets held for RET, both ports. -/
def State.heldTickets (s : State) : Nat := (s.tickets.pool.filter (fun t => decide (t.st = .held))).length

def State.orderTickets (s : State) : Nat :=
  (s.tickets.pool.filter (fun t => !t.owner.isHost)).length

/-- TICKET. -/
def execTicket (l : Line) (s : State) : Host.Outcome State Fault Refusal :=
  runLine { pos := posN } l s [] (fun s =>
    match l.posNat? 0 with
    | some n => s.ok l (s.ticketLine n)
    | none => s.ok l [w "TICKET", kd "free" (512 - s.tickets.pool.length : Nat), kd "host" s.hostTickets,
        kd "order" s.orderTickets, kd "held" s.heldTickets, .kv "last" (noneOr s.tickets.last)])

/-- The port of a line. -/
def originPort : Origin → Option Port
  | .port p => some p
  | .order _ => none

/-- RET is accepted only on a port with hold ON. -/
def State.noHold (s : State) (o : Origin) : List Er :=
  match originPort o with
  | some p => erIf (!s.holdOn p) (erState (portName p) "NOHOLD")
  | none => []

/-- The errors of a ticket number given to RET. -/
def State.retErs (s : State) (o : Origin) (n : Nat) : List Er :=
  match s.ticket? n, originPort o with
  | some t, some p =>
    if t.owner = .host p then erIf (!(decide (t.st = .held))) (erState "TICKETS" t.st.name) else [erRange "n"]
  | _, _ => [erRange "n"]

def retToks (t : Ticket) : List Tok :=
  [w "OK", w "RET", n' t.n, w (t.result.map Result.name |>.getD "")] ++ t.fields

/-- RET n: the return is sent as the reply and its ticket is freed when the line has been sent (R171). -/
def execRet (l : Line) (s : State) : Host.Outcome State Fault Refusal :=
  let n := (l.posNat? 0).getD 512
  runLine { order := false, minPos := 1, pos := posN } l s (s.noHold l.origin ++ s.retErs l.origin n) (fun s =>
    match s.ticket? n with
    | some t => s.replyLines l (.ret n) false [retToks t] t.block
    | none => s)

/-- The held returns of a port, in order of completion. -/
def State.heldOf (s : State) (p : Port) : List Ticket :=
  (s.tickets.pool.filter (fun t => decide (t.owner = .host p) && decide (t.st = .held))).insertionSort
    (fun a b => a.doneSeq ≤ b.doneSeq)

/-- RET without a number. -/
def execRetAll (l : Line) (s : State) : Host.Outcome State Fault Refusal :=
  runLine { noun := true, order := false } l s (s.noHold l.origin) (fun s =>
    match originPort l.origin with
    | none => s
    | some p =>
      let ts := s.heldOf p
      let s1 := ts.foldl (fun s t => s.push p { kind := .ret t.n, tag := l.tag, toks := retToks t,
                                                block := t.block }) s
      s1.push p { kind := .reply true, tag := l.tag, toks := [w "OK", w "END", n' ts.length] })

/-- EDITION (R178): every edition is read in one cycle. -/
def execEdition (l : Line) (s : State) : Host.Outcome State Fault Refusal :=
  let line (s : State) (u : EdUnit) : List Tok := [w "EDITION", kd u.name (s.edition u).toNat]
  runLine { pos := [("unit", .any)] } l s
    (match l.at? 0 with
      | some (.word x) => (match edUnitOf x with | none => [⟨"UNKNOWN", [x]⟩] | some u => s.unitAbsent u)
      | some _ => [erRange "unit"]
      | none => []) (fun s =>
      match (l.posWord? 0).bind edUnitOf with
      | some u => s.ok l (line s u)
      | none => s.okMany l ((EdUnit.all.filter (fun u => (s.unitAbsent u).isEmpty)).map (line s)))

/-! ## Registers (Table 6.7) -/

def ticketCounters (s : State) : List Counter :=
  [s.tickets.noTicket, s.tickets.overdue, s.tickets.stale, s.tickets.stateC, s.tickets.cancelled]

def ticketRegs : List Reg :=
  [roReg 0x2600 "TICKETS_STATUS" [ro "held" 29 20, ro "order" 19 10, ro "free" 9 0] (fun s =>
      BitVec.ofNat 32 (s.heldTickets * 2 ^ 20 + s.orderTickets * 2 ^ 10 + (512 - s.tickets.pool.length))),
   cfgReg 0x2604 "TICKETS_CONFIG" none .ticketsLow [rw "low_mark" 8 0] (fun _ v => fieldOut v 8 0 0 480),
   roReg 0x2608 "TICKETS_LAST" [ro "valid" 31 31, ro "last" 8 0] (fun s =>
      match s.tickets.last with | none => 0 | some n => BitVec.ofNat 32 (2 ^ 31 + n)),
   ctrReg 0x260C "TICKETS_NOTICKET" (·.tickets.noTicket)
      (fun c s => { s with tickets := { s.tickets with noTicket := c } }),
   ctrReg 0x2610 "TICKETS_OVERDUE" (·.tickets.overdue)
      (fun c s => { s with tickets := { s.tickets with overdue := c } }),
   ctrReg 0x2614 "TICKETS_STALE" (·.tickets.stale) (fun c s => { s with tickets := { s.tickets with stale := c } }),
   ctrReg 0x2618 "TICKETS_STATE" (·.tickets.stateC) (fun c s => { s with tickets := { s.tickets with stateC := c } }),
   ctrReg 0x261C "TICKETS_CANCELLED" (·.tickets.cancelled)
      (fun c s => { s with tickets := { s.tickets with cancelled := c } }),
   wrapReg 0x2620 "TICKETS_WRAP" 5 ticketCounters] ++
  EdUnit.all.map (fun u => roReg (0x2680 + 4 * u.index) ("TICKETS_ED_" ++ Nat.repr u.index) [ro "edition" 15 0]
    (fun s => if (s.unitAbsent u).isEmpty then BitVec.ofNat 32 (s.edition u).toNat else 0))

end Sys2Proof.Machine
end

