-- ==== Sys2Proof/Machine/Start.lean ====
section
/-! DEFINITION. A ticket at the head of its queue, its start, its deadline and its cancellation (06_tickets R155–R169),
DAY SET, which scheduled tickets refuse (05 R141), and the firing of an alarm. -/
namespace Sys2Proof.Machine

open Sys2Proof

/-! ## The present-state rule at the start (R166) -/

/-- The unit and state of the first state error. -/
def erPair (es : List Er) : Option (String × String) :=
  es.head?.map (fun e => (e.detail.getD 0 "", e.detail.getD 1 ""))

/-- TAMPER LATCHED while the response runs, in which no Vault verb acts (22 Table 22.4), and it does not wait (06 R167).
DESIGN CHOICE (log entry 69): the spec gives a ticket's start there no result of its own. -/
def State.respErs (s : State) : List Er := erIf s.tamperBusy (erState "TAMPER" "LATCHED")

/-- TAMPER LATCHED under lockout too (22 R573). -/
def State.lockErs (s : State) : List Er := s.respErs ++ erIf s.tamperLocked (erState "TAMPER" "LATCHED")

/-- What forbids the operation when its ticket would start. -/
def State.startForbid (s : State) (op : TicketOp) : Option (String × String) :=
  match op with
  | .assoc _ _ _ _ => erPair (erIf (decide (s.link.st ≠ .unassoc)) (erState "LINK" s.link.st.name))
  | .leave _ => erPair s.needAssoc
  | .poll _ => erPair s.needAssoc
  | .trimRun items _ _ _ => s.trimForbids items
  | .rawOff => erPair (s.noiseErs [.startup, .failed])
  | .rawCapture _ => erPair (s.noiseErs [.startup, .failed])
  | .vaultLoad _ _ wrapped =>
    erPair (s.lockErs ++ erIf (!wrapped && s.vault.sealed) (erState "VAULT" "SEALED") ++
      erIf (s.slotKey 0).isNone (erState "VAULT" (sealName s.vault.sealed)) ++ s.noiseErs [.raw, .failed])
  | .vaultErase _ => erPair s.respErs
  | .tariffSched _ _ => erPair s.pendErs
  | .vaultRand _ => erPair (s.lockErs ++ s.noiseErs [.startup, .raw, .failed])
  | .vaultCcm _ _ _ _ _ _ _ => erPair s.lockErs
  | .stacksPart _ _ _ => erPair s.porterErs
  | .archAdd _ _ _ => erPair s.partErs
  | .archFind _ _ _ _ _ _ _ _ _ => erPair s.partErs
  | .archMark _ _ _ _ => erPair s.partErs
  | .archDrop _ => erPair s.partErs
  | .collateFeed n _ _ => erPair (s.closedErs n)
  | .collateClose n _ => erPair (s.closedErs n)
  | .orderStore k _ => erPair (s.orderBusyErs k)
  | .orderErase k => erPair (s.orderBusyErs k)
  | .sswOn => erPair s.sswOnErs
  | .sswOff => erPair s.sswOffErs
  | _ => none

/-! ## Starts -/

/-- An operation of the link begins (15 R397). -/
def State.linkStart (s : State) (o : LinkOp) : State := ({ s with link := { s.link with op := some o } }).linkAttempt

/-- The Association Request (15 R401 step 1). -/
def State.assocFrame (s : State) (parent : Addr) (pan : BitVec 16) : TxFrame :=
  { ftype := 3, pan := pan, dst := parent, src := .ext s.eui, ackReq := true,
    payload := [0x01, if s.has .vault then 0xC0 else 0x80] }

/-- LINK ASSOC starts: the PAN ID is loaded, and the request is sent. -/
def State.startAssoc (s : State) (n : Nat) (parent : Addr) (pan : BitVec 16) (plan chan : Nat) : State :=
  let f : Word := BitVec.ofNat 32 (fld s.cfg.frame.filter 31 16 * 65536 + pan.toNat)
  let s1 := if s.cfg.frame.filter = f then s else (s.cfgSet .filter f).bump .frame
  let o : LinkOp := { ticket := n, kind := .assocReq, plan := plan, chan := chan, parent := parent }
  let s2 := ({ s1 with link := { s1.link with op := some o } }).linkTo .associating
  (s2.buildOp (s2.assocFrame parent pan)).linkAttempt

/-- LINK LEAVE starts: the Notification, or with notify=NO its completion (15 R406). -/
def State.startLeave (s : State) (n : Nat) (notify : Bool) : State :=
  let o : LinkOp := { ticket := n, kind := .leave, plan := s.opPlan, chan := s.opChan }
  let s1 := { s with link := { s.link with op := some o } }
  if notify then
    let f : TxFrame := { ftype := 3, pan := s.ownPan, dst := .short ((s.link.assoc.map (·.parent)).getD 0xFFFE),
                         src := .ext s.eui, ackReq := true, payload := [0x03, 0x02] }
    (s1.buildOp f).linkAttempt
  else s1.linkEnd .done []

/-- LINK POLL starts (15 R408). -/
def State.startPoll (s : State) (n repoll : Nat) : State :=
  let o : LinkOp := { ticket := n, kind := .poll, plan := s.opPlan, chan := s.opChan, repoll := repoll,
                      peer := s.link.assoc }
  let s1 := { s with link := { s.link with op := some o } }
  (s1.buildOp (s1.pollFrame o)).linkAttempt

/-- A listening ticket starts; its duration runs from here (11 R308, 13 R362, R363). -/
def State.startListen (s : State) (n : Nat) (k : ListenKind) (durMs : Option Nat) (plan chan : Nat) : State :=
  s.listenerStart { kind := k, ticket := n, plan := plan, chan := chan,
                    endAt := durMs.map (fun d => s.day.cyc + d * tickMs) }

/-- A frame of the TX ring is sent; without a key or a counter it fails without keying (14 R385). -/
def State.startSend (s : State) (o : LinkOp) : State :=
  match s.secWhy o.frame with
  | some y => (match o.entry with | some e => s.ringFree e | none => s).complete o.ticket .fail [kw "why" y]
  | none => s.linkStart { o with octets := s.airOctets o.frame }

/-- A scan starts, or fails where the operating channel lies outside the span or the profile has no census (13 R362). -/
def State.startScan (s : State) (n durMs : Nat) : State :=
  if !s.inSpan s.opPlan s.opChan then s.complete n .fail [kw "why" "SPAN"]
  else if !s.profile.wakes then s.complete n .fail [kw "why" "PROFILE"]
  else s.startListen n .scan (some durMs) s.opPlan s.opChan

/-- The operation of a started ticket begins. -/
def State.startOp (s : State) (n : Nat) (op : TicketOp) : State :=
  match op with
  | .pwrMeasure => s.startMeasure false
  | .eventSave => s.startEventSave n
  | .txCw d => s.linkStart { ticket := n, kind := .cw, plan := s.opPlan, chan := s.opChan, dur := d }
  | .rx d p c => s.startListen n .rx d p c
  | .ccaCheck p c => s.startListen n .check none p c
  | .censusScan d => s.startScan n d
  | .frameSend f p c e =>
    s.startSend { ticket := n, kind := .send, frame := f, plan := p, chan := c, entry := some e }
  | .assoc a pan p c => s.startAssoc n a pan p c
  | .leave b => s.startLeave n b
  | .poll r => s.startPoll n r
  | .linkWake f child at_ e =>
    s.startSend { ticket := n, kind := .wake, frame := f, plan := s.opPlan, chan := s.opChan, entry := some e,
                  child := child, sniffAt := at_ }
  | .tariffSched _ _ => s.startTariff
  | .trimRun items all p c => s.startTrim n items all p c
  | .rawOff => s.startRawOff n
  | .rawCapture _ => s.startCapture n
  | .vaultLoad _ _ _ => s
  | .vaultErase ks => s.startErase n ks
  | .vaultRand _ => s.startRand
  | .vaultCcm _ _ _ _ _ _ _ => s
  | .recordWrite a o => s.startRecordWrite n a o
  | .stacksPart k p r => s.startPart n k p r
  | .stacksWrite a o => s.startStacksWrite n a o
  | .archAdd k o src => s.startArchAdd n k o src
  | .archFind _ _ _ _ _ _ _ _ _ => s
  | .archMark r l a b => s.startMark n r l a b
  | .archDrop u => s.startDrop n u
  | .porterGo ch a m i f => s.startPorter n ch a m i f
  | .collateFeed k _ src => s.startFeed k src
  | .collateClose _ _ => s
  | .orderStore k x => s.startOrderStore n k x
  | .orderSet k c => s.startOrderSet n k c
  | .orderErase k => s.startOrderErase n k
  | .orderRun k => s.startOrderRun n k
  | .sswOn => s.startSswOn
  | .sswOff => s.startSswOff n

/-! ## At the head of a queue (R159) -/

/-- The result of the ticket that AFTER= names, once it has completed (R161): the one issued before this ticket. -/
def State.awaited (s : State) (t : Ticket) (m : Nat) : Option (Option Result) :=
  match (s.tickets.pool.takeWhile (fun x => x.n != t.n)).find? (fun x => x.n == m) with
  | some x => if x.live then none else some x.result
  | none => some ((s.past? m).bind (·.result))

/-- What the line of an unstarted ticket set up is undone (14 R387, 16 R441, 17 R458). -/
def State.undo (s : State) (t : Ticket) (r : Result) : State :=
  match t.op with
  | .frameSend _ _ _ e => s.ringFree e
  | .linkWake _ _ _ e => s.ringFree e
  | .tariffSched _ _ => if s.ledger.pendTicket = some t.n then s.unschedule else s
  | .trimRun (i :: _) _ _ _ => if (r == Result.state) then s.trimLast i 4 0 0 else s
  | _ => s

/-- A ticket ends before it has started. -/
def State.endUnstarted (s : State) (t : Ticket) (r : Result) (fields : List Tok) : State :=
  (s.undo t r).complete t.n r fields

/-- Several tickets end in one cycle before they have started. -/
def State.endAll (s : State) (ts : List Ticket) (r : Result) (fields : List Tok) : State :=
  (ts.foldl (fun s t => s.undo t r) s).completeAll (ts.map (fun t => (t, r, fields)))

/-- What passing step 3 of R159 does before a fixed start (16 R440). -/
def State.headed (s : State) (t : Ticket) : State :=
  match t.op with
  | .tariffSched k b => s.adopt t.n k b
  | _ => s

/-- Steps 2 to 5 of R159. -/
def State.tryStart (s : State) (t : Ticket) : State :=
  match t.guard with
  | some (u, e) => if (s.edition u).toNat = e then go s t else s.endUnstarted t .stale []
  | none => go s t
where
  /-- Steps 3 to 5. -/
  go (s : State) (t : Ticket) : State :=
    match s.startForbid t.op with
    | some (u, x) => s.endUnstarted t .state [kw "unit" u, kw "state" x]
    | none =>
      let s := s.headed t
      match t.startAt with
      | some b =>
        if b ≤ s.now then start s t else s.updTicket t.n (fun t => { t with st := .waiting, timed := true })
      | none => start s t
  /-- Step 5. -/
  start (s : State) (t : Ticket) : State :=
    (s.updTicket t.n (fun t => { t with st := .running })).startOp t.n t.op

def State.goOverdue (s : State) (t : Ticket) : State := s.endUnstarted t .overdue []

/-- TICKET_HEAD: the ticket at the head of a queue is decided; one that waits in step 4 goes on waiting. -/
def execTicketHead (q : Queue) (s : State) : Host.Outcome State Fault Refusal :=
  match s.head q with
  | none => .next s
  | some t =>
    if !s.awake || !t.unstarted || t.timed then .next s
    else if s.isOverdue t then .next (s.goOverdue t)
    else
      match t.after with
      | none => .next ((s.tryStart t).settled s)
      | some m =>
        match s.awaited t m with
        | none => .next (s.updTicket t.n (fun t => { t with st := .waiting }))
        | some r =>
          if r = some .done then .next ((s.tryStart t).settled s)
          else .next (s.endUnstarted t .cancelled [kw "by" "AFTER", kd "after" m])

/-- A ticket that waits in step 4 of R159, at the head of its queue, for a time that has been reached. -/
def State.timedDue (s : State) (t : Ticket) : Bool :=
  decide (t.st = .waiting) && t.timed && (match t.startAt with | some b => decide (b ≤ s.now) | none => false)

/-- TICKET_OVERDUE. -/
def execTicketOverdue (n : Nat) (s : State) : Host.Outcome State Fault Refusal :=
  match s.ticket? n with
  | none => .next s
  | some t => .next (if s.awake && s.isOverdue t then s.goOverdue t else s)

/-! ## Cancellation (R168, R169) -/

/-- The operation of the link has not begun keying its first frame (11 R307, 14 R387). -/
def State.unkeyed (s : State) : Bool :=
  (match s.link.op with | some o => o.tries == 0 | none => false) &&
    (match s.radio.tx with
      | none => true
      | some t =>
        match t.kind with
        | .frame => decide (t.phase = .tune) || decide (t.phase = .lead)
        | .cw => decide (t.phase = .tune) || decide (t.phase = .lead)
        | _ => true)

/-- The operation of a running ticket is interruptible now. -/
def State.interruptible (s : State) (t : Ticket) : Bool :=
  match t.op with
  | .rx _ _ _ => true
  | .ccaCheck _ _ => true
  | .censusScan _ => true
  | .frameSend _ _ _ _ => s.unkeyed
  | .txCw _ => s.unkeyed
  | .trimRun _ _ _ _ => true
  | .rawCapture _ => true
  | .porterGo _ _ _ _ _ => true
  | .collateFeed _ _ _ => true
  | .sswOn => true
  | _ => false

/-- The link's operation is cancelled before its first keying; a booking it has made is taken back. -/
def State.linkCancel (s : State) (by_ : String) : State :=
  let mine : Bool := match s.radio.tx with
    | some t => (match t.kind with | .frame => true | .cw => true | _ => false)
    | none => false
  let s1 := if mine then
      ({ s with pads := { s.pads with paEn := false }, radio := { s.radio with tx := none } }).padFollow.settleBooking 0
    else s
  s1.linkEnd .cancelled [kw "by" by_]

/-- A running operation is stopped. -/
def State.cancelRunning (s : State) (t : Ticket) (by_ : String) : State :=
  match t.op with
  | .frameSend _ _ _ _ => s.linkCancel by_
  | .txCw _ => s.linkCancel by_
  | .trimRun _ _ _ _ => s.trimCancel by_
  | .porterGo ch _ _ _ _ => s.cancelPorter ch by_
  | .collateFeed n _ _ => s.complete t.n .cancelled [kw "by" by_, kd "n" (s.col n).fed]
  | .sswOn => (({ s with ssw := { s.ssw with limit := false } }).sswTo .off).complete t.n .cancelled [kw "by" by_]
  | .rawCapture _ => s.complete t.n .cancelled [kw "by" by_]
  | _ =>
    let s1 := s.updTicket t.n (fun t => { t with cancelBy := some by_ })
    match s1.radio.listeners.find? (fun x => x.ticket == t.n) with
    | some x => s1.listenerStop x .cancelled
    | none => s1

/-- A ticket that can be cancelled now is. -/
def State.cancelTicket (s : State) (t : Ticket) (by_ : String) : State :=
  if t.unstarted then s.endUnstarted t .cancelled [kw "by" by_]
  else if t.live && s.interruptible t then s.cancelRunning t by_
  else s

def byName : Origin → String
  | .port _ => "HOST"
  | .order _ => "ORDER"

/-- The ticket may be named by the origin: an order's own from an order, a host's from a port. -/
def mayCancel : Origin → Owner → Bool
  | .port _, .host _ => true
  | .order k, .order j => decide (j = k)
  | _, _ => false

/-- The errors of CANCEL n. -/
def State.cancelErs (s : State) (l : Line) : List Er :=
  match (l.posNat? 0).bind s.ticket? with
  | none => s.late [erRange "n"]
  | some t =>
    s.late (erIf (!mayCancel l.origin t.owner) ⟨"DENIED", ["ORDER"]⟩) ++
      erIf (!t.live || (decide (t.st = .running) && !s.interruptible t)) (erState "TICKETS" t.st.name)

/-- CANCEL n. -/
def execCancel (l : Line) (s : State) : Host.Outcome State Fault Refusal :=
  runLine { minPos := 1, pos := posN } l s (s.cancelErs l) (fun s =>
    match (l.posNat? 0).bind s.ticket? with
    | none => s
    | some t => (s.ok l [w "CANCEL", n' t.n, w t.st.name]).cancelTicket t (byName l.origin))

/-- The unstarted tickets that CANCEL ALL cancels, in issue order. -/
def State.cancellable (s : State) (o : Origin) : List Ticket :=
  s.tickets.pool.filter (fun t => t.unstarted && mayCancel o t.owner)

/-- CANCEL ALL. -/
def execCancelAll (l : Line) (s : State) : Host.Outcome State Fault Refusal :=
  runLine {} l s [] (fun s =>
    let ts := s.cancellable l.origin
    (s.ok l [w "CANCEL", w "ALL", kd "count" ts.length]).endAll ts .cancelled [kw "by" (byName l.origin)])

/-! ## DAY SET (05 R141, R142, 10 R280, R282) -/

/-- What a set does to the units: the ledger's interval, and the schedules of orders and link (16 R443, 21 R541,
15 R417). -/
def State.setDay (s : State) (v : Nat) : State :=
  let s1 := ({ s with day := { s.day with slew := 0, cont := true } }).applySet (BitVec.ofNat 64 v)
  ((s1.ledgerDaySet).scheduleOrders).schedPoll

/-- DAY SET. -/
def execDaySet (l : Line) (s : State) : Host.Outcome State Fault Refusal :=
  let v := (l.at? 0).bind (s.timeOf l)
  runLine { minPos := 1, pos := [("value", .time)] } l s
    (erIf (match v with | some t => decide (2 ^ 64 ≤ t) | none => false) (erRange "value") ++
      erIf (decide (s.radio.st ≠ .idle)) (erState "DAYBOOK" "RADIO") ++
      erIf (s.tickets.pool.any (·.scheduled)) (erState "DAYBOOK" "SCHEDULED")) (fun s =>
      match v with
      | none => s
      | some t =>
        let s1 := s.bump .daybook
        (s1.ok l [w "DAY", w "SET", .w (.time t), edTok s1 .daybook]).setDay t)

/-! ## Alarms -/

/-- The firings that are due, with their times: host alarms, order schedules, polls, timed tickets (10 R277). -/
def State.dueList (s : State) : List (Nat × Nat × Nat) :=
  ((List.range 4).filter s.alarmDue).map (fun a => ((s.alarm a).at_.toNat, 0, a)) ++
  (List.range 32).filterMap (fun k => match vget s.orders.next k none with
    | some t => if t ≤ s.now then some (t, 1, k) else none
    | none => none) ++
  (match s.link.nextPoll with | some t => if s.pollDue then [(t, 2, 0)] else [] | none => []) ++
  s.tickets.pool.filterMap (fun t => match t.startAt with
    | some b => if s.timedDue t && !s.isOverdue t then some (b, 3, t.n) else none
    | none => none)

/-- The order of R277: by time, then by kind, then by number. -/
def dueFirst (a b : Nat × Nat × Nat) : Bool :=
  decide (a.1 < b.1) || (decide (a.1 = b.1) && (decide (a.2.1 < b.2.1) || (decide (a.2.1 = b.2.1) && decide (a.2.2 ≤ b.2.2))))

/-- One firing's action. -/
def State.dueGo (s : State) (afterReady : Bool) (d : Nat × Nat × Nat) : State :=
  match d.2.1 with
  | 0 => s.alarmGo d.2.2 afterReady
  | 1 => s.orderDue d.2.2 afterReady
  | 2 => s.pollIssue
  | _ => match s.ticket? d.2.2 with | some t => s.tryStart t | none => s

/-- The actions of everything that has fallen due, in the order of R277 (R279). -/
def State.dueAll (s : State) (afterReady : Bool) : State :=
  (s.dueList.insertionSort (fun a b => dueFirst a b)).foldl (fun s d => s.dueGo afterReady d) s

/-- What has fallen due acts, in the order of R277 whichever of it the command names. -/
def State.dueNow (s : State) : State := (s.dueAll (!s.inRun)).settled s

/-- ALARM_FIRE (10 R276). -/
def execAlarmFire (a : Fin 4) (s : State) : Host.Outcome State Fault Refusal :=
  .next (if s.awake && s.alarmDue a.val then s.dueNow else s)

/-- ORDER_SCHEDULE_DUE (21_orders R541). -/
def execOrderScheduleDue (k : Fin 32) (s : State) : Host.Outcome State Fault Refusal :=
  match vget s.orders.next k.val none with
  | none => .next s
  | some t => .next (if s.awake && decide (t ≤ s.now) then s.dueNow else s)

/-- POLL_SCHEDULE_DUE (15_link R417). -/
def execPollScheduleDue (s : State) : Host.Outcome State Fault Refusal :=
  .next (if s.awake && s.pollDue then s.dueNow else s)

/-- TICKET_TIMED_START (06 R159): the time of step 4 is reached; steps 2 and 3 are applied again. -/
def execTicketTimedStart (q : Queue) (s : State) : Host.Outcome State Fault Refusal :=
  match s.head q with
  | none => .next s
  | some t => .next (if s.awake && s.timedDue t && !s.isOverdue t then s.dueNow else s)

/-- The deadlines that have passed (06 R176). -/
def State.overdueAll (s : State) : State := s.endAll (s.tickets.pool.filter s.isOverdue) .overdue []

end Sys2Proof.Machine
end

