-- ==== Sys2Proof/Machine/Reset.lean ====
section
/-! DEFINITION. What every reset does (08_bringup R208–R211, Table 8.2), and the commands of supply and pins that take
or release one (02_pins R19, R20, R35; 03_power R43, R51–R54). -/
namespace Sys2Proof.Machine

open Sys2Proof

/-! ## The reset (Table 8.2) -/

/-- The causes through which DREG stays up (10_daybook R264). -/
def Cause.dregUp : Cause → Bool
  | .por => false
  | .borDormant => false
  | _ => true

def Cause.code : Cause → Nat
  | .por => 0 | .pin => 1 | .command => 2 | .borRun => 3 | .borDormant => 4 | .wakeLate => 5 | .seqWatchdog => 6

def Cause.name : Cause → String
  | .por => "POR" | .pin => "PIN" | .command => "COMMAND" | .borRun => "BOR_RUN" | .borDormant => "BOR_DORMANT"
  | .wakeLate => "WAKE_LATE" | .seqWatchdog => "SEQ_WATCHDOG"

/-- The Daybook through a reset: the keeper's count and pair, and, where the reset is continuous, keeper_ok, cont and the
last temperature (10_daybook R259, R264–R266, R269, R281). -/
def DaySt.afterReset (d : DaySt) (up cont : Bool) : DaySt :=
  { cyc := d.cyc, keeper := if up then d.keeper else 0, dh := if up then d.dh else 0, kh := if up then d.kh else 0,
    keeperOk := cont, goodPeriods := if cont then d.goodPeriods else 0, cont := cont && d.cont, temp := d.temp }

/-- The input levels at the pads: a reset changes none, and releases every held pad. -/
def PadsSt.afterReset (p : PadsSt) : PadsSt :=
  { nrst := p.nrst, tamp := p.tamp, wakeIn := p.wakeIn, testEn := p.testEn, deskRx := p.deskRx, chuteCs := p.chuteCs,
    chuteSck := p.chuteSck, chuteSdi := p.chuteSdi, gpioIn := p.gpioIn }

/-- The sequence number of the latest entry of the tamper log, 0 where it has none (22 R575). -/
def lastLogSeq (v : Vector (Option TamperEntry) 32) : Nat :=
  v.toList.foldl (fun q x => match x with
    | some e => if q = 0 || seqLater e.seq q then e.seq else q
    | none => q) 0

/-- The tamper latch keeps its state but through a POR; a response that the reset cut runs again in the VAULT stage
(22 R570, Table 22.4). -/
def TamperSt.afterReset (t : TamperSt) (por : Bool) : TamperSt :=
  { latched := t.latched && !por, source := if por then 0 else t.source,
    owed := if por then none else (match t.resp with | some r => some r.what | none => t.owed) }

/-- The supply's own part: the BOR_DORMANT cell and the late-stage latch.  DESIGN CHOICE
(log entry 14): a POR that comes before the RECORD stage has counted a BOR_DORMANT clears the cell, so that collapse is
not counted; R51 does not say. -/
def PwrSt.afterReset (p : PwrSt) (cause : Cause) : PwrSt :=
  let por := decide (cause = .por)
  { vddioOk := p.vddioOk, borDormantLatch := !por && (p.borDormantLatch || decide (cause = .borDormant)),
    lateStage := if por then 0 else p.lateStage, lostCount := p.lostCount + 1 }

/-- The stores through a reset: what the host scratch and the Stacks hold is kept, the Reading Room is lost. -/
def StoreSt.afterReset (t : StoreSt) (loss : Nat) : StoreSt :=
  { scratch := t.scratch, shelf := t.shelf, shelfGone := t.shelfGone, carrelGone := Vector.replicate 8 loss }

/-- DREG runs in low-power mode: in Dormant, until the REG_RDY of a wake (03 R47), and in a reset held from there by
NRST; in Boot and Run it runs in full mode. -/
def State.dregLowMode (s : State) : Bool :=
  if s.sys.hold = .none then
    match s.pwr.state with
    | .dormant => true
    | .wake n _ => decide (n = 0)
    | _ => false
  else s.sys.dregLow

/-- The units take up what the Record's rows hold (R210, R219; 10 R271, 15 R400, 16 R429, 18 R485, 19 R501, R504, 22
R575); the key slots, the trim selections and the standing orders wait for their own stages. -/
def State.takeUp (s : State) : State :=
  let r := s.record
  let c := countersOf (s.twinData 2)
  let p := s.twinData 10
  let a := s.twinData 11
  let fc := s.twinData 20
  let v := s.twinData 19
  let log := r.tamperLog.map tamperEntryOf
  { s with
    sys := { s.sys with bootCount := c.boots }
    pwr := { s.pwr with borRun := c.borRun, borDormant := c.borDormant, wakeLate := c.wakeLate }
    day := s.day.loadDrift r.drift
    store := { s.store with part := partOf p, origin := BitVec.ofNat 32 (numAt p 4 4),
                            first := BitVec.ofNat 32 (numAt a 0 4), next := BitVec.ofNat 32 (numAt a 4 4) }
    frame := { s.frame with fc := fcOf fc, fcWarn := r.fcWarn, fcIn := BitVec.ofNat 32 (numAt fc 24 4) }
    link := { s.link with assoc := assocOf (s.twinData 8), cat := r.cat }
    ledger := { s.ledger with tariffs := tariffsOf (s.twinData 18), journal := r.journal.map jrecOf,
                              recoveries := c.recoveries }
    vault := { s.vault with sealed := octetAt v 0 == 0x5A, eraseMask := BitVec.ofNat 8 (octetAt v 1) }
    tamper := { s.tamper with log := log, seq := lastLogSeq log } }

/-- A reset is taken (R210).  A row write in progress has already left its contents in the Record; those that waited are
not begun (03 R54), and the units take up what the Record holds. -/
def State.resetCore (s : State) (cause : Cause) (also stage : Nat) (hold : Hold) : State :=
  let cont := cause.dregUp && s.day.keeperOk
  let t : State := { part := s.part, record := s.record, drawn := s.drawn, pending := s.pending }
  { t with
    sys := { hold := hold, cause := cause, continuous := cont, also := BitVec.ofNat 7 also, causeStage := stage,
             testMode := s.sys.testMode && !decide (cause = Cause.por),
             dregLow := s.dregLowMode && decide (hold = Hold.nrst) && decide (cause ≠ Cause.por) }
    pwr := s.pwr.afterReset cause
    pads := s.pads.afterReset
    day := s.day.afterReset cause.dregUp cont
    store := s.store.afterReset (s.pwr.lostCount + 1)
    ssw := { hot := s.ssw.hot }
    tamper := s.tamper.afterReset (decide (cause = Cause.por))
    gpio := { filt := s.pads.gpioIn } }.takeUp

/-! ## Causes and their precedence (R209, 03 R57) -/

/-- The rank of a cause: the lower one is reported. -/
def Cause.rank : Cause → Nat
  | .por => 0 | .borDormant => 1 | .borRun => 2 | .wakeLate => 3 | .seqWatchdog => 4 | .pin => 5 | .command => 6

/-- The reset holds that last while their cause is present: a further cause that comes meanwhile is present with it. -/
def State.holding (s : State) : Bool := decide (s.sys.hold = .borRun) || decide (s.sys.hold = .nrst)

/-- SCLK has not run since the last reset: POWER goes on. -/
def State.unclocked (s : State) : Bool :=
  s.booting && decide (s.sys.stage = .power) && !s.sys.oscOn

/-- A cause comes.  While another cause holds the device in reset, the one of higher precedence is reported and the
other sets its bit in SYS_CAUSE.also (R209).  Whether a cause that comes in POWER, before SCLK runs again, is of the cycle
of the last reset or restarts bring-up (R210), no command tells: it is a free value (log entry 78). -/
def State.takeReset (s0 : State) (cause : Cause) (stage : Nat) (hold : Hold) : State :=
  let s := if s0.unclocked then s0.draw.2 else s0
  if s.holding || (s0.unclocked && s0.draw.1.getLsbD 0) then
    let win := if cause.rank ≤ s.sys.cause.rank then cause else s.sys.cause
    let lose := if cause.rank ≤ s.sys.cause.rank then s.sys.cause else cause
    let also := s.sys.also.toNat ||| (if win = lose then 0 else 2 ^ lose.code)
    s.resetCore win also (if win = cause then stage else s.sys.causeStage) hold
  else s.resetCore cause 0 stage hold

/-- Held in reset without any supply, or in the factory test state, the device takes no reset but a POR. -/
def State.resettable (s : State) : Bool := decide (s.sys.hold ≠ .por) && !s.sys.testMode

/-! ## Supply and pins -/

/-- The factory test state (02 R20): it sends nothing and leaves every other command without effect. -/
def State.toTest (s : State) : State := { s with sys := { s.sys with testMode := true, hold := .test } }

/-- POWER_ON (03 R53): VBAT first exceeds 1.78 V.  Held low, NRST keeps the device in reset; with TEST_EN high the device
is in the factory test state (02 R20). -/
def execPowerOn (s : State) : Host.Outcome State Fault Refusal :=
  if s.sys.hold = .por then
    .next (if s.pads.testEn then s.toTest
      else if s.pads.nrst then { s with sys := { s.sys with hold := .none } }
      else { s with sys := { s.sys with hold := .nrst, also := s.sys.also ||| 2 } })
  else .next s

/-- POR (03 R52).  The factory test state ends only where TEST_EN is low with it (02 R20): whether a TEST_EN that has been
high is low again, for which the spec gives no other command, is a free value (log entry 19). -/
def execPor (s : State) : Host.Outcome State Fault Refusal :=
  let s1 := s.takeReset .por 0 .por
  .next { s1 with pads := { s1.pads with testEn := s.pads.testEn && s.draw.1.getLsbD 0 },
                  drawn := if s.pads.testEn then s.draw.2.drawn else s.drawn }

/-- The comparator of R53 watches VBAT: in Boot, Run and a wake. -/
def State.borWatched (s : State) : Bool := s.resettable && decide (s.pwr.state ≠ .dormant)

/-- BOR_RUN (03 R54). -/
def execBorRun (s : State) : Host.Outcome State Fault Refusal :=
  if s.borWatched then .next (s.takeReset .borRun 0 .borRun) else .next s

/-- BOR_RELEASE (03 R54). -/
def execBorRelease (s : State) : Host.Outcome State Fault Refusal :=
  if s.sys.hold = .borRun then
    .next { s with sys := { s.sys with hold := if s.pads.nrst then .none else .nrst } }
  else .next s

/-- BOR_DORMANT (03 R51): it can come while DREG is in low-power mode (R47), in Dormant, at the start of a wake, and while
NRST, which fell in Dormant, is low; PIN is then present with it (R57). -/
def execBorDormant (s : State) : Host.Outcome State Fault Refusal :=
  if s.resettable && s.dregLowMode then .next (s.takeReset .borDormant 0 (if s.sys.hold = .nrst then .nrst else .none))
  else .next s

/-- NRST_RESET (02 R19, R35): the device stays in reset while NRST is low. -/
def execNrstReset (s : State) : Host.Outcome State Fault Refusal :=
  let s0 := { s with pads := { s.pads with nrst := false } }
  if s0.resettable then
    .next (s0.takeReset .pin 0 (if s.sys.hold = .borRun then .borRun else .nrst))
  else .next s0

/-- NRST_RELEASE (08 R213). -/
def execNrstRelease (s : State) : Host.Outcome State Fault Refusal :=
  let s0 := { s with pads := { s.pads with nrst := true } }
  if s.sys.hold = .nrst then .next { s0 with sys := { s0.sys with hold := .none, dregLow := false } } else .next s0

/-- TEST_MODE_ENTRY (02 R20); without supply the state is entered as it comes. -/
def execTestModeEntry (s : State) : Host.Outcome State Fault Refusal :=
  let s0 := { s with pads := { s.pads with testEn := true } }
  if s.sys.hold = .por then .next s0 else .next s0.toTest

/-- VDDIO_LOSS (03 R43): the ports stop, and ATTN is released where the device is in Dormant (02 R17). -/
def execVddioLoss (s : State) : Host.Outcome State Fault Refusal :=
  .next ({ s with pwr := { s.pwr with vddioOk := false } }).attnFollow

/-- A port loses its partial line (04 R113).  DESIGN CHOICE (log entry 72): of a complete line whose announced block is
still being received, of which R113 does not speak, the block is dropped and the line is left waiting without it. -/
def PortSt.dropPartial (p : PortSt) : PortSt :=
  { p with fifo := [], raw := [], lost := ⟨false, false, false⟩, sawCr := false, block := none }

/-- VDDIO_RESTORE (04 R113): partial lines are discarded, and queued output resumes. -/
def execVddioRestore (s : State) : Host.Outcome State Fault Refusal :=
  if s.pwr.vddioOk then .next s
  else
    .next ({ s with pwr := { s.pwr with vddioOk := true }, dport := s.dport.dropPartial,
                    cport := s.cport.dropPartial }).attnFollow

/-- COMMAND_RESET (08 R229): the reply of RESET has been sent or read, or 100 ms have passed on the Chute.  An order's
reset has been taken with its line. -/
def execCommandReset (s : State) : Host.Outcome State Fault Refusal :=
  match s.sys.pendingReset with
  | none => .next s
  | some o =>
    let due : Bool := match o with
      | .order _ => true
      | .port .desk => !(s.dport.out.any (fun x => decide (x.kind = .resetReply)))
      | .port .chute =>
        (s.sys.resetReplyRead && s.pads.chuteCs) || decide (s.sys.replySince + 100 * tickMs ≤ s.day.cyc)
    .next (if due && s.resettable then s.takeReset .command 0 .none else s)

end Sys2Proof.Machine
end

