-- ==== Sys2Proof/Machine/Dormant.lean ====
section
/-! DEFINITION. Dormant: the attempt and its refusers, the entry sequence, the wake sequence, quiet wakes, carrels and
pads across the sleep (09_dormant). -/
namespace Sys2Proof.Machine

open Sys2Proof

/-! ## Refusers (Table 9.1) -/

def refuserNames : List String :=
  ["TXQ", "RXBUSY", "PORTER", "COLLATE", "VAULT", "TRIM", "NOISE", "DESK_RX", "DESK_TX", "CHUTE", "SSW_RAMP",
   "STACKS_WRITE", "LEDGER", "CARRELS", "ORDER", "TAMPER"]

def sourceNames : List String := ["", "DESK_RX", "CHUTE", "WAKE_IN", "ALARM", "RADIO", "TAMPER"]

/-- A carrel is in the retain mask. -/
def State.retains (s : State) (n : Nat) : Bool := bit s.cfg.sys.dorm (8 + n)

/-- A port's input FIFO holds an octet. -/
def PortSt.inputWaits (p : PortSt) : Bool := !p.fifo.isEmpty || !p.lines.isEmpty || p.block.isSome

/-- A Desk character is arriving: DESK_RX has stayed low at the end of one, and no break (04_desk R110). -/
def State.deskArrives (s : State) : Bool := !s.pads.deskRx && !s.desk.breakArmed

/-- The radio listens or receives for something other than a LINK ticket, or a RADIO or CENSUS ticket runs. -/
def State.rxRefuses (s : State) : Bool :=
  ((decide (s.radio.st = .listen) || decide (s.radio.st = .receive)) && s.link.op.isNone) || s.radio.handed.isSome ||
    (s.running .radio).isSome || (s.running .census).isSome

/-- Rings and stage whose carrel is not retained. -/
def State.carrelsRefuse (s : State) : Bool :=
  (!(s.frame.tx.isEmpty && s.frame.stage.isEmpty) && !s.retains 1) || (!s.frame.rx.isEmpty && !s.retains 2)

def State.noiseRefuses (s : State) : Bool :=
  decide (s.noise.st = .startup) || decide (s.noise.st = .raw) || (s.running .noise).isSome

/-- The conditions of Table 9.1, in code order. -/
def State.refusers (s : State) : List Bool :=
  [(s.running .link).isSome, s.rxRefuses, s.porterActive, s.collate.cols.toList.any (·.isOpen),
   (s.running .vault).isSome || s.tamperBusy, (s.running .trim).isSome, s.noiseRefuses,
   s.dport.inputWaits || s.deskArrives, s.deskSending,
   s.has .chute && (!s.pads.chuteCs || s.cport.inputWaits || !s.cport.out.isEmpty),
   decide (s.ssw.st = .ramp) || (s.running .ssw).isSome,
   (s.running .stacks).isSome || s.rows.any (fun r => !r.journal), s.journalBusy, s.carrelsRefuse,
   s.orders.run.isSome || (s.running .orders).isSome, s.tamper.seenOnce || s.tamperBusy]

/-! ## The attempt (R233–R237) -/

/-- DORMANT (R233, R234): an order's line arms one attempt. -/
def execDormant (l : Line) (s : State) : Host.Outcome State Fault Refusal :=
  runLine {} l s
    (s.late (erIf (!s.day.keeperOk) (erState "PWR" "NOKEEPER") ++ erIf (decide (s.pwr.state ≠ .run)) (erState "PWR" "ENTRY")))
    (fun s =>
      let arm : Bool := match l.origin with | .order _ => true | .port _ => false
      let s1 := { s with pwr := { s.pwr with state := .entryWait, attemptBy := some l.origin, attemptDue := false,
                                             armed := arm },
                         sys := { s.sys with replySince := s.day.cyc } }
      s1.replyLines l .dormantReply false [[w "OK", w "DORMANT"]])

/-- An attempt is refused (R236). -/
def State.refuseEntry (s : State) (present : List Bool) : State :=
  let code := present.idxOf true
  let p := s.pwr
  let mask := ((present.zipIdx).map (fun x => b2n x.1 * 2 ^ x.2)).sum
  let s1 := { s with pwr := { p with state := .run, attemptBy := none, attemptDue := false, armed := false,
                                     refusals := p.refusals.inc, refPresent := BitVec.ofNat 16 mask, refValid := true,
                                     refAbort := false, refCode := code,
                                     refuser := vset p.refuser code (vget p.refuser code {}).inc } }
  s1.fire 18 [kw "by" (refuserNames.getD code ""), kd "count" s1.pwr.refusals.val.toNat]

/-- How much of a transmission has been on the air. -/
def State.sentSoFar (s : State) (t : Tx) : Nat :=
  match t.phase with
  | .symbols => min (s.day.cyc - t.symCyc) t.air
  | .rampDown => t.actual
  | _ => 0

/-- The radio is powered down at entry, which changes no edition (11 R304): ANT_CTL_A, ANT_CTL_B and PA_EN take their Idle
levels (Table 9.2).  DESIGN CHOICE (log entry 71): an acknowledgement on its way, which refuses no entry, is cut there,
and charged for what has been sent. -/
def State.radioOff (s : State) : State :=
  let r := s.radio
  let s1 := ({ s with
    pads := { s.pads with paEn := false }
    radio := { r with st := .idle, locked := false, tuning := false, failed := false, rssiNow := -280, portHp := false,
                      antLag := false, tx := none, rx := none, handed := none } }).antSet 0
  match r.tx with
  | some t => s1.settleBooking (s.sentSoFar t)
  | none => s1

/-- The entry sequence begins: the PWR edition, the temperature of R261, the drift window abandoned (R268), the radio
powered down, and the alarm wake found (10 R278). -/
def State.beginEntry (s : State) (temp : Int) : State :=
  ((({ s with pwr := { s.pwr with state := .entry false false, attemptBy := none, attemptDue := false, armed := false },
              day := { s.day with temp := temp, tempEntry := temp, window := false, windowOk := false } }).bump
      .pwr).radioOff).alarmSet

/-- DORMANT_ATTEMPT (R234, R236): a running supply measurement delays it (R237). -/
def execDormantAttempt (temp : Int) (s : State) : Host.Outcome State Fault Refusal :=
  if s.inRun && decide (s.pwr.state = .entryWait) && !s.pwr.measBusy &&
      (s.pwr.attemptDue || (s.pwr.armed && s.orders.run.isNone)) then
    .next (if s.refusers.any id then s.refuseEntry s.refusers else s.beginEntry temp)
  else .next s

/-- The device is idle (R235). -/
def State.idle (s : State) : Bool :=
  s.inRun && decide (s.pwr.state = .run) && s.day.keeperOk && !(s.refusers.any id) &&
    !(s.tickets.pool.any (fun t => decide (t.st = .running)))

/-- The idle time starts anew in every cycle in which the device is not idle. -/
def State.idleWatch (s : State) : State :=
  if s.idle then s else { s with pwr := { s.pwr with idleSince := s.day.cyc } }

/-- AUTO_DORMANT (R235): the device has been idle for idle_ms. -/
def execAutoDormant (temp : Int) (s : State) : Host.Outcome State Fault Refusal :=
  if s.idle && bit s.cfg.sys.dorm 0 && !s.pwr.measBusy &&
      decide (s.pwr.idleSince + fld s.cfg.sys.dorm 31 16 * tickMs ≤ s.day.cyc) then
    .next (s.beginEntry temp)
  else .next s

/-! ## The entry sequence (Table 9.2) -/

/-- ENTRY_PAD_LATCH: 100 µs (R252); the drift row is written lag cycles later, in the step that follows (10 R270).  The
return of a quiet wake leaves the pads and the Record as they are. -/
def execEntryPadLatch (lag : Nat) (s : State) : Host.Outcome State Fault Refusal :=
  match s.pwr.state with
  | .entry false q =>
    let s1 := { s with pwr := { s.pwr with state := .entry true q } }
    if q then .next s1
    else
      let s2 := s1.latchPads
      let s3 := { s2 with pads := { s2.pads with deskTx := true } }
      .next (s3.driftRowAt (s3.day.now + BitVec.ofNat 64 lag))
  | _ => .next s

/-- Every row write in progress or waiting completes: the entry sequence outlasts none. -/
def State.flushRows (s : State) : State := (List.range (4 * s.rows.length)).foldl (fun s _ => s.rowDone.1) s

/-- ENTRY_COMPLETE: 120 µs (R238, R249): the rails are off. -/
def execEntryComplete (s : State) : Host.Outcome State Fault Refusal :=
  match s.pwr.state with
  | .entry true q =>
    let s1 := s.flushRows
    let p := s1.pwr
    .next ({ s1 with
      pwr := { p with state := .dormant, entries := p.entries.incIf (!q),
                      powered := if q then p.powered else BitVec.ofNat 8 (fld s1.cfg.sys.dorm 15 8),
                      stacksOn := false, stall := [] }
      noise := { s1.noise with pool := 0, refill := false } }).attnFollow
  | _ => .next s

/-- ENTRY_WATCHDOG (R240). -/
def execEntryWatchdog (s : State) : Host.Outcome State Fault Refusal :=
  match s.pwr.state with
  | .entry _ _ => .next (s.takeReset .seqWatchdog 7 .none)
  | _ => .next s

/-! ## Sources (Table 9.3) -/

def sourceCode : WakeSource → Nat
  | .deskRx => 1
  | .chute => 2
  | .wakeIn => 3
  | .alarm _ => 4
  | .internalAlarm => 4
  | .radio => 5
  | .tamper => 6

/-- The precedence of R242: the lower is reported. -/
def sourceRank (c : Nat) : Nat := [9, 5, 4, 3, 1, 2, 0].getD c 9

/-- A direction of WAKE_IN is selected (R243). -/
def State.wakeInOn (s : State) (level : Bool) : Bool :=
  let e := fld s.cfg.sys.dorm 7 6
  if level then e % 2 = 1 else 2 ≤ e

/-- An alarm time has been reached: by the Daybook, or on the keeper edge of the alarm wake (10 R278). -/
def State.alarmIn (s : State) (t : Nat) : Bool := decide (t ≤ s.now) || s.alarmEdge t

/-- The source is enabled (R241); with VDDIO low in Dormant the pins wake nothing (02 R17), and an alarm is a source once
it has been reached. -/
def State.sourceOn (s : State) (src : WakeSource) (level : Bool) : Bool :=
  let pins := s.pwr.vddioOk || decide (s.pwr.state ≠ .dormant)
  match src with
  | .deskRx => bit s.cfg.sys.dorm 4 && pins
  | .chute => bit s.cfg.sys.dorm 5 && s.has .chute
  | .wakeIn => s.wakeInOn level && pins
  | .alarm a => decide ((s.alarm a.val).st = .armed) && s.alarmIn (s.alarm a.val).at_.toNat
  | .internalAlarm => s.otherAlarms.any s.alarmIn
  | .radio => false
  | .tamper => s.tamper.owed.isSome

/-- What the source does in Run: WAKE_IN fires its event, and alarms that have been reached act; characters,
transactions and the tamper response have commands of their own. -/
def State.sourceRun (s : State) (src : WakeSource) (level : Bool) : State :=
  match src with
  | .wakeIn => s.fire 4 [kw "level" (levelWord level)]
  | .alarm _ => s.dueAll (!s.inRun)
  | .internalAlarm => s.dueAll (!s.inRun)
  | _ => s

/-- An entry is aborted (R239): the pads it latched are released. -/
def State.abortEntry (s : State) (src : WakeSource) (level : Bool) : State :=
  let c := sourceCode src
  let p := s.pwr
  let s1 := ({ s with pwr := { p with state := .run, refusals := p.refusals.inc, refPresent := 0, refValid := true,
                                      refAbort := true, refCode := c,
                                      aborts := vset p.aborts (c - 1) (vget p.aborts (c - 1) {}).inc } }).bump .pwr
  let s2 := (s1.release (BitVec.allOnes 32)).fire 18 [kw "abort" (sourceNames.getD c ""), kd "count" s1.pwr.refusals.val.toNat]
  s2.sourceRun src level

/-- An alarm that LOGIC_RDY finds reached is recorded in DORM_WAKE.also (10 R279). -/
def State.alsoAlarm (s : State) : State :=
  if s.dueList.isEmpty then s else { s with pwr := { s.pwr with wakeAlso := s.pwr.wakeAlso ||| 16 } }

/-- The actions of LOGIC_RDY of a full wake: the PWR edition, carrels lost (R251), alarms (10 R279), whose triggers rank
before those of events (21_orders R544), events of the wake's sources (07 R202), the interval boundary (16 R439), the
latched faults of tamper and switch, and the deadlines (06 R176); all in one cycle. -/
def State.logicActions (s : State) : State :=
  let p := s.pwr
  let gone : BitVec 8 := ~~~p.powered &&& 0xFE
  let loss := p.lostCount + 1
  let fresh := gone &&& ~~~p.lost
  let s0 := s.bump .pwr
  let s1 := { s0 with
    pwr := { p with state := .wake 3 false, lost := p.lost ||| gone, lostCount := loss, wakeInEdge := none }
    store := { s0.store with
      carrelGone := Vector.ofFn (fun i => if gone.getLsbD i.val then loss else vget s0.store.carrelGone i.val 0),
      carrels := s0.store.carrels.filter (fun c => !gone.getLsbD (c.1 / 0x8000)) }
    desk := { s0.desk with lostWake := s0.desk.lostWake.incIf (decide (p.wakeSrc = 1)) } }
  let s2 := s1.alsoAlarm.dueAll true
  let s3 := match p.wakeInEdge with | some b => s2.fire 4 [kw "level" (levelWord b)] | none => s2
  let s4 := if fresh = 0 then s3 else s3.fire 19 [.kv "lost" (.hex 2 fresh.toNat)]
  let s5 := if s.day.keeperOk then s4 else s4.condOn 20 []
  let s6 := if s5.boundaryDue then s5.boundary s5.changeDue else s5
  let s7 := match s6.tamper.owed with | some x => s6.tamperEvent x | none => s6
  ((s7.sswWake.overdueAll).settled s).attnFollow

/-- The return of a quiet wake: the sniff has ended, and the radio powers down. -/
def State.returning (s : State) : Bool := match s.pwr.state with | .entry _ true => true | _ => false

/-- A quiet wake after its LOGIC_RDY becomes a full wake (R245, R246). -/
def State.quietFull (s : State) (code : Nat) : State :=
  let s1 := (setRad (fun r => { r with sniff := none }) s)
  let s2 := if code = 5 && !s.returning then s1 else (setRad (fun r => { r with handed := none, rx := none, failed := false }) s1).radioTo .idle
  { s2 with pwr := { s2.pwr with wakeSrc := code, wakeAlso := BitVec.ofNat 7 (2 ^ code), wakeOrigin := s2.day.keeper } }.logicActions

/-- A registered source: in an entry it aborts, in Dormant it begins a full wake, in a wake it joins it (R239, R241,
R242, R246). -/
def State.wakeSource (s0 : State) (src : WakeSource) (level : Bool) : State :=
  let c := sourceCode src
  let s := if src = .wakeIn then { s0 with pads := { s0.pads with wakeIn := level } } else s0
  let p := s.pwr
  let edge := if src = .wakeIn && p.wakeInEdge.isNone then some level else p.wakeInEdge
  let first (n : Nat) : State :=
    { s with pwr := { p with state := .wake n false, wakeSrc := c, wakeAlso := BitVec.ofNat 7 (2 ^ c), wakeInEdge := edge,
                             wakeOrigin := s.day.keeper } }
  if !s.sourceOn src level then s
  else
    match p.state with
    | .entry _ false => s.abortEntry src level
    | .entry _ true => ({ s with pwr := { p with wakeInEdge := edge } }).quietFull c
    | .dormant => first 0
    | .wake n true =>
      if n = 3 then ({ s with pwr := { p with wakeInEdge := edge } }).quietFull c else first n
    | .wake n false =>
      let win := decide (p.wakeOrigin = s.day.keeper) && decide (sourceRank c < sourceRank p.wakeSrc)
      let s1 := { s with pwr := { p with wakeAlso := p.wakeAlso ||| BitVec.ofNat 7 (2 ^ c), wakeSrc := if win then c else p.wakeSrc } }
      if n = 3 then s1.sourceRun src level
      else { s1 with pwr := { s1.pwr with wakeInEdge := edge } }
    | _ => s

/-- WAKE_SOURCE_REGISTERED. -/
def execWakeSourceRegistered (src : WakeSource) (level : Bool) (s : State) : Host.Outcome State Fault Refusal :=
  .next ((s.wakeSource src level).settled s)

/-- QUIET_WAKE_ORIGIN (R245, 15_link R420): a sniff falls due in Dormant. -/
def execQuietWakeOrigin (s : State) : Host.Outcome State Fault Refusal :=
  .next (if decide (s.pwr.state = .dormant) && s.nextListen.isSome then
      { s with pwr := { s.pwr with state := .wake 0 true, wakeOrigin := s.day.keeper, wakeInEdge := none } }
    else s)

/-! ## The wake sequence (Table 9.4) -/

/-- A stage whose ready signal has not been raised by the end of its window (R244). -/
def State.wakeLateReset (s : State) (stage : Nat) : State :=
  let s1 := { s with pwr := { s.pwr with lateStage := stage } }
  s1.takeReset .wakeLate 0 .none

/-- WAKE_REG_RDY: 60 µs (R55, R57, R63). -/
def execWakeRegRdy (ready released : Bool) (s : State) : Host.Outcome State Fault Refusal :=
  match s.pwr.state with
  | .wake 0 q =>
    if !released then
      .next (s.resetCore .borRun (if ready then 0 else 2 ^ Cause.wakeLate.code) 0 .borRun)
    else if !ready then .next (s.wakeLateReset 1)
    else .next { s with pwr := { s.pwr with state := .wake 1 q } }
  | _ => .next s

/-- WAKE_OSC_RDY: 560 µs. -/
def execWakeOscRdy (ready : Bool) (s : State) : Host.Outcome State Fault Refusal :=
  match s.pwr.state with
  | .wake 1 q =>
    if !ready then .next (s.wakeLateReset 2)
    else .next { s with pwr := { s.pwr with state := .wake 2 q, resumed := false },
                        day := { s.day with resumeCyc := s.day.cyc, kw := s.day.keeper } }
  | _ => .next s

/-- WAKE_RESUME_EDGE (10 R260, R268): the first keeper edge after OSC_RDY. -/
def execWakeResumeEdge (keeper : Nat) (s : State) : Host.Outcome State Fault Refusal :=
  match s.pwr.state with
  | .wake 2 q =>
    if s.pwr.resumed then .next s
    else .next { s with pwr := { s.pwr with resumed := true },
                        day := { s.day with keeper := keeper % 2 ^ 48, kw := keeper % 2 ^ 48, resumeCyc := s.day.cyc,
                                            window := !q, windowOk := !q && s.day.keeperOk } }
  | _ => .next s

/-- The Daybook is loaded at LOGIC_RDY (10 R260, R262, R267); a change of keeper_ok or cont counts for its edition
(R283). -/
def State.resumeDay (s : State) (temp : Int) : State :=
  let d := s.day
  let e := s.segError d.tempEntry temp
  let t := keeperTicks ((d.kw + 2 ^ 48 - d.kh) % 2 ^ 48) e
  let now : Int := (d.dh.toNat : Int) + t + ((d.cyc - d.resumeCyc : Nat) : Int)
  let s1 := { s with day := { d with now := BitVec.ofInt 64 now, temp := temp, tempWake := temp,
                                     slept := d.slept + (now - (d.now.toNat : Int)).toNat,
                                     sigmaAcc := d.sigmaAcc + s.segSigma d.tempEntry temp * t.toNat } }
  if s.pwr.resumed then s1
  else
    let s2 := { s1 with day := { s1.day with keeperOk := false, goodPeriods := 0, cont := false } }
    if d.keeperOk || d.cont then s2.bump .daybook else s2

/-- The guard of the coming sniff exceeds the train's lead (15 R421). -/
def State.sniffShort (s : State) : Bool :=
  match s.nextListen with
  | some (_, _, g) => decide (s.leadMs * 1000 < g - 200)
  | none => false

/-- The sniff of a quiet wake begins at its LOGIC_RDY (13 R355, 15 R419, R421). -/
def State.beginSniff (s : State) : State :=
  let x := s.nextListen
  let s1 := if s.sniffShort then s.countLink 6 else s
  (setRad (fun r => { r with sniff := some { at_ := (x.map (·.1)).getD 0 }, failed := false })
    { s1 with pwr := { s1.pwr with state := .wake 3 true, quietWakes := s1.pwr.quietWakes.inc } }).radioRest

/-- WAKE_LOGIC_RDY: 700 µs. -/
def execWakeLogicRdy (temp : Int) (memory logic : Bool) (s : State) : Host.Outcome State Fault Refusal :=
  match s.pwr.state with
  | .wake 2 q =>
    if !memory then .next (s.wakeLateReset 3)
    else if !logic then .next (s.wakeLateReset 4)
    else
      let s1 := s.resumeDay temp
      if !q then .next s1.logicActions
      else if s1.dueList.isEmpty then .next s1.beginSniff
      else .next (s1.quietFull 4)
  | _ => .next s

/-- A line goes to the front of a port's queue: `+READY` precedes what LOGIC_RDY has queued (06 R176, 07 R203). -/
def State.pushFront (s : State) (p : Port) (l : OutLine) : State :=
  if !s.portPresent p then s
  else if (s.port p).out.isEmpty then s.push p l
  else s.setPort p { s.port p with out := l :: (s.port p).out }

def State.announce (s : State) : State :=
  { s with dport := { s.dport with announced := true }, cport := { s.cport with announced := true } }

/-- WAKE_READY_LINE: 750 µs (R244): `+READY` begins, Run is reached, and the tamper response runs (22 R571). -/
def execWakeReadyLine (s : State) : Host.Outcome State Fault Refusal :=
  if s.pwr.state = .wake 3 false then
    let l : OutLine := { kind := .ready true, toks := [w "+READY", w "WAKE", kw "src" (sourceNames.getD s.pwr.wakeSrc "")] }
    let s1 := ((s.pushFront .desk l).pushFront .chute l).announce
    let run := s1.orders.run.map (fun r => { r with afterReady := false, ready := s1.day.cyc })
    .next ({ s1 with pwr := { s1.pwr with state := .run, idleSince := s1.day.cyc },
                     orders := { s1.orders with run := run } }).tamperRespond
  else .next s

/-- SNIFF_END (13 R355): the listen ends without a detection. -/
def execSniffEnd (s : State) : Host.Outcome State Fault Refusal :=
  .next (if s.radio.sniff.isSome then s.sniffStop else s)

/-- A wake pattern is counted, and the train it belongs to held for the frame that follows (12 R334, 15 R424). -/
def State.wakeSeen (s : State) : State :=
  { s with modem := { s.modem with wakes := s.modem.wakes.inc },
           link := { s.link with train := s.trainTime.map (fun t => (t, s.profile.pattern)) } }

/-- WAKE_PATTERN_DETECTED (12 R334, 13 R352, R354; 09 R245): in Run the demodulator is handed over; a quiet wake becomes
full first, also in its return (09 R246). -/
def execWakePatternDetected (chan : Nat) (rx : WakeRx) (s : State) : Host.Outcome State Fault Refusal :=
  let f : List Tok := [.kv "rssi" (dbm (s.rssiOf rx.rssi)), kd "chan" chan]
  if !(s.profile.wakes && s.wakeMatch rx.bits) then .next s
  else if s.receiving && decide (s.radio.st = .listen) && (decide (chan = s.radio.chan) || s.searches chan) then
    let s2 := s.wakeSeen.handOver chan true
    .next ((if s.radio.sniff.isSome then s2.quietFull 5 else s2).fire 35 f)
  else if s.returning then .next ((s.wakeSeen.quietFull 5).fire 35 f)
  else .next s

/-- WAKE_IN_EDGE (R243): WAKE_IN has held a new level for two keeper periods.  In bring-up the edge is latched and fires
at READY (08 Table 8.13). -/
def execWakeInEdge (level : Bool) (s : State) : Host.Outcome State Fault Refusal :=
  if level = s.pads.wakeIn then .next s
  else
    let s1 := { s with pads := { s.pads with wakeIn := level } }
    if s.awake then .next (if s.wakeInOn level then s1.fire 4 [kw "level" (levelWord level)] else s1)
    else if s.booting then
      .next (if s1.pwr.wakeInEdge.isNone then { s1 with pwr := { s1.pwr with wakeInEdge := some level } } else s1)
    else .next (s1.wakeSource .wakeIn level)

/-! ## Tamper as a source (22 R568–R570) -/

/-- A reading or dip that sets the latch is a wake source; an entry is aborted first, so that it is processed as in Run
(R239). -/
def State.tamperWakes (s : State) (f : State → State) : State :=
  let s1 := f s
  if s1.tamper.owed = s.tamper.owed || s1.tamper.owed.isNone then s1
  else
    match s.pwr.state with
    | .entry _ false => f ({ s with tamper := { s.tamper with owed := s1.tamper.owed } }.wakeSource .tamper true |>
        fun x => { x with tamper := { x.tamper with owed := s.tamper.owed } })
    | _ => s1.wakeSource .tamper true

/-- TAMPER_SAMPLE. -/
def execTamperSample (level : Bool) (s : State) : Host.Outcome State Fault Refusal :=
  .next (s.tamperWakes (·.tamperSampled level))

/-- TAMPER_CONTINUOUS: one keeper edge. -/
def execTamperContinuous (level : Bool) (s : State) : Host.Outcome State Fault Refusal :=
  .next (s.tamperWakes (·.tamperEdge level))

/-- VBAT_DIP. -/
def execVbatDip (s : State) : Host.Outcome State Fault Refusal := .next (s.tamperWakes (·.tamperDip))

/-! ## DORM, PADS RELEASE -/

def wakeInWords : List String := ["OFF", "RISE", "FALL", "BOTH"]

/-- The source or refuser that DORM_LAST_REFUSER holds. -/
def State.lastRefuser (s : State) : String :=
  if !s.pwr.refValid then "NONE"
  else if s.pwr.refAbort then sourceNames.getD s.pwr.refCode ""
  else refuserNames.getD s.pwr.refCode ""

def State.dormToks (s : State) : List Tok :=
  let c := s.cfg.sys.dorm
  [w "DORM", kw "auto" (onOff (bit c 0)), kd "idle" (fld c 31 16), .kv "retain" (.hex 2 (fld c 15 8)),
   kw "desk_wake" (onOff (bit c 4)), kw "chute_wake" (onOff (bit c 5)), kw "wake_in" (wakeInWords.getD (fld c 7 6) ""),
   kd "entries" s.pwr.entries.val.toNat, kd "refusals" s.pwr.refusals.val.toNat, kw "last" s.lastRefuser, edTok s .pwr]

/-- The PWR state is ENTRY: from the acceptance of DORMANT to the end of the attempt (R233, R238). -/
def State.entering (s : State) : Bool :=
  match s.pwr.state with
  | .entryWait => true
  | .entry _ _ => true
  | _ => false

/-- DORM_CONFIG is not changed while the PWR state is ENTRY (R233). -/
def State.entryErs (s : State) : List Er := erIf (decide (s.pwr.state ≠ .run)) (erState "PWR" "ENTRY")

def State.putDorm (s : State) (v : Word) : State :=
  if v = s.cfg.sys.dorm then s else (s.cfgSet .dorm v).bump .pwr

/-- DORM (R257). -/
def execDorm (l : Line) (s : State) : Host.Outcome State Fault Refusal :=
  let on : Kind := .word ["ON", "OFF"]
  runLine { noun := true, keys := [("auto", on), ("idle", .int 0 65535), ("retain", .int 0 255), ("desk_wake", on), ("chute_wake", on),
                     ("wake_in", .word wakeInWords), saveKey] } l s
    (erIf (match l.int? "retain" with | some v => v % 2 == 0 | none => false) (erRange "retain") ++
      (if l.on? "chute_wake" == some true then s.needs .chute else []) ++
      (if l.sets then s.late s.entryErs else [])) (fun s =>
      let c := s.cfg.sys.dorm
      let wi := match l.word? "wake_in" with | some x => wakeInWords.idxOf x | none => fld c 7 6
      let v : Word := BitVec.ofNat 32 ((l.nat? "idle").getD (fld c 31 16) * 65536 + (l.nat? "retain").getD (fld c 15 8) * 256 +
        wi * 64 + b2n ((l.on? "chute_wake").getD (bit c 5)) * 32 + b2n ((l.on? "desk_wake").getD (bit c 4)) * 16 +
        b2n ((l.on? "auto").getD (bit c 0)))
      let s1 := s.putDorm v
      let s2 := if l.save then s1.save [.dorm] else s1
      s2.ok l s2.dormToks)

/-- PADS RELEASE (R255). -/
def execPadsRelease (l : Line) (s : State) : Host.Outcome State Fault Refusal :=
  runLine {} l s [] (fun s => (s.release (BitVec.allOnes 32)).ok l [w "PADS", w "RELEASE"])

/-! ## Registers (Tables 9.6–9.9) -/

def setPwr (f : PwrSt → PwrSt) (s : State) : State := { s with pwr := f s.pwr }

def State.pwrWrap (s : State) : Word :=
  let p := s.pwr
  wrapWord ([p.borRun, p.borDormant, p.refusals, p.entries, p.quietWakes, p.wakeLate] ++ p.refuser.toList ++ p.aborts.toList)

def dormRegs : List Reg :=
  [roReg 0x0280 "PWR_WRAP" [ro "abort_wrap" 27 22, ro "refuser_wrap" 21 6, ro "wake_late_wrap" 5 5, ro "quiet_wrap" 4 4,
      ro "entries_wrap" 3 3, ro "refusals_wrap" 2 2, ro "bor_dormant_wrap" 1 1, ro "bor_run_wrap" 0 0] State.pwrWrap,
   { addr := 0x0284, name := "DORM_CONFIG",
     fields := [rw "idle_ms" 31 16, rw "retain" 15 9, ro "retain_0" 8 8, rw "wake_in" 7 6, rw "chute_wake" 5 5,
       rw "desk_wake" 4 4, rw "auto" 0 0],
     read := fun s => s.cfg.sys.dorm,
     check := fun s v => (if bit v 5 then s.needs .chute else []) ++ s.entryErs,
     apply := fun v s => s.putDorm v },
   roReg 0x0288 "DORM_STATUS" [ro "late_stage" 10 8, ro "armed" 2 2, ro "keeper_ok" 1 1, ro "entry" 0 0] (fun s =>
      BitVec.ofNat 32 (s.pwr.lateStage * 256 + b2n s.pwr.armed * 4 + b2n s.day.keeperOk * 2 +
        b2n s.entering)),
   roReg 0x028C "DORM_WAKE" [ro "also" 22 16, ro "src" 2 0] (fun s =>
      BitVec.ofNat 32 (s.pwr.wakeAlso.toNat * 65536 + s.pwr.wakeSrc)),
   roReg 0x0290 "DORM_LAST_REFUSER" [ro "present" 31 16, ro "valid" 15 15, ro "abort" 8 8, ro "code" 4 0] (fun s =>
      BitVec.ofNat 32 (s.pwr.refPresent.toNat * 65536 + b2n s.pwr.refValid * 32768 + b2n s.pwr.refAbort * 256 + s.pwr.refCode)),
   ctrReg 0x0294 "DORM_REFUSALS" (·.pwr.refusals) (fun c => setPwr (fun p => { p with refusals := c })),
   ctrReg 0x0298 "DORM_ENTRIES" (·.pwr.entries) (fun c => setPwr (fun p => { p with entries := c })),
   ctrReg 0x029C "DORM_QUIET_WAKES" (·.pwr.quietWakes) (fun c => setPwr (fun p => { p with quietWakes := c })),
   ctrReg 0x02A0 "DORM_WAKE_LATE_COUNT" (·.pwr.wakeLate)
      (fun c s => (setPwr (fun p => { p with wakeLate := c }) s).saveCounters)] ++
  (List.range 16).map (fun i => ctrReg (0x02C0 + 4 * i) ("DORM_REFUSER_" ++ Nat.repr i) (fun s => vget s.pwr.refuser i {})
    (fun c => setPwr (fun p => { p with refuser := vset p.refuser i c }))) ++
  (List.range 6).map (fun j => ctrReg (0x0300 + 4 * j) ("DORM_ABORT_" ++ Nat.repr j) (fun s => vget s.pwr.aborts j {})
    (fun c => setPwr (fun p => { p with aborts := vset p.aborts j c })))

end Sys2Proof.Machine
end

