-- ==== Sys2Proof/Machine/Lexer.lean ====
section
/-! DEFINITION. The grammar of an Apsel line (04_desk R80–R95, R102, R606): from the octets of a line to its tag, verb,
operands and named arguments, or to the error that its characters, its check or its grammar are answered with. -/
namespace Sys2Proof.Machine

open Sys2Proof

/-! ## Characters -/

def hexVal (c : Char) : Option Nat :=
  let n := c.toNat
  if 48 ≤ n ∧ n ≤ 57 then some (n - 48) else if 65 ≤ n ∧ n ≤ 70 then some (n - 55)
  else if 97 ≤ n ∧ n ≤ 102 then some (n - 87) else none

/-- A letter, then letters, digits, `_` or `.`; up to 63 characters (Table 4.4). -/
def isWord (cs : List Char) : Bool :=
  match cs with
  | [] => false
  | c :: r => c.isAlpha && r.all (fun x => x.isAlphanum || x == '_' || x == '.') && decide (cs.length ≤ 63)

def upper (cs : List Char) : String := String.ofList (cs.map Char.toUpper)

def lower (cs : List Char) : String := String.ofList (cs.map Char.toLower)

/-! ## Values (R86–R89) -/

def decNat (cs : List Char) : Nat := cs.foldl (fun n c => 10 * n + (c.toNat - 48)) 0

/-- A run of `lo` to `hi` decimal digits. -/
def decRun (lo hi : Nat) (cs : List Char) : Option Nat :=
  if cs.all Char.isDigit && decide (lo ≤ cs.length) && decide (cs.length ≤ hi) then some (decNat cs) else none

/-- Hex digits with single underscores between two of them. -/
def hexRun : Bool → List Char → Option (List Nat)
  | after, [] => if after then some [] else none
  | after, c :: r =>
    if c = '_' then (if after then hexRun false r else none)
    else match hexVal c with
      | some v => (hexRun true r).map (v :: ·)
      | none => none

def hexNat (cs : List Char) : Option Nat :=
  match hexRun false cs with
  | some ds => if ds.length ≤ 16 then some (ds.foldl (fun n d => 16 * n + d) 0) else none
  | none => none

/-- An integer without a sign: decimal of 1 to 20 digits, or hexadecimal (R86). -/
def unsignedOf (cs : List Char) : Option Nat :=
  match cs with
  | '0' :: 'x' :: r => hexNat r
  | '0' :: 'X' :: r => hexNat r
  | _ => decRun 1 20 cs

/-- `s.u`: its seconds and the digits of u (R87). -/
def pointOf (cs : List Char) : Option (Nat × List Char) :=
  let u := (cs.dropWhile (· != '.')).drop 1
  match decRun 1 12 (cs.takeWhile (· != '.')), decRun 1 6 u with
  | some a, some _ => some (a, u)
  | _, _ => none

/-- The ticks of `s.u` (R87). -/
def secondsOf (cs : List Char) : Option Nat :=
  (pointOf cs).map (fun x => x.1 * 19200000 + tickUs (decNat (x.2 ++ List.replicate (6 - x.2.length) '0')))

/-- A token that begins with a digit or a sign; a decimal below zero, as levels are written, keeps its places.  DESIGN
CHOICE (log entry 72): a leading `+` makes a well-formed relative Daybook value of Table 4.4, so that an integer key
answers it RANGE and not SYNTAX NUMBER (R86, R87). -/
def numberOf (cs : List Char) : Option Arg :=
  match cs with
  | '+' :: r => ((if r.contains '.' then secondsOf r else unsignedOf r)).map (fun t => .time t true)
  | '-' :: r =>
    if r.contains '.' then
      (pointOf r).map (fun x => .dec (-((x.1 * 10 ^ x.2.length + decNat x.2 : Nat) : Int)) x.2.length)
    else (decRun 1 20 r).map (fun v => .int (-(v : Int)))
  | _ => if cs.contains '.' then (secondsOf cs).map (fun t => .time t false) else (unsignedOf cs).map (fun v => .int v)

/-- Pairs of hex digits, with single underscores between two octets (R89). -/
def octetRun : Bool → List Char → Option (List Byte)
  | after, [] => if after then some [] else none
  | _, [_] => none
  | after, a :: b :: r =>
    if a = '_' then (if after then octetRun false (b :: r) else none)
    else match hexVal a, hexVal b with
      | some x, some y => (octetRun true r).map (BitVec.ofNat 8 (16 * x + y) :: ·)
      | _, _ => none

/-- The decoded text of a string after its opening quote, and what follows its closing quote (R88). -/
def stringRun : List Char → Option (List Char × List Char)
  | [] => none
  | c :: r =>
    if c = '"' then some ([], r)
    else if c = '\\' then
      match r with
      | [] => none
      | d :: q => if d = '"' || d = '\\' then (stringRun q).map (fun x => (d :: x.1, x.2)) else none
    else (stringRun r).map (fun x => (c :: x.1, x.2))

def synEr (d : String) : Er := ⟨"SYNTAX", [d]⟩

/-- The words of a list (R606). -/
def splitComma (cs : List Char) : List (List Char) :=
  cs.foldr (fun c acc => if c = ',' then [] :: acc else match acc with | [] => [[c]] | x :: r => (c :: x) :: r) [[]]

/-- A token that begins with a letter: a word, an edition guard or a list. -/
def wordOf (cs : List Char) : Except Er Arg :=
  if isWord cs then .ok (.word (upper cs))
  else if cs.contains ',' then
    (if (splitComma cs).all isWord then .ok (.list ((splitComma cs).map upper)) else .error (synEr "TOKEN"))
  else
    match isWord (cs.takeWhile (· != ':')), decRun 1 20 ((cs.dropWhile (· != ':')).drop 1) with
    | true, some e => .ok (.guard (upper (cs.takeWhile (· != ':'))) e)
    | _, _ => .error (synEr "TOKEN")

/-- A block marker (R91, R92). -/
def markerOf (framed : Bool) (cs : List Char) : Except Er Arg :=
  match framed && decide (cs.length = 4), decRun 4 4 cs with
  | true, some n => if 1 ≤ n ∧ n ≤ 4096 then .ok (.block n) else .error (synEr "BLOCK")
  | _, _ => .error (synEr "TOKEN")

/-- A quoted string. -/
def quotedOf (cs : List Char) : Except Er Arg :=
  match stringRun cs with
  | none => .error (synEr "QUOTE")
  | some (x, rest) =>
    if 64 < x.length then .error (synEr "QUOTE")
    else if rest.isEmpty then .ok (.str (String.ofList x)) else .error (synEr "TOKEN")

/-- One token (Table 4.4). -/
def valueOf (framed : Bool) (cs : List Char) : Except Er Arg :=
  match cs with
  | [] => .error (synEr "TOKEN")
  | c :: r =>
    if c = '"' then quotedOf r
    else if c = '@' then markerOf framed r
    else if cs.contains ',' && !c.isAlpha then .error (synEr "TOKEN")
    else if c = '%' then
      (match octetRun false r with | some l => .ok (.octets l) | none => .error (synEr "NUMBER"))
    else if c.isDigit || c = '-' || c = '+' then
      (match numberOf cs with | some a => .ok a | none => .error (synEr "NUMBER"))
    else if c.isAlpha then wordOf cs
    else .error (synEr "TOKEN")

/-! ## A line's tokens -/

/-- How far the split of a line into its tokens has come. -/
structure Split where
  toks : List (List Char) := []
  cur : List Char := []
  inStr : Bool := false
  esc : Bool := false

/-- Tokens are parted by spaces outside strings; the characters of the current one are held in reverse. -/
def Split.push (x : Split) (c : Char) : Split :=
  if x.inStr then
    { x with cur := c :: x.cur, esc := !x.esc && c == '\\', inStr := x.esc || c != '"' }
  else if c = ' ' then (if x.cur.isEmpty then x else { x with toks := x.toks ++ [x.cur.reverse], cur := [] })
  else { x with cur := c :: x.cur, inStr := c == '"' }

def tokensOf (cs : List Char) : List (List Char) :=
  let x := cs.foldl Split.push {}
  if x.cur.isEmpty then x.toks else x.toks ++ [x.cur.reverse]

/-- A named argument's key and value: `=` stands before any quote. -/
def keyed (cs : List Char) : Option (List Char × List Char) :=
  let k := cs.takeWhile (fun c => c != '=' && c != '"')
  match cs.drop k.length with
  | '=' :: v => some (k, v)
  | _ => none

/-- A line after its grammar. -/
structure LexLine where
  tag : Option String
  verb : String
  pos : List Arg := []
  named : List (String × Arg) := []
  deriving DecidableEq, Repr

/-- The forms whose Syntax entry puts a payload or block after the named arguments, against R84. -/
def payloadLast (verb : String) (pos : List Arg) : Bool :=
  [("FRAME", "SEND"), ("LINK", "WAKE"), ("CAT", "QUEUE"), ("ARCH", "ADD"), ("VAULT", "CCM"), ("ORDER", "STORE"),
   ("PORTER", "GO")].any (fun x => x.1 == verb && pos.head? == some (.word x.2))

def argBlock : Arg → Bool
  | .block _ => true
  | _ => false

def argData : Arg → Bool
  | .block _ => true
  | .octets _ => true
  | _ => false

/-- The value of name=: letters, digits and `_` as given, whatever form of token they would otherwise make (21 Table
21.1). -/
def nameValue (v : List Char) : Except Er Arg :=
  if !v.isEmpty && v.all (fun c => c.isAlphanum || c == '_') && decide (v.length ≤ 63) then .ok (.word (String.ofList v))
  else valueOf false v

/-- The operands and named arguments, from left to right (R84, R91, R606). -/
def lexArgs (framed : Bool) : List (List Char) → LexLine → Except Er LexLine
  | [], p => .ok p
  | c :: r, p =>
    match keyed c with
    | none =>
      (match valueOf framed c with
      | .error e => .error e
      | .ok (.list _) => .error (synEr "TOKEN")
      | .ok a =>
        if !p.named.isEmpty && !(argData a && payloadLast p.verb p.pos) then .error (synEr "ORDER")
        else if p.pos.any argBlock then .error (synEr "TOKEN")
        else lexArgs framed r { p with pos := p.pos ++ [a] })
    | some (k, v) =>
      if !isWord k then .error (synEr "TOKEN")
      else
        match (if lower k == "name" then nameValue v else valueOf false v) with
        | .error e => .error e
        | .ok a =>
          if p.named.any (fun x => x.1 == lower k) then .error (synEr "DUPLICATE")
          else lexArgs framed r { p with named := p.named ++ [(lower k, a)] }

/-! ## A whole line -/

/-- What a line's characters are. -/
inductive Lexed
  | empty
  | bad (tag : Option String) (e : Er)
  | good (p : LexLine)
  deriving DecidableEq, Repr

/-- A tag: `#` and 1–8 letters or digits (R85). -/
def tagOf (cs : List Char) : Option String :=
  match cs with
  | '#' :: r => if r.all Char.isAlphanum && decide (1 ≤ r.length) && decide (r.length ≤ 8) then some (String.ofList r) else none
  | _ => none

/-- The tokens of a line after its tag: the verb comes first (R83, R85). -/
def lexVerb (framed : Bool) (tag : Option String) (ts : List (List Char)) : Lexed :=
  match ts with
  | [] => .bad tag (synEr "MISSING")
  | c :: r =>
    let first : Except Er Unit := match keyed c with
      | some (k, v) =>
        if isWord k then (match valueOf false v with | .ok _ => .ok () | .error e => .error e) else .error (synEr "TOKEN")
      | none => (match valueOf framed c with
        | .ok (.list _) => .error (synEr "TOKEN")
        | .ok _ => .ok ()
        | .error e => .error e)
    match first with
    | .error e => .bad tag e
    | .ok _ =>
      match lexArgs framed r { tag := tag, verb := upper c } with
      | .error e => .bad tag e
      | .ok p => .good p

/-- The tokens of a line; an order's line has no tag (21_orders R540). -/
def lexTokens (framed tags : Bool) (ts : List (List Char)) : Lexed :=
  match ts with
  | ('#' :: r) :: rest =>
    (match tags, tagOf ('#' :: r) with
    | true, some t => lexVerb framed (some t) rest
    | _, _ => .bad none (synEr "TOKEN"))
  | _ => lexVerb framed none ts

def charsOf (text : List Byte) : List Char :=
  text.map (fun b => if b = 9 then ' ' else Char.ofNat b.toNat)

/-- The octets of a line without the spaces that follow it. -/
def trimEnd (text : List Byte) : List Byte :=
  (text.reverse.dropWhile (fun b => b = 0x20 || b = 9)).reverse

/-- The text before a check suffix in the last three characters, and the value that the suffix gives (R95). -/
def suffixOf (text : List Byte) : Option (List Byte × Nat) :=
  let n := text.length - 3
  match (text.drop n).map (fun b => Char.ofNat b.toNat) with
  | ['*', a, b] =>
    (match hexVal a, hexVal b with
    | some x, some y => some (text.take n, 16 * x + y)
    | _, _ => none)
  | _ => none

/-- A line that lost octets (R102). -/
def lostEr (l : LostMarks) : Option Er :=
  if l.overrun then some (synEr "OVERRUN") else if l.char then some (synEr "CHAR")
  else if l.long then some (synEr "LONG") else none

/-- A line of a port: its losses, its emptiness, its check and its grammar (R82, R95, R102).  DESIGN CHOICE (log entry
72): a line that holds nothing but a valid check suffix, such as `*00`, is an empty line of R82. -/
def lexLine (framed : Bool) (text : List Byte) (lost : LostMarks) : Lexed :=
  match lostEr lost with
  | some e => .bad none e
  | none =>
    let t := trimEnd text
    if t.isEmpty then .empty
    else
      match suffixOf t with
      | none => if framed then .bad none ⟨"CHECK", []⟩ else lexTokens framed true (tokensOf (charsOf t))
      | some (body, v) =>
        if crcOf c8 body != v then .bad none ⟨"CHECK", []⟩
        else
          let ts := tokensOf (charsOf body)
          if ts.isEmpty then .empty
          else if (trimEnd body).length < body.length then
            .bad ((ts.head?).bind tagOf) (synEr "TOKEN")
          else lexTokens framed true ts

/-- A waiting line, read in its own mode (R103, R106). -/
def InLine.lexed (x : InLine) : Lexed := lexLine x.framed x.text x.lost

/-- A line of a standing order: as typed, without tag, check or block (21_orders R540). -/
def lexOrder (text : String) : Lexed :=
  let ts := tokensOf (text.toList.map (fun c => if c = '\t' then ' ' else c))
  if ts.isEmpty then .empty else lexTokens false false ts

/-- The block that a framed line announces, whether or not the line is then refused; a line whose check fails announces
none (R91, R92). -/
def announcedBlock (text : List Byte) (lost : LostMarks) : Option Nat :=
  match lostEr lost, suffixOf (trimEnd text) with
  | none, some (body, v) =>
    if crcOf c8 body = v then
      (tokensOf (charsOf body)).findSome? (fun c => match c with
        | '@' :: r => (match markerOf true r with | .ok (.block n) => some n | _ => none)
        | _ => none)
    else none
  | _, _ => none

end Sys2Proof.Machine
end

