-- ==== Sys2Proof/Machine/Desk.lean ====
section
/-! DEFINITION. The two ports (04_desk): octets received and sent, line editing, blocks, breaks and autobaud, the
Chute's transactions, the sending of a line, MODE and DESK, and the ports' registers. -/
namespace Sys2Proof.Machine

open Sys2Proof

/-! ## Rates (Table 4.1) -/

def deskRates : List Nat := [1200, 2400, 4800, 9600, 19200, 38400, 57600, 115200, 230400, 460800, 921600]

def crlf : List Byte := [13, 10]

/-- `vg: `. -/
def promptText : List Byte := [0x76, 0x67, 0x3A, 0x20]

/-! ## Receiving a line (R68–R71, R80, R81, R91) -/

/-- Octets join the echo that typed mode sends (R93). -/
def PortSt.echoes (p : PortSt) (l : List Byte) : PortSt := { p with echo := p.echo ++ l }

/-- A line end at the time t: the line waits to be taken, and the block that it announces is expected. -/
def PortSt.lineEnd (p : PortSt) (framed : Bool) (t : Nat) : PortSt :=
  let block : Option BlockRx := if framed then (announcedBlock p.fifo p.lost).map (fun n => ⟨n, []⟩) else none
  let x : InLine := { text := p.fifo, lost := p.lost, at_ := t, framed := framed, raw := p.raw }
  let q := { p with lines := p.lines ++ [x], fifo := [], raw := [], lost := ⟨false, false, false⟩, block := block }
  if framed then q else { q.echoes crlf with typing := false }

/-- A character of a line: beyond the 255th it is discarded, and in a line that has overrun all that follow are. -/
def PortSt.store (p : PortSt) (framed : Bool) (b : Byte) : PortSt :=
  if p.lost.overrun then p
  else if 255 ≤ p.fifo.length then { p with lost := { p.lost with long := true } }
  else
    let q := { p with fifo := p.fifo ++ [b] }
    if framed then q else { q.echoes [b] with typing := true }

/-- A typed-mode editing character (R93), or any other octet that no line may hold.  DESIGN CHOICE (log entry 72): the
line that Ctrl-U discards takes the marks of what it lost with it. -/
def PortSt.control (p : PortSt) (framed : Bool) (b : Byte) : PortSt :=
  if !framed && (b = 0x08 || b = 0x7F) then
    if p.fifo.isEmpty then p else { p.echoes [0x08, 0x20, 0x08] with fifo := p.fifo.dropLast }
  else if !framed && b = 0x15 then
    { p.echoes (crlf ++ promptText) with fifo := [], lost := ⟨false, false, false⟩, typing := true }
  else { p with lost := { p.lost with char := true } }

/-- The FIFO is full: an octet that arrives is discarded, though a line end still ends its line. -/
def PortSt.full (p : PortSt) : Bool := decide (512 ≤ p.fill)

/-- The octet is the LF of a line end CR LF (R80); it is no octet of the block behind that line. -/
def PortSt.endsCr (p : PortSt) (b : Byte) : Bool := decide (b = 10) && p.sawCr

/-- One octet outside a block. -/
def PortSt.feed (p : PortSt) (framed : Bool) (x : InOctet) : PortSt :=
  let q := { p with sawCr := decide (x.b = 13) && !x.bad, raw := p.raw ++ [x] }
  if x.bad then { q with lost := { q.lost with char := true } }
  else
    let q1 := if x.drop then { q with lost := { q.lost with overrun := true } } else q
    if x.b = 13 || x.b = 10 then q1.lineEnd framed x.at_
    else if x.drop then q1
    else if x.b = 9 || (0x20 ≤ x.b.toNat && x.b.toNat ≤ 0x7E) then q1.store framed x.b
    else q1.control framed x.b

/-- The last waiting line has its block. -/
def withBlock (ls : List InLine) (l : List Byte) (raw : List InOctet) : List InLine :=
  match ls.getLast? with
  | some x => ls.dropLast ++ [{ x with block := l, raw := x.raw ++ raw }]
  | none => ls

/-- An octet of a block: marker, contents and CRC make n + 8 octets (R91). -/
def PortSt.blockOctet (p : PortSt) (y : BlockRx) (x : InOctet) : PortSt :=
  let got := y.got ++ [x.b]
  let raw := p.raw ++ [x]
  if got.length = y.expect + 8 then
    { p with block := none, lines := withBlock p.lines got raw, raw := [], sawCr := false }
  else { p with block := some { y with got := got }, raw := raw, sawCr := false }

/-- One octet, in the mode given; an LF after a CR counts as part of the same line end (R80). -/
def PortSt.octet (p : PortSt) (framed : Bool) (x : InOctet) : PortSt :=
  if p.endsCr x.b && !x.bad then { p with sawCr := false }
  else
    match p.block with
    | some y => p.blockOctet y x
    | none => p.feed framed x

/-- The port after an octet, with its busy level (R68, R76). -/
def PortSt.settled (p : PortSt) : PortSt := { p with busy := busyAfter p.busy (min 512 p.fill) }

/-- Whether the octet is discarded for want of room (R70, R78). -/
def PortSt.overruns (p : PortSt) (b : Byte) : Bool := p.full && !p.endsCr b && p.block.isNone

/-- What has arrived is read again in another mode: the partial line alone, or the waiting lines too (R103, R106).
Nothing is echoed for it. -/
def PortSt.reread (p : PortSt) (framed all : Bool) : PortSt :=
  if !all && p.block.isSome then p
  else
    let xs := (if all then p.lines.flatMap (·.raw) else []) ++ p.raw
    let q := { p with lines := if all then [] else p.lines, fifo := [], raw := [], lost := ⟨false, false, false⟩,
                      sawCr := false, block := none }
    { xs.foldl (fun q x => q.octet framed x) q with echo := p.echo, typing := p.typing && !framed, sawCr := p.sawCr }

/-- The Desk's mode has changed from `was`. -/
def State.newMode (s : State) (was all : Bool) : State :=
  if s.framed .desk = was then s
  else { s with dport := (s.dport.reread (s.framed .desk) all).settled }

def overrunCount (p : Port) (d : DeskSt) : DeskSt :=
  match p with
  | .desk => { d with overrun := d.overrun.inc }
  | .chute => { d with cOverrun := d.cOverrun.inc }

/-- One octet of input; an overrun counts and fires EV_INPUT_OVERRUN. -/
def State.inputOctet (s : State) (p : Port) (b : Byte) (bad : Bool) : State :=
  let q := s.port p
  let drop := !bad && q.overruns b
  let s1 := s.setPort p (q.octet (s.framed p) { b := b, drop := drop, bad := bad, at_ := s.now }).settled
  if drop then
    ({ s1 with desk := overrunCount p s1.desk }).fire 124 [kw "port" (portName p)]
  else s1

/-! ## Blocks (R91, R92, R112) -/

/-- The answer to a line whose block has been rejected: its own first error, or BLOCK. -/
def blockEr (x : InLine) : Option String × Er :=
  match x.lexed with
  | .bad t e => (t, e)
  | .good y => (y.tag, synEr "BLOCK")
  | .empty => (none, synEr "BLOCK")

/-- A block is rejected: its line is dropped and answered, and the next octet begins a new line. -/
def State.rejectBlock (s : State) (p : Port) : State :=
  let q := s.port p
  match q.lines.getLast? with
  | none => s.setPort p { q with block := none, raw := [] }
  | some x =>
    let s1 := s.setPort p { q with block := none, raw := [], lines := q.lines.dropLast, sawCr := false }.settled
    let a := blockEr x
    s1.refuse { origin := .port p, tag := a.1, pos := [], named := [], block := .absent } a.2

/-- BLOCK_TIMEOUT (R92). -/
def execBlockTimeout (p : Port) (s : State) : Host.Outcome State Fault Refusal :=
  .next (if (s.port p).block.isSome then s.rejectBlock p else s)

/-! ## The Desk's receiver -/

/-- The Desk takes characters: from `+BOOT` on, in bring-up, in Run and while an entry can still be aborted (08 R215, 09
R247). -/
def State.portHears (s : State) (p : Port) : Bool :=
  s.pwr.vddioOk && (s.port p).announced &&
    (s.booting || s.inRun || (match s.pwr.state with | .entry _ false => true | _ => false))

def State.touched (s : State) : State := { s with pwr := { s.pwr with idleSince := s.day.cyc } }

/-- DESK_OCTET (R68–R71, R93, 09 R247). -/
def execDeskOctet (b : Byte) (stopLow : Bool) (s0 : State) : Host.Outcome State Fault Refusal :=
  if s0.pwr.vddioOk && decide (s0.pwr.state = .wake 3 false) then
    .next { s0 with desk := { s0.desk with lostWake := s0.desk.lostWake.inc } }
  else if !s0.portHears .desk then .next s0
  else
    let s := { s0.touched with desk := { s0.desk with breakArmed := false, framing := s0.desk.framing.incIf stopLow },
                               pads := { s0.pads with deskRx := !stopLow } }
    .next (if stopLow && s.dport.block.isSome then s.rejectBlock .desk else s.inputOctet .desk b stopLow)

/-- DESK_BREAK (R73, R111, R112). -/
def execDeskBreak (s : State) : Host.Outcome State Fault Refusal :=
  if !(s.pwr.vddioOk && s.dport.announced) || decide (s.pwr.state = .dormant) || s.sys.testMode then .next s
  else
    let s0 := { s with pads := { s.pads with deskRx := false } }
    let s1 := if s0.dport.block.isSome then s0.rejectBlock .desk else s0
    .next { s1.touched with dport := s1.dport.dropPartial.settled, desk := { s1.desk with breakArmed := true } }

/-- The tokens of DESK. -/
def State.deskToks (s : State) : List Tok :=
  [w "DESK", kd "baud" (deskRates.getD (fld s.cfg.desk.desk 3 0) 0),
   kd "stored" (deskRates.getD (fld s.stored.desk.desk 3 0) 0), kw "autobaud" (yesNo s.desk.autobaud), edTok s .desk]

/-- A change of DESK_CONFIG counts once for the DESK edition (R106). -/
def State.putDesk (s : State) (v : Word) : State :=
  if v = s.cfg.desk.desk then s else (s.cfgSet .desk v).bump .desk

/-- The rate whose start bit this is, within ±4 % (R73). -/
def rateOfStart (ticks : Nat) : Option Nat :=
  (List.range 11).find? (fun i => let r := deskRates.getD i 1
    decide (96 * 19200000 ≤ 100 * ticks * r) && decide (100 * ticks * r ≤ 104 * 19200000))

/-- AUTOBAUD_CHARACTER (R73); with VDDIO too low the Desk hears nothing (03 R43). -/
def execAutobaudCharacter (startTicks lowTicks : Nat) (s : State) : Host.Outcome State Fault Refusal :=
  if !(s.desk.breakArmed && s.pwr.vddioOk) then .next s
  else
    let s1 := { s with desk := { s.desk with breakArmed := false }, pads := { s.pads with deskRx := true } }
    match rateOfStart startTicks with
    | none => .next s1
    | some r =>
      if 36 * startTicks ≤ 10 * lowTicks ∧ 10 * lowTicks ≤ 44 * startTicks then
        let s2 := { s1.touched with desk := { s1.desk with rate := r, autobaud := true, ratePending := none, rateAtOctet := false } }
        let s3 := s2.putDesk (setFld s.cfg.desk.desk 3 0 r)
        .next (s3.push .desk { kind := .reply true, toks := w "OK" :: s3.deskToks })
      else .next s1

/-! ## Sending (R94, R98–R100, R103, R104) -/

/-- A pending rate takes effect. -/
def State.applyRate (s : State) : State :=
  match s.desk.ratePending with
  | none => s
  | some r => { s with desk := { s.desk with rate := r, ratePending := none, rateAtOctet := false } }

/-- A pending rate that no Desk reply times takes effect at the end of the Desk octet in progress (R104, R106). -/
def State.rateSoon (s : State) : State :=
  if s.desk.ratePending.isNone then s
  else if s.deskSending then { s with desk := { s.desk with rateAtOctet := true } }
  else s.applyRate

/-- The attempt that a DORMANT reply on the Desk precedes may begin once nothing is left to send (09 R234). -/
def State.attemptNow (s : State) : State :=
  let by_ : Bool := match s.pwr.attemptBy with | some (.port .desk) => true | _ => false
  if by_ && decide (s.pwr.state = .entryWait) && s.dport.echo.isEmpty &&
      !(s.dport.out.any (fun x => decide (x.kind = .dormantReply))) then
    { s with pwr := { s.pwr with attemptDue := true } }
  else s

/-- A line that is sent while a line is being typed begins with CR LF (R94). -/
def OutKind.breaksLine : OutKind → Bool
  | .dn _ => true
  | .ev _ => true
  | .boot => true
  | .ready _ => true
  | _ => false

/-- The octets of the line at the front of the Desk's queue, in the mode of the moment at which it begins to be sent
(R94, R103, R106). -/
def State.deskLine (s : State) : List Byte :=
  match s.dport.out with
  | [] => []
  | l :: _ => if s.day.cyc < l.due then [] else
    (if l.kind.breaksLine && s.dport.typing && !s.framed .desk then crlf else []) ++ l.wire (s.framed .desk)

/-- The octets that the Desk sends next: the rest of a line that has begun, else echo and prompt, else the next line.  The
first of them is the octet in progress. -/
def State.deskOctets (s : State) : List Byte :=
  match s.dport.sending with
  | some (b :: bs) => b :: bs
  | some [] => s.dport.echo
  | none => if s.dport.echo.isEmpty then s.deskLine else s.dport.echo

/-- The Desk's queues after the octet in progress. -/
def State.deskSent (s : State) : PortSt :=
  let p := s.dport
  match p.sending with
  | some (_ :: bs) => { p with sending := some bs }
  | some [] => { p with echo := p.echo.tail }
  | none =>
    if !p.echo.isEmpty then { p with echo := p.echo.tail }
    else if s.deskLine.isEmpty then p
    else { p with sending := some s.deskLine.tail }

/-- DESK_TX_OCTET_END: an octet of echo or of a line has been sent; with VDDIO too low the Desk sends nothing (03 R43). -/
def execDeskTxOctetEnd (s : State) : Host.Outcome State Fault Refusal :=
  if !s.pwr.vddioOk then .next s
  else
    let s1 := { s with dport := s.deskSent }
    .next (if s1.desk.rateAtOctet then s1.applyRate else s1).attemptNow

/-- A return that has been sent: held where the port holds returns, and freed otherwise (06 R170). -/
def State.returnSent (s : State) (p : Port) (n : Nat) : State :=
  if s.holdOn p then s.updTicket n (fun t => { t with st := .held }) else s.freeTicket n

/-- The prompt after a line of typed mode: after a reply, and after another line together with what has been typed
(R93, R94, 08 R215). -/
def State.promptAfter (s : State) (k : OutKind) : State :=
  let again := s.dport.echoes (promptText ++ s.dport.fifo)
  let fresh := { again with typing := true }
  if s.framed .desk then s
  else
    match k with
    | .reply false => s
    | .resetReply => s
    | .dn _ => if s.dport.typing then { s with dport := again } else s
    | .ev _ => if s.dport.typing then { s with dport := again } else s
    | _ => { s with dport := fresh }

/-- What the sending of a line does (06 R170, 07 R203, 08 R217, R229, 09 R234). -/
def State.lineSent (s : State) (p : Port) (k : OutKind) : State :=
  match k with
  | .dn n => s.returnSent p n
  | .ret n => s.freeTicket n
  | .boot => if p = .desk then { s with sys := { s.sys with bootSent := true } } else s
  | .ready wake =>
    if p = .chute then s
    else if wake then (s.fire 1 [kw "src" (sourceNames.getD s.pwr.wakeSrc "")]).startMeasure false
    else (s.fire 0 [kw "cause" s.sys.cause.name]).startMeasure false
  | .deskReply => if p = .desk then s.applyRate else s.rateSoon
  | .resetReply => if p = .chute then { s with sys := { s.sys with resetReplyRead := true } } else s
  | _ => s

/-- The octets of a line with its block. -/
def State.wireLen (s : State) (p : Port) (l : OutLine) : Nat := lineLen (s.framed p) l + l.blockLen

/-- The line at the front of a port's queue can have been sent: no octet of it is left. -/
def State.maySend (s : State) (p : Port) (l : OutLine) : Bool :=
  (s.booting || s.inRun) && s.pwr.vddioOk && decide (l.due ≤ s.day.cyc) &&
  match p with
  | .desk => (match s.dport.sending with | some (_ :: _) => false | _ => true)
  | .chute => decide (s.wireLen .chute l ≤ s.cport.partialRead)

/-- The line at the front of a port's queue has been sent. -/
def State.frontSent (s : State) (p : Port) : State :=
  let q := s.port p
  match q.out with
  | [] => s
  | l :: rest =>
    if !s.maySend p l then s
    else
      let s1 := s.setPort p { q with out := rest, partialRead := q.partialRead - s.wireLen p l, sending := none }
      let s2 := s1.lineSent p l.kind
      if p = .desk then ((s2.promptAfter l.kind).padFollow).attemptNow else s2

/-- LINE_SENT (R104, 06 R170): the last octet of the line at the front of a port's queue has been sent. -/
def execLineSent (p : Port) (s : State) : Host.Outcome State Fault Refusal := .next (s.frontSent p)

/-! ## The Chute's transactions (R75–R79) -/

def State.chuteStatus (s : State) : BitVec 16 :=
  if !s.cport.announced then 0xFFFF
  else BitVec.ofNat 16 (b2n s.cport.busy * 32768 + s.outCount .chute % 32768)

/-- CHUTE_CS_FALL: a transaction that begins before the port has announced itself, or in Dormant or a wake, is discarded
whole (R79, 09 R248).  DESIGN CHOICE (log entry 72): the status word of R76 is that of the fall. -/
def execChuteCsFall (mode3 : Bool) (s : State) : Host.Outcome State Fault Refusal :=
  if !(s.has .chute) then .next s
  else
    let s1 := { s with pads := { s.pads with chuteCs := false, chuteSck := mode3 } }
    .next { s1 with chute := { active := true, mode3 := mode3, octets := 0, discard := !s.portHears .chute,
                               status := s.chuteStatus } }

/-- The octet of the queue that goes out next on the Chute, 0xFF where there is none (R76). -/
def State.chuteNext (s : State) : Byte :=
  match s.cport.out with
  | [] => 0xFF
  | l :: _ => if s.day.cyc < l.due then 0xFF else (l.wire true).getD s.cport.partialRead 0xFF

/-- The output side of an octet: a status octet, or the next octet of the queue; nothing leaves the queue while CHUTE_SDO
is not driven (R76, R79, R109). -/
def State.chuteOut (s0 : State) : State :=
  let n := s0.chute.octets
  let put (s : State) (b : Byte) : State := { s with chute := { s.chute with sdo := b, octets := n + 1 } }
  if n < 2 then put s0 (BitVec.ofNat 8 (s0.chute.status.toNat / (if n = 0 then 256 else 1)))
  else if s0.chute.discard || !s0.sdoDriven then put s0 0xFF
  else
    let s := s0.frontSent .chute
    let t := put s s.chuteNext
    if s.outCount .chute = 0 then t else { t with cport := { t.cport with partialRead := t.cport.partialRead + 1 } }

/-- The input side of an octet (R76, R77). -/
def State.chuteIn (s : State) (b : Byte) : State :=
  if s.chute.discard || !s.portHears .chute || (s.cport.block.isNone && decide (b = 0xFF)) then s
  else s.touched.inputOctet .chute b false

/-- CHUTE_OCTET (R76, R77): the input beside the status word is ignored.  An octet cut short is discarded both ways: the
queue's octet has left it, and the host's is not received. -/
def execChuteOctet (b : Option Byte) (s : State) : Host.Outcome State Fault Refusal :=
  if !s.chute.active then .next s
  else
    match b with
    | none => .next s.chuteOut
    | some b =>
      let s1 := { s with pads := { s.pads with chuteSdi := b.getLsbD 0 } }
      .next (if s.chute.octets < 2 then s1.chuteOut else s1.chuteOut.chuteIn b)

/-- The Chute's DORMANT reply has been read in full. -/
def State.chuteAttempt (s : State) : Bool :=
  decide (s.pwr.state = .entryWait) && decide (s.pwr.attemptBy = some (.port .chute))

/-- CHUTE_CS_RISE (R77, 09 R234): the transaction ends; an octet that it cuts short is CHUTE_OCTET's. -/
def execChuteCsRise (s : State) : Host.Outcome State Fault Refusal :=
  if !(s.has .chute) then .next s
  else
    let s1 := { s with pads := { s.pads with chuteCs := true }, chute := { s.chute with active := false } }
    .next (if s1.chuteAttempt && !(s1.cport.out.any (fun x => decide (x.kind = .dormantReply))) then
        { s1 with pwr := { s1.pwr with attemptDue := true } }
      else s1)

/-- CHUTE_REPLY_TIMEOUT (08 R229, 09 R234): 100 ms after the line was taken. -/
def execChuteReplyTimeout (s : State) : Host.Outcome State Fault Refusal :=
  if s.sys.replySince + 100 * tickMs ≤ s.day.cyc then
    if decide (s.sys.pendingReset = some (.port .chute)) && s.resettable then .next (s.takeReset .command 0 .none)
    else if s.chuteAttempt then .next { s with pwr := { s.pwr with attemptDue := true } }
    else .next s
  else .next s

/-! ## MODE and DESK -/

/-- The Record's configuration register as it will stand once every waiting row has been written. -/
def State.storedGet (s : State) (r : CfgReg) : Word :=
  match cfgTwins.find? (fun i => (twinRegs i).contains r) with
  | some i => BitVec.ofNat 32 (numAt (s.rowSoon i) (4 * (twinRegs i).idxOf r) 4)
  | none => 0

/-- Held returns are sent as DN lines in order of completion when hold goes OFF (R103). -/
def State.holdFlush (s : State) (p : Port) (was : Bool) : State :=
  if was && !s.holdOn p then
    ((s.heldOf p).filter (fun t => !((s.port p).out.any (fun x => decide (x.kind = .ret t.n))))).foldl (fun s t =>
      (s.updTicket t.n (fun t => { t with st := .complete })).push p
        { kind := .dn t.n, tag := t.tag, toks := dnToks t.n (t.result.getD .done) t.fields, block := t.block }) s
  else s

/-- The mode and hold of a port replaced; a change counts for the port's edition (R103, R106). -/
def State.putMode (s : State) (p : Port) (framed hold : Bool) : State :=
  match p with
  | .desk =>
    (s.putDesk (setFld (setFld s.cfg.desk.desk 5 5 (b2n framed)) 6 6 (b2n hold))).newMode (s.framed .desk) true
  | .chute =>
    let v := setFld s.cfg.desk.chute 6 6 (b2n hold)
    if v = s.cfg.desk.chute then s else (s.cfgSet .chute v).bump .chute

/-- MODE save=YES stores the port's mode and hold alone. -/
def State.saveMode (s : State) (p : Port) : State :=
  match p with
  | .desk => s.saveAs [(.desk, setFld (s.storedGet .desk) 6 5 (fld s.cfg.desk.desk 6 5))]
  | .chute => s.saveAs [(.chute, setFld (s.storedGet .chute) 6 6 (fld s.cfg.desk.chute 6 6))]

def modeWords : List String := ["TYPED", "FRAMED"]

/-- MODE (R103). -/
def execMode (l : Line) (s : State) : Host.Outcome State Fault Refusal :=
  let p := (originPort l.origin).getD .desk
  let m : Bool := match l.posWord? 0 with | some x => x == "FRAMED" | none => s.framed p
  let h := (l.on? "hold").getD (s.holdOn p)
  runLine { order := false, pos := [("mode", .any)], keys := [("hold", .word ["ON", "OFF"]), saveKey] } l s
    ((match l.at? 0 with
      | some (.word x) => erIf (!modeWords.contains x) ⟨"UNKNOWN", [x]⟩ ++
          erIf (decide (p = .chute) && x == "TYPED") (erRange "TYPED")
      | some _ => [erExtra]
      | none => []) ++ erIf (!m && h && decide (p = .desk)) (erRange "hold")) (fun s =>
      let was := s.holdOn p
      let s1 := s.putMode p m h
      let s2 := if l.save then s1.saveMode p else s1
      (s2.ok l [w "MODE", w (if m then "FRAMED" else "TYPED"), kw "hold" (onOff h), edTok s2 (portUnit p)]).holdFlush p was)

/-- A new rate, which waits for the reply or the end of an octet (R104). -/
def State.newRate (s : State) (r : Nat) : State :=
  { s with desk := { s.desk with autobaud := false, rateAtOctet := false,
                                 ratePending := if r = s.desk.rate then none else some r } }

/-- DESK save=YES stores the running rate and the two ports' ev_lines. -/
def State.saveDesk (s : State) : State :=
  let d := s.cfg.desk.desk
  s.saveAs [(.desk, setFld (setFld (s.storedGet .desk) 3 0 (fld d 3 0)) 7 7 (fld d 7 7)),
            (.chute, setFld (s.storedGet .chute) 7 7 (fld s.cfg.desk.chute 7 7))]

/-- DESK (R104). -/
def execDesk (l : Line) (s : State) : Host.Outcome State Fault Refusal :=
  runLine { noun := true, order := false, keys := [("baud", .oneOf (deskRates.map Int.ofNat)), saveKey] } l s [] (fun s =>
    let s1 := match l.nat? "baud" with
      | none => s
      | some b =>
        let r := deskRates.idxOf b
        (s.newRate r).putDesk (setFld s.cfg.desk.desk 3 0 r)
    let s2 := if l.save then s1.saveDesk else s1
    let stored := if l.save then fld s2.cfg.desk.desk 3 0 else fld (s2.storedGet .desk) 3 0
    s2.replyLines l .deskReply false
      [[w "OK", w "DESK", kd "baud" (deskRates.getD (fld s2.cfg.desk.desk 3 0) 0), kd "stored" (deskRates.getD stored 0),
        kw "autobaud" (yesNo s2.desk.autobaud), edTok s2 .desk]])

/-! ## Registers (Tables 4.9–4.11) -/

/-- A DESK_CONFIG write takes effect as MODE and DESK do (R106): the new mode is that of every line whose end arrives
after it.  What it does beyond that where it is taken from the Desk, and when its rate takes effect, is the writing verb's
to see to. -/
def State.writeDesk (s : State) (v : Word) : State :=
  let r := fld v 3 0
  let s1 := if r = fld s.cfg.desk.desk 3 0 then s else s.newRate r
  let was := s1.holdOn .desk
  ((s1.putDesk v).newMode (s.framed .desk) false).holdFlush .desk was

def State.writeChute (s : State) (v : Word) : State :=
  if v = s.cfg.desk.chute then s
  else
    let was := s.holdOn .chute
    ((s.cfgSet .chute v).bump .chute).holdFlush .chute was

def setDeskSt (f : DeskSt → DeskSt) (s : State) : State := { s with desk := f s.desk }

def deskRegs : List Reg :=
  [{ addr := 0x2400, name := "DESK_CONFIG", fields := [rw "ev_lines" 7 7, rw "hold" 6 6, rw "mode" 5 5, rw "baud" 3 0],
     read := fun s => s.cfg.desk.desk,
     check := fun _ v => fieldOut v 3 0 0 10 ++ erIf (bit v 6 && !bit v 5) (erRange "value"),
     apply := fun v s => s.writeDesk v },
   roReg 0x2404 "DESK_STATUS" [ro "edition" 31 16, ro "in_fill" 15 6, ro "autobaud" 2 2, ro "out_pending" 1 1, ro "busy" 0 0]
     (fun s => statusWord s .desk (min 512 s.dport.fill * 64 + b2n s.desk.autobaud * 4 + b2n s.deskSending * 2 + b2n s.dport.busy)),
   { ctrReg 0x2408 "DESK_LOST_WAKE" (·.desk.lostWake) (fun c => setDeskSt (fun d => { d with lostWake := c })) with
     fields := [rw "lost_wake_chars" 31 0] },
   ctrReg 0x240C "DESK_OVERRUN" (·.desk.overrun) (fun c => setDeskSt (fun d => { d with overrun := c })),
   ctrReg 0x2410 "DESK_FRAMING" (·.desk.framing) (fun c => setDeskSt (fun d => { d with framing := c })),
   ctrReg 0x2414 "DESK_CHECK_FAIL" (·.desk.checkFail) (fun c => setDeskSt (fun d => { d with checkFail := c })),
   ctrReg 0x2418 "DESK_EV_DROPPED" (·.desk.evDropped) (fun c => setDeskSt (fun d => { d with evDropped := c })),
   wrapReg 0x241C "DESK_WRAP" 5 (fun s =>
     [s.desk.lostWake, s.desk.overrun, s.desk.framing, s.desk.checkFail, s.desk.evDropped]),
   { addr := 0x2440, name := "CHUTE_CONFIG", fields := [rw "ev_lines" 7 7, rw "hold" 6 6],
     read := fun s => s.cfg.desk.chute, apply := fun v s => s.writeChute v },
   roReg 0x2444 "CHUTE_STATUS" [ro "edition" 31 16, ro "busy" 15 15, ro "out_count" 14 0] (fun s =>
     statusWord s .chute (b2n s.cport.busy * 32768 + s.outCount .chute % 32768)),
   ctrReg 0x2448 "CHUTE_OVERRUN" (·.desk.cOverrun) (fun c => setDeskSt (fun d => { d with cOverrun := c })),
   ctrReg 0x244C "CHUTE_CHECK_FAIL" (·.desk.cCheckFail) (fun c => setDeskSt (fun d => { d with cCheckFail := c })),
   ctrReg 0x2450 "CHUTE_EV_DROPPED" (·.desk.cEvDropped) (fun c => setDeskSt (fun d => { d with cEvDropped := c })),
   wrapReg 0x2454 "CHUTE_WRAP" 3 (fun s => [s.desk.cOverrun, s.desk.cCheckFail, s.desk.cEvDropped])]

end Sys2Proof.Machine
end

