-- ==== Sys2Proof/Machine/Identity.lean ====
section
/-! DEFINITION. Identity and status (08_bringup): ID, STAT, RESET, and the SYS registers. -/
namespace Sys2Proof.Machine

open Sys2Proof

def Part.name (p : Part) : String := "VG" ++ Nat.repr p.number

def Stage.code : Stage → Nat
  | .power => 0 | .record => 1 | .trim => 2 | .ledger => 3 | .vault => 4 | .orders => 5 | .ready => 6

def Stage.name : Stage → String
  | .power => "POWER" | .record => "RECORD" | .trim => "TRIM" | .ledger => "LEDGER" | .vault => "VAULT"
  | .orders => "ORDERS" | .ready => "READY"

/-! ## ID (R5, R221) -/

def State.idToks (s : State) : List Tok :=
  [w "ID", kw "part" s.part.name, kw "rev" "B", .kv "feat" (.hex 3 s.part.feat.toNat)]

/-- ID. -/
def execId (l : Line) (s : State) : Host.Outcome State Fault Refusal :=
  runLine { noun := true, boot := true } l s [] (fun s => s.ok l s.idToks)

/-- ID ALL. -/
def execIdAll (l : Line) (s : State) : Host.Outcome State Fault Refusal :=
  runLine { boot := true } l s [] (fun s => s.ok l (s.idToks ++ [.kv "eui" (.hex 16 s.eui.toNat)]))

/-! ## STAT (R211) -/

def alertNames : List String :=
  ["TAMPER", "NOISE_FAIL", "KEEPER_STOP", "FIRSTBOOT", "RECORD_REPAIR", "RECORD_FAIL", "LEDGER_RECOVERED", "NO_KEK"]

/-- Key slot 0 is empty (08_bringup R218); until the VAULT stage has loaded the key store, in the Record. -/
def State.kekEmpty (s : State) : Bool :=
  if s.booting && decide (s.sys.stage.code ≤ Stage.vault.code) then (latestHalf none 0 (vget s.record.keys 0 {})).isNone
  else (vget s.vault.slots 0 none).isNone

/-- SYS_ALERT (Table 8.8): the sticky bits and the four that show a condition. -/
def State.alertBits (s : State) : List Bool :=
  [s.tamper.latched, decide (s.noise.st = .failed), !s.day.keeperOk, s.sys.alert.getLsbD 3, s.sys.alert.getLsbD 4,
   s.sys.alert.getLsbD 5, s.sys.alert.getLsbD 6, s.has .vault && s.kekEmpty]

def State.alertText (s : State) : String :=
  " ".intercalate (((s.alertBits.zip alertNames).filter (·.1)).map (·.2))

/-- STAT. -/
def execStat (l : Line) (s : State) : Host.Outcome State Fault Refusal :=
  runLine { boot := true } l s [] (fun s =>
    s.ok l ([w "STAT", kw "stage" s.sys.stage.name, kw "cause" s.sys.cause.name, kw "role" (roleNames.getD s.role "NONE")] ++
      (if s.alertBits.any id then [.kv "alert" (.str s.alertText)] else []) ++ [edTok s .sys]))

/-! ## RESET (R229) -/

/-- RESET: from a port the reset follows the reply, as COMMAND_RESET; an order's line is not answered, and the reset is
taken with it. -/
def execReset (l : Line) (s : State) : Host.Outcome State Fault Refusal :=
  runLine {} l s [] (fun s =>
    match l.origin with
    | .order _ => s.takeReset .command 0 .none
    | .port _ =>
      let s1 := { s with sys := { s.sys with pendingReset := some l.origin, resetReplyRead := false, replySince := s.day.cyc } }
      s1.replyLines l .resetReply false [[w "OK", w "RESET"]])

/-! ## Registers (Tables 8.6–8.8) -/

def w1cField (name : String) (i : Nat) : Field := { name := name, hi := i, lo := i, acc := .w1c }

def sysRegs : List Reg :=
  [roReg 0x0000 "SYS_STATUS" [ro "edition" 31 16, ro "stage" 2 0] (fun s => statusWord s .sys s.sys.stage.code),
   { addr := 0x0004, name := "SYS_ALERT",
     fields := [ro "no_kek" 7 7, w1cField "ledger_recovered" 6, w1cField "record_fail" 5, w1cField "record_repair" 4,
       w1cField "firstboot" 3, ro "keeper_stop" 2 2, ro "noise_fail" 1 1, ro "tamper" 0 0],
     read := fun s => BitVec.ofNat 32 ((s.alertBits.zipIdx).map (fun x => b2n x.1 * 2 ^ x.2)).sum,
     apply := fun v s => { s with sys := { s.sys with alert := s.sys.alert &&& ~~~(BitVec.ofNat 8 (v.toNat &&& 0x78)) } } },
   roReg 0x0008 "SYS_CAUSE" [ro "also" 14 8, ro "stage" 6 4, ro "cause" 3 0] (fun s =>
     BitVec.ofNat 32 (s.sys.also.toNat * 256 + s.sys.causeStage * 16 + s.sys.cause.code)),
   roReg 0x000C "SYS_PART" [ro "rev" 15 8, ro "part" 7 0] (fun s => BitVec.ofNat 32 (0x4200 + s.part.number)),
   roVal 0x0010 "SYS_FEAT" 10 (fun s => s.part.feat),
   roVal 0x0014 "SYS_EUI_LO" 31 (fun s => BitVec.ofNat 32 s.eui.toNat),
   roVal 0x0018 "SYS_EUI_HI" 31 (fun s => BitVec.ofNat 32 (s.eui.toNat / 2 ^ 32)),
   ctrReg 0x001C "SYS_BOOT_COUNT" (·.sys.bootCount)
     (fun c s => ({ s with sys := { s.sys with bootCount := c } }).saveCounters),
   wrapReg 0x0020 "SYS_WRAP" 1 (fun s => [s.sys.bootCount])]

end Sys2Proof.Machine
end

