-- ==== Sys2Proof/Machine/RegFile.lean ====
section
/-! DEFINITION. The register file (05_register_file): every register of the family, the ranges of absent units, RD, GET,
and the writes by WR and SET, each with the register's own behaviour. -/
namespace Sys2Proof.Machine

open Sys2Proof

/-! ## The registers (24_index Table 24.2) and the ranges of absent units (R225) -/

/-- Every register, block by block. -/
def allRegs : List Reg :=
  List.flatten [sysRegs, padRegs, pwrRegs, dormRegs, dayRegs, radioRegs, modemRegs, censusRegs, frameRegs, linkRegs,
    ledgerRegs, trimRegs, noiseRegs, vaultRegs, fcRegs, storeRegs, porterRegs, collateRegs, orderRegs, sswRegs, tamperRegs,
    gpioRegs, eventRegs, deskRegs, ticketRegs]

def regAt (a : Nat) : Option Reg := allRegs.find? (fun r => r.addr == a)

def regNamed (x : String) : Option Reg := allRegs.find? (fun r => r.name == x)

/-- The ranges that belong to optional units: first and last address, and the unit. -/
def unitRanges : List (Nat × Nat × Feat) :=
  [(0x0700, 0x070F, .paHp), (0x0880, 0x08FF, .deep), (0x0A00, 0x0BFF, .census), (0x0F00, 0x0FFF, .parent),
   (0x1300, 0x13FF, .census), (0x1500, 0x17FF, .vault), (0x1880, 0x19FF, .stacks), (0x1A60, 0x1A9F, .porter4),
   (0x1CC0, 0x1D3F, .collate4), (0x2000, 0x203F, .ssw), (0x2440, 0x245F, .chute)]

/-- The refusal of an address of an absent unit. -/
def State.addrAbsent (s : State) (a : Nat) : List Er :=
  match unitRanges.find? (fun x => decide (x.1 ≤ a) && decide (a ≤ x.2.1)) with
  | some x => s.needs x.2.2
  | none => []

/-- An address names a place of the file (R114). -/
def addrErs (a : Nat) : List Er := erIf (a % 4 != 0 || decide (0x2800 ≤ a)) (erRange "address")

/-- The word read at an address: a reserved address reads 0, and so do write-only bits (R116, R120). -/
def State.readAt (s : State) (a : Nat) : Word :=
  match regAt a with
  | some r => r.read s &&& ~~~(r.mask (fun x => x == .wo))
  | none => 0

/-! ## RD (R125) -/

/-- The addresses of a read. -/
def rdAddrs (a n : Nat) : List Nat := (List.range n).map (fun i => a + 4 * i)

/-- RD. -/
def execRd (l : Line) (s : State) : Host.Outcome State Fault Refusal :=
  let a := (l.posNat? 0).getD 0
  let n := (l.nat? "n").getD 1
  runLine { minPos := 1, pos := [("address", .int 0 0x27FF)], keys := [("n", .int 1 16)] } l s
    (addrErs a ++
      (if (addrErs a).isEmpty then
        ((rdAddrs a (min n 128)).filter (fun x => x / 0x200 == a / 0x200)).flatMap s.addrAbsent ++
          erIf (decide ((a + 4 * (n - 1)) / 0x200 ≠ a / 0x200) || (a == 0x0404 && decide (2 ≤ n))) (erRange "n")
      else [])) (fun s =>
      s.okMany l ((rdAddrs a n).map (fun x =>
        [w "RD", .w (.hex 4 x), .w (.hex 8 (s.readAt x).toNat)])))

/-! ## Names (R115) -/

/-- A name split at its last dot. -/
def splitName (x : String) : String × Option String :=
  let cs := x.toList
  if cs.contains '.' then
    let f := (cs.reverse.takeWhile (· != '.')).reverse
    (String.ofList (cs.take (cs.length - f.length - 1)), some (String.ofList f))
  else (x, none)

def lowerName (x : String) : String := lower x.toList

/-- The field of a register by its name in any case. -/
def Reg.field? (r : Reg) (f : String) : Option Field := r.fields.find? (fun y => y.name == lowerName f)

def fieldVal (f : Field) (v : Word) : Int :=
  if f.sgn then signed (f.hi - f.lo + 1) (fld v f.hi f.lo) else fld v f.hi f.lo

/-- The field that spans two registers (R140). -/
def isDayNow (x : String) : Bool := x == "DAYBOOK_NOW.VALUE"

/-! ## GET (R120, R121) -/

/-- The refusals of a name that GET reads. -/
def State.getErs (s : State) (x : String) : List Er :=
  if isDayNow x then []
  else
    let p := splitName x
    match regNamed p.1 with
    | none => [⟨"UNKNOWN", [x]⟩]
    | some r =>
      s.addrAbsent r.addr ++
        (match p.2 with
          | none => []
          | some f => match r.field? f with
            | none => [⟨"UNKNOWN", [x]⟩]
            | some y => erIf (y.acc == .wo) ⟨"DENIED", ["WRITEONLY"]⟩)

/-- What GET answers. -/
def State.getTok (s : State) (x : String) : Tok :=
  if isDayNow x then .kv "DAYBOOK_NOW.value" (.time s.now)
  else
    let p := splitName x
    match regNamed p.1 with
    | none => w x
    | some r =>
      match p.2.bind r.field? with
      | some f => .kv (r.name ++ "." ++ f.name) (.dec (fieldVal f (r.read s)))
      | none => .kv r.name (.hex 8 (s.readAt r.addr).toNat)

/-- GET. -/
def execGet (l : Line) (s : State) : Host.Outcome State Fault Refusal :=
  let x := (l.posWord? 0).getD ""
  runLine { minPos := 1, pos := [("register", .name)] } l s (match l.at? 0 with
    | none => []
    | some (.word _) => s.getErs x
    | some _ => [erRange "register"]) (fun s =>
    s.ok l [w "GET", s.getTok x])

/-! ## The errors of a write -/

/-- VAULT_FC_2 to VAULT_FC_7 (14_frames R391). -/
def vaultFcAddr (a : Nat) : Bool := decide (0x1788 ≤ a) && decide (a < 0x17A0)

/-- Registers whose range depends on other settings or on stored contents (21_orders R540). -/
def rangeByState (a : Nat) : Bool :=
  a == 0x0604 || (decide (0x0640 ≤ a) && decide (a < 0x0660)) || a == 0x0A04 || a == 0x0F04 ||
    vaultFcAddr a || (List.range 4).any (fun n => 0x1C44 + 0x40 * n == a)

/-- The errors of writing `v` to register r (R116, R119, R120).  In the check of an order's line the ranges that depend on
other settings are left out. -/
def State.regErs (s : State) (r : Reg) (v : Word) : List Er :=
  if s.orders.checking.isSome && rangeByState r.addr then
    { r with check := fun _ v => if r.addr % 8 = 4 && decide (r.addr < 0x0660) && decide (0x0640 ≤ r.addr) then fieldOut v 2 0 0 5 else [] }.writeErs s v
  else r.writeErs s v

/-- GPIO_OUT: a port does not change the level of an ORDER pin (22 R577). -/
def State.orderOnlyErs (s : State) (o : Origin) (r : Reg) (v : Word) : List Er :=
  match o with
  | .order _ => []
  | .port _ =>
    erIf (r.addr == 0x2084 && (List.range 8).any (fun n => s.gpioFn n == 5 && (bit v n != bit s.cfg.pins.gpioOut n)))
      ⟨"DENIED", ["ORDERONLY"]⟩

/-! ## SET (R126) -/

/-- A SET line's fields: its named arguments but IF=, AFTER= and DUE=. -/
def setArgs (l : Line) : List (String × Arg) :=
  l.named.filter (fun a => !(a.1 == "if" || a.1 == "after" || a.1 == "due"))

/-- One field of a SET. -/
structure SetField where
  reg : Reg
  field : Field
  value : Int

def upperName (x : String) : String := upper x.toList

/-- The register and field that a key names. -/
def setTarget (k : String) : Option (Reg × Field) :=
  let p := splitName (upperName k)
  match regNamed p.1 with
  | none => none
  | some r => (p.2.bind r.field?).map (fun f => (r, f))

def fieldKey (r : Reg) (f : Field) : String := r.name ++ "." ++ f.name

/-- The value fits the field's width and signedness. -/
def Field.fits (f : Field) (v : Int) : Bool :=
  let n := f.hi - f.lo + 1
  if f.sgn then inRange (-((2 ^ (n - 1) : Nat) : Int)) ((2 ^ (n - 1) : Nat) - 1) v else inRange 0 ((2 ^ n : Nat) - 1) v

/-- The errors of one named argument of a SET. -/
def State.setArgErs (s : State) (a : String × Arg) : List Er :=
  if isDayNow (upperName a.1) then [⟨"DENIED", ["READONLY"]⟩]
  else
    let p := splitName (upperName a.1)
    match regNamed p.1, p.2 with
    | none, _ => [⟨"UNKNOWN", [upperName a.1]⟩]
    | some r, none => s.addrAbsent r.addr ++ [erMissing]
    | some r, some x =>
      s.addrAbsent r.addr ++
      match r.field? x with
      | none => [⟨"UNKNOWN", [upperName a.1]⟩]
      | some f =>
        (match a.2 with
          | .int v => erIf (!f.fits v) (erRange (fieldKey r f))
          | _ => [erRange (fieldKey r f)]) ++
        erIf (f.acc == .ro || r.readOnly) ⟨"DENIED", ["READONLY"]⟩

/-- The fields that the line names, where each is one. -/
def setFields (l : Line) : List SetField :=
  (setArgs l).filterMap (fun a => match setTarget a.1, a.2 with
    | some (r, f), .int v => some ⟨r, f, v⟩
    | _, _ => none)

/-- The word from which a SET starts: W1C and WO bits 0; in the check of an order's line the fields whose range the others
decide stand where they restrict none. -/
def State.setBase (s : State) (r : Reg) : Word :=
  let v := r.read s &&& r.mask (fun x => x == .rw || x == .ro)
  if s.orders.checking.isNone then v
  else if r.addr = 0x2400 then 0x20
  else if r.addr = 0x0E04 then setFld (setFld v 6 4 0) 11 8 8
  else v

def SetField.put (x : SetField) (v : Word) : Word := setFld v x.field.hi x.field.lo (unsigned 32 x.value)

/-- The field blamed for a value that the register refuses: the first that would be refused alone, or else the last. -/
def State.blamed (s : State) (r : Reg) (fs : List SetField) : String :=
  match fs.find? (fun x => (s.regErs r (x.put (s.setBase r))).any (fun e => e.code == "RANGE")) with
  | some x => fieldKey r x.field
  | none => match fs.getLast? with | some x => fieldKey r x.field | none => r.name

/-- The register errors of a SET, its RANGE named by the field. -/
def State.setWordErs (s : State) (r : Reg) (fs : List SetField) : List Er :=
  (s.regErs r (fs.foldl (fun v x => x.put v) (s.setBase r))).map (fun e =>
    if e.code == "RANGE" then erRange (s.blamed r fs) else e)

/-- The fields of a SET stand in one register, and are at most four. -/
def setSpread (l : Line) : List Er :=
  let rs := (setArgs l).map (fun a => (splitName (upperName a.1)).1)
  (match rs with
    | [] => []
    | r :: more => match more.find? (fun x => x != r) with | some x => [erRange x] | none => []) ++
  (match rs[4]? with | some x => [erRange x] | none => [])

/-- The errors of a SET. -/
def State.setErs (s : State) (l : Line) : List Er :=
  let es := (setArgs l).flatMap s.setArgErs ++ setSpread l
  erIf (setArgs l).isEmpty erMissing ++ es ++
    (match es.isEmpty, setFields l with
      | true, x :: xs => s.setWordErs x.reg (x :: xs)
      | _, _ => [])

/-! ## A write carried out (R118, R122) -/

/-- The register and word that an accepted line writes; none for a reserved address. -/
def State.writeOf (s : State) (f : WriteForm) (l : Line) : Option (Reg × Word) :=
  match f with
  | .wr => (regAt ((l.posNat? 0).getD 0)).map (fun r => (r, BitVec.ofNat 32 ((l.posNat? 1).getD 0)))
  | .set => match setFields l with
    | [] => none
    | x :: xs => some (x.reg, (x :: xs).foldl (fun v y => y.put v) (s.setBase x.reg))

/-- The edition of an absent unit lies at a reserved address (06_tickets R184), though its register has a name
(08_bringup R225). -/
def State.edReserved (s : State) (a : Nat) : Bool :=
  EdUnit.all.any (fun u => decide (a = 0x2680 + 4 * u.index) && !(s.unitAbsent u).isEmpty)

/-- The errors of a WR. -/
def State.wrErs (s : State) (l : Line) : List Er :=
  let a := (l.posNat? 0).getD 0
  let v := (l.posInt? 1).getD 0
  addrErs a ++
    (if !(addrErs a).isEmpty || l.pos.length < 2 then []
    else if (l.posInt? 1).isNone then s.addrAbsent a ++ [erRange "value"]
    else
      s.addrAbsent a ++ erIf (!inRange 0 0xFFFFFFFF v) (erRange "value") ++
      (match regAt a with
        | none => erIf (v != 0) (erRange "value")
        | some r => if s.edReserved a then erIf (v != 0) (erRange "value") else s.regErs r (BitVec.ofInt 32 v)))

/-- What the line reports: the value as written. -/
def writeToks (f : WriteForm) (l : Line) : List Tok :=
  match f with
  | .wr => [w "WR", .w (.hex 4 ((l.posNat? 0).getD 0)), .w (.hex 8 ((l.posNat? 1).getD 0))]
  | .set => w "SET" :: (setFields l).map (fun x => .kv (fieldKey x.reg x.field) (.dec x.value))

/-- The operands of a write. -/
def writeForm (f : WriteForm) (l : Line) : Form :=
  match f with
  | .wr => { minPos := 2, pos := [("address", .int 0 0x27FF), ("value", .any)], guarded := true }
  | .set => { keys := (setArgs l).map (fun a => (a.1, .any)), guarded := true }

/-- A register write.  A rate that DESK_CONFIG takes from the Desk waits for the reply, and a mode applies to the lines
that already wait behind the writing line; from elsewhere the rate takes effect at the end of the Desk octet in progress
(04_desk R103, R106). -/
def execWrite (f : WriteForm) (l : Line) (s : State) : Host.Outcome State Fault Refusal :=
  let es := match f with | .wr => s.wrErs l | .set => s.setErs l
  let only := match s.writeOf f l with | some (r, v) => s.late (s.orderOnlyErs l.origin r v) | none => []
  runLine (writeForm f l) l s (es ++ only) (fun s =>
    match s.writeOf f l with
    | none => s.ok l (writeToks f l)
    | some (r, v) =>
      let s1 := r.write v s
      if r.addr = 0x2400 then
        if l.origin = .port .desk then (s1.newMode (s.framed .desk) true).replyLines l .deskReply false [w "OK" :: writeToks f l]
        else s1.rateSoon.ok l (writeToks f l)
      else s1.ok l (writeToks f l))

/-! ## The rows of the writes -/

/-- The kinds of register that the rows of the command table tell apart. -/
inductive WriteClass
  | plain | counter | eventsPend | sysAlert | carrelLost | ordersDamaged | desk | chute | dorm | padDrive | vbatWarn
  | radioChan | radioTx | radioPlan | modem | census | frame | filter | link | tickets | masks | attnCfg | vault
  | vaultFc | feed | compare | gpioOut | gpio | tamper
  deriving DecidableEq, Repr

/-- The kind of the register at an address. -/
def writeClass (a : Nat) : WriteClass :=
  if (regAt a).any (·.counter) then .counter
  else if vaultFcAddr a then .vaultFc
  else if 0x2210 ≤ a ∧ a < 0x2220 then .eventsPend
  else if 0x2220 ≤ a ∧ a < 0x2250 then .masks
  else if 0x0640 ≤ a ∧ a < 0x0660 then .radioPlan
  else if 0x1C40 ≤ a ∧ a < 0x1D40 then (if a % 0x40 < 8 then .compare else .feed)
  else if 0x20A0 ≤ a ∧ a < 0x20C0 then .gpio
  else
    ([(0x0004, WriteClass.sysAlert), (0x1804, .carrelLost), (0x1E10, .ordersDamaged), (0x2400, .desk), (0x2440, .chute),
      (0x0284, .dorm), (0x0048, .padDrive), (0x0210, .vbatWarn), (0x0604, .radioChan), (0x060C, .radioTx),
      (0x0610, .radioTx), (0x0804, .modem), (0x0808, .modem), (0x0880, .modem), (0x0A04, .census), (0x0C04, .frame),
      (0x0C08, .filter), (0x0C0C, .filter), (0x0E04, .link), (0x2604, .tickets), (0x2204, .attnCfg), (0x1604, .vault),
      (0x2084, .gpioOut), (0x2044, .tamper)].lookup a).getD .plain

/-- The address that a line's write names. -/
def lineAddr (f : WriteForm) (l : Line) : Option Nat :=
  match f with
  | .wr => l.posNat? 0
  | .set => ((setArgs l).head?.bind (fun a => regNamed (splitName (upperName a.1)).1)).map (·.addr)

/-- A row of the command table writes the registers of its own kind. -/
def execWriteIn (c : WriteClass) (f : WriteForm) (l : Line) (s : State) : Host.Outcome State Fault Refusal :=
  if ((lineAddr f l).map writeClass).getD .plain = c then execWrite f l s else .next s

/-- REGISTER_WRITE: a register without behaviour of its own, and every refused address or name. -/
def execRegisterWrite (f : WriteForm) (l : Line) (s : State) : Host.Outcome State Fault Refusal := execWriteIn .plain f l s

/-- COUNTER_WRITE (R131, R132). -/
def execCounterWrite (f : WriteForm) (l : Line) (s : State) : Host.Outcome State Fault Refusal := execWriteIn .counter f l s

/-- EVENTS_PEND_WRITE (07 R191). -/
def execEventsPendWrite (f : WriteForm) (l : Line) (s : State) : Host.Outcome State Fault Refusal :=
  execWriteIn .eventsPend f l s

/-- SYS_ALERT_CLEAR (R118). -/
def execSysAlertClear (f : WriteForm) (l : Line) (s : State) : Host.Outcome State Fault Refusal :=
  execWriteIn .sysAlert f l s

/-- CARREL_LOST_CLEAR (09 R251). -/
def execCarrelLostClear (f : WriteForm) (l : Line) (s : State) : Host.Outcome State Fault Refusal :=
  execWriteIn .carrelLost f l s

/-- ORDERS_DAMAGED_CLEAR (21 R538). -/
def execOrdersDamagedClear (f : WriteForm) (l : Line) (s : State) : Host.Outcome State Fault Refusal :=
  execWriteIn .ordersDamaged f l s

/-- DESK_CONFIG_WRITE (04 R106). -/
def execDeskConfigWrite (f : WriteForm) (l : Line) (s : State) : Host.Outcome State Fault Refusal :=
  execWriteIn .desk f l s

/-- CHUTE_CONFIG_WRITE (04 R106). -/
def execChuteConfigWrite (f : WriteForm) (l : Line) (s : State) : Host.Outcome State Fault Refusal :=
  execWriteIn .chute f l s

/-- DORM_CONFIG_WRITE (09 R257). -/
def execDormConfigWrite (f : WriteForm) (l : Line) (s : State) : Host.Outcome State Fault Refusal :=
  execWriteIn .dorm f l s

/-- SYS_PAD_DRIVE_WRITE (02 R34). -/
def execSysPadDriveWrite (f : WriteForm) (l : Line) (s : State) : Host.Outcome State Fault Refusal :=
  execWriteIn .padDrive f l s

/-- PWR_VBAT_WARN_WRITE (03 R61). -/
def execPwrVbatWarnWrite (f : WriteForm) (l : Line) (s : State) : Host.Outcome State Fault Refusal :=
  execWriteIn .vbatWarn f l s

/-- RADIO_CHAN_WRITE (11 R310). -/
def execRadioChanWrite (f : WriteForm) (l : Line) (s : State) : Host.Outcome State Fault Refusal :=
  execWriteIn .radioChan f l s

/-- RADIO_TX_CONFIG_WRITE (11 R310). -/
def execRadioTxConfigWrite (f : WriteForm) (l : Line) (s : State) : Host.Outcome State Fault Refusal :=
  execWriteIn .radioTx f l s

/-- RADIO_PLAN_WRITE (11 R310). -/
def execRadioPlanWrite (f : WriteForm) (l : Line) (s : State) : Host.Outcome State Fault Refusal :=
  execWriteIn .radioPlan f l s

/-- MODEM_CONFIG_WRITE (12 R314). -/
def execModemConfigWrite (f : WriteForm) (l : Line) (s : State) : Host.Outcome State Fault Refusal :=
  execWriteIn .modem f l s

/-- CENSUS_CONFIG_WRITE (13 R360, R361). -/
def execCensusConfigWrite (f : WriteForm) (l : Line) (s : State) : Host.Outcome State Fault Refusal :=
  execWriteIn .census f l s

/-- FRAME_CONFIG_WRITE (14 R390). -/
def execFrameConfigWrite (f : WriteForm) (l : Line) (s : State) : Host.Outcome State Fault Refusal :=
  execWriteIn .frame f l s

/-- FRAME_FILTER_WRITE (14 R390). -/
def execFrameFilterWrite (f : WriteForm) (l : Line) (s : State) : Host.Outcome State Fault Refusal :=
  execWriteIn .filter f l s

/-- LINK_CONFIG_WRITE (15 R392). -/
def execLinkConfigWrite (f : WriteForm) (l : Line) (s : State) : Host.Outcome State Fault Refusal :=
  execWriteIn .link f l s

/-- TICKETS_CONFIG_WRITE (06 R185). -/
def execTicketsConfigWrite (f : WriteForm) (l : Line) (s : State) : Host.Outcome State Fault Refusal :=
  execWriteIn .tickets f l s

/-- EVENTS_MASK_WRITE (07 R201). -/
def execEventsMaskWrite (f : WriteForm) (l : Line) (s : State) : Host.Outcome State Fault Refusal :=
  execWriteIn .masks f l s

/-- EVENTS_ATTN_CONFIG_WRITE (07 R206). -/
def execEventsAttnConfigWrite (f : WriteForm) (l : Line) (s : State) : Host.Outcome State Fault Refusal :=
  execWriteIn .attnCfg f l s

/-- VAULT_CONFIG_WRITE (18 R486). -/
def execVaultConfigWrite (f : WriteForm) (l : Line) (s : State) : Host.Outcome State Fault Refusal :=
  execWriteIn .vault f l s

/-- VAULT_FC_WRITE (14 R391). -/
def execVaultFcWrite (f : WriteForm) (l : Line) (s : State) : Host.Outcome State Fault Refusal :=
  execWriteIn .vaultFc f l s

/-- COLLATE_FEED_WRITE (20 R527). -/
def execCollateFeedWrite (f : WriteForm) (l : Line) (s : State) : Host.Outcome State Fault Refusal :=
  execWriteIn .feed f l s

/-- COLLATE_COMPARE_WRITE (20 R530). -/
def execCollateCompareWrite (f : WriteForm) (l : Line) (s : State) : Host.Outcome State Fault Refusal :=
  execWriteIn .compare f l s

/-- GPIO_OUT_WRITE (22 R577). -/
def execGpioOutWrite (f : WriteForm) (l : Line) (s : State) : Host.Outcome State Fault Refusal :=
  execWriteIn .gpioOut f l s

/-- GPIO_CONFIG_WRITE (22 R579). -/
def execGpioConfigWrite (f : WriteForm) (l : Line) (s : State) : Host.Outcome State Fault Refusal :=
  execWriteIn .gpio f l s

/-- TAMPER_CONFIG_WRITE (22 R570). -/
def execTamperConfigWrite (f : WriteForm) (l : Line) (s : State) : Host.Outcome State Fault Refusal :=
  execWriteIn .tamper f l s

end Sys2Proof.Machine
end

