-- ==== Sys2Proof/Machine/Bringup.lean ====
section
/-! DEFINITION. Bring-up (08_bringup R212–R220, R227): the stages from POWER to READY, the loading of the Record with
its checks (19 R496, R497, R607), first boot, and the recoveries that each unit makes there. -/
namespace Sys2Proof.Machine

open Sys2Proof

/-! ## The rows and the registers they hold (19 Table 19.2, R497) -/

/-- The address of a configuration register (24_index Table 24.2). -/
def regAddr : CfgReg → Nat
  | .desk => 0x2400 | .chute => 0x2440 | .padDrive => 0x48 | .vbatWarn => 0x210 | .ticketsLow => 0x2604
  | .dorm => 0x284 | .dayRef => 0x424 | .ledger => 0x1004
  | .chan => 0x604 | .txConfig => 0x60C | .antMap => 0x610 | .rxConfig => 0x614 | .hpConfig => 0x700
  | .ccaConfig => 0x680 | .ccaThr => 0x684 | .planBase p => 0x640 + 8 * p | .planCtrl p => 0x644 + 8 * p
  | .profile => 0x804 | .sync => 0x808 | .deep => 0x880 | .frame => 0xC04 | .filter => 0xC08 | .addr => 0xC0C
  | .census => 0xA04 | .allow => 0xA08 | .thresh => 0xA0C | .hold => 0xA10
  | .link => 0xE04 | .timing => 0xE08 | .wait => 0xE0C | .pollEvery => 0xE1C | .pollPhase => 0xE20
  | .sniffEvery => 0xE24 | .sniffPhase => 0xE28 | .pool => 0xF04 | .catConfig => 0xF08
  | .ssw => 0x2004 | .tamper => 0x2044 | .gpioOut => 0x2084 | .gpio n => 0x20A0 + 4 * n
  | .attnEn k => 0x2220 + 4 * k | .lineEn k => 0x2230 + 4 * k | .wakeEn k => 0x2240 + 4 * k | .attnCfg => 0x2204

/-- A two-copy row as EV_RECORD_REPAIR and EV_RECORD_FAIL name it. -/
def twinPlace (i : Nat) : Region × Nat :=
  if i < 16 then (.config, i)
  else if i = 16 then (.events, 0)
  else if i = 17 then (.trim, 0)
  else if i = 18 then (.tariff, 0)
  else (.vault, if i = 19 then 0 else 9)

/-- The two-copy rows that the RECORD stage verifies: a part without a Vault verifies no Vault region (R227). -/
def State.checkedTwins (s : State) : List Nat := (List.range 21).filter (fun i => decide (i < 19) || s.has .vault)

/-! ## Events of the checks (R219) -/

def regionName : Region → String
  | .config => "CONFIG" | .trim => "TRIM" | .drift => "DRIFT" | .ledger => "LEDGER" | .tariff => "TARIFF"
  | .vault => "VAULT" | .tamper => "TAMPER" | .events => "EVENTS" | .orders => "ORDERS"

def regionToks (r : Region) (k : Nat) : List Tok := [kw "region" (regionName r), kd "row" k]

/-- A row of the config region sets its bit of RECORD_STATUS. -/
def rowBit (r : Region) (k : Nat) : BitVec 16 := if r = .config then BitVec.ofNat 16 (2 ^ k) else 0

/-- EV_RECORD_REPAIR with its alert and bit. -/
def State.reportRepair (s : State) (x : Region × Nat) : State :=
  ({ s with sys := { s.sys with alert := s.sys.alert ||| 0x10 },
            store := { s.store with rowRepaired := s.store.rowRepaired ||| rowBit x.1 x.2 } }).fire 2 (regionToks x.1 x.2)

/-- EV_RECORD_FAIL with its alert and bit. -/
def State.reportFail (s : State) (x : Region × Nat) : State :=
  ({ s with sys := { s.sys with alert := s.sys.alert ||| 0x20 },
            store := { s.store with rowDefaults := s.store.rowDefaults ||| rowBit x.1 x.2 } }).fire 3 (regionToks x.1 x.2)

/-! ## What the supply's loss has left (R219) -/

/-- A row that does not read back as it was written: copy A, or the second copy of a two-copy row and the second half of a
key slot; the Vault's rows are 0 for the control record, 1–8 for the slots and 9 for the counters. -/
def State.damage (s : State) (second : Bool) (x : Region × Nat) : State :=
  let twin (i : Nat) : State := s.setTwin i ((s.twin i).put second [])
  match x.1 with
  | .config => if x.2 < 16 then twin x.2 else s
  | .events => twin 16
  | .trim => twin 17
  | .tariff => twin 18
  | .vault =>
    if x.2 = 0 then twin 19
    else if 9 ≤ x.2 then twin 20
    else { s with record := { s.record with
      keys := vset s.record.keys (x.2 - 1) ((vget s.record.keys (x.2 - 1) {}).put second [0xA5]) } }
  | .drift => { s with record := { s.record with drift := vset s.record.drift x.2 [] } }
  | .ledger => { s with record := { s.record with journal := vset s.record.journal x.2 [0xFF] } }
  | .tamper => { s with record := { s.record with tamperLog := vset s.record.tamperLog x.2 [] } }
  | .orders => s

def State.damaged (s : State) (found : RecordFindings) : State :=
  found.copyB.foldl (fun s x => s.damage true x) (found.copyA.foldl (fun s x => s.damage false x) s)

/-- The drift table is loaded from its latest valid row; without one it is empty with checkpoint 0 (10 R271). -/
def State.loadDrift (s : State) : State :=
  let d := s.day.loadDrift s.record.drift
  { s with day := { d with checkpoint := some (d.checkpoint.getD 0) } }

/-- What the drift rows report: without a valid row the failure, else the invalid ones but for that which follows the
latest in rotation, a torn write (10 R271). -/
def State.driftRepairs (s : State) : List (Region × Nat) :=
  match latestDrift s.record.drift with
  | none => []
  | some (j, _) =>
    ((List.range 4).filter (fun k => (driftRowOf (vget s.record.drift k [])).isNone && k != (j + 1) % 4)).map
      (fun k => (Region.drift, k))

def State.driftFails (s : State) : List (Region × Nat) :=
  if (latestDrift s.record.drift).isNone then [(Region.drift, 0)] else []

/-! ## The checks of loaded registers (19 R607) -/

/-- The register holds a value that a write would refuse: a reserved bit, an encoding, a range, or another setting. -/
def State.badReg (s : State) (x : CfgReg) : Bool :=
  match regAt (regAddr x) with
  | none => false
  | some r => (s.addrAbsent (regAddr x)).isEmpty &&
      (r.writeErs s (s.cfgGet x)).any (fun e => e.code == "RANGE" || e.code == "ABSENT")

/-- One row's registers are checked, each against what has been loaded; whether one of them was replaced. -/
def State.checkRow (s : State) (rs : List CfgReg) : State × Bool :=
  let new := s.newCfg
  rs.foldl (fun acc x =>
    if acc.1.badReg x then (acc.1.cfgSet x (new.get x), true) else acc) (s, false)

/-- The rows in the order in which they are checked: a channel is checked against its plan. -/
def checkedRows : List Nat := [4, 1, 3, 5, 6, 7, 9, 12, 16]

/-- Every row is checked; the rows with a register replaced. -/
def State.checkRows (s : State) : State × List Nat :=
  checkedRows.foldl (fun acc i =>
    let r := acc.1.checkRow (twinRegs i)
    (r.1, if r.2 then acc.2 ++ [i] else acc.2)) (s, [])

/-! ## POWER (R212, R214) -/

/-- The power part of the stages is not over, and nothing holds the part in reset. -/
def State.inStage (s : State) (x : Stage) : Bool := s.booting && decide (s.sys.stage = x)

def State.toStage (s : State) (x : Stage) : State := ({ s with sys := { s.sys with stage := x } }).bump .sys

/-- The Daybook of a continuous reset counts on: the time since the hand-over pair, converted with the temperatures of
the last reading before the reset and of the one taken in POWER (10 R264), plus the ticks since the keeper edge. -/
def State.continueDay (s : State) (temp : Int) (keeper ticks : Nat) : State :=
  let d := s.day
  let e := ({ s with cfg := s.stored }).segError d.temp temp
  let now : Int := (d.dh.toNat : Int) + keeperTicks ((keeper + 2 ^ 48 - d.kh) % 2 ^ 48) e + ticks
  { s with day := { d with now := BitVec.ofInt 64 now } }

/-- POWER_STAGE_END: the reference runs and any settling wait has ended. -/
def execPowerStageEnd (temp : Int) (keeper ticks : Nat) (s : State) : Host.Outcome State Fault Refusal :=
  if s.inStage .power then
    let s1 := if s.sys.continuous then s.continueDay temp keeper ticks else s
    .next ({ s1 with sys := { s1.sys with oscOn := true },
                     day := { s1.day with keeper := keeper % 2 ^ 48, temp := temp } }.toStage .record)
  else .next s

/-- OSCILLATOR_RESTART (R214): it changes no cause and sends nothing. -/
def execOscillatorRestart (s : State) : Host.Outcome State Fault Refusal := .next s

/-! ## RECORD (R215, R218, R219, R231) -/

/-- The four drift rows of a first boot: sequence numbers 0–3, no bin learned, checkpoint 0 (10 R271). -/
def firstDrift : Vector (List Byte) 4 := Vector.ofFn (fun k => ({ seq := k.val } : DriftRow).octets)

/-- `+BOOT` on both ports, as soon as the Desk settings are loaded (R215). -/
def State.sendBoot (s : State) : State :=
  let l : OutLine := { kind := .boot, toks := [w "+BOOT"] }
  let s1 := { s with desk := { s.desk with rate := fld s.cfg.desk.desk 3 0 } }
  let s2 := s1.push .desk l
  (if s.has .chute then s2.push .chute l else s2).announce

/-- The blank marker of a part as it leaves the factory: both copies of config row 0 (19 R496). -/
def State.blank (s : State) : Bool := decide ((s.twin 0).a = blankRow) && decide ((s.twin 0).b = blankRow)

/-- The rows that a first boot writes (R218, 19 R496), the marker last.  DESIGN CHOICE (log entry 79): R218 gives them no
order. -/
def State.firstRows (s : State) : List RowWhat :=
  ((s.checkedTwins.filter (· ≠ 0)).map (fun i =>
      RowWhat.twin i [(0, if i = 19 then controlRow false 0 else s.twinBase i)])) ++
    (List.range 4).map (fun k => RowWhat.drift k (({ seq := k } : DriftRow).octets)) ++ [.twin 0 [(0, markerRow)]]

/-- First boot: the defaults go to the Record, row by row, and replace the marker (R218, 10 R271, 18 R486). -/
def State.firstBoot (s : State) : State :=
  let s1 := ({ s with
    cfg := s.newCfg, sys := { s.sys with alert := s.sys.alert ||| 8 },
    day := s.day.loadDrift firstDrift,
    vault := { s.vault with sealed := false, eraseMask := 0 } }).sendBoot
  s1.rowWrites s.firstRows none

/-- The counters that the Record keeps: the bring-up, and the power cause that began it (R231, 03 R51, R54; 09 R244).
DESIGN CHOICE (log entry 14): a BOR_RUN whose bring-up another reset cuts before this stage is not counted, since the
cause that is reported here is that reset's; R54 does not say. -/
def State.countBoot (s : State) : State :=
  let p := s.pwr
  ({ s with
    sys := { s.sys with bootCount := s.sys.bootCount.inc }
    pwr := { p with borRun := p.borRun.incIf (decide (s.sys.cause = Cause.borRun)),
                    borDormant := p.borDormant.incIf p.borDormantLatch, borDormantLatch := false,
                    wakeLate := p.wakeLate.incIf (decide (s.sys.cause = Cause.wakeLate)) } }).saveCounters

/-- The Daybook after a reset that is not continuous: the later of the checkpoint and the journal's latest value (10
R265). -/
def State.loadDay (s : State) : State :=
  if s.sys.continuous then s
  else
    let c : Nat := match s.day.checkpoint with | some t => t.toNat | none => 0
    let j : Nat := match latestRec s.ledger.journal.toList with | some r => r.at_ | none => 0
    { s with day := { s.day with now := BitVec.ofNat 64 (max c j), cont := false } }

/-- The link's state, and the addresses of its association (15 R393, R400). -/
def State.loadLink (s : State) : State :=
  match s.isEnd, s.link.assoc with
  | true, some a =>
    let f : Word := BitVec.ofNat 32 (fld s.cfg.frame.filter 31 16 * 65536 + a.pan.toNat)
    let s1 := (s.cfgSet .filter f).cfgSet .addr (BitVec.ofNat 32 a.own.toNat)
    { s1 with link := { s1.link with st := .associated } }
  | _, _ => { s with link := { s.link with st := if s.isParent then .parent else .unassoc } }

/-- The Record's configuration is loaded: a row with one valid copy is repaired from it, one without loads its units'
defaults, and each is reported; the drift rows wait for their rotation (19 R496, R607; 10 R271). -/
def State.loadRecord (s : State) : State :=
  let c := ({ s with cfg := s.stored }.loadDrift).checkRows
  let mend := s.checkedTwins.filter (fun i => (s.twin i).half i)
  let bad := s.checkedTwins.filter (fun i => ((s.twin i).latest i).isNone)
  let s1 := (mend.map twinPlace ++ s.driftRepairs).foldl State.reportRepair c.1.sendBoot
  let s2 := ((bad.map twinPlace ++ s.driftFails ++ c.2.map twinPlace).dedup).foldl State.reportFail s1
  s2.rowWrites (mend.map .mirror) none

/-- The latch that a reset kept holds EV_TAMPER's condition, with the source and context of the setting that is owed a
response, else of the latch in BOOT (22 R570). -/
def State.loadLatch (s : State) : State :=
  if !s.tamper.latched then s
  else
    let x : TamperSet := s.tamper.owed.getD { source := s.tamper.source, ctx := 0, period := s.day.keeper }
    s.condOn 88 [kw "src" (srcText x.source), kw "ctx" (ctxName x.ctx)]

/-- BRINGUP_RECORD. -/
def execBringupRecord (found : RecordFindings) (s : State) : Host.Outcome State Fault Refusal :=
  if s.inStage .record then
    let s0 := (s.damaged found).takeUp
    let s1 := if s0.blank then s0.firstBoot else s0.loadRecord
    let s2 := (s1.countBoot.loadDay.loadLink).archRecover
    let s3 := { s2 with pwr := { s2.pwr with powered := BitVec.ofNat 8 (fld s2.cfg.sys.dorm 15 8) },
                        census := { s2.census with hop := s2.hopOn, allow := s2.cfg.census.allow } }
    let s4 := s3.poolCheck
    let s5 := if s4.day.keeperOk then s4 else s4.condOn 20 []
    .next (s5.loadLatch.flushRows.toStage .trim)
  else .next s

/-! ## TRIM and LEDGER -/

/-- BRINGUP_TRIM: the stored selections come into force (17 R458). -/
def execBringupTrim (s : State) : Host.Outcome State Fault Refusal :=
  if s.inStage .trim then
    .next ({ s with trim := { s.trim with sel := trimOf (s.twinData 17) } }.toStage .ledger)
  else .next s

/-- The rotation goes on after the latest valid journal row. -/
def State.journalAt (s : State) : State :=
  match latestRec s.ledger.journal.toList with
  | none => s
  | some r => { s with ledger := { s.ledger with row := s.ledger.journal.toList.idxOf (some r), seq := r.seq } }

/-- The journal's rows that hold something and fail their check.  DESIGN CHOICE (log entry 79): a row that nothing has
written yet is no invalid row. -/
def State.badJournal (s : State) : List Nat :=
  (List.range 32).filter (fun k =>
    let o := vget s.record.journal k []
    !o.isEmpty && (jrecOf o).isNone)

/-- Invalid journal rows are reported, but for the torn one that follows the latest (16 R446). -/
def State.reportJournal (s : State) : State :=
  match latestRec s.ledger.journal.toList with
  | none => s.reportFail (.ledger, 0)
  | some _ =>
    (s.badJournal.filter (fun k => k != (s.ledger.row + 1) % 32)).foldl (fun s k => s.reportRepair (.ledger, k)) s

/-- BRINGUP_LEDGER (16 R446, R447). -/
def execBringupLedger (s : State) : Host.Outcome State Fault Refusal :=
  if s.inStage .ledger then
    let s1 := if s.sys.alert.getLsbD 3 then s.ledgerFirst
      else (s.journalAt.reportJournal).ledgerRecover s.sys.continuous
    .next (s1.flushRows.toStage .vault)
  else .next s

/-! ## VAULT (R218, R220, 18 R470, R473) -/

/-- Slot k of the key store from the Record (18 R481).  DESIGN CHOICE (log entry 79): a slot both of whose halves read
empty is not reported. -/
def State.loadKey (s : State) (k : Nat) : State :=
  let c := vget s.record.keys k {}
  match latestHalf (vget s.vault.slots 0 none) k c with
  | some (_, _, key) => { s with vault := { s.vault with slots := vset s.vault.slots k (some key) } }
  | none => if octetAt c.a 0 = 0 && octetAt c.b 0 = 0 then s else s.reportFail (.vault, k + 1)

/-- The key store is unwrapped, slot 0 first. -/
def State.loadKeys (s : State) : State := if s.has .vault then (List.range 8).foldl State.loadKey s else s

/-- The key-encryption key of a part whose slot 0 is empty (R218): a request of the DRBG. -/
def State.makeKek (s : State) : State :=
  if (s.slotKey 0).isSome then s
  else
    let r := s.generate 16
    let s1 := { r.2 with vault := { r.2.vault with slots := vset r.2.vault.slots 0 (some (BitVec.ofNat 128 (beNat r.1))) } }
    s1.rowWrite { what := s1.keyRow 0 }

/-- The start-up test has passed: the source is ready, and a part with a Vault instantiates its DRBG (18 R473). -/
def State.noiseUp (s : State) : State :=
  let s1 := (s.startupBits.noiseTo .ready).refillPool
  if !s.has .vault then s1
  else
    let a := s1.seedNext
    let b := a.2.seedNext
    let d := drbgNew (keyN a.1) (keyN b.1) (octN 8 Config.eui.toNat)
    { b.2 with noise := { b.2.noise with drbg := some d, requests := 0 } }.makeKek

/-- BRINGUP_VAULT: the key store, the start-up test, the DRBG and the key-encryption key, then a tamper response that is
owed. -/
def execBringupVault (testPassed : Bool) (s : State) : Host.Outcome State Fault Refusal :=
  if s.inStage .vault then
    let s0 := s.loadKeys
    let s1 := if testPassed then s0.noiseUp
      else (s0.draw.2.rawFailed 1024 (s0.draw.1.getLsbD 0)).noiseFail 3
    .next (s1.tamperRespond.tamperFinish.flushRows.toStage .orders)
  else .next s

/-! ## ORDERS and READY -/

/-- The slots whose contents are no order, though their header does not read empty (21 R538). -/
def State.badOrders (s : State) : List Nat :=
  (List.range 32).filter (fun k =>
    octetAt (vget s.record.orders k ([], [])).1 0 != 0 && (s.recordOrder k).isNone)

/-- BRINGUP_ORDERS: the slots are loaded; one whose store was cut, or that does not read back, is empty and flagged (21
R538). -/
def execBringupOrders (damaged : Word) (s : State) : Host.Outcome State Fault Refusal :=
  if s.inStage .orders && !s.orders.loaded then
    let hit := Vector.ofFn (fun k : Fin 32 =>
      let x := vget s.record.orders k.val ([], [])
      if damaged.getLsbD k.val then ([0xFF], x.2) else x)
    let s0 := { s with record := { s.record with orders := hit } }
    let bad := s0.badOrders
    let s1 := { s0 with orders := { s0.orders with
      slots := Vector.ofFn (fun k : Fin 32 => s0.recordOrder k.val),
      damaged := BitVec.ofNat 32 (bad.foldl (fun a k => a + 2 ^ k) 0), loaded := true } }
    .next (bad.foldl (fun s k => s.reportFail (.orders, k)) s1)
  else .next s

/-- The sequence number of the first frame after a reset: 8 grade-B bits, or 0 with the source stopped (14_frames). -/
def State.firstSeq (s : State) : State :=
  match s.drawB 8 with
  | (.got v, s1) => { s1 with frame := { s1.frame with seq := v } }
  | _ => { s with frame := { s.frame with seq := 0 } }

/-- `+READY BOOT` and the lines of bring-up's events after it (R213, R216). -/
def State.sendReady (s : State) : State :=
  let l : OutLine := { kind := .ready false, toks := [w "+READY", w "BOOT", kw "cause" s.sys.cause.name] }
  let s1 := s.push .desk l
  let s2 := if s.has .chute then s1.push .chute l else s1
  let s3 := s2.sys.alertEvents.foldl (fun s (e : Nat × List Tok) =>
    let x : OutLine := { kind := .ev e.1, toks := [w "!EV", n' e.1, w (eventName e.1)] ++ e.2 }
    (s.pushEv .desk e.1 x).pushEv .chute e.1 x) s2
  { s3 with sys := { s3.sys with alertEvents := [] } }

/-- A WAKE_IN edge latched in bring-up fires at READY where its direction is selected (Table 8.10, 09 R243). -/
def State.latchedWakeIn (s : State) : State :=
  let s1 := { s with pwr := { s.pwr with wakeInEdge := none } }
  match s.pwr.wakeInEdge with
  | some b => if s.wakeInOn b then s1.fire 4 [kw "level" (levelWord b)] else s1
  | none => s1

/-- BRINGUP_READY (R217): triggers and schedules are armed, lines are served, the radio stands in Idle (11 R295, R304),
and ATTN follows the masks of Run (07 R192). -/
def execBringupReady (s : State) : Host.Outcome State Fault Refusal :=
  if s.inStage .orders && s.orders.loaded then
    let s1 := s.sendReady.toStage .ready
    let s2 := { s1 with pwr := { s1.pwr with idleSince := s1.day.cyc } }
    .next (s2.firstSeq.ledgerReissue.scheduleOrders.schedPoll.tamperRespond.latchedWakeIn).antFollow.attnFollow
  else .next s

/-- The stage whose work runs: that of READY, once ORDERS has done its own (R217). -/
def State.workStage (s : State) : Stage := if s.sys.stage = .orders && s.orders.loaded then .ready else s.sys.stage

/-- SEQ_WATCHDOG (R217): POWER is exempt (R214). -/
def execSeqWatchdog (s : State) : Host.Outcome State Fault Refusal :=
  if s.booting && decide (s.sys.stage ≠ .power) then .next (s.takeReset .seqWatchdog s.workStage.code .none)
  else .next s

end Sys2Proof.Machine
end

