-- ==== Sys2Proof/Machine/Help.lean ====
section
/-! DEFINITION. The verbs of 24_index Table 24.1 with the syntax of their first forms, and HELP (04_desk, 24_index
R604). -/
namespace Sys2Proof.Machine

open Sys2Proof

/-- A verb: the unit it belongs to, and of its first form the queue, the order permission and the syntax. -/
structure Verb where
  name : String
  syn : String
  order : Bool := true
  queue : String := "NONE"
  feat : Option Feat := none
  deriving DecidableEq, Repr

def verbsA : List Verb :=
  [{ name := "ALARM", syn := "ALARM [<a>] [at=<Daybook value>] [every=<ms>] [order=<k>|order=NONE]" },
   { name := "ARCH", syn := "ARCH", feat := some .stacks },
   { name := "BAND", order := false,
     syn := "BAND [<p>] [base=<Hz>] [spacing=6.25|12.5|25|50|100|200] [count=<n>] [save=YES|NO]" },
   { name := "CANCEL", syn := "CANCEL <n>|ALL" },
   { name := "CARREL", syn := "CARREL" },
   { name := "CAT", syn := "CAT [<short>]", feat := some .parent },
   { name := "CCA", syn := "CCA [mode=ED|CS|BOTH] [thr=<dBm>] [listen=<us>] [save=YES|NO]" },
   { name := "CENSUS", feat := some .census,
     syn := "CENSUS [WATCH|OFF] [plan=<p>] [base=<c>] [thr=<dBm>] [gate=<dBm>|gate=OFF] [hold=<ms>]" },
   { name := "CHAN", syn := "CHAN [<c>] [plan=<p>] [save=YES|NO]" },
   { name := "COLLATE", syn := "COLLATE [<n>]" },
   { name := "DAY", syn := "DAY [STATUS|SET <Daybook value>|SLEW <ticks>]" },
   { name := "DESK", syn := "DESK [baud=<rate>] [save=YES|NO]", order := false },
   { name := "DORM", syn := "DORM [auto=ON|OFF] [idle=<ms>] [retain=<mask>] [desk_wake=ON|OFF] [chute_wake=ON|OFF]" },
   { name := "DORMANT", syn := "DORMANT" }]

def verbsE : List Verb :=
  [{ name := "EDITION", syn := "EDITION [<unit>]" },
   { name := "EVENT", syn := "EVENT [<event>]" },
   { name := "FILTER", syn := "FILTER [pan=<id>] [short=<address>] [promisc=ON|OFF] [m_accept=ALL|NONE] [save=YES|NO]" },
   { name := "FRAME", syn := "FRAME [fcs=2|4] [ack=IMM|ENH] [auto=ON|OFF] [wait=<us>] [save=YES|NO]" },
   { name := "GET", syn := "GET <register>[.<field>]" },
   { name := "GPIO", syn := "GPIO [<n>] [fn=IN|OUT|ANT_A|ANT_B|EVENT|ORDER|LNA] [src=<event>] [invert=YES|NO]" },
   { name := "HELP", syn := "HELP [verb]", order := false },
   { name := "ID", syn := "ID [ALL]" },
   { name := "KEEPER", syn := "KEEPER [TABLE|FORGET [bin=<i>]] [ref=<0.01 ppm>]" },
   { name := "LEDGER", syn := "LEDGER [low=<pct>] [save=YES|NO]" },
   { name := "LINK", syn := "LINK [role=NONE|END|PARENT] [retries=<n>] [min_be=<n>] [max_be=<n>] [backoffs=<n>]" },
   { name := "MODE", syn := "MODE [TYPED|FRAMED] [hold=ON|OFF] [save=YES|NO]", order := false },
   { name := "NOISE", syn := "NOISE" }]

/-- DESIGN CHOICE (log entry 30): `…` in the syntax of SET, for which R604 names no substitute, is sent as three full
stops. -/
def verbsO : List Verb :=
  [{ name := "ORDER", syn := "ORDER LIST" },
   { name := "PADS", syn := "PADS RELEASE" },
   { name := "PINS", syn := "PINS [name]" },
   { name := "PORTER", syn := "PORTER [<ch>]" },
   { name := "PROFILE", syn := "PROFILE [<name>] [preamble=<octets>] [whiten=ON|OFF] [s_err=<n>] [m_err=<n>]" },
   { name := "PWR", syn := "PWR" },
   { name := "RD", syn := "RD <address> [n=<count>]" },
   { name := "RECORD", syn := "RECORD READ <off> [n=<octets>]" },
   { name := "RESET", syn := "RESET" },
   { name := "RET", syn := "RET [<n>]", order := false },
   { name := "RX", syn := "RX [dur=<ms>|dur=CONT] [chan=<c>] [plan=<p>]", queue := "RADIO" },
   { name := "SET", syn := "SET <register>.<field>=<value> [<register>.<field>=<value> ...] [IF=<guard>]" },
   { name := "SKIP", syn := "SKIP <n> [pin=<pad> level=H|L] [pending=<event>] [unit=<unit> state=<word>]" },
   { name := "SLIP", syn := "SLIP <addr>" }]

def verbsS : List Verb :=
  [{ name := "SSW", syn := "SSW [soft=0.5|1|2|4] [save=YES|NO]", feat := some .ssw },
   { name := "STACKS", syn := "STACKS", feat := some .stacks },
   { name := "STAT", syn := "STAT" },
   { name := "TAMPER",
     syn := "TAMPER [mode=OFF|SAMPLED|CONTINUOUS] [polarity=HIGH|LOW] [dip=ON|OFF] [lockout=ON|OFF]" },
   { name := "TARIFF", syn := "TARIFF [<t>] [budget=<0.1 permille>] [interval=<s>]", order := false },
   { name := "TICKET", syn := "TICKET [<n>]" },
   { name := "TRIM", syn := "TRIM" },
   { name := "TX", syn := "TX [port=AUTO|HP] [level=<dBm>] [ramp=10|20|40|80|160] [pa_en=ON|OFF] [pa_lead=<us>]" },
   { name := "VAULT", syn := "VAULT", feat := some .vault },
   { name := "WAIT", syn := "WAIT <ms>" },
   { name := "WR", syn := "WR <address> <value> [IF=<guard>]" }]

/-- Every verb of the family, in alphabetical order. -/
def verbTable : List Verb := List.flatten [verbsA, verbsE, verbsO, verbsS]

def verbNamed (x : String) : Option Verb := verbTable.find? (fun v => v.name == x)

/-- The line of one verb; its syntax is cut at 64 characters. -/
def State.helpToks (s : State) (v : Verb) : List Tok :=
  let here : Bool := match v.feat with | none => true | some f => s.has f
  [w "HELP", w v.name, kw "ticket" v.queue, kw "order" (yesNo v.order), kw "present" (yesNo here),
   .kv "syntax" (.str (String.ofList (v.syn.toList.take 64)))]

/-- HELP. -/
def execHelp (l : Line) (s : State) : Host.Outcome State Fault Refusal :=
  let v := (l.posWord? 0).bind verbNamed
  runLine { pos := [("verb", .name)], order := false } l s
    (match l.posWord? 0, v with | some x, none => [⟨"UNKNOWN", [x]⟩] | _, _ => [])
    (fun s => s.okMany l ((match v with | some x => [x] | none => verbTable).map s.helpToks))

end Sys2Proof.Machine
end

