-- ==== Sys2Proof/Machine/OrderLines.lean ====
section
/-! DEFINITION. SKIP, the stopping of a running order, its limit, and ORDER STORE but for the check of the lines it
stores (21_orders R540, R550–R555). -/
namespace Sys2Proof.Machine

open Sys2Proof

/-! ## Stopping (R551, R552) -/

/-- The running order is stopped: a ticket that can be cancelled completes at once and the order with it; another is
waited for; a WAIT ends at once. -/
def State.stopOrder (s : State) (res : OrderResult) : State :=
  match s.orders.run with
  | none => s
  | some r =>
    let s1 := { s with orders := { s.orders with run := some { r with stopping := some res } } }
    match r.await with
    | .ticket n => (match s1.ticket? n with
      | some t => s1.cancelTicket t "ORDER"
      | none => s1.orderEnd res)
    | _ => s1.orderEnd res

/-- ORDER_LIMIT_EXPIRY (R551): the limit counts from line 0 of the first attempt. -/
def execOrderLimitExpiry (s : State) : Host.Outcome State Fault Refusal :=
  match s.orders.run with
  | none => .next s
  | some r =>
    match r.started, r.stopping with
    | some c, none =>
      .next (if s.inRun && decide (0 < r.slot.limitMs) && decide (c + r.slot.limitMs * tickMs ≤ s.day.cyc) then
          s.stopOrder .timeout
        else s)
    | _, _ => .next s

/-- Pending triggers that never start: an ORDER RUN ticket that waits on one fails. -/
def State.discardPending (s : State) (drop : Nat → Bool) : State :=
  let gone := s.orders.pending.filter (fun p => drop p.k)
  let s1 := { s with orders := { s.orders with pending := s.orders.pending.filter (fun p => !drop p.k) } }
  gone.foldl (fun s p => match p.runTicket with
    | some t => s.complete t .fail [kw "why" "STOPPED", kd "line" 0, kd "code" 0]
    | none => s) s1

/-- ORDER STOP: the reply precedes what the stop completes. -/
def execOrderStop (l : Line) (s : State) : Host.Outcome State Fault Refusal :=
  let all : Bool := l.posWord? 0 == some "ALL"
  let k := lineOrder l
  runLine { order := false, minPos := 1, pos := [("k", if all then .word ["ALL"] else .int 0 31)] } l s
    (if all then [] else s.emptyErs l) (fun s =>
      let runs : Bool := (s.orders.run.map (·.k)) == some k
      if all then
        let n := s.orders.pending.length + b2n s.orders.run.isSome
        let s1 := s.ok l [w "ORDER", w "STOP", w "ALL", kd "count" n]
        (s1.discardPending (fun _ => true)).stopOrder .stopped
      else if runs then (s.ok l [w "ORDER", w "STOP", n' k, w "RUNNING"]).stopOrder .stopped
      else if s.orders.pending.any (fun p => p.k == k) then
        (s.ok l [w "ORDER", w "STOP", n' k, w "PENDING"]).discardPending (fun j => j == k)
      else s.ok l [w "ORDER", w "STOP", n' k, w "IDLE"])

/-! ## SKIP (R555) -/

/-- The state words of a unit that SKIP may name (06_tickets Table 6.3). -/
def stateWords (u : String) : List String :=
  ([("PWR", ["RUN", "NOKEEPER", "ENTRY"]), ("DAYBOOK", ["RADIO", "SCHEDULED"]),
    ("RADIO", ["IDLE", "LISTEN", "RECEIVE", "TRANSMIT", "TRIM"]), ("MODEM", ["IDLE", "LISTEN", "RECEIVE", "TRANSMIT", "TRIM"]),
    ("FRAME", ["IDLE", "LISTEN", "RECEIVE", "TRANSMIT", "TRIM"]), ("CENSUS", ["OFF", "WATCH"]),
    ("LINK", ["UNASSOC", "ASSOCIATING", "ASSOCIATED", "PARENT", "EXCHANGE"]), ("LEDGER", ["CHANGEPENDING"]),
    ("TRIM", ["RUNNING", "RXBUSY"]), ("NOISE", ["STARTUP", "RAW", "FAILED"]), ("VAULT", ["OPEN", "SEALED"]),
    ("STACKS", ["UNPARTITIONED"]), ("PORTER", ["IDLE", "ACTIVE"]), ("COLLATE", ["CLOSED", "OPEN"]),
    ("ORDERS", ["IDLE", "RUNNING"]), ("SSW", ["OFF", "RAMP", "ON", "FAULT"]), ("TAMPER", ["CLEAR", "LATCHED"]),
    ("DESK", ["TYPED", "FRAMED", "NOHOLD"]), ("CHUTE", ["TYPED", "FRAMED", "NOHOLD"]),
    ("TICKETS", ["QUEUED", "WAITING", "RUNNING", "COMPLETE", "HELD", "FREE"])].lookup u).getD []

def State.portWords (s : State) (p : Port) : List String :=
  (if s.framed p then "FRAMED" else "TYPED") :: (if s.holdOn p then [] else ["NOHOLD"])

/-- The words that hold now for a unit. -/
def State.wordsNow (s : State) (u : String) : List String :=
  match edUnitOf u with
  | some .pwr => (if s.pwr.state = .run then "RUN" else "ENTRY") :: (if s.day.keeperOk then [] else ["NOKEEPER"])
  | some .daybook =>
    (if s.radio.st = .idle then [] else ["RADIO"]) ++ (if s.tickets.pool.any (·.scheduled) then ["SCHEDULED"] else [])
  | some .radio => [s.radio.st.name]
  | some .modem => [s.radio.st.name]
  | some .frame => [s.radio.st.name]
  | some .census => [if s.watching then "WATCH" else "OFF"]
  | some .link => [s.link.st.name]
  | some .ledger => if s.ledger.pend.isSome then ["CHANGEPENDING"] else []
  | some .trim =>
    (if (s.running .trim).isSome then ["RUNNING"] else []) ++
      (if s.trimForbids [.adcsel] = some ("TRIM", "RXBUSY") then ["RXBUSY"] else [])
  | some .noise => [s.noise.st.name]
  | some .vault => [sealName s.vault.sealed]
  | some .stacks => if s.store.part.isNone then ["UNPARTITIONED"] else []
  | some .porter => [if s.porterActive then "ACTIVE" else "IDLE"]
  | some .collate => [if s.collate.cols.toList.any (·.isOpen) then "OPEN" else "CLOSED"]
  | some .orders => [if s.orders.run.isSome then "RUNNING" else "IDLE"]
  | some .ssw => [s.ssw.st.name]
  | some .tamper => [if s.tamper.latched then "LATCHED" else "CLEAR"]
  | some .desk => s.portWords .desk
  | some .chute => s.portWords .chute
  | _ => []

/-- The errors of SKIP's conditions. -/
def State.skipErs (s : State) (l : Line) : List Er :=
  erIf (l.has "pin" != l.has "level" || l.has "unit" != l.has "state") erMissing ++
  (match l.word? "pin" with
    | none => erIf (l.has "pin") (erRange "pin")
    | some x => (match padNamed x with | none => [erRange "pin"] | some p => s.padErs p)) ++
  s.eventErs "pending" (l.arg "pending") ++
  (match l.word? "unit" with
    | none => erIf (l.has "unit") (erRange "unit")
    | some u =>
      (match edUnitOf u with
        | some x => s.unitAbsent x
        | none => erIf (u != "TICKETS") (erRange "unit")) ++
      (match l.word? "state" with
        | some x => erIf (!(stateWords u).contains x) (erRange "state")
        | none => erIf (l.has "state") (erRange "state")))

/-- Where the SKIP stands among its order's lines. -/
def State.skipAt (s : State) : Nat × Nat :=
  match s.orders.checking, s.orders.run with
  | some x, _ => x
  | none, some r => (r.line, r.slot.lines.length)
  | none, none => (0, 0)

/-- Every condition given holds. -/
def State.skipHolds (s : State) (l : Line) : Bool :=
  (match (l.word? "pin").bind padNamed, l.word? "level" with
    | some p, some x => levelWord (s.pinLevel p.2.2.1) == x
    | _, _ => true) &&
  (match (l.arg "pending").bind eventOf with
    | some n => s.events.pend.getLsbD n
    | none => true) &&
  (match l.word? "unit", l.word? "state" with
    | some u, some x => (s.wordsNow u).contains x
    | _, _ => true) &&
  (match l.word? "last", s.orders.run with
    | some x, some r => r.lastOk == (x == "DONE")
    | _, _ => true)

/-- SKIP: the lines skipped are not taken and have no outcome. -/
def execSkip (l : Line) (s : State) : Host.Outcome State Fault Refusal :=
  let n := (l.posNat? 0).getD 0
  let past : Bool := decide (s.skipAt.2 ≤ s.skipAt.1 + n)
  runLine { port := false, minPos := 1, pos := [("n", .int 1 15)],
            keys := [("pin", .any), ("level", .word ["H", "L"]), ("pending", .any), ("unit", .any), ("state", .any),
                     ("last", .word ["DONE", "NOTDONE"])] } l s
    (s.skipErs l ++ (match l.origin with
      | .order _ => erIf (!l.pos.isEmpty && past) (erRange "n")
      | .port _ => [])) (fun s =>
      let k := if s.skipHolds l then n else 0
      let run := s.orders.run.map (fun r => { r with line := r.line + k })
      { s with orders := { s.orders with said := .nothing, run := run } }.orderLineDone none)

/-! ## ORDER STORE (R537–R540) -/

/-- A name of an order: 1–12 letters, digits or `_` (Table 21.1). -/
def nameErs (l : Line) : List Er :=
  match l.arg "name" with
  | none => [erMissing]
  | some (.word x) =>
    erIf (!(decide (1 ≤ x.length) && decide (x.length ≤ 12) && x.toList.all (fun c => c.isAlphanum || c == '_')))
      (erRange "name")
  | some _ => [erRange "name"]

/-- The lines of a block, parted by LF; the LF that ends the last one begins no other. -/
def blockLines (o : List Byte) : List String :=
  let ls : List (List Char) := o.foldr (fun (b : Byte) acc =>
    if b = 10 then [] :: acc
    else match acc with
      | [] => [[Char.ofNat b.toNat]]
      | x :: r => (Char.ofNat b.toNat :: x) :: r) [[]]
  let ts := ls.map String.ofList
  if ts.getLast? = some "" then ts.dropLast else ts

/-- The order that a STORE line asks for, with the lines given. -/
def lineStore (l : Line) (lines : List String) : OrderSlot :=
  let x : OrderSlot := { enabled := true, cont := false, retries := 0, trigger := .none, limitMs := 60000,
                         name := (l.word? "name").getD "", lines := lines }
  lineSlot l x

/-- ORDER STORE with the lines that it stores and the errors that their check has found: a STACKS ticket. -/
def orderStoreWith (lines : List String) (found : List Er) (l : Line) (s : State) : Host.Outcome State Fault Refusal :=
  let k := lineOrder l
  let x := lineStore l lines
  runTicket { order := false, minPos := 1, pos := orderPos ++ [("block", .data 4096)],
              keys := settingKeys ++ [("name", .any)] } .stacks l s
    (nameErs l ++ (match l.at? 1 with | some (.octets _) => [erExtra] | _ => []) ++ s.settingErs l { x with trigger := .none } ++
      erIf (decide (16 < lines.length) || decide (448 < textOctets lines)) ⟨"FULL", ["ORDER"]⟩ ++ found)
    (s.orderBusyErs k) (.orderStore k x)

end Sys2Proof.Machine
end

