-- ==== Sys2Proof/Machine/Route.lean ====
section
/-! DEFINITION. From the text of a line to the row of the command table that it asks for (24_index Table 24.1), and the
lines that ask for none: LINE_ERROR (04_desk R82, R102). -/
namespace Sys2Proof.Machine

open Sys2Proof

/-! ## The forms of the verbs -/

/-- The row of a register write. -/
def writeRow (f : WriteForm) (l : Line) : State → Host.Outcome State Fault Refusal :=
  match (lineAddr f l).map writeClass with
  | some .counter => execCounterWrite f l
  | some .eventsPend => execEventsPendWrite f l
  | some .sysAlert => execSysAlertClear f l
  | some .carrelLost => execCarrelLostClear f l
  | some .ordersDamaged => execOrdersDamagedClear f l
  | some .desk => execDeskConfigWrite f l
  | some .chute => execChuteConfigWrite f l
  | some .dorm => execDormConfigWrite f l
  | some .padDrive => execSysPadDriveWrite f l
  | some .vbatWarn => execPwrVbatWarnWrite f l
  | some .radioChan => execRadioChanWrite f l
  | some .radioTx => execRadioTxConfigWrite f l
  | some .radioPlan => execRadioPlanWrite f l
  | some .modem => execModemConfigWrite f l
  | some .census => execCensusConfigWrite f l
  | some .frame => execFrameConfigWrite f l
  | some .filter => execFrameFilterWrite f l
  | some .link => execLinkConfigWrite f l
  | some .tickets => execTicketsConfigWrite f l
  | some .masks => execEventsMaskWrite f l
  | some .attnCfg => execEventsAttnConfigWrite f l
  | some .vault => execVaultConfigWrite f l
  | some .vaultFc => execVaultFcWrite f l
  | some .feed => execCollateFeedWrite f l
  | some .compare => execCollateCompareWrite f l
  | some .gpioOut => execGpioOutWrite f l
  | some .gpio => execGpioConfigWrite f l
  | some .tamper => execTamperConfigWrite f l
  | some .plain => execRegisterWrite f l
  | none => execRegisterWrite f l

/-- What a form does with its line. -/
abbrev LineAct := Line → State → Host.Outcome State Fault Refusal

/-- The forms that a noun selects; the line no longer holds the noun.  ORDER STORE stands here as an order's own line,
which is refused whatever it would store.  `t` is a fresh temperature reading. -/
def nounRows (t : Int) : List (String × String × LineAct) :=
  List.flatten [
    [("ALARM", "OFF", execAlarmOff), ("ARCH", "READ", execArchRead), ("ARCH", "ADD", execArchAdd), ("ARCH", "FIND", execArchFind),
     ("ARCH", "MARK", execArchMark), ("ARCH", "DROP", execArchDrop), ("BAND", "CLEAR", execBandClear), ("CANCEL", "ALL", execCancelAll),
     ("CARREL", "READ", execCarrelRead), ("CARREL", "WRITE", execCarrelWrite), ("CAT", "POOL", execCatPool), ("CAT", "ADD", execCatAdd),
     ("CAT", "SET", execCatSet), ("CAT", "REMOVE", execCatRemove), ("CAT", "QUEUE", execCatQueue), ("CCA", "CHECK", execCcaCheck),
     ("CENSUS", "WATCH", execCensusWatch), ("CENSUS", "OFF", execCensusOff), ("CENSUS", "LEVELS", execCensusLevels),
     ("CENSUS", "SCAN", execCensusScan)],
    [("COLLATE", "OPEN", execCollateOpen), ("COLLATE", "FEED", execCollateFeed), ("COLLATE", "CLOSE", execCollateClose),
     ("DAY", "STATUS", execDayStatus), ("DAY", "SET", execDaySet), ("DAY", "SLEW", execDaySlew), ("EVENT", "CLEAR", execEventClear),
     ("EVENT", "MASK", execEventMask), ("EVENT", "RAISE", execEventRaise), ("EVENT", "ATTN", execEventAttn),
     ("EVENT", "SAVE", execEventSave), ("FRAME", "SEND", execFrameSend), ("FRAME", "READ", execFrameRead),
     ("FRAME", "FREE", execFrameFree), ("ID", "ALL", execIdAll), ("KEEPER", "TABLE", execKeeperTable),
     ("KEEPER", "FORGET", execKeeperForget t)],
    [("LINK", "ASSOC", fun l => if l.has "short" then execLinkAssocLocal l else execLinkAssoc l), ("LINK", "LEAVE", execLinkLeave),
     ("LINK", "POLL", execLinkPoll), ("LINK", "SCHED", execLinkSched), ("LINK", "WAKE", execLinkWake), ("ORDER", "LIST", execOrderList),
     ("ORDER", "DRAFT", execOrderDraft), ("ORDER", "LINE", execOrderLine), ("ORDER", "STORE", orderStoreWith [] []),
     ("ORDER", "SET", execOrderSet), ("ORDER", "ERASE", execOrderErase), ("ORDER", "RUN", execOrderRun), ("ORDER", "STOP", execOrderStop),
     ("PADS", "RELEASE", execPadsRelease), ("PORTER", "GO", execPorterGo), ("PWR", "MEASURE", execPwrMeasure),
     ("RECORD", "READ", execRecordRead), ("RECORD", "WRITE", execRecordWrite), ("RX", "STATUS", execRxStatus)],
    [("SSW", "ON", execSswOn), ("SSW", "OFF", execSswOff), ("SSW", "CLEAR", execSswClear), ("STACKS", "PART", execStacksPart),
     ("STACKS", "READ", execStacksRead), ("STACKS", "WRITE", execStacksWrite), ("TAMPER", "CLEAR", execTamperClear),
     ("TAMPER", "LOG", execTamperLog), ("TARIFF", "CLEAR", execTariffClear), ("TARIFF", "SCHED", execTariffSched),
     ("TARIFF", "UNSCHED", execTariffUnsched), ("TRIM", "RUN", execTrimRun), ("TRIM", "RESTORE", execTrimRestore), ("TX", "CW", execTxCw),
     ("VAULT", "LOAD", execVaultLoad), ("VAULT", "ERASE", execVaultErase), ("VAULT", "FLAGS", execVaultFlags),
     ("VAULT", "SEAL", execVaultSeal), ("VAULT", "RAND", execVaultRand), ("VAULT", "CCM", execVaultCcm), ("WAIT", "CLEAR", execWaitClear)]]

/-- The nouns that follow the number of the entry they remove or disable (R605). -/
def trailingNoun (verb : String) : Option String :=
  [("ALARM", "OFF"), ("BAND", "CLEAR"), ("TARIFF", "CLEAR")].lookup verb

/-- The form of a verb that no noun selects; a setting makes it the setting form where the two are rows of their own
(R605). -/
def plainRows (t : Int) : List (String × LineAct) :=
  let sets (l : Line) : Bool := !l.pos.isEmpty && !l.named.isEmpty
  List.flatten [
    [("ALARM", fun l => if sets l then execAlarmArm l else execAlarmReport l), ("ARCH", execArch),
     ("BAND", fun l => if !l.pos.isEmpty && l.sets then execBandSet l else execBandReport l), ("CANCEL", execCancel),
     ("CARREL", execCarrel), ("CAT", execCat), ("CCA", execCcaSettings), ("CENSUS", execCensusSettings), ("CHAN", execChan),
     ("COLLATE", execCollate), ("DAY", execDay), ("DESK", execDesk), ("DORM", execDorm), ("DORMANT", execDormant), ("EDITION", execEdition),
     ("EVENT", execEvent), ("FILTER", execFilter), ("FRAME", execFrameSettings)],
    [("GET", execGet), ("GPIO", execGpio), ("HELP", execHelp), ("ID", execId),
     ("KEEPER", fun l => if l.has "ref" then execKeeperRef t l else execKeeper t l), ("LEDGER", execLedger), ("LINK", execLinkSettings),
     ("MODE", execMode), ("NOISE", execNoise), ("ORDER", execOrderShow), ("PINS", execPins), ("PORTER", execPorter), ("PROFILE", execProfile),
     ("PWR", execPwr), ("RD", execRd), ("RESET", execReset), ("RET", fun l => if l.pos.isEmpty then execRetAll l else execRet l), ("RX", execRx),
     ("SET", writeRow .set), ("SKIP", execSkip)],
    [("SLIP", fun l => if l.named.isEmpty then execSlip l else execSlipWrite l), ("SSW", execSsw), ("STACKS", execStacks),
     ("STAT", execStat), ("TAMPER", fun l => if l.named.isEmpty then execTamper l else execTamperSettings l),
     ("TARIFF", fun l => if sets l then execTariffSet l else execTariffReport l), ("TICKET", execTicket), ("TRIM", execTrimStatus),
     ("TX", execTxSettings), ("VAULT", execVault), ("WAIT", execWait), ("WR", writeRow .wr)]]

/-- What a line asks for: a row, or the error of a noun that is missing or unknown. -/
def rowOf (t : Int) (v : Verb) (l : Line) : Except Er (State → Host.Outcome State Fault Refusal) :=
  let word (i : Nat) : Option String := match l.pos[i]? with | some (.word x) => some x | _ => none
  let noun (x : String) : Option LineAct :=
    ((nounRows t).find? (fun r => r.1 == v.name && r.2.1 == x)).map (fun r => r.2.2)
  let plain : Except Er (State → Host.Outcome State Fault Refusal) :=
    match (plainRows t).lookup v.name with
    | some f => .ok (f l)
    | none => .error (match word 0 with | some x => ⟨"UNKNOWN", [x]⟩ | none => erMissing)
  if v.name = "NOISE" ∧ word 0 = some "RAW" then
    match word 1 with
    | some "ON" => .ok (execNoiseRawOn { l with pos := l.pos.drop 2 })
    | some "OFF" => .ok (execNoiseRawOff { l with pos := l.pos.drop 2 })
    | some "CAPTURE" => .ok (execNoiseRawCapture { l with pos := l.pos.drop 2 })
    | some x => .error ⟨"UNKNOWN", [x]⟩
    | none => .error erMissing
  else
    match (word 0).bind noun with
    | some f => .ok (f { l with pos := l.pos.drop 1 })
    | none =>
      match word 1, trailingNoun v.name with
      | some x, some y => if x = y then (match noun y with
          | some f => .ok (f { l with pos := l.pos.eraseIdx 1 })
          | none => plain)
        else plain
      | _, _ => plain

/-- The command of a line after its grammar, or its first error among the steps of R102 up to the noun's. -/
def State.rowFor (s : State) (t : Int) (o : Origin) (b : BlockIn) (p : LexLine) :
    Except Er (State → Host.Outcome State Fault Refusal) :=
  match verbNamed p.verb with
  | none => .error ⟨"UNKNOWN", [p.verb]⟩
  | some v =>
    match rowOf t v { origin := o, tag := p.tag, pos := p.pos, named := p.named, block := b } with
    | .ok i => .ok i
    | .error e =>
      .error ((firstEr (erIf (decide (s.sys.stage ≠ .ready)) ⟨"BUSY-BOOT", []⟩ ++
        (match v.feat with | none => [] | some f => s.needs f) ++ [e])).getD e)

/-! ## LINE_ERROR -/

/-- An empty line is answered in typed mode by a fresh prompt alone (R82). -/
def State.emptyLine (s : State) (p : Port) : State :=
  if p = .desk && !s.framed .desk then
    { s with dport := { s.dport.echoes promptText with typing := true } }
  else s

/-- The mode in which the port's next line is read: the one in which it waits (04_desk R103, R106). -/
def State.lineMode (s : State) (p : Port) : Bool := (((s.port p).lines.head?).map (·.framed)).getD (s.framed p)

/-- LINE_ERROR: a line that was lost, breaks the grammar, fails its check, or asks for no row of the command table. -/
def execLineError (p : Port) (text : List Byte) (lost : LostMarks) (s : State) : Host.Outcome State Fault Refusal :=
  if !s.listens (.port p) then .next s
  else
    let answer (tag : Option String) (e : Er) : State :=
      (s.took (.port p)).refuse { origin := .port p, tag := tag, pos := [], named := [], block := .absent } e
    match lexLine (s.lineMode p) text lost with
    | .empty => .next ((s.took (.port p)).emptyLine p)
    | .bad tag e => .next (answer tag e)
    | .good x =>
      match s.rowFor 0 (.port p) .absent x with
      | .error e => .next (answer x.tag e)
      | .ok _ => .next s

end Sys2Proof.Machine
end

