-- ==== Sys2Proof/Machine/Scripts.lean ====
section
/-! DEFINITION. ORDER STORE with the check of its lines (21_orders R540), and the taking of a running order's lines (R546,
R547). -/
namespace Sys2Proof.Machine

open Sys2Proof

/-! ## The check of an order's lines (R540) -/

/-- The characters of a line that no port would take (04_desk R80, R81). -/
def textEr (text : String) : Option Er :=
  if text.toList.any (fun c => (c.toNat < 32 && c != '\t') || 126 < c.toNat) then some (synEr "CHAR")
  else if 255 < text.length then some (synEr "LONG")
  else none

/-- Line i of n, as it would be checked on a port at steps 2 to 8 of R102. -/
def State.orderLineEr (s : State) (k i n : Nat) (text : String) : Option Er :=
  match textEr text with
  | some e => some e
  | none =>
    match lexOrder text with
    | .empty => some erMissing
    | .bad _ e => some e
    | .good p =>
      let s1 := { s with orders := { s.orders with checking := some (i, n), said := .nothing } }
      match s1.rowFor s.day.temp (.order k) .absent p with
      | .error e => some e
      | .ok act =>
        match act s1 with
        | .next t => (match t.orders.said with | .er e => some e | _ => none)
        | _ => none

/-- The first failing line is reported with its number; an order holds at least one line. -/
def State.orderLinesErs (s : State) (k : Nat) (lines : List String) : List Er :=
  if lines.isEmpty then [erMissing]
  else
    match lines.zipIdx.findSome? (fun x => (s.orderLineEr k x.2 lines.length x.1).map (fun e => (e, x.2))) with
    | none => []
    | some (e, i) => [{ e with detail := e.detail ++ ["line=" ++ Nat.repr i] }]

/-- ORDER STORE: the draft, or the lines of a block. -/
def execOrderStore (l : Line) (s : State) : Host.Outcome State Fault Refusal :=
  let lines : List String := match l.blockGot with
    | .good o => blockLines o
    | .absent => s.orders.draft
    | _ => []
  let known : Bool := match l.blockGot with | .good _ => true | .absent => true | _ => false
  orderStoreWith lines (if known && s.orders.checking.isNone then s.orderLinesErs (lineOrder l) lines else []) l s

/-! ## Running (R546, R547) -/

/-- What the line taken was answered: it is complete, or its ticket is waited for; a WAIT and a SKIP have seen to
themselves, and a RESET ends the run with the reset. -/
def State.afterLine (s : State) : State :=
  if s.sys.pendingReset.isSome then s
  else
    match s.orders.said with
    | .nothing => s
    | .ok => s.orderLineDone none
    | .er e => s.orderLineDone (some e.orderCode)
    | .ticket n =>
      match s.orders.run with
      | none => s
      | some r => { s with orders := { s.orders with run := some { r with await := .ticket n } } }

/-- The next line of the running order is taken in the order's name. -/
def State.takeOrderLine (s : State) (temp : Int) (r : Run) (text : String) : State :=
  let r1 : Run := { r with started := some (r.started.getD s.day.cyc) }
  let s1 := { s with orders := { s.orders with said := .nothing, run := some r1 } }
  match lexOrder text with
  | .empty => s1.orderLineDone (some erMissing.orderCode)
  | .bad _ e => s1.orderLineDone (some e.orderCode)
  | .good p =>
    match s1.rowFor temp (.order r.k) .absent p with
    | .error e => s1.orderLineDone (some e.orderCode)
    | .ok act =>
      match act s1 with
      | .next t => t.afterLine
      | _ => s1

/-- ORDER_LINE_TAKE. -/
def execOrderLineTake (temp : Int) (s : State) : Host.Outcome State Fault Refusal :=
  match s.orders.run with
  | none => .next s
  | some r =>
    if !(s.inRun && decide (r.await = .next) && r.stopping.isNone && !r.afterReady && decide (r.ready ≤ s.day.cyc) &&
        s.sys.pendingReset.isNone) then .next s
    else
      match r.slot.lines[r.line]? with
      | none => .next (s.orderEnd .done)
      | some text => .next (s.takeOrderLine temp r text)

end Sys2Proof.Machine
end

