-- ==== Sys2Proof/Machine/Dispatch.lean ====
section
/-! DEFINITION. One arm for each command. -/
namespace Sys2Proof.Machine

open Sys2Proof

def exec (i : Instr) (s : State) : Host.Outcome State Fault Refusal :=
  match i with
  | .powerOn => Sys2Proof.Machine.execPowerOn s
  | .por => Sys2Proof.Machine.execPor s
  | .borRun => Sys2Proof.Machine.execBorRun s
  | .borRelease => Sys2Proof.Machine.execBorRelease s
  | .borDormant => Sys2Proof.Machine.execBorDormant s
  | .nrstReset => Sys2Proof.Machine.execNrstReset s
  | .nrstRelease => Sys2Proof.Machine.execNrstRelease s
  | .testModeEntry => Sys2Proof.Machine.execTestModeEntry s
  | .vddioLoss => Sys2Proof.Machine.execVddioLoss s
  | .vddioRestore => Sys2Proof.Machine.execVddioRestore s
  | .oscillatorRestart => Sys2Proof.Machine.execOscillatorRestart s
  | .powerStageEnd temp keeper ticks => Sys2Proof.Machine.execPowerStageEnd temp keeper ticks s
  | .bringupRecord found => Sys2Proof.Machine.execBringupRecord found s
  | .bringupTrim => Sys2Proof.Machine.execBringupTrim s
  | .bringupLedger => Sys2Proof.Machine.execBringupLedger s
  | .bringupVault testPassed => Sys2Proof.Machine.execBringupVault testPassed s
  | .bringupOrders damaged => Sys2Proof.Machine.execBringupOrders damaged s
  | .bringupReady => Sys2Proof.Machine.execBringupReady s
  | .seqWatchdog => Sys2Proof.Machine.execSeqWatchdog s
  | .deskOctet b stopLow => Sys2Proof.Machine.execDeskOctet b stopLow s
  | .deskBreak => Sys2Proof.Machine.execDeskBreak s
  | .autobaudCharacter startTicks lowTicks => Sys2Proof.Machine.execAutobaudCharacter startTicks lowTicks s
  | .blockTimeout p => Sys2Proof.Machine.execBlockTimeout p s
  | .lineError p text lost => Sys2Proof.Machine.execLineError p text lost s
  | .chuteCsFall mode3 => Sys2Proof.Machine.execChuteCsFall mode3 s
  | .chuteOctet b => Sys2Proof.Machine.execChuteOctet b s
  | .chuteCsRise => Sys2Proof.Machine.execChuteCsRise s
  | .chuteReplyTimeout => Sys2Proof.Machine.execChuteReplyTimeout s
  | .lineSent p => Sys2Proof.Machine.execLineSent p s
  | .commandReset => Sys2Proof.Machine.execCommandReset s
  | .mode l => Sys2Proof.Machine.execMode l s
  | .desk l => Sys2Proof.Machine.execDesk l s
  | .help l => Sys2Proof.Machine.execHelp l s
  | .id l => Sys2Proof.Machine.execId l s
  | .idAll l => Sys2Proof.Machine.execIdAll l s
  | .stat l => Sys2Proof.Machine.execStat l s
  | .reset l => Sys2Proof.Machine.execReset l s
  | .pins l => Sys2Proof.Machine.execPins l s
  | .pwr l => Sys2Proof.Machine.execPwr l s
  | .pwrMeasure l => Sys2Proof.Machine.execPwrMeasure l s
  | .measurementDone vbat vddio vddpa => Sys2Proof.Machine.execMeasurementDone vbat vddio vddpa s
  | .rd l => Sys2Proof.Machine.execRd l s
  | .get l => Sys2Proof.Machine.execGet l s
  | .registerWrite f l => Sys2Proof.Machine.execRegisterWrite f l s
  | .counterWrite f l => Sys2Proof.Machine.execCounterWrite f l s
  | .eventsPendWrite f l => Sys2Proof.Machine.execEventsPendWrite f l s
  | .sysAlertClear f l => Sys2Proof.Machine.execSysAlertClear f l s
  | .carrelLostClear f l => Sys2Proof.Machine.execCarrelLostClear f l s
  | .ordersDamagedClear f l => Sys2Proof.Machine.execOrdersDamagedClear f l s
  | .deskConfigWrite f l => Sys2Proof.Machine.execDeskConfigWrite f l s
  | .chuteConfigWrite f l => Sys2Proof.Machine.execChuteConfigWrite f l s
  | .dormConfigWrite f l => Sys2Proof.Machine.execDormConfigWrite f l s
  | .sysPadDriveWrite f l => Sys2Proof.Machine.execSysPadDriveWrite f l s
  | .pwrVbatWarnWrite f l => Sys2Proof.Machine.execPwrVbatWarnWrite f l s
  | .radioChanWrite f l => Sys2Proof.Machine.execRadioChanWrite f l s
  | .radioTxConfigWrite f l => Sys2Proof.Machine.execRadioTxConfigWrite f l s
  | .radioPlanWrite f l => Sys2Proof.Machine.execRadioPlanWrite f l s
  | .modemConfigWrite f l => Sys2Proof.Machine.execModemConfigWrite f l s
  | .censusConfigWrite f l => Sys2Proof.Machine.execCensusConfigWrite f l s
  | .frameConfigWrite f l => Sys2Proof.Machine.execFrameConfigWrite f l s
  | .frameFilterWrite f l => Sys2Proof.Machine.execFrameFilterWrite f l s
  | .linkConfigWrite f l => Sys2Proof.Machine.execLinkConfigWrite f l s
  | .ticketsConfigWrite f l => Sys2Proof.Machine.execTicketsConfigWrite f l s
  | .eventsMaskWrite f l => Sys2Proof.Machine.execEventsMaskWrite f l s
  | .eventsAttnConfigWrite f l => Sys2Proof.Machine.execEventsAttnConfigWrite f l s
  | .vaultConfigWrite f l => Sys2Proof.Machine.execVaultConfigWrite f l s
  | .vaultFcWrite f l => Sys2Proof.Machine.execVaultFcWrite f l s
  | .collateFeedWrite f l => Sys2Proof.Machine.execCollateFeedWrite f l s
  | .collateCompareWrite f l => Sys2Proof.Machine.execCollateCompareWrite f l s
  | .gpioOutWrite f l => Sys2Proof.Machine.execGpioOutWrite f l s
  | .gpioConfigWrite f l => Sys2Proof.Machine.execGpioConfigWrite f l s
  | .tamperConfigWrite f l => Sys2Proof.Machine.execTamperConfigWrite f l s
  | .ticket l => Sys2Proof.Machine.execTicket l s
  | .cancel l => Sys2Proof.Machine.execCancel l s
  | .cancelAll l => Sys2Proof.Machine.execCancelAll l s
  | .ret l => Sys2Proof.Machine.execRet l s
  | .retAll l => Sys2Proof.Machine.execRetAll l s
  | .edition l => Sys2Proof.Machine.execEdition l s
  | .ticketHead q => Sys2Proof.Machine.execTicketHead q s
  | .ticketTimedStart q => Sys2Proof.Machine.execTicketTimedStart q s
  | .ticketOverdue n => Sys2Proof.Machine.execTicketOverdue n s
  | .event l => Sys2Proof.Machine.execEvent l s
  | .eventClear l => Sys2Proof.Machine.execEventClear l s
  | .eventMask l => Sys2Proof.Machine.execEventMask l s
  | .eventRaise l => Sys2Proof.Machine.execEventRaise l s
  | .eventAttn l => Sys2Proof.Machine.execEventAttn l s
  | .eventSave l => Sys2Proof.Machine.execEventSave l s
  | .deferredEvent => Sys2Proof.Machine.execDeferredEvent s
  | .attnMinWidthEnd => Sys2Proof.Machine.execAttnMinWidthEnd s
  | .dormant l => Sys2Proof.Machine.execDormant l s
  | .dorm l => Sys2Proof.Machine.execDorm l s
  | .padsRelease l => Sys2Proof.Machine.execPadsRelease l s
  | .dormantAttempt temp => Sys2Proof.Machine.execDormantAttempt temp s
  | .autoDormant temp => Sys2Proof.Machine.execAutoDormant temp s
  | .entryPadLatch lag => Sys2Proof.Machine.execEntryPadLatch lag s
  | .entryComplete => Sys2Proof.Machine.execEntryComplete s
  | .entryWatchdog => Sys2Proof.Machine.execEntryWatchdog s
  | .wakeSourceRegistered src level => Sys2Proof.Machine.execWakeSourceRegistered src level s
  | .quietWakeOrigin => Sys2Proof.Machine.execQuietWakeOrigin s
  | .wakeRegRdy ready released => Sys2Proof.Machine.execWakeRegRdy ready released s
  | .wakeOscRdy ready => Sys2Proof.Machine.execWakeOscRdy ready s
  | .wakeResumeEdge keeper => Sys2Proof.Machine.execWakeResumeEdge keeper s
  | .wakeLogicRdy temp memory logic => Sys2Proof.Machine.execWakeLogicRdy temp memory logic s
  | .wakeReadyLine => Sys2Proof.Machine.execWakeReadyLine s
  | .sniffEnd => Sys2Proof.Machine.execSniffEnd s
  | .arrayPowerUpEnd => Sys2Proof.Machine.execArrayPowerUpEnd s
  | .stacksPowerDown => Sys2Proof.Machine.execStacksPowerDown s
  | .day l => Sys2Proof.Machine.execDay l s
  | .dayStatus l => Sys2Proof.Machine.execDayStatus l s
  | .daySet l => Sys2Proof.Machine.execDaySet l s
  | .daySlew l => Sys2Proof.Machine.execDaySlew l s
  | .slewTick => Sys2Proof.Machine.execSlewTick s
  | .keeper temp l => Sys2Proof.Machine.execKeeper temp l s
  | .keeperTable l => Sys2Proof.Machine.execKeeperTable l s
  | .keeperForget temp l => Sys2Proof.Machine.execKeeperForget temp l s
  | .keeperRef temp l => Sys2Proof.Machine.execKeeperRef temp l s
  | .keeperRunning => Sys2Proof.Machine.execKeeperRunning s
  | .keeperPeriodFault => Sys2Proof.Machine.execKeeperPeriodFault s
  | .keeperEdgeTimeout => Sys2Proof.Machine.execKeeperEdgeTimeout s
  | .driftWindowClose temp ticks => Sys2Proof.Machine.execDriftWindowClose temp ticks s
  | .alarmReport l => Sys2Proof.Machine.execAlarmReport l s
  | .alarmArm l => Sys2Proof.Machine.execAlarmArm l s
  | .alarmOff l => Sys2Proof.Machine.execAlarmOff l s
  | .alarmFire a => Sys2Proof.Machine.execAlarmFire a s
  | .bandReport l => Sys2Proof.Machine.execBandReport l s
  | .bandSet l => Sys2Proof.Machine.execBandSet l s
  | .bandClear l => Sys2Proof.Machine.execBandClear l s
  | .chan l => Sys2Proof.Machine.execChan l s
  | .txSettings l => Sys2Proof.Machine.execTxSettings l s
  | .txCw l => Sys2Proof.Machine.execTxCw l s
  | .rx l => Sys2Proof.Machine.execRx l s
  | .rxStatus l => Sys2Proof.Machine.execRxStatus l s
  | .synthLock => Sys2Proof.Machine.execSynthLock s
  | .lockTimeout => Sys2Proof.Machine.execLockTimeout s
  | .lockLost => Sys2Proof.Machine.execLockLost s
  | .keyingLead pa => Sys2Proof.Machine.execKeyingLead pa s
  | .keying => Sys2Proof.Machine.execKeying s
  | .rampUpEnd => Sys2Proof.Machine.execRampUpEnd s
  | .txSymbolsEnd => Sys2Proof.Machine.execTxSymbolsEnd s
  | .rampDownEnd => Sys2Proof.Machine.execRampDownEnd s
  | .antennaLagEnd => Sys2Proof.Machine.execAntennaLagEnd s
  | .agcUpdate gain lna => Sys2Proof.Machine.execAgcUpdate gain lna s
  | .rssiUpdate rssi => Sys2Proof.Machine.execRssiUpdate rssi s
  | .rxDurationEnd => Sys2Proof.Machine.execRxDurationEnd s
  | .profile l => Sys2Proof.Machine.execProfile l s
  | .afcLimit offset => Sys2Proof.Machine.execAfcLimit offset s
  | .preambleDetected chan => Sys2Proof.Machine.execPreambleDetected chan s
  | .syncDeclared bits rssi afc sync => Sys2Proof.Machine.execSyncDeclared bits rssi afc sync s
  | .dHeaderDecoded len => Sys2Proof.Machine.execDHeaderDecoded len s
  | .frameDecision f => Sys2Proof.Machine.execFrameDecision f s
  | .wakePatternDetected chan rx => Sys2Proof.Machine.execWakePatternDetected chan rx s
  | .handoverHoldEnd => Sys2Proof.Machine.execHandoverHoldEnd s
  | .censusSettings l => Sys2Proof.Machine.execCensusSettings l s
  | .censusWatch l => Sys2Proof.Machine.execCensusWatch l s
  | .censusOff l => Sys2Proof.Machine.execCensusOff l s
  | .censusLevels l => Sys2Proof.Machine.execCensusLevels l s
  | .censusScan l => Sys2Proof.Machine.execCensusScan l s
  | .censusScanEnd => Sys2Proof.Machine.execCensusScanEnd s
  | .censusWindowClose readings => Sys2Proof.Machine.execCensusWindowClose readings s
  | .ccaSettings l => Sys2Proof.Machine.execCcaSettings l s
  | .ccaCheck l => Sys2Proof.Machine.execCcaCheck l s
  | .ccaListenEnd => Sys2Proof.Machine.execCcaListenEnd s
  | .frameSettings l => Sys2Proof.Machine.execFrameSettings l s
  | .frameSend l => Sys2Proof.Machine.execFrameSend l s
  | .frameRead l => Sys2Proof.Machine.execFrameRead l s
  | .frameFree l => Sys2Proof.Machine.execFrameFree l s
  | .filter l => Sys2Proof.Machine.execFilter l s
  | .ackTurnaround => Sys2Proof.Machine.execAckTurnaround s
  | .ackWaitTimeout => Sys2Proof.Machine.execAckWaitTimeout s
  | .backoffEnd => Sys2Proof.Machine.execBackoffEnd s
  | .linkSettings l => Sys2Proof.Machine.execLinkSettings l s
  | .linkAssoc l => Sys2Proof.Machine.execLinkAssoc l s
  | .linkAssocLocal l => Sys2Proof.Machine.execLinkAssocLocal l s
  | .linkLeave l => Sys2Proof.Machine.execLinkLeave l s
  | .linkPoll l => Sys2Proof.Machine.execLinkPoll l s
  | .linkSched l => Sys2Proof.Machine.execLinkSched l s
  | .linkWake l => Sys2Proof.Machine.execLinkWake l s
  | .assocResponseWaitEnd => Sys2Proof.Machine.execAssocResponseWaitEnd s
  | .pollWindowEnd => Sys2Proof.Machine.execPollWindowEnd s
  | .heldFrameTurnaround => Sys2Proof.Machine.execHeldFrameTurnaround s
  | .exchangeLapse => Sys2Proof.Machine.execExchangeLapse s
  | .pollScheduleDue => Sys2Proof.Machine.execPollScheduleDue s
  | .heldFrameExpiry => Sys2Proof.Machine.execHeldFrameExpiry s
  | .cat l => Sys2Proof.Machine.execCat l s
  | .catPool l => Sys2Proof.Machine.execCatPool l s
  | .catAdd l => Sys2Proof.Machine.execCatAdd l s
  | .catSet l => Sys2Proof.Machine.execCatSet l s
  | .catRemove l => Sys2Proof.Machine.execCatRemove l s
  | .catQueue l => Sys2Proof.Machine.execCatQueue l s
  | .ledger l => Sys2Proof.Machine.execLedger l s
  | .tariffReport l => Sys2Proof.Machine.execTariffReport l s
  | .tariffSet l => Sys2Proof.Machine.execTariffSet l s
  | .tariffClear l => Sys2Proof.Machine.execTariffClear l s
  | .tariffSched l => Sys2Proof.Machine.execTariffSched l s
  | .tariffUnsched l => Sys2Proof.Machine.execTariffUnsched l s
  | .intervalBoundary => Sys2Proof.Machine.execIntervalBoundary s
  | .trimRun l => Sys2Proof.Machine.execTrimRun l s
  | .trimStatus l => Sys2Proof.Machine.execTrimStatus l s
  | .trimRestore l => Sys2Proof.Machine.execTrimRestore l s
  | .trimPassEnd sel stats => Sys2Proof.Machine.execTrimPassEnd sel stats s
  | .trimItemEnd sel stats => Sys2Proof.Machine.execTrimItemEnd sel stats s
  | .censuseqTimeout => Sys2Proof.Machine.execCensuseqTimeout s
  | .noise l => Sys2Proof.Machine.execNoise l s
  | .noiseRawOn l => Sys2Proof.Machine.execNoiseRawOn l s
  | .noiseRawOff l => Sys2Proof.Machine.execNoiseRawOff l s
  | .noiseRawCapture l => Sys2Proof.Machine.execNoiseRawCapture l s
  | .rawCaptureDone => Sys2Proof.Machine.execRawCaptureDone s
  | .noiseStartupTestEnd passed aptFailed => Sys2Proof.Machine.execNoiseStartupTestEnd passed aptFailed s
  | .noiseHealthFail apt => Sys2Proof.Machine.execNoiseHealthFail apt s
  | .gradeBRefillDone => Sys2Proof.Machine.execGradeBRefillDone s
  | .seedBlockDone => Sys2Proof.Machine.execSeedBlockDone s
  | .drbgReseedDone => Sys2Proof.Machine.execDrbgReseedDone s
  | .vault l => Sys2Proof.Machine.execVault l s
  | .vaultLoad l => Sys2Proof.Machine.execVaultLoad l s
  | .vaultLoadDone => Sys2Proof.Machine.execVaultLoadDone s
  | .vaultErase l => Sys2Proof.Machine.execVaultErase l s
  | .vaultFlags l => Sys2Proof.Machine.execVaultFlags l s
  | .vaultSeal l => Sys2Proof.Machine.execVaultSeal l s
  | .vaultRand l => Sys2Proof.Machine.execVaultRand l s
  | .vaultRandDone => Sys2Proof.Machine.execVaultRandDone s
  | .vaultCcm l => Sys2Proof.Machine.execVaultCcm l s
  | .vaultCcmDone => Sys2Proof.Machine.execVaultCcmDone s
  | .recordRead l => Sys2Proof.Machine.execRecordRead l s
  | .recordWrite l => Sys2Proof.Machine.execRecordWrite l s
  | .recordRowWriteDone => Sys2Proof.Machine.execRecordRowWriteDone s
  | .carrel l => Sys2Proof.Machine.execCarrel l s
  | .carrelRead l => Sys2Proof.Machine.execCarrelRead l s
  | .carrelWrite l => Sys2Proof.Machine.execCarrelWrite l s
  | .stacks l => Sys2Proof.Machine.execStacks l s
  | .stacksPart l => Sys2Proof.Machine.execStacksPart l s
  | .stacksRead l => Sys2Proof.Machine.execStacksRead l s
  | .stacksWrite l => Sys2Proof.Machine.execStacksWrite l s
  | .arch l => Sys2Proof.Machine.execArch l s
  | .archAdd l => Sys2Proof.Machine.execArchAdd l s
  | .archRead l => Sys2Proof.Machine.execArchRead l s
  | .archFind l => Sys2Proof.Machine.execArchFind l s
  | .archMark l => Sys2Proof.Machine.execArchMark l s
  | .archDrop l => Sys2Proof.Machine.execArchDrop l s
  | .porter l => Sys2Proof.Machine.execPorter l s
  | .porterGo l => Sys2Proof.Machine.execPorterGo l s
  | .porterSlipFetch n => Sys2Proof.Machine.execPorterSlipFetch n s
  | .porterElement n => Sys2Proof.Machine.execPorterElement n s
  | .slip l => Sys2Proof.Machine.execSlip l s
  | .slipWrite l => Sys2Proof.Machine.execSlipWrite l s
  | .collate l => Sys2Proof.Machine.execCollate l s
  | .collateOpen l => Sys2Proof.Machine.execCollateOpen l s
  | .collateFeed l => Sys2Proof.Machine.execCollateFeed l s
  | .collateFeedDone n => Sys2Proof.Machine.execCollateFeedDone n s
  | .collateClose l => Sys2Proof.Machine.execCollateClose l s
  | .collateCloseCycle n => Sys2Proof.Machine.execCollateCloseCycle n s
  | .orderList l => Sys2Proof.Machine.execOrderList l s
  | .orderShow l => Sys2Proof.Machine.execOrderShow l s
  | .orderDraft l => Sys2Proof.Machine.execOrderDraft l s
  | .orderLine l => Sys2Proof.Machine.execOrderLine l s
  | .orderStore l => Sys2Proof.Machine.execOrderStore l s
  | .orderSet l => Sys2Proof.Machine.execOrderSet l s
  | .orderErase l => Sys2Proof.Machine.execOrderErase l s
  | .orderRun l => Sys2Proof.Machine.execOrderRun l s
  | .orderStop l => Sys2Proof.Machine.execOrderStop l s
  | .orderScheduleDue k => Sys2Proof.Machine.execOrderScheduleDue k s
  | .orderLineTake temp => Sys2Proof.Machine.execOrderLineTake temp s
  | .orderLimitExpiry => Sys2Proof.Machine.execOrderLimitExpiry s
  | .wait l => Sys2Proof.Machine.execWait l s
  | .waitClear l => Sys2Proof.Machine.execWaitClear l s
  | .waitExpiry => Sys2Proof.Machine.execWaitExpiry s
  | .skip l => Sys2Proof.Machine.execSkip l s
  | .ssw l => Sys2Proof.Machine.execSsw l s
  | .sswOn l => Sys2Proof.Machine.execSswOn l s
  | .sswOff l => Sys2Proof.Machine.execSswOff l s
  | .sswClear l => Sys2Proof.Machine.execSswClear l s
  | .sswRampEnd => Sys2Proof.Machine.execSswRampEnd s
  | .sswCheck sswOut sswIn => Sys2Proof.Machine.execSswCheck sswOut sswIn s
  | .sswLimitTimeout sswIn => Sys2Proof.Machine.execSswLimitTimeout sswIn s
  | .sswThermal => Sys2Proof.Machine.execSswThermal s
  | .sswDormantOverload => Sys2Proof.Machine.execSswDormantOverload s
  | .tamper l => Sys2Proof.Machine.execTamper l s
  | .tamperSettings l => Sys2Proof.Machine.execTamperSettings l s
  | .tamperClear l => Sys2Proof.Machine.execTamperClear l s
  | .tamperLog l => Sys2Proof.Machine.execTamperLog l s
  | .tamperSample level => Sys2Proof.Machine.execTamperSample level s
  | .tamperContinuous level => Sys2Proof.Machine.execTamperContinuous level s
  | .vbatDip => Sys2Proof.Machine.execVbatDip s
  | .erasureDone => Sys2Proof.Machine.execErasureDone s
  | .gpio l => Sys2Proof.Machine.execGpio l s
  | .gpioEdge n level => Sys2Proof.Machine.execGpioEdge n level s
  | .wakeInEdge level => Sys2Proof.Machine.execWakeInEdge level s
  | .keeperEdge period => Sys2Proof.Machine.execKeeperEdge period s
  | .archFindDone => Sys2Proof.Machine.execArchFindDone s
  | .linkWakeNextSniff => Sys2Proof.Machine.execLinkWakeNextSniff s
  | .sswCurrentLimit active => Sys2Proof.Machine.execSswCurrentLimit active s
  | .sswHotChange hot => Sys2Proof.Machine.execSswHotChange hot s
  | .deskTxOctetEnd => Sys2Proof.Machine.execDeskTxOctetEnd s

end Sys2Proof.Machine
end

