-- ==== Sys2Proof/Machine/Step.lean ====
section
/-! DEFINITION. The step: the command at the front of the queue runs on the state with the queue's rest; on an empty queue
one SCLK cycle passes. -/
namespace Sys2Proof.Machine

open Sys2Proof

/-- One SCLK cycle with no command: the Daybook counts, the Collators' stages move on (01_node R12, 20_collators R527),
and the idle time of an automatic entry is kept (09_dormant R235). -/
def State.idleCycle (s : State) : State := if s.clocked then s.tick.collateTick.idleWatch else s

def step (s : State) : Host.Outcome State Fault Refusal :=
  match s.pending with
  | [] => .next s.idleCycle
  | c :: rest => exec c { s with pending := rest }

/-- The state with the command that a word of the table spells at the front of its queue; the table spells none. -/
def State.withFetchWord (s : State) (nbits w : Nat) : State :=
  match decodeTableWord nbits w with
  | some c => { s with pending := c :: s.pending }
  | none => s

end Sys2Proof.Machine
end

