-- ==== Sys2Proof/WellFormed.lean ====
section
/-! DEFINITION. Which terms of `Instr` stand for something the part can meet: lines the grammar of 04_desk can make
(R84–R92), and events whose measured values fit their registers.  The machine gives every term a meaning; these checks
say which ones a test may use. -/
namespace Sys2Proof

/-- A word as the part holds it: a capital letter, then capitals, digits, `_` or `.`, up to 63 (04_desk Table 4.4). -/
def wordOk (x : String) : Bool :=
  match x.toList with
  | [] => false
  | c :: r => c.isUpper && r.all (fun y => y.isUpper || y.isDigit || y == '_' || y == '.') && decide (r.length ≤ 62)

/-- A key, held in lower case. -/
def keyOk (x : String) : Bool :=
  match x.toList with
  | [] => false
  | c :: r => c.isLower && r.all (fun y => y.isLower || y.isDigit || y == '_' || y == '.') && decide (r.length ≤ 62)

/-- A tag: 1–8 letters or digits (R85). -/
def tagOk (x : String) : Bool :=
  x.toList.all Char.isAlphanum && decide (1 ≤ x.length) && decide (x.length ≤ 8)

/-- A character of a string: space to `~` (R88). -/
def printable (c : Char) : Bool := decide (32 ≤ c.toNat) && decide (c.toNat ≤ 126)

/-- One operand or value (Table 4.4): integers of up to 20 digits or 64 bits, strings of up to 64 characters, block lengths 1–4096, lists
of two words or more. -/
def Arg.wf : Arg → Bool
  | .word x => wordOk x
  | .int v => decide (v.natAbs < 10 ^ 20)
  | .dec v p => decide (v ≤ 0) && decide (1 ≤ p) && decide (p ≤ 6)
  | .time t _ => decide (t < 10 ^ 20)
  | .guard u e => wordOk u && decide (e < 10 ^ 20)
  | .str x => x.toList.all printable && decide (x.length ≤ 64)
  | .octets l => !l.isEmpty
  | .block n => decide (1 ≤ n) && decide (n ≤ 4096)
  | .list ws => ws.all wordOk && decide (2 ≤ ws.length)

/-- A named argument; name= keeps its letters as typed (21_orders Table 21.1). -/
def namedWf (a : String × Arg) : Bool :=
  keyOk a.1 && (match a.1 == "name", a.2 with
    | true, .word x => !x.toList.isEmpty && x.toList.all (fun c => c.isAlphanum || c == '_') && decide (x.length ≤ 63)
    | _, v => v.wf)

def Arg.isList : Arg → Bool
  | .list _ => true
  | _ => false

def Arg.blockLen : Arg → Option Nat
  | .block n => some n
  | _ => none

/-- The block that follows a line has the octets that its marker announces, between a marker and a CRC (R91). -/
def Line.blockWf (l : Line) : Bool :=
  match l.pos.filterMap Arg.blockLen, l.block with
  | [], .absent => true
  | [n], .sent o => o.length == n + 8
  | _, _ => false

/-- A line: its tag, operands, keys and block.  A line of a standing order has no tag and no block
(21_orders R540). -/
def Line.wf (l : Line) : Bool :=
  (match l.origin with
    | .port _ => (match l.tag with | none => true | some t => tagOk t)
    | .order k => decide (k < 32) && l.tag.isNone && (l.pos.filterMap Arg.blockLen).isEmpty) &&
  l.pos.all (fun a => a.wf && !a.isList) && l.named.all namedWf && decide ((l.named.map (·.1)).Nodup) && l.blockWf

/-- A line as its row gives it: a ticketed verb's, a write's or a plain one. -/
def Instr.line? : Instr → Option Line
  | .mode l | .desk l | .help l | .id l | .idAll l | .stat l | .reset l | .pins l | .pwr l | .pwrMeasure l
  | .rd l | .get l | .registerWrite _ l | .counterWrite _ l | .eventsPendWrite _ l | .sysAlertClear _ l
  | .carrelLostClear _ l | .ordersDamagedClear _ l | .deskConfigWrite _ l | .chuteConfigWrite _ l
  | .dormConfigWrite _ l | .sysPadDriveWrite _ l | .pwrVbatWarnWrite _ l | .radioChanWrite _ l
  | .radioTxConfigWrite _ l | .radioPlanWrite _ l | .modemConfigWrite _ l | .censusConfigWrite _ l
  | .frameConfigWrite _ l | .frameFilterWrite _ l | .linkConfigWrite _ l | .ticketsConfigWrite _ l
  | .eventsMaskWrite _ l | .eventsAttnConfigWrite _ l | .vaultConfigWrite _ l | .vaultFcWrite _ l
  | .collateFeedWrite _ l | .collateCompareWrite _ l | .gpioOutWrite _ l | .gpioConfigWrite _ l
  | .tamperConfigWrite _ l | .ticket l | .cancel l | .cancelAll l | .ret l | .retAll l | .edition l
  | .event l | .eventClear l | .eventMask l | .eventRaise l | .eventAttn l | .eventSave l | .dormant l | .dorm l
  | .padsRelease l | .day l | .dayStatus l | .daySet l | .daySlew l | .keeper _ l | .keeperTable l
  | .keeperForget _ l | .keeperRef _ l | .alarmReport l | .alarmArm l | .alarmOff l | .bandReport l | .bandSet l
  | .bandClear l | .chan l | .txSettings l | .txCw l | .rx l | .rxStatus l | .profile l | .censusSettings l
  | .censusWatch l | .censusOff l | .censusLevels l | .censusScan l | .ccaSettings l | .ccaCheck l
  | .frameSettings l | .frameSend l | .frameRead l | .frameFree l | .filter l | .linkSettings l | .linkAssoc l
  | .linkAssocLocal l | .linkLeave l | .linkPoll l | .linkSched l | .linkWake l | .cat l | .catPool l | .catAdd l
  | .catSet l | .catRemove l | .catQueue l | .ledger l | .tariffReport l | .tariffSet l | .tariffClear l
  | .tariffSched l | .tariffUnsched l | .trimRun l | .trimStatus l | .trimRestore l | .noise l | .noiseRawOn l
  | .noiseRawOff l | .noiseRawCapture l | .vault l | .vaultLoad l | .vaultErase l | .vaultFlags l | .vaultSeal l
  | .vaultRand l | .vaultCcm l | .recordRead l | .recordWrite l | .carrel l | .carrelRead l | .carrelWrite l
  | .stacks l | .stacksPart l | .stacksRead l | .stacksWrite l | .arch l | .archAdd l | .archRead l | .archFind l
  | .archMark l | .archDrop l | .porter l | .porterGo l | .slip l | .slipWrite l | .collate l | .collateOpen l
  | .collateFeed l | .collateClose l | .orderList l | .orderShow l | .orderDraft l | .orderLine l | .orderStore l
  | .orderSet l | .orderErase l | .orderRun l | .orderStop l | .wait l | .waitClear l | .skip l | .ssw l | .sswOn l
  | .sswOff l | .sswClear l | .tamper l | .tamperSettings l | .tamperClear l | .tamperLog l | .gpio l => some l
  | _ => none

/-- The rows of a region as EV_RECORD_FAIL counts them; an order's slots are read in the ORDERS stage. -/
def Region.rows : Region → Nat
  | .config => 16 | .trim => 1 | .drift => 4 | .ledger => 32 | .tariff => 1 | .vault => 10 | .tamper => 32 | .events => 1
  | .orders => 0

/-- A received frame: at most a PHR and 2047 octets (14_frames), readings that fit their registers. -/
def RxFrame.wf (f : RxFrame) : Bool :=
  decide (f.octets.length ≤ 2049) && decide (f.rssi.natAbs < 2 ^ 15) && decide (f.snr.natAbs < 2 ^ 15)

/-- What an event's row carries: voltages of 16 bits, keeper counts of 48 bits, readings that fit their registers, and
the 20 µs of the entry step in which the drift row is written. -/
def Instr.eventWf : Instr → Bool
  | .measurementDone a b c => decide (a < 2 ^ 16) && decide (b < 2 ^ 16) && decide (c < 2 ^ 16)
  | .powerStageEnd _ k _ => decide (k < 2 ^ 48)
  | .wakeResumeEdge k => decide (k < 2 ^ 48)
  | .bringupRecord f => (f.copyA ++ f.copyB).all (fun x => decide (x.2 < x.1.rows))
  | .sswCheck a b => decide (a < 2 ^ 16) && decide (b < 2 ^ 16)
  | .sswLimitTimeout a => decide (a < 2 ^ 16)
  | .rssiUpdate v => decide (v.natAbs < 2 ^ 15)
  | .syncDeclared _ r a _ => decide (r.natAbs < 2 ^ 15) && decide (a.natAbs < 2 ^ 15)
  | .frameDecision f => f.wf
  | .wakePatternDetected _ x => decide (x.rssi.natAbs < 2 ^ 15)
  | .entryPadLatch lag => decide (lag ≤ 384)
  | .censusWindowClose r => r.length == 16 && r.all (fun v => decide (v.natAbs < 2 ^ 15))
  | .ticketOverdue n => decide (n < 512)
  | .lineError _ t _ => decide (t.length ≤ 512)
  | _ => true

/-- A well-formed command. -/
def Instr.wf (i : Instr) : Bool :=
  i.eventWf && (match i.line? with | none => true | some l => l.wf)

end Sys2Proof
end

