-- ==== Sys2Proof/Safety.lean ====
section
/-! DEFINITION. The terms in which the claims speak: when a line is accepted, what of the state a reply or an event
may touch, what has been answered, which event has fired, and how a ticket stands. -/
namespace Sys2Proof.Machine

open Sys2Proof

/-! ## Accepting a line -/

/-- A line is taken from its origin, runs (it is not merely checked for ORDER STORE), and none of its checks gives an
error: neither those of its form, nor `es`, those of its verb (04_desk R102). -/
structure State.Accepts (s : State) (f : Form) (l : Line) (es : List Er) : Prop where
  listens : s.listens l.origin = true
  runs : s.orders.checking = none
  form : s.formErs f l = []
  verb : es = []

/-! ## The rest of the state -/

/-- A port but for what taking a line and queueing output change: the waiting lines, the busy level and the output
queue. -/
def PortSt.still (q : PortSt) : PortSt := { q with lines := [], busy := false, out := [] }

/-- The state but for what answering a line changes: the ports' lines, busy levels and output queues, whose turn it
is, the event that a line joining the Chute queue causes, and what an order's line was answered. -/
def State.besideReply (s : State) : State :=
  { s with dport := s.dport.still, cport := s.cport.still, desk := { s.desk with turnChute := false },
           events := { s.events with deferred := [] }, orders := { s.orders with said := .nothing } }

/-- The state but for what answering lines and firing events change: besides the above, the event registers other than
the conditions, the counters of dropped lines, ATTN, the event lines kept for READY, the pads that follow pending bits,
and the orders that events trigger, with their edition. -/
def State.besideEvents (s : State) : State :=
  { s with dport := s.dport.still, cport := s.cport.still,
           desk := { s.desk with turnChute := false, evDropped := {}, cEvDropped := {} },
           events := { cond := s.events.cond },
           sys := { s.sys with alertEvents := [] },
           pads := { s.pads with held := 0, heldDev := 0 },
           orders := { s.orders with said := .nothing, runs := {}, run := none, pending := [], missed := {} },
           ed := vset s.ed EdUnit.orders.index 0 }

/-- The state but for what completing a ticket changes: besides the above, the pool with its counters, the start of the
idle time, the outcome of the last poll, and the results of orders. -/
def State.besideTickets (s : State) : State :=
  let t := s.besideEvents
  { t with tickets := {}, pwr := { t.pwr with idleSince := 0 },
           link := { t.link with lastPoll := (0, false, 0) },
           orders := { t.orders with last := Vector.replicate 32 none, fails := {} } }

/-! ## Answers -/

/-- What an output line says: its tag and its words. -/
def OutLine.says (l : OutLine) : Option String × List Tok := (l.tag, l.toks)

/-- The lines of a reply with the closing `OK END k` that a reply of several lines, or one with a block, has in framed
mode (04_desk R97, 14_frames R376). -/
def State.replyBody (s : State) (o : Origin) (multi : Bool) (ls : List (List Tok)) (blk : Bool := false) : List (List Tok) :=
  match o with
  | .port p => if multi && s.framed p && (decide (1 < ls.length) || blk) then ls ++ [[w "OK", w "END", n' ls.length]] else ls
  | .order _ => ls

/-- Between s and t the line has been answered with `ls`, in order and under its tag, and has left its port's FIFO; the
other port is as it was.  An order's line sends nothing and counts as answered OK (21_orders R547). -/
def Answered (s t : State) (l : Line) (multi : Bool) (ls : List (List Tok)) (blk : Bool := false) : Prop :=
  match l.origin with
  | .order _ => t.orders.said = .ok ∧ t.dport = s.dport ∧ t.cport = s.cport
  | .port p =>
    (t.port p).out.map OutLine.says = (s.port p).out.map OutLine.says ++ (s.replyBody l.origin multi ls blk).map (fun x => (l.tag, x)) ∧
      (t.port p).lines = (s.port p).lines.tail ∧ ∀ q, q ≠ p → t.port q = s.port q

/-- The last thing queued on the line's port between s and t says `toks` under the line's tag, behind what was queued
before; an order's line counts as answered with `said`. -/
def Ended (s t : State) (l : Line) (said : Said) (toks : List Tok) : Prop :=
  match l.origin with
  | .order _ => t.orders.said = said
  | .port p => ∃ mid x, (t.port p).out = (s.port p).out ++ mid ++ [x] ∧ x.says = (l.tag, toks)

/-- A line queued on the port of `l` between s and t says `toks` under its tag, behind what was queued before, and only
lines of events follow it; an order's line counts as answered with `said`. -/
def Told (s t : State) (l : Line) (said : Said) (toks : List Tok) : Prop :=
  match l.origin with
  | .order _ => t.orders.said = said
  | .port p => ∃ mid x post, (t.port p).out = (s.port p).out ++ mid ++ x :: post ∧ x.says = (l.tag, toks) ∧
      ∀ y ∈ post, ∃ k, y.kind = .ev k

/-- Some line queued on the port of `l` between s and t says `toks` under its tag; an order's line counts as answered
OK. -/
def Said.By (s t : State) (l : Line) (toks : List Tok) : Prop :=
  match l.origin with
  | .order _ => True
  | .port p => ∃ mid x post, (t.port p).out = (s.port p).out ++ mid ++ x :: post ∧ x.says = (l.tag, toks)

/-! ## Events and tickets -/

/-- Event n, where the variant has it, has fired: its pending bit reads 1 (07_events R189). -/
def State.pends (s : State) (n : Nat) : Prop := s.eventPresent n = true → s.events.pend.getLsbD n = true

/-- Between s and t the line has been given ticket n on queue q for `op`: QUEUED, with the line's owner, tag and
arguments; no other ticket has changed, n is the last number issued, and `TK n` answers the line, with the line of
EV_POOL_LOW behind it where that fires (06_tickets R151, R152, R159, R185). -/
structure Issued (s t : State) (l : Line) (n : Nat) (q : Queue) (op : TicketOp) (startAt : Option Nat) : Prop where
  ticket : t.ticket? n = some { n := n, queue := q, owner := ownerOf l.origin, tag := l.tag, after := l.nat? "after",
                                due := (l.arg "due").bind (s.timeOf l), guard := guardOf l, startAt := startAt, op := op }
  others : ∀ m, m ≠ n → t.ticket? m = s.ticket? m
  last : t.tickets.last = some n
  reply : Told s t l (.ticket n) [w "TK", n' n]

/-- Ticket x, live in s, has completed in t with the result and fields given: a host's ticket is COMPLETE with that
result; another's is freed and its number keeps the result (06_tickets R153, R158, 21_orders R547). -/
def Completed (t : State) (x : Ticket) (r : Result) (fs : List Tok) (ed : BitVec 16) : Prop :=
  match x.owner with
  | .host _ => ∃ y, t.ticket? x.n = some y ∧ y.st = .complete ∧ y.result = some r ∧
      y.fields = fs ++ [kd "ed" ed.toNat]
  | _ => t.ticket? x.n = none ∧ (t.past? x.n).map (·.result) = some (some r)

/-! ## The shapes of the claims about lines -/

/-- A line with an error: the first one, in the order of R102, answers it, and it does nothing else. -/
def Refuses (c : Instr) (s : State) (f : Form) (l : Line) (es : List Er) : Prop :=
  ∀ e, s.listens l.origin = true → s.orders.checking = none → firstEr (s.formErs f l ++ es) = some e →
    exec c s = .next ((s.took l.origin).refuse l e)

/-- A line answered at once: accepted, it has the effect `act` and is answered with the lines given, taken from the state
once it has left its FIFO and has had its effect, and nothing else changes; with an error, it is refused. -/
def Answers (c : Instr) (s : State) (f : Form) (l : Line) (es : List Er) (multi : Bool) (act : State → State)
    (ls : State → List (List Tok)) (blk : Bool := false) : Prop :=
  (s.Accepts f l es → ∃ t, exec c s = .next t ∧ Answered s t l multi (ls (act (s.took l.origin))) blk ∧
    t.besideReply = (act (s.took l.origin)).besideReply) ∧ Refuses c s f l es

/-- A line answered at once whose effect may fire events: accepted, it has the effect `act`, its reply is the last line
queued, and nothing else changes; with an error, it is refused. -/
def AnswersLast (c : Instr) (s : State) (f : Form) (l : Line) (es : List Er) (act : State → State)
    (ts : State → List Tok) : Prop :=
  (s.Accepts f l es → ∃ t, exec c s = .next t ∧ Ended s t l .ok (ts (act (s.took l.origin))) ∧
    t.besideReply = (act (s.took l.origin)).besideReply) ∧ Refuses c s f l es

/-- A line whose claim is about the state it leaves: accepted, it leads to a state of which `post` holds; with an error,
it is refused. -/
def Does (c : Instr) (s : State) (f : Form) (l : Line) (es : List Er) (post : State → Prop) : Prop :=
  (s.Accepts f l es → ∃ t, exec c s = .next t ∧ post t) ∧ Refuses c s f l es

/-- The effect of a setting's line: the registers take their words, the unit's edition counts the change once where any
of them is one, and with save=YES the registers named go to the Record (05_register_file R122, 06_tickets R178). -/
def State.settings (s : State) (u : EdUnit) (new : List (CfgReg × Word)) (saved : List CfgReg) : State :=
  let s1 := if new.all (fun x => s.cfgGet x.1 == x.2) then s else (new.foldl (fun s x => s.cfgSet x.1 x.2) s).bump u
  if saved.isEmpty then s1 else s1.save saved

/-- The registers that a line's save=YES stores. -/
def saving (l : Line) (rs : List CfgReg) : List CfgReg := if l.save then rs else []

/-- A report: a line that is answered and changes nothing. -/
def Reports (c : Instr) (s : State) (f : Form) (l : Line) (es : List Er) (multi : Bool)
    (ls : State → List (List Tok)) : Prop :=
  Answers c s f l es multi id ls ∧ ∀ t, s.Accepts f l es → exec c s = .next t → t.besideReply = s.besideReply

/-- A line of the reply `OK …`. -/
def okLine (ts : List Tok) : List Tok := w "OK" :: ts

/-- A ticketed line: accepted, with the pool not refusing it, it gets the next number for `op`; with an error, it is
refused.  The errors `ss` of the unit's state count only without AFTER= (06_tickets R165). -/
def Issues (c : Instr) (s : State) (f : Form) (q : Queue) (l : Line) (es ss : List Er) (op : TicketOp) : Prop :=
  let all := es ++ (if l.has "after" then [] else ss) ++ erIf (s.noTicketFor (ownerOf l.origin)) ⟨"NOTICKET", []⟩
  (s.Accepts { f with ticketed := true } l all →
    ∃ n t, s.nextNumber = some n ∧ exec c s = .next t ∧ Issued s t l n q op none ∧ t.besideTickets = s.besideTickets) ∧
    Refuses c s { f with ticketed := true } l all

/-! ## Events -/

/-- A command that in state s leads to a state of which `post` holds. -/
def Leads (c : Instr) (s : State) (post : State → Prop) : Prop := ∃ t, exec c s = .next t ∧ post t

/-- What a reset of the cause given leaves (08_bringup Table 8.2): the cause reported and the hold; the Record, the Stacks
and the host scratch as they were; what the units take up from the Record's rows; the key slots, the trim selections and
the standing orders waiting for their stages; and every other unit, port, queue and edition as it begins. -/
structure ResetLeaves (s t : State) (cause : Cause) (hold : Hold) : Prop where
  taken : t.sys.cause = cause ∧ t.sys.hold = hold ∧ t.sys.stage = .power ∧ t.sys.alert = 0 ∧ t.sys.pendingReset = none
  record : t.part = s.part ∧ t.record = s.record
  shelves : t.store.shelf = s.store.shelf ∧ t.store.scratch = s.store.scratch ∧ t.store.carrels = []
  units : t.sys.bootCount = (countersOf (s.twinData 2)).boots ∧ t.pwr.borRun = (countersOf (s.twinData 2)).borRun ∧
    t.link.assoc = assocOf (s.twinData 8) ∧ t.link.cat = s.record.cat ∧ t.store.part = partOf (s.twinData 10) ∧
    t.ledger.tariffs = tariffsOf (s.twinData 18) ∧ t.ledger.journal = s.record.journal.map jrecOf ∧
    t.frame.fc = fcOf (s.twinData 20) ∧ t.vault.sealed = (octetAt (s.twinData 19) 0 == 0x5A) ∧
    t.vault.eraseMask = BitVec.ofNat 8 (octetAt (s.twinData 19) 1) ∧ t.tamper.log = s.record.tamperLog.map tamperEntryOf
  waiting : t.vault.slots = Vector.replicate 8 none ∧ t.orders.loaded = false ∧ t.trim = {}
  pads : t.pads.held = 0 ∧ t.pads.nrst = s.pads.nrst ∧ t.pads.wakeIn = s.pads.wakeIn ∧ t.pads.tamp = s.pads.tamp
  fresh : t.cfg = {} ∧ t.desk = {} ∧ t.dport = {} ∧ t.cport = {} ∧ t.chute = {} ∧ t.tickets = {} ∧ t.events = {} ∧
    t.porter = {} ∧ t.collate = {} ∧ t.radio = {} ∧ t.modem = {} ∧ t.census = {} ∧ t.noise = {} ∧ t.rows = [] ∧
    t.frame.rx = [] ∧ t.frame.tx = [] ∧ t.orders.run = none ∧ t.orders.pending = [] ∧ t.ed = Vector.replicate 22 0

/-- Of two causes present at once the one that is reported (08_bringup R209). -/
def Cause.first (a b : Cause) : Cause := if a.rank ≤ b.rank then a else b

/-- A command takes a reset of the cause given, of which `post` holds; one that comes in POWER before SCLK runs may be of
the cycle of the last reset, and then the first of the two causes is reported (log entry 78). -/
def Resets (c : Instr) (s : State) (cause : Cause) (hold : Hold) (post : State → Prop) : Prop :=
  Leads c s (fun t => ResetLeaves s t cause hold ∧ post t ∨
    s.unclocked = true ∧ ResetLeaves s t (cause.first s.sys.cause) hold)

/-! ## The Porter -/

/-- A run after k elements of its slip; none once the slip has ended. -/
def PRun.after (x : PRun) (sl : Slip) : Nat → Option PRun
  | 0 => some x
  | k + 1 => (x.after sl k).bind (fun y => y.advance sl)

/-! ## Register writes -/

/-- The rows of the command table that write registers, each with the registers it writes. -/
def writeRows (f : WriteForm) (l : Line) : List (Instr × WriteClass) :=
  [(.registerWrite f l, .plain), (.counterWrite f l, .counter), (.eventsPendWrite f l, .eventsPend),
   (.sysAlertClear f l, .sysAlert), (.carrelLostClear f l, .carrelLost), (.ordersDamagedClear f l, .ordersDamaged),
   (.deskConfigWrite f l, .desk), (.chuteConfigWrite f l, .chute), (.dormConfigWrite f l, .dorm),
   (.sysPadDriveWrite f l, .padDrive), (.pwrVbatWarnWrite f l, .vbatWarn), (.radioChanWrite f l, .radioChan),
   (.radioTxConfigWrite f l, .radioTx), (.radioPlanWrite f l, .radioPlan), (.modemConfigWrite f l, .modem),
   (.censusConfigWrite f l, .census), (.frameConfigWrite f l, .frame), (.frameFilterWrite f l, .filter),
   (.linkConfigWrite f l, .link), (.ticketsConfigWrite f l, .tickets), (.eventsMaskWrite f l, .masks),
   (.eventsAttnConfigWrite f l, .attnCfg), (.vaultConfigWrite f l, .vault), (.vaultFcWrite f l, .vaultFc),
   (.collateFeedWrite f l, .feed), (.collateCompareWrite f l, .compare), (.gpioOutWrite f l, .gpioOut),
   (.gpioConfigWrite f l, .gpio), (.tamperConfigWrite f l, .tamper)]

/-- The kind of the register that a write names. -/
def lineClass (f : WriteForm) (l : Line) : WriteClass := ((lineAddr f l).map writeClass).getD .plain

/-- The errors of a write. -/
def State.writeErs (s : State) (f : WriteForm) (l : Line) : List Er :=
  (match f with | .wr => s.wrErs l | .set => s.setErs l) ++
    (match s.writeOf f l with | some (r, v) => s.late (s.orderOnlyErs l.origin r v) | none => [])

/-- What an accepted write leaves: nothing where the address is reserved; else the register as it takes the word, its
read-only bits as they read.  A DESK_CONFIG taken from the Desk applies its mode to the lines that wait behind the writing
line; taken from elsewhere, its rate does not wait for a reply (04_desk R103, R106). -/
def State.written (s : State) (f : WriteForm) (l : Line) : State :=
  match s.writeOf f l with
  | none => s
  | some (r, v) =>
    let ro := r.mask (fun a => a == .ro)
    let t := r.apply ((v &&& ~~~ro) ||| (r.read s &&& ro)) s
    if r.addr = 0x2400 then (if l.origin = .port .desk then t.newMode (s.framed .desk) true else t.rateSoon) else t

/-- A register write: accepted, the register takes the word and the line is answered with the value as written; with an
error, it is refused (05_register_file R118, R122, R126). -/
def Writes (c : Instr) (s : State) (f : WriteForm) (l : Line) : Prop :=
  AnswersLast c s (writeForm f l) l (s.writeErs f l) (fun t => t.written f l) (fun _ => okLine (writeToks f l))

end Sys2Proof.Machine
end

