-- ==== Sys2Proof/Certificates/Slice0/Obligations.lean ====
section
/-! DEFINITION. The statements for the provers, from the numbered rules of spec/: the step, the lines by family, the events
by family. -/

open Sys2Proof Sys2Proof.Machine

/-! ## The step and the whole machine -/

/-- 01_node R12 and the queue: a step takes the command at the front of the queue and runs it on the rest. -/
def Obligations.StepRunsFrontCommand : Prop :=
  ∀ (s : State) (c : Instr) (rest : List Instr), s.pending = c :: rest → step s = exec c { s with pending := rest }

/-- With no command waiting one SCLK cycle passes (DESIGN CHOICE, log entry 1): where the clock runs the Daybook counts one
tick, a raw noise bit is sampled every 16 cycles in RAW, every closed chain of stages of the Collators moves on and the idle
time of an automatic entry is kept; nothing else changes, and nothing at all where the clock does not run. -/
def Obligations.IdleStepPassesOneCycle : Prop :=
  ∀ s : State, s.pending = [] → ∃ t, step s = .next t ∧
    (s.clocked = true → t.day.now = s.day.now + 1 ∧ t.day.cyc = s.day.cyc + 1 ∧
      t.noise = { s.noise with rawBits :=
        if s.noise.st = .raw ∧ (s.day.cyc + 1) % 16 = 0 then s.noise.rawBits.inc else s.noise.rawBits } ∧
      (t.pwr.idleSince = s.pwr.idleSince ∨ t.pwr.idleSince = s.day.cyc + 1) ∧
      t = { s with
        day := { s.day with now := t.day.now, cyc := t.day.cyc }
        collate := t.collate
        noise := t.noise
        pwr := { s.pwr with idleSince := t.pwr.idleSince } }) ∧
    (s.clocked = false → t = s)

/-- Every step answers a next state: no command of this block stops it. The step removes the command at the front of the
queue and adds none, and the part stays what it is. It rests in part on the model's own choices and readings, log entries 8
and 10. -/
def Obligations.EveryStepGoesOn : Prop :=
  ∀ s : State, ∃ t, step s = .next t ∧ t.pending = s.pending.tail ∧ t.part = s.part

/-- The addressed stores keep their canonical form: in a state where the cells of the host scratch, the Stacks and the
carrels stand in rising order with no entry equal to what an unlisted octet reads, they do so after any step. It rests in
part on the model's own choices and readings, log entry 3. -/
def Obligations.StoresStayCanonical : Prop :=
  ∀ s t : State, s.memWf = true → step s = .next t → t.memWf = true

/-- The part as it is before any supply: the stores are canonical and empty, no command waits, no ticket, order, key or
frame is held, and the power-on detector holds the part. It rests in part on the model's own choices and readings, log
entries 2, 4 and 5. -/
def Obligations.ResetStateHoldsNothing : Prop :=
  State.reset.memWf = true ∧ State.reset.pending = [] ∧ State.reset.tickets.pool = [] ∧
    (∀ k, State.reset.slot k = none) ∧ (∀ k, State.reset.slotKey k = none) ∧ State.reset.frame.rx = [] ∧
    State.reset.frame.tx = [] ∧ State.reset.sys.hold = .por ∧ State.reset.store.part = none

/-- No line acts on a port or an order from which none is taken: whatever the line's verb, the state stays as it was. It
rests in part on the model's own choices and readings, log entry 8. -/
def Obligations.NoLineActsUnheard : Prop :=
  ∀ (s : State) (c : Instr) (l : Line), c.line? = some l → s.listens l.origin = false → exec c s = .next s

/-! ## Lines answered at once: reports (04_desk R96, R97) -/

/-- The reports of the Desk, of identity and supply, of tickets and editions, of events, of the Daybook and its alarms:
accepted, each is answered with the lines given, read from the state once the line has left its FIFO, and changes nothing;
with an error, the first one in the order of R102 is its answer. It rests in part on the model's own choices and readings,
log entries 26, 30 and 66. -/
def Obligations.SystemReportsAnswer : Prop := ∀ (l : Line) (s : State),
  Reports (.help l) s { pos := [("verb", .name)], order := false } l
      (match l.posWord? 0, (l.posWord? 0).bind verbNamed with | some x, none => [⟨"UNKNOWN", [x]⟩] | _, _ => []) true
      (fun s => (match (l.posWord? 0).bind verbNamed with | some x => [x] | none => verbTable).map
        (fun v => okLine (s.helpToks v))) ∧
  Reports (.id l) s { noun := true, boot := true } l [] false (fun s => [okLine s.idToks]) ∧
  Reports (.idAll l) s { boot := true } l [] false (fun s => [okLine (s.idToks ++ [.kv "eui" (.hex 16 s.eui.toNat)])]) ∧
  Reports (.stat l) s { boot := true } l [] false (fun s => [okLine
      ([w "STAT", kw "stage" s.sys.stage.name, kw "cause" s.sys.cause.name, kw "role" (roleNames.getD s.role "NONE")] ++
        (if s.alertBits.any id then [.kv "alert" (.str s.alertText)] else []) ++ [edTok s .sys])]) ∧
  Reports (.pins l) s { pos := [("name", .name)] } l
      (match l.posWord? 0 with
        | none => []
        | some x => (match padNamed x with | none => [erRange "name"] | some p => s.padErs p))
      ((l.posWord? 0).bind padNamed).isNone
      (fun s => (match (l.posWord? 0).bind padNamed with
        | some p => [p]
        | none => digitalPads.filter (fun p => (s.padErs p).isEmpty)).map (fun p => okLine (s.pinToks p))) ∧
  Reports (.ticket l) s { pos := posN } l [] false (fun s => [okLine (match l.posNat? 0 with
      | some n => s.ticketLine n
      | none => [w "TICKET", kd "free" (512 - s.tickets.pool.length : Nat), kd "host" s.hostTickets,
          kd "order" s.orderTickets, kd "held" s.heldTickets, .kv "last" (noneOr s.tickets.last)])]) ∧
  Reports (.edition l) s { pos := [("unit", .any)] } l
      (match l.at? 0 with
        | some (.word x) => (match edUnitOf x with | none => [⟨"UNKNOWN", [x]⟩] | some u => s.unitAbsent u)
        | some _ => [erRange "unit"]
        | none => [])
      ((l.posWord? 0).bind edUnitOf).isNone
      (fun s => (match (l.posWord? 0).bind edUnitOf with
        | some u => [u]
        | none => EdUnit.all.filter (fun u => (s.unitAbsent u).isEmpty)).map
          (fun (u : EdUnit) => okLine [w "EDITION", kd u.name (s.edition u).toNat])) ∧
  Reports (.event l) s { pos := [("event", .any)] } l (s.eventErs "event" (l.at? 0)) ((l.at? 0).bind eventOf).isNone
      (fun s => (match (l.at? 0).bind eventOf with
        | some n => [s.eventLine n]
        | none => [w "EVENT", kd "pending" s.pendingList.length, kw "attn" (attnWord s.events.attn),
            .kv "last" (noneOr s.events.last), edTok s .events] :: s.pendingList.map s.eventLine).map okLine) ∧
  Reports (.day l) s { noun := true } l [] false (fun s => [okLine [w "DAY", .w (.time s.now)]]) ∧
  Reports (.dayStatus l) s {} l [] false (fun s => [okLine
      [w "DAY", .w (.time s.now), kd "ticks" s.now, kw "cont" (yesNo s.day.cont), kd "slew" s.day.slew,
       kd "offset" (if s.isEnd then s.day.offset else 0), kd "rate" (if s.isEnd then s.day.rate else 0),
       .kv "uncert" (noneOr s.uncert), .kv "guard" (noneOr s.guardUs), edTok s .daybook]]) ∧
  Reports (.alarmReport l) s { pos := [("a", .int 0 3)], keys := alarmKeys } l (erIf (!l.named.isEmpty) erMissing)
      (l.posNat? 0).isNone
      (fun s => (match l.posNat? 0 with | some a => [a] | none => List.range 4).map (fun a => okLine (s.alarmToks a none)))

/-- PWR, and the register file's reads: RD with one line a register, GET with the value of a register or field
(05_register_file R116, R120, R121, R125, R140). It rests in part on the model's own choices and readings, log entries 33,
34 and 66. -/
def Obligations.RegisterReadsAnswer : Prop := ∀ (l : Line) (s : State),
  Reports (.rd l) s { minPos := 1, pos := [("address", .int 0 0x27FF)], keys := [("n", .int 1 16)] } l
      (addrErs ((l.posNat? 0).getD 0) ++
        (if (addrErs ((l.posNat? 0).getD 0)).isEmpty then
          ((rdAddrs ((l.posNat? 0).getD 0) (min ((l.nat? "n").getD 1) 128)).filter
              (fun x => x / 0x200 == (l.posNat? 0).getD 0 / 0x200)).flatMap s.addrAbsent ++
            erIf (decide (((l.posNat? 0).getD 0 + 4 * ((l.nat? "n").getD 1 - 1)) / 0x200 ≠ (l.posNat? 0).getD 0 / 0x200) ||
              ((l.posNat? 0).getD 0 == 0x0404 && decide (2 ≤ (l.nat? "n").getD 1))) (erRange "n")
        else [])) true
      (fun s => (rdAddrs ((l.posNat? 0).getD 0) ((l.nat? "n").getD 1)).map (fun x =>
        okLine [w "RD", .w (.hex 4 x), .w (.hex 8 (s.readAt x).toNat)])) ∧
  Reports (.get l) s { minPos := 1, pos := [("register", .name)] } l
      (match l.at? 0 with
        | none => []
        | some (.word _) => s.getErs ((l.posWord? 0).getD "")
        | some _ => [erRange "register"]) false
      (fun s => [okLine [w "GET", s.getTok ((l.posWord? 0).getD "")]]) ∧
  (l.pos = [] ∧ l.named = [] → Reports (.pwr l) s {} l [] false (fun s => [okLine s.pwrToks]))

/-- The reports of the radio, the census, the Catalogue and the Ledger, of TRIM, NOISE and the Vault. It rests in part on
the model's own choices and readings, log entries 6, 26 and 66. -/
def Obligations.UnitReportsAnswer : Prop := ∀ (l : Line) (s : State),
  Reports (.rxStatus l) s {} l [] false (fun s => [okLine
      [w "RX", kw "state" s.radio.st.name, kd "chan" s.radio.chan, kd "plan" s.radio.plan,
       .kv "rssi" (dbm s.radio.rssiNow), kd "gain" s.gainNow, edTok s .radio]]) ∧
  Reports (.censusLevels l) s { feat := some .census } l [] true (fun s =>
      ([w "CENSUS", w "LEVELS", .kv "at" (.time s.census.at_.toNat), edTok s .census] ::
        (List.range 16).map (fun k => [w "CENSUS", w "LEVEL", n' k, kd "chan" (s.spanBase + k),
          .kv "level" (dbm (vget s.census.levels k 0)),
          kw "flag" (if s.census.stale then "STALE" else if s.census.held then "HELD" else "FRESH")])).map okLine) ∧
  Reports (.cat l) s { feat := some .parent, pos := catPos } l
      (s.needRole 2 ++ s.late (erIf (!l.pos.isEmpty && (s.lineEntry l).isNone) (erRange "short"))) true
      (fun s => (s.catToks :: (match s.lineEntry l with
        | some e => [e]
        | none => (s.link.cat.filter (fun (e : CatEntry) => e.valid || e.prov)).insertionSort
            (fun a b => a.short.toNat ≤ b.short.toNat)).map s.entryToks).map okLine) ∧
  Reports (.tariffReport l) s { order := false, pos := tariffPos, keys := tariffKeys } l (erIf (!l.named.isEmpty) erMissing)
      (l.posNat? 0).isNone
      (fun s => (match l.posNat? 0 with | some t => [t] | none => List.range 8).map (fun t => okLine (s.tariffToks t))) ∧
  Reports (.trimStatus l) s { noun := true } l [] true (fun s =>
      ([w "TRIM", kw "state" (if s.trim.run.isSome then "RUNNING" else "IDLE"),
        kw "item" (match s.trim.run with | some x => itemName x.item | none => "NONE"), edTok s .trim] ::
        s.trimLines).map okLine) ∧
  Reports (.noise l) s { noun := true } l [] false (fun s => [okLine
      ([w "NOISE", kw "state" s.noise.st.name, kw "grade_a" (if s.has .vault then onOff s.gradeA else "ABSENT"),
        kw "grade_b" (onOff (decide (s.noise.st = .ready)))] ++
        (if s.has .vault then [kd "since_reseed" s.noise.requests, kd "reseeds" s.noise.reseeds.val.toNat] else []) ++
        [kd "rct_max" s.noise.rctMax, kd "apt_max" s.noise.aptMax, edTok s .noise])]) ∧
  Reports (.vault l) s { noun := true, feat := some .vault } l [] true (fun s =>
      ([w "VAULT", kw "state" (sealName s.vault.sealed), .kv "slots" (.hex 2 s.slotsMask),
        .kv "erase" (.hex 2 s.vault.eraseMask.toNat), edTok s .vault] ::
        (List.range 8).filterMap (fun k => (s.slotKey k).map (fun x =>
          [w "VAULT", w "SLOT", n' k, w "VALID", .kv "kcv" (.hex 6 (kcv x)),
           kw "erase" (onOff (s.vault.eraseMask.getLsbD k))]))).map okLine)

/-- The reports of the stores, the Porter, the Collators, the standing orders and the tamper log. It rests in part on the
model's own choices and readings, log entries 3, 41, 56 and 66. -/
def Obligations.StoreReportsAnswer : Prop := ∀ (l : Line) (s : State),
  Reports (.recordRead l) s { minPos := 1, pos := [("off", .int 0 8191)], keys := readKeys } l
      (spanErs ((l.posNat? 0).getD 0) (count16 l) 8192 "n") false
      (fun s => [okLine [w "RECORD", n' ((l.posNat? 0).getD 0),
        .w (.octets (cellsReadAll s.store.scratch ((l.posNat? 0).getD 0) (count16 l)))]]) ∧
  Reports (.carrel l) s { noun := true } l [] false (fun s => [okLine
      [w "CARREL", .kv "powered" (.hex 2 (s.pwr.powered ||| 1).toNat), .kv "lost" (.hex 2 s.pwr.lost.toNat),
       .kv "retain" (.hex 2 (fld s.cfg.sys.dorm 15 8))]]) ∧
  Reports (.stacks l) s { noun := true, feat := some .stacks } l [] false (fun s => [okLine
      [w "STACKS", kw "part" (yesNo s.store.part.isSome), kd "archive" s.archKib,
       kd "pmax" ((s.store.part.map (·.pmax)).getD 0 : Nat), kd "slot" ((s.store.part.map Part19.slot).getD 0 : Nat),
       kd "capacity" ((s.store.part.map Part19.capacity).getD 0 : Nat),
       kw "policy" (policyName ((s.store.part.map (·.refuse)).getD false)),
       kd "free" ((s.stacksSize - s.freeBase) / 1024 : Nat), edTok s .stacks]]) ∧
  Reports (.arch l) s { noun := true, feat := some .stacks } l [] false (fun s => [okLine
      [w "ARCH", kd "first" s.archFirst, kd "next" s.archNext,
       kd "count" s.archCount, edTok s .stacks]]) ∧
  Reports (.porter l) s { pos := chanPos } l (s.chanAbsent ((l.posNat? 0).getD 0)) (l.posNat? 0).isNone
      (fun s => (match l.posNat? 0 with | some n => [n] | none => List.range (if s.has .porter4 then 4 else 2)).map
        (fun n => okLine (s.chanToks n))) ∧
  Reports (.collate l) s { pos := colPos } l (s.colAbsent ((l.posNat? 0).getD 0)) (l.posNat? 0).isNone
      (fun s => (match l.posNat? 0 with | some n => [n] | none => List.range s.colCount).map
        (fun n => okLine (s.colToks n))) ∧
  Reports (.orderList l) s {} l [] true (fun s =>
      (if ((List.range 32).filterMap (fun k => (s.slot k).map (s.orderToks k))).isEmpty then [[w "ORDER", w "LIST", n' 0]]
        else (List.range 32).filterMap (fun k => (s.slot k).map (s.orderToks k))).map okLine) ∧
  (∀ x, s.slot (lineOrder l) = some x → Reports (.orderShow l) s { minPos := 1, pos := orderPos } l (s.emptyErs l) true (fun s =>
      ((s.orderToks (lineOrder l) x ++ [kw "policy" (if x.cont then "CONTINUE" else "STOP"), kd "retries" x.retries,
          kd "limit" x.limitMs, kw "enabled" (yesNo x.enabled),
          .kv "next" (match vget s.orders.next (lineOrder l) none with | some t => .time t | none => .word "NONE")]) ::
        x.lines.zipIdx.map (fun y => [w "ORDER", w "LINE", n' y.2, .w (.str y.1)])).map okLine)) ∧
  (s.slot (lineOrder l) = none → Refuses (.orderShow l) s { minPos := 1, pos := orderPos } l (s.emptyErs l)) ∧
  Reports (.tamper l) s { noun := true } l [] false (fun s => [okLine s.tamperToks]) ∧
  Reports (.tamperLog l) s { keys := [("n", .int 1 32)] } l [] true (fun s =>
      (if (s.logEntries ((l.nat? "n").getD 8)).isEmpty then [[w "TAMPER", w "LOG", w "NONE"]]
        else (s.logEntries ((l.nat? "n").getD 8)).map (fun e => [w "TAMPER", w "LOG", n' e.seq, .kv "at" (.time e.at_),
          kw "src" (srcText (BitVec.ofNat 2 e.source)), kw "ctx" (ctxName e.ctx),
          .kv "erased" (.hex 2 e.erased.toNat)])).map okLine)

/-! ## Lines answered at once: settings (05_register_file R122, 06_tickets R178) -/

/-- CHAN, CCA, TX, PROFILE, FRAME, FILTER: accepted, the line's keys go to their fields and the others stay, the unit's
edition counts a change once, save=YES stores the unit's registers, and the reply reports what then holds; with an error,
the line is refused. It rests in part on the model's own choices and readings, log entries 26, 35 and 46. -/
def Obligations.RadioSettingsTakeEffect : Prop := ∀ (l : Line) (s : State),
  (let c := (l.posNat? 0).getD s.opChan
   Answers (.chan l) s { pos := [("c", .any)], keys := [("plan", .any), saveKey] } l
      (erIf (l.pos.isEmpty && l.sets) erMissing ++
        (match l.at? 0 with
          | some (.int v) => erIf (decide (v < 0)) (erRange "c")
          | some _ => [erRange "c"]
          | none => []) ++
        (if l.pos.isEmpty then [] else
          (match l.arg "plan" with
            | some (.int v) => erIf (!inRange 0 3 v) (erRange "plan")
            | some _ => [erRange "plan"]
            | none => []) ++
          s.late (match s.planAt (s.linePlan l) with
            | none => [erRange "plan"]
            | some x => erIf (!decide (c < x.count)) (erRange "c")))) false
      (fun t => t.settings .radio (if l.pos.isEmpty then [] else [(.chan, BitVec.ofNat 32 (s.linePlan l * 4096 + c))])
        (saving l [.chan]))
      (fun t => [okLine [w "CHAN", n' t.opChan, kd "plan" t.opPlan, kd "freq" (synthFreq (synthWord (t.chanFreq t.opPlan t.opChan))),
        .kv "word" (.hex 8 (synthWord (t.chanFreq t.opPlan t.opChan))), edTok t .radio]])) ∧
  (let mode := match l.word? "mode" with | some x => ccaModes.idxOf x | none => s.ccaMode
   let listen := (l.nat? "listen").getD (fld s.cfg.radio.ccaConfig 31 16)
   Answers (.ccaSettings l) s { noun := true, keys := [("mode", .word ccaModes), ("thr", .half (-260) (-80)),
        ("listen", .int 500 65535), saveKey] } l [] false
      (fun t => t.settings .radio [(.ccaConfig, BitVec.ofNat 32 (listen * 65536 + mode)),
        (.ccaThr, BitVec.ofNat 32 (unsigned 16 ((l.half? "thr").getD s.ccaThr)))] (saving l [.ccaConfig, .ccaThr]))
      (fun t => [okLine [w "CCA", kw "mode" (ccaModes.getD mode ""), .kv "thr" (dbm t.ccaThr),
        kd "listen" (fld (BitVec.ofNat 32 (listen * 65536 + mode)) 31 16), edTok t .radio]])) ∧
  (let c := s.cfg.radio.txConfig
   let hp := match l.word? "port" with | some x => x == "HP" | none => bit c 12
   let level := (l.int? "level").getD s.txLevel
   let ramp := match l.nat? "ramp" with | some v => rampUs.idxOf v | none => fld c 10 8
   let en := (l.on? "pa_en").getD (bit c 13)
   let v : Word := BitVec.ofNat 32 ((l.nat? "pa_lead").getD (fld c 23 16) * 65536 + b2n en * 8192 + b2n hp * 4096 +
     ramp * 256 + unsigned 8 level)
   Answers (.txSettings l) s { noun := true, keys := [("port", .word ["AUTO", "HP"]), ("level", .any),
        ("ramp", .oneOf [10, 20, 40, 80, 160]), ("pa_en", .word ["ON", "OFF"]), ("pa_lead", .int 0 255), saveKey] } l
      ((if l.has "port" || l.has "level" then
          (match l.arg "level" with
            | none => []
            | some (.int _) => []
            | some _ => [erRange "level"]) ++
          (if l.has "port" && l.has "level" then s.levelErs hp level "level"
           else erIf (l.word? "port" == some "HP" && !s.has .paHp) (erAbsent .paHp) ++
             (if l.has "level" then erIf (decide (14 < level) && !s.has .paHp) (erAbsent .paHp) ++
                erIf (!inRange (-10) 22 level) (erRange "level") else []) ++ s.late (s.levelErs hp level "level"))
        else []) ++ erIf (l.sets && decide (s.radio.st = .transmit)) (erState "RADIO" "TRANSMIT")) false
      (fun t => t.settings .radio [(.txConfig, v)] (saving l [.txConfig]))
      (fun t => [okLine [w "TX", kw "port" (if hp then "HP" else "AUTO"), kd "level" t.txLevel, kd "ramp" (rampUs.getD ramp 40),
        kw "pa_en" (onOff en), kd "pa_lead" (fld v 23 16), edTok t .radio]])) ∧
  (let named := (l.posWord? 0).bind (fun x => profiles.find? (fun p => p.name == x))
   let c := s.cfg.modem
   Answers (.profile l) s { pos := [("profile", .name)], keys := [("preamble", .int 4 64), ("whiten", .word ["ON", "OFF"]),
        ("s_err", .int 0 3), ("m_err", .int 0 3), ("d_err", .int 0 7), ("wake_err", .int 0 7), saveKey] } l
      (erIf (!l.pos.isEmpty && named.isNone) (erRange "profile") ++
        (if l.has "d_err" || (match named with | some p => decide (6 ≤ p.code) | none => false) then s.needs .deep
         else []) ++
        erIf ((l.sets || !l.pos.isEmpty) && decide (s.radio.st ≠ .idle)) (erState "MODEM" s.radio.st.name)) false
      (fun t => t.settings .modem
        [(.profile, BitVec.ofNat 32 ((l.nat? "preamble").getD (fld c.profile 23 16) * 65536 +
            b2n ((l.on? "whiten").getD (bit c.profile 8)) * 256 + (named.map (·.code)).getD (fld c.profile 3 0))),
         (.sync, BitVec.ofNat 32 ((l.nat? "wake_err").getD (fld c.sync 10 8) * 256 +
            (l.nat? "m_err").getD (fld c.sync 3 2) * 4 + (l.nat? "s_err").getD (fld c.sync 1 0))),
         (.deep, BitVec.ofNat 32 ((l.nat? "d_err").getD (fld c.deep 2 0)))] (saving l [.profile, .sync, .deep]))
      (fun t => [okLine t.profileToks])) ∧
  (let f4 := match l.nat? "fcs" with | some x => x == 4 | none => s.fcs4
   let enh := match l.word? "ack" with | some x => x == "ENH" | none => s.enhAck
   let auto := (l.on? "auto").getD s.autoAck
   let wait := (l.nat? "wait").getD (fld s.cfg.frame.config 31 16)
   Answers (.frameSettings l) s { noun := true, keys := [("fcs", .oneOf [2, 4]), ("ack", .word ["IMM", "ENH"]),
        ("auto", .word ["ON", "OFF"]), ("wait", .int 500 20000), saveKey] } l (if l.sets then s.frameStateErs else []) false
      (fun t => t.settings .frame [(.frame, BitVec.ofNat 32 (wait * 65536 + b2n auto * 8 + b2n enh * 4 + b2n f4 * 2))]
        (saving l [.frame]))
      (fun t => [okLine [w "FRAME", kd "rx" t.frame.rx.length, kd "rx_free" t.rxFree, kd "tx" t.frame.tx.length,
        kd "tx_free" t.txFree, kd "stage" t.frame.stage.length, kd "fcs" (fcsLen f4), kw "ack" (if enh then "ENH" else "IMM"),
        kw "auto" (onOff auto), kd "wait" wait, edTok t .frame]])) ∧
  (let c := s.cfg.frame.filter
   let m := match l.word? "m_accept" with | some x => x == "ALL" | none => bit c 17
   let p := (l.on? "promisc").getD (bit c 16)
   let v : Word := BitVec.ofNat 32 (b2n m * 131072 + b2n p * 65536 + (l.nat? "pan").getD (fld c 15 0))
   let a : Word := BitVec.ofNat 32 ((l.nat? "short").getD (fld s.cfg.frame.addr 15 0))
   Answers (.filter l) s { noun := true, keys := [("pan", .int 0 65535), ("short", .int 0 65535),
        ("promisc", .word ["ON", "OFF"]), ("m_accept", .word ["ALL", "NONE"]), saveKey] } l
      (if l.has "pan" || l.has "short" then s.addrStateErs else []) false
      (fun t => t.settings .frame [(.filter, v), (.addr, a)] (saving l [.filter, .addr]))
      (fun t => [okLine [w "FILTER", .kv "pan" (.hex 4 (fld v 15 0)), .kv "short" (.hex 4 a.toNat), kw "promisc" (onOff p),
        kw "m_accept" (if m then "ALL" else "NONE"), edTok t .frame]]))

/-- DORM, EVENT ATTN, LEDGER, SSW and DAY SLEW, likewise. It rests in part on the model's own choices and readings, log
entries 26, 35, 44 and 63. -/
def Obligations.SystemSettingsTakeEffect : Prop := ∀ (l : Line) (s : State),
  (let c := s.cfg.sys.dorm
   let on : Kind := .word ["ON", "OFF"]
   let wi := match l.word? "wake_in" with | some x => wakeInWords.idxOf x | none => fld c 7 6
   Answers (.dorm l) s { noun := true, keys := [("auto", on), ("idle", .int 0 65535), ("retain", .int 0 255), ("desk_wake", on),
        ("chute_wake", on), ("wake_in", .word wakeInWords), saveKey] } l
      (erIf (match l.int? "retain" with | some v => v % 2 == 0 | none => false) (erRange "retain") ++
        (if l.on? "chute_wake" == some true then s.needs .chute else []) ++ (if l.sets then s.late s.entryErs else [])) false
      (fun t => t.settings .pwr [(.dorm, BitVec.ofNat 32 ((l.nat? "idle").getD (fld c 31 16) * 65536 +
          (l.nat? "retain").getD (fld c 15 8) * 256 + wi * 64 + b2n ((l.on? "chute_wake").getD (bit c 5)) * 32 +
          b2n ((l.on? "desk_wake").getD (bit c 4)) * 16 + b2n ((l.on? "auto").getD (bit c 0))))] (saving l [.dorm]))
      (fun t => [okLine t.dormToks])) ∧
  (let c := s.cfg.events.attnCfg
   let d := match l.word? "drive" with | some x => if x == "PP" then 1 else 0 | none => fld c 0 0
   let v : Word := BitVec.ofNat 32 ((l.nat? "min").getD (fld c 15 8) * 256 + d)
   Answers (.eventAttn l) s { order := false, keys := [("drive", .word ["OD", "PP"]), ("min", .int 0 255)] } l [] false
      (fun t => t.settings .events [(.attnCfg, v)] [])
      (fun t => [okLine [w "EVENT", w "ATTN", kw "drive" (if d = 1 then "PP" else "OD"), kd "min" (fld v 15 8),
        kw "level" (attnWord t.events.attn), edTok t .events]])) ∧
  Answers (.ledger l) s { noun := true, keys := [("low", .int 0 100), saveKey] } l
      (erIf (l.has "low" && (match l.origin with | .order _ => true | .port _ => false)) ⟨"DENIED", ["ORDER"]⟩) false
      (fun t => t.settings .ledger (match l.nat? "low" with | none => [] | some p => [(.ledger, BitVec.ofNat 32 p)])
        (saving l [.ledger]))
      (fun t => [okLine t.ledgerToks]) ∧
  Answers (.ssw l) s { noun := true, feat := some .ssw, keys := [("soft", .any), saveKey] } l
      ((match l.arg "soft" with | some a => erIf (softOf a).isNone (erRange "soft") | none => []) ++
        erIf (l.sets && decide (s.ssw.st = .ramp)) (erState "SSW" "RAMP")) false
      (fun t => t.settings .ssw (match (l.arg "soft").bind softOf with | some c => [(.ssw, BitVec.ofNat 32 c)] | none => [])
        (saving l [.ssw]))
      (fun t => [okLine [w "SSW", w t.ssw.st.name, kw "soft" (softText.getD (fld t.cfg.pins.ssw 1 0) ""),
        kw "fault" (causeName t.ssw.cause), edTok t .ssw]]) ∧
  (let r := s.day.slew + (l.posInt? 0).getD 0
   Answers (.daySlew l) s { minPos := 1, pos := [("slew", .int (-(2 ^ 31)) (2 ^ 31 - 1))] } l
      (erIf (!inRange (-(2 ^ 31)) (2 ^ 31 - 1) r) (erRange "slew")) false
      (fun t => State.bump { t with day := { t.day with slew := r } } .daybook)
      (fun t => [okLine [w "DAY", w "SLEW", kd "remain" r, edTok t .daybook]]))

/-- DESK, EVENT MASK, BAND, CENSUS with WATCH and OFF: the settings that bring more with them (a rate that waits for its
reply, ATTN, the readings held). It rests in part on the model's own choices and readings, log entries 26, 31, 35 and 47. -/
def Obligations.BandAndCensusSettingsTakeEffect : Prop := ∀ (l : Line) (s : State),
  Answers (.desk l) s { noun := true, order := false, keys := [("baud", .oneOf (deskRates.map Int.ofNat)), saveKey] } l [] false
      (fun t =>
        let t1 := match l.nat? "baud" with
          | none => t
          | some b => (t.newRate (deskRates.idxOf b)).putDesk (setFld t.cfg.desk.desk 3 0 (deskRates.idxOf b))
        if l.save then t1.saveDesk else t1)
      (fun t => [okLine [w "DESK", kd "baud" (deskRates.getD (fld t.cfg.desk.desk 3 0) 0),
        kd "stored" (deskRates.getD (if l.save then fld t.cfg.desk.desk 3 0 else fld (t.storedGet .desk) 3 0) 0),
        kw "autobaud" (yesNo t.desk.autobaud), edTok t .desk]]) ∧
  (∀ n, (l.at? 0).bind eventOf = some n →
    Answers (.eventMask l) s
      { minPos := 1, pos := [("event", .any)],
        keys := [("attn", .int 0 1), ("line", .int 0 1), ("wake", .int 0 1)] } l
      (s.eventErs "event" (l.at? 0) ++ erIf l.named.isEmpty erMissing) false
      (fun t => t.setMasks (maskBit t.cfg.events.attn n (l.nat? "attn")) (maskBit t.cfg.events.line n (l.nat? "line"))
        (maskBit t.cfg.events.wake n (l.nat? "wake")))
      (fun t => [okLine (t.eventLine n)])) ∧
  Answers (.bandReport l) s { order := false, pos := bandPos, keys := bandKeys } l
      (erIf (l.named.any (fun a => a.1 != "save")) erMissing) (l.posNat? 0).isNone
      (fun t => if l.save then t.save planRegs4 else t)
      (fun t => (match l.posNat? 0 with | some p => [p] | none => List.range 4).map (fun p => okLine (t.planToks p))) ∧
  (let p := (l.posNat? 0).getD 4
   let new := linePlanNew (s.planAt p) l
   let full := decide (3 < p) || (s.planAt p).isSome || (l.has "base" && l.has "spacing" && l.has "count")
   Answers (.bandSet l) s { order := false, minPos := 1, pos := bandPos, keys := bandKeys } l
      (erIf (!full) erMissing ++ erIf (full && !new.fits) (erRange "base") ++ s.planStateErs p) false
      (fun t => let t1 := t.putPlan p (BitVec.ofNat 32 new.base) new.ctrl
        if l.save then t1.save planRegs4 else t1)
      (fun t => [okLine (t.planToks p)]) ∧
   Answers (.bandClear l) s { order := false, minPos := 1, pos := bandPos, keys := bandKeys } l
      (erIf (!l.named.isEmpty) erExtra ++ s.planStateErs p) false (fun t => t.putPlan p 0 0)
      (fun t => [okLine (t.planToks p)])) ∧
  (let c := s.cfg.census
   let p := (l.nat? "plan").getD s.spanPlan
   let b := (l.nat? "base").getD s.spanBase
   let moved := p != s.spanPlan || b != s.spanBase
   let gate := match l.arg "gate" with
     | some (.word _) => 0x8000
     | some _ => unsigned 16 ((l.half? "gate").getD 0)
     | none => fld c.thresh 31 16
   let thr := ((l.half? "thr").map (unsigned 16)).getD (fld c.thresh 15 0)
   let new (on : Bool) : CensusCfg :=
     { config := BitVec.ofNat 32 (b2n on * 2 ^ 31 + b2n ((l.on? "hop").getD s.hopOn) * 65536 + p * 4096 + b),
       allow := BitVec.ofNat 32 ((l.nat? "allow").getD (fld c.allow 15 0)),
       thresh := BitVec.ofNat 32 (gate * 65536 + thr),
       hold := BitVec.ofNat 32 ((l.nat? "hold").getD (fld c.hold 15 0)) }
   let es (on : Bool) := s.late (if l.has "plan" || l.has "base" || (on && !s.watching) then s.spanErs p b "plan" "base"
       else []) ++
     erIf (s.watching && moved) (erState "CENSUS" "WATCH")
   let act (on : Bool) (t : State) : State :=
     let t1 := t.setCensus (new on)
     if l.save then t1.save censusRegs4 else t1
   Answers (.censusSettings l) s { noun := true, feat := some .census, keys := censusKeys } l (es s.watching) false
      (act s.watching) (fun t => [okLine t.censusToks]) ∧
   Answers (.censusWatch l) s { feat := some .census, keys := censusKeys } l (es true) false (act true)
      (fun t => [okLine t.censusToks]) ∧
   Answers (.censusOff l) s { feat := some .census, keys := censusKeys } l (es false) false (act false)
      (fun t => [okLine t.censusToks]))

/-- LINK, LINK SCHED, CAT POOL, TAMPER, GPIO and VAULT FLAGS: the settings of the link and of the pins. It rests in part on
the model's own choices and readings, log entries 26, 35, 39, 49 and 64. -/
def Obligations.LinkAndPinSettingsTakeEffect : Prop := ∀ (l : Line) (s : State),
  (let c := s.cfg.link
   let minBe := (l.nat? "min_be").getD s.linkMinBe
   let maxBe := (l.nat? "max_be").getD s.linkMaxBe
   let role := match l.word? "role" with | some x => roleNames.idxOf x | none => s.role
   let v : Word := BitVec.ofNat 32 (fld c.config 20 18 * 2 ^ 18 + role * 65536 +
     b2n ((l.on? "hop").getD s.partnerHop) * 32768 + (l.nat? "backoffs").getD s.maxBackoffs * 4096 + maxBe * 256 +
     minBe * 16 + (l.nat? "retries").getD s.linkRetries)
   let ti : Word := BitVec.ofNat 32 ((l.nat? "unit").getD (fld c.timing 31 16) * 65536 +
     (l.nat? "poll_win").getD (fld c.timing 15 0))
   let wa : Word := BitVec.ofNat 32 ((l.nat? "lead").getD (fld c.wait_ 31 16) * 65536 +
     (l.nat? "resp").getD (fld c.wait_ 15 0))
   AnswersLast (.linkSettings l) s { noun := true, keys := linkKeys } l
      ((if l.has "min_be" && l.has "max_be" then id else s.late)
          (erIf (decide (maxBe < minBe)) (erRange (if l.has "min_be" then "min_be" else "max_be"))) ++
        (if l.has "role" then s.roleErs role else []) ++ (if l.has "hop" then s.needs .census else []))
      (fun t =>
        let t1 := (t.cfgSet .timing ti).cfgSet .wait wa
        let t2 := if c.config = v then (if c.timing = ti ∧ c.wait_ = wa then t1 else t1.bump .link) else t1.putLink v
        if l.save then t2.save linkCfgRegs else t2)
      (fun t => okLine t.linkToks)) ∧
  (let c := s.cfg.link
   let pe := (l.nat? "poll_every").getD c.pollEvery.toNat
   let pp := (l.nat? "poll_phase").getD c.pollPhase.toNat
   let se := (l.nat? "sniff_every").getD c.sniffEvery.toNat
   let sp := (l.nat? "sniff_phase").getD c.sniffPhase.toNat
   let k : Kind := .int 0 4294967295
   let n : LinkCfg := { c with pollEvery := BitVec.ofNat 32 pe, pollPhase := BitVec.ofNat 32 pp,
                               sniffEvery := BitVec.ofNat 32 se, sniffPhase := BitVec.ofNat 32 sp }
   Answers (.linkSched l) s { keys := [("poll_every", k), ("poll_phase", k), ("sniff_every", k), ("sniff_phase", k), saveKey] } l
      ((if l.has "poll_every" && l.has "poll_phase" then id else s.late) (phaseErs pe pp "poll_phase") ++
        (if l.has "sniff_every" && l.has "sniff_phase" then id else s.late) (phaseErs se sp "sniff_phase") ++ s.needRole 1) false
      (fun t =>
        let t1 := if c = n then t else (State.bump { t with cfg := { t.cfg with link := n } } .link).schedPoll
        if l.save then t1.save [.pollEvery, .pollPhase, .sniffEvery, .sniffPhase] else t1)
      (fun t => [okLine [w "LINK", w "SCHED", kd "poll_every" pe, kd "poll_phase" pp, kd "sniff_every" se, kd "sniff_phase" sp,
        edTok t .link]])) ∧
  (let c := s.cfg.link
   let lo := (l.nat? "lo").getD s.poolLo
   let hi := (l.nat? "hi").getD s.poolHi
   let p : Word := BitVec.ofNat 32 (hi * 65536 + lo)
   let ad := match l.word? admitKey with | some x => admitNames.idxOf x | none => s.admitMode
   let v : Word := BitVec.ofNat 32 ((l.nat? "indirect").getD (fld c.catConfig 31 16) * 65536 +
     (l.nat? "exch").getD (fld c.catConfig 15 4) * 16 + ad)
   AnswersLast (.catPool l) s { feat := some .parent, order := false, keys := [("lo", .int 0 65535), ("hi", .int 0 65535),
        (admitKey, .word admitNames), ("exch", .int 5 1000), ("indirect", .int 1 65535)] } l
      ((if l.has "lo" || l.has "hi" then s.poolErs lo hi "pool" else []) ++ s.needRole 2)
      (fun t => if c.pool = p ∧ c.catConfig = v then t else (((t.cfgSet .pool p).cfgSet .catConfig v).bump .link).poolCheck)
      (fun t => okLine t.catToks)) ∧
  (let c := s.cfg.pins.tamper
   let onOffKey : Kind := .word ["ON", "OFF"]
   let mode := match l.word? "mode" with | some x => modeNames.idxOf x | none => fld c 1 0
   let low := match l.word? "polarity" with | some x => x == "LOW" | none => bit c 2
   let v : Word := BitVec.ofNat 32 (b2n ((l.on? "lockout").getD (bit c 8)) * 256 + b2n ((l.on? "dip").getD (bit c 4)) * 16 +
     b2n low * 4 + mode)
   Answers (.tamperSettings l) s { noun := true, order := false, keys := [("mode", .word modeNames),
        ("polarity", .word ["HIGH", "LOW"]), ("dip", onOffKey), ("lockout", onOffKey), saveKey] } l
      ((if l.has "lockout" then s.needs .vault else []) ++ (if l.sets then s.tamperLatchedErs else [])) false
      (fun t => let t1 := t.setTamper v
        if l.save then t1.save [.tamper] else t1)
      (fun t => [okLine t.tamperToks])) ∧
  (let n := (l.posNat? 0).getD 0
   let v := lineGpio l (s.gpioCfg n)
   let out := match l.word? "level" with
     | some x => putBit s.cfg.pins.gpioOut n (x == "H")
     | none => s.cfg.pins.gpioOut
   Answers (.gpio l) s { pos := [("n", .int 0 7)], keys := [("fn", .word fnNames), ("src", .any),
        ("invert", .word ["YES", "NO"]), ("pull", .word pullNames), ("edge", .word edgeNames), ("level", .word ["H", "L"]),
        saveKey] } l
      (erIf (l.pos.isEmpty && l.sets) erMissing ++ erIf (l.word? "fn" == some "EVENT" && !l.has "src") erMissing ++
        (match l.arg "src" with
          | none => []
          | some a => (match eventOf a with | none => [erRange "src"] | some e => s.srcErs e)) ++
        s.late (erIf (l.has "level" && fld v 2 0 != 1 && fld v 2 0 != 5) (erRange "level")) ++
        erIf (l.has "level" && fld v 2 0 == 5 && (match l.origin with | .port _ => true | .order _ => false))
          ⟨"DENIED", ["ORDERONLY"]⟩) l.pos.isEmpty
      (fun t => let t1 := if l.pos.isEmpty then t else t.setGpio (vset s.cfg.pins.gpio n v) out
        if l.save then t1.save gpioCfgRegs else t1)
      (fun t => (if l.pos.isEmpty then List.range 8 else [n]).map (fun k => okLine (t.gpioToks k)))) ∧
  (let k := (l.posNat? 0).getD 0
   let on := (l.on? "erase").getD true
   let b : BitVec 8 := BitVec.ofNat 8 (2 ^ k)
   Answers (.vaultFlags l) s
      { feat := some .vault, order := false, minPos := 1, pos := [("s", .int 0 7)],
        keys := [("erase", .word ["ON", "OFF"])] } l
      (erIf (!l.has "erase") erMissing ++ s.tamperErs ++
        erIf (s.vault.sealed && !on && s.vault.eraseMask.getLsbD k) ⟨"LOCKED", ["FLAGS"]⟩) false
      (fun t => t.setFlags (if on then s.vault.eraseMask ||| b else s.vault.eraseMask &&& ~~~b))
      (fun t => [okLine [w "VAULT", w "FLAGS", .kv "erase" (.hex 2 t.vault.eraseMask.toNat), edTok t .vault]]))

/-! ## Lines answered at once: other effects -/

/-- RESET, DORMANT and PADS RELEASE; the alarms; KEEPER with its table and reference: accepted, each has its effect, is
answered, and changes nothing else (08_bringup R229, 09_dormant R233, R234, R255, 10_daybook R263, R276). It rests in part
on the model's own choices and readings, log entries 18, 42, 44 and 45. -/
def Obligations.ControlLinesTakeEffect : Prop := ∀ (l : Line) (s : State) (temp : Int),
  (∀ p, l.origin = .port p → Answers (.reset l) s {} l [] false
      (fun t => { t with sys := { t.sys with pendingReset := some l.origin, resetReplyRead := false, replySince := t.day.cyc } })
      (fun _ => [[w "OK", w "RESET"]])) ∧
  (∀ k, l.origin = .order k → Does (.reset l) s {} l [] (fun t => ResetLeaves s t .command .none ∨
      s.unclocked = true ∧ ResetLeaves s t (Cause.command.first s.sys.cause) .none)) ∧
  Answers (.dormant l) s {} l
      (s.late (erIf (!s.day.keeperOk) (erState "PWR" "NOKEEPER") ++
        erIf (decide (s.pwr.state ≠ .run)) (erState "PWR" "ENTRY"))) false
      (fun t => { t with
        pwr := { t.pwr with state := .entryWait, attemptBy := some l.origin, attemptDue := false,
                            armed := match l.origin with | .order _ => true | .port _ => false }
        sys := { t.sys with replySince := t.day.cyc } })
      (fun _ => [[w "OK", w "DORMANT"]]) ∧
  Answers (.padsRelease l) s {} l [] false (fun t => { t with pads := { t.pads with held := 0, heldDev := 0 } })
      (fun _ => [okLine [w "PADS", w "RELEASE"]]) ∧
  (∀ a v, l.posNat? 0 = some a → (l.arg "at").bind (s.timeOf l) = some v →
    Answers (.alarmArm l) s { minPos := 1, pos := [("a", .int 0 3)], keys := alarmKeys } l
      (erIf (!l.has "at") erMissing ++
        (match (l.arg "at").bind (s.timeOf l) with
          | some t => erIf (decide (2 ^ 64 ≤ t)) (erRange "at")
          | none => [])) false
      (fun t => (t.setAlarm a { st := .armed, at_ := BitVec.ofNat 64 v, order := l.nat? "order",
                                every := BitVec.ofNat 32 ((l.nat? "every").getD 0) }).bump .daybook)
      (fun t => [okLine (t.alarmToks a (some (decide (v ≤ t.now))))])) ∧
  (∀ a, l.posNat? 0 = some a →
    Answers (.alarmOff l) s { minPos := 1, pos := [("a", .int 0 3)], keys := alarmKeys } l
      (erIf (!l.named.isEmpty) erExtra) false
      (fun t => let t1 := t.setAlarm a { t.alarm a with st := .off }
        if (t.alarm a).st = .off then t1 else t1.bump .daybook)
      (fun t => [okLine (t.alarmToks a none)])) ∧
  Answers (.keeper temp l) s { noun := true } l [] false (fun t => { t with day := { t.day with temp := temp } })
      (fun t => [okLine t.keeperToks]) ∧
  Answers (.keeperTable l) s { keys := [refKey], order := !l.has "ref" } l [] true (fun t => t.putRef l)
      (fun t => (List.range 16).map (fun i =>
        okLine [w "KEEPER", w "BIN", n' i, kd "lo" (-40 + 9 * (i : Int)), kd "e" (t.bin i).e, kd "conf" (t.bin i).conf])) ∧
  Answers (.keeperForget temp l) s { order := false, keys := [("bin", .int 0 15), refKey] } l [] false
      (fun t0 =>
        let t := t0.setRef l
        let bins := match l.nat? "bin" with
          | some i => vset t.day.bins i { t.bin i with e := 0, conf := 0 }
          | none => t.day.bins.map (fun b => { b with e := 0, conf := 0 })
        (State.driftRowWrite { t with day := { t.day with bins := bins, temp := temp } }).bump .daybook)
      (fun t => [okLine t.keeperToks]) ∧
  Answers (.keeperRef temp l) s { noun := true, order := false, keys := [refKey] } l [] false
      (fun t => State.putRef { t with day := { t.day with temp := temp } } l) (fun t => [okLine t.keeperToks])

/-- FRAME READ and FRAME FREE, the Reading Room and the Stacks, ARCH READ, SLIP: accepted, each reads or writes the octets
its operands name, powering the arrays it touches, and changes nothing else (14_frames R376, 19_stacks_porter R500, R501,
R506, R511). It rests in part on the model's own choices and readings, log entries 3, 28, 41 and 56. -/
def Obligations.MemoryLinesTakeEffect : Prop := ∀ (l : Line) (s : State),
  Answers (.frameFree l) s { minPos := 1, pos := [("id", .intOr 0 65535 ["ALL"])] } l
      (s.late (erIf (!(l.at? 0 == some (.word "ALL")) && (s.frame.rx.head?).map (·.id) != l.posNat? 0) (erRange "id"))) false
      (fun t => { t with frame := { t.frame with rx := if l.at? 0 == some (.word "ALL") then [] else t.frame.rx.tail,
                                                 rxPos := 0 } })
      (fun t => [okLine [w "FRAME", w "FREE", if l.at? 0 == some (.word "ALL") then w "ALL" else n' ((l.posNat? 0).getD 0),
        kd "rx" t.frame.rx.length, kd "rx_free" t.rxFree]]) ∧
  (s.frame.rx = [] → Answers (.frameRead l) s {} l [] false (fun t => { t with frame := { t.frame with rxPos := 0 } })
      (fun _ => [okLine [w "FRAME", w "READ", w "NONE"]])) ∧
  (∀ e rest, s.frame.rx = e :: rest →
    Answers (.frameRead l) s {} l [] true (fun t => { t with frame := { t.frame with rxPos := 0 } })
      (fun t => okLine [w "FRAME", w "READ", n' e.id, kw "fmt" (fmtName e.fmt), kd "len" e.octets.length,
          .kv "src" e.src.val, kd "seq" e.seqNo, kd "sec" e.sec, kw "acked" (yesNo (decide (e.flags / 8 % 2 = 1))),
          kd "chan" e.chan, .kv "sync" (.time e.sync.toNat), .kv "rssi" (dbm e.rssi), kd "lqi" e.lqi, kd "afc" e.afc] ::
        (match l.origin with
          | .port p => if t.framed p then [] else dataLines (okLine [w "FRAME", w "DATA"]) e.octets
          | .order _ => [])) (!e.octets.isEmpty)) ∧
  (let a := (l.posNat? 0).getD 0
   let k := count16 l
   let o := storeData l 1
   Answers (.carrelRead l) s { minPos := 1, pos := [("addr", .int 0 (2 ^ 32 - 1))], keys := readKeys } l
      (carrelErs a k "addr") false (fun t => t.touchSpan a k)
      (fun t => [okLine [w "CARREL", .w (hex8 a), .w (.octets (t.carrelRead a k))]]) ∧
   Answers (.carrelWrite l) s { minPos := 2, pos := [("addr", .int 0 (2 ^ 32 - 1)), ("payload", .any)] } l
      (dataErs l 1 ++ carrelErs a o.length "addr") false (fun t => (t.touchSpan a o.length).carrelWrite a o)
      (fun _ => [okLine [w "CARREL", w "WRITE", .w (hex8 a), kd "n" o.length]]) ∧
   Answers (.stacksRead l) s { feat := some .stacks, minPos := 1, pos := [("off", .int 0 (2 ^ 32 - 1))], keys := readKeys } l
      (erIf (decide (a < archBase)) ⟨"DENIED", ["PROTECTED"]⟩ ++ spanErs a k s.stacksSize "off") false (fun t => t.touch 8)
      (fun t => [okLine [w "STACKS", n' a, .w (.octets (t.shelfRead a k))]]) ∧
   (∀ p, s.store.part = some p →
     Answers (.archRead l) s { feat := some .stacks, minPos := 1, pos := [("n", .int 0 (2 ^ 32 - 1))] } l
      (s.late (erIf (!s.present p a) (erRange "n")) ++ s.partErs) false
      (fun t => { t.touch 8 with store := { t.store with checkFails := t.store.checkFails.incIf (!t.accGood p a) } })
      (fun t => [okLine [w "ARCH", n' a, .kv "at" (.time (t.accStamp p a)), kd "kind" (t.accKind p a),
        kd "len" (t.accLen p a), kw "marks" (marksName (t.accMarks p a)), kw "check" (if t.accGood p a then "OK" else "BAD"),
        .w (.octets (t.shelfRead (t.slotAt p a + 16) (t.accLen p a)))]])) ∧
   Answers (.slip l) s { minPos := 1, pos := [("addr", .int 0 (2 ^ 32 - 1))] } l (slipErs a) false
      (fun t => t.touch (a / 0x8000)) (fun t => [okLine ((slipOf (t.carrelRead a 32)).toks a)]) ∧
   (let count : Kind := .int 1 65535
    Answers (.slipWrite l) s
      { minPos := 1, pos := [("addr", .int 0 (2 ^ 32 - 1))],
        keys := [("src", addrKind), ("dst", addrKind), ("size", .oneOf [1, 2, 4]), ("walk", .word ["SRC", "DST"]),
                 ("other", stepKind), ("next", .intOr 0 (2 ^ 32 - 1) ["END"]), ("c0", count), ("s0", stepKind),
                 ("c1", count), ("s1", stepKind), ("c2", count), ("s2", stepKind), ("list", addrKind),
                 ("n", count), ("scale", count)] } l
      (slipErs a ++ erIf (!(l.has "src" && l.has "dst" && l.has "size")) erMissing ++
        erIf (decide ((l.nat? "next").getD 0 % 32 ≠ 0)) (erRange "next")) false
      (fun t => (t.touch (a / 0x8000)).carrelWrite a (lineSlip l).bytes)
      (fun t => [okLine ((slipOf (t.carrelRead a 32)).toks a)])))


/-- COLLATE OPEN, TRIM RESTORE, TARIFF t with its clearing, CAT ADD and CAT SET, CAT QUEUE, the draft of an order, SSW
CLEAR and TAMPER CLEAR: accepted, each has its effect, is answered, and changes nothing else. It rests in part on the
model's own choices and readings, log entries 25, 52, 53, 59, 60, 63 and 79. -/
def Obligations.EditingLinesTakeEffect : Prop := ∀ (l : Line) (s : State),
  (let n := (l.posNat? 0).getD 0
   let k := setCode ((l.word? "set").getD "C8")
   let e := l.nat? "expect"
   Answers (.collateOpen l) s
      { minPos := 1, pos := [("n", .int 0 3)], keys := [("set", .word setNames), ("expect", .int 0 (2 ^ 32 - 1))] } l
      ((if n = 2 ∨ n = 3 then s.needs .collate4 else []) ++ erIf (!l.has "set") erMissing ++
        erIf (decide (2 ^ (crcSet k).width ≤ e.getD 0)) (erRange "expect") ++
        erIf (s.col n).isOpen (erState "COLLATE" "OPEN")) false
      (fun t => (t.setCol n
        {
          t.col n with
          isOpen := true, set := k, opened := true, reg := (crcSet k).init, count := 0, stages := [], fed := 0
          expect := (e.map (BitVec.ofNat 32)).getD (t.col n).expect, check := e.isSome
        }).bump .collate)
      (fun t => [okLine [w "COLLATE", w "OPEN", n' n, kw "set" (crcSet k).name, .kv "expect" (t.col n).expectVal,
        edTok t .collate]])) ∧
  (let items := s.lineItems l
   let stops := items.any (fun i => i != TrimItem.censuseq)
   Answers (.trimRestore l) s { order := false, minPos := 1, pos := [("item", .name)], keys := [("band", .word bandWords)] } l
      (s.itemErs l ++ erIf (l.has "band" && items != [.iqbal]) (erRange "band") ++
        erIf s.trim.run.isSome (erState "TRIM" "RUNNING") ++
        erIf (stops && decide (s.radio.st = .receive)) (erState "TRIM" "RXBUSY") ++
        erIf (stops && decide (s.radio.st = .transmit)) (erState "RADIO" "TRANSMIT")) false
      (fun t =>
        let sel := (t.lineItems l).foldl (fun x i => factorySel x ((l.word? "band").map bandWords.idxOf) i) t.trim.sel
        (State.bump { t with trim := { t.trim with sel := sel } } .trim).rowWrite { what := .twin 17 [(0, sel.body)] })
      (fun t => [okLine [w "TRIM", w "RESTORE", w ((l.posWord? 0).getD ""), edTok t .trim]])) ∧
  (let i := (l.posNat? 0).getD 8
   let old := (s.tariff i).getD ⟨0, 0⟩
   let keys : List (String × Kind) := [("budget", .int 1 10000), ("interval", .oneOf intervals)]
   let edit : List Er := erIf (decide (s.ledger.active = i)) ⟨"DENIED", ["ACTIVE"]⟩ ++
     erIf (decide (s.ledger.pend.map (·.1) = some i)) (erState "LEDGER" "CHANGEPENDING")
   let act (x : Option Tariff) (t : State) : State :=
     let new := vset t.ledger.tariffs i x
     let t1 := State.rowWrite { t with ledger := { t.ledger with tariffs := new } } { what := .twin 18 [(0, tariffBody new)] }
     if t.tariff i = x then t1 else t1.bump .ledger
   Answers (.tariffSet l) s { order := false, minPos := 1, pos := [("t", .int 0 7)], keys := keys } l
      (erIf ((s.tariff i).isNone && !(l.has "budget" && l.has "interval")) erMissing ++ edit) false
      (act (some ⟨(l.nat? "budget").getD old.budget, (l.nat? "interval").getD old.interval⟩)) (fun t => [okLine (t.tariffToks i)]) ∧
   Answers (.tariffClear l) s { order := false, minPos := 1, pos := [("t", .int 0 7)], keys := keys } l
      (erIf (!l.named.isEmpty) erExtra ++ edit) false (act none) (fun t => [okLine (t.tariffToks i)])) ∧
  (let eui : BitVec 64 := BitVec.ofNat 64 ((l.nat? "eui").getD 0)
   let old := s.link.cat.find? (fun e => decide (e.eui = eui))
   let gone : Bool := match old with | some e => e.replaceable | none => false
   let base (t : State) : State := match old with | some e => (t.dropResponses e.idx).dropEntry e.idx | none => t
   let x : CatEntry := entrySet l
     {
       idx := ((base s).freeIdx).getD 0, short := BitVec.ofNat 16 ((l.nat? "short").getD 0xFFFE), valid := l.has "short"
       listed := true, eui := eui
     }
   AnswersLast (.catAdd l) s
      { feat := some .parent, order := false,
        keys := [("eui", .int 0 (2 ^ 64 - 1)), ("short", .int 0 0xFFFD)] ++ sniffKeys } l
      (erIf (!l.has "eui") erMissing ++ erIf (old.isSome && !gone) (erRange "eui") ++
        (match l.nat? "short" with | some a => erIf (s.shortHeld a) (erRange "short") | none => []) ++
        entrySniffErs l noEntry ++ s.needRole 2 ++ erIf (decide (256 ≤ s.link.cat.length) && !gone) ⟨"FULL", ["CATALOGUE"]⟩)
      (fun t => (((base t).addEntry x).poolCheck).bump .link) (fun t => okLine (t.entryToks x))) ∧
  (∀ e, e = (s.lineEntry l).getD noEntry →
   Answers (.catSet l) s { feat := some .parent, minPos := 1, pos := [("short", .int 0 65535)], keys := sniffKeys } l
      (s.late (erIf (!l.pos.isEmpty && (s.lineEntry l).isNone) (erRange "short")) ++
        (if l.has "sniff_every" && l.has "sniff_phase" then id else s.late) (entrySniffErs l e) ++ s.needRole 2) false
      (fun t => if entrySet l e = e then t else (t.setEntry (entrySet l e)).bump .link)
      (fun t => [okLine (t.entryToks (entrySet l e))]) ∧
   Answers (.catQueue l) s
      { feat := some .parent, minPos := 1, pos := [("short", .int 0 65535), ("payload", .any)], keys := secKeys } l
      (s.late (erIf (!l.pos.isEmpty && !e.valid) (erRange "short")) ++ payloadErs l 1 ++ s.queueKeyErs (s.childFrame l e 1) ++
        s.childErs l (s.childFrame l e 1) ++ s.needRole 2 ++
        erIf (decide (16 ≤ (s.heldFor e.idx).length)) ⟨"FULL", ["QUEUE"]⟩) false
      (fun t => (t.hold (t.childFrame l e 1) e.idx .data).1.unstage l)
      (fun t => [okLine [w "CAT", w "QUEUE", .w (.hex 4 e.short.toNat), kd "seq" (s.hold (s.childFrame l e 1) e.idx .data).2.seq, kd "queued" (t.heldFor e.idx).length,
        edTok t .link]])) ∧
  (let d (t : State) : List String := if (l.at? 1).isSome then [] else ((t.slot (lineOrder l)).map (·.lines)).getD []
   Answers (.orderDraft l) s { order := false, minPos := 1, pos := [("k", .int 0 31), ("draft", .any)] } l
      ((match l.at? 1 with
        | none => []
        | some (.word x) => erIf (x != "EMPTY") ⟨"UNKNOWN", [x]⟩
        | some _ => [erExtra]) ++ (if (l.at? 1).isSome then [] else s.emptyErs l)) false
      (fun t => { t with orders := { t.orders with draft := d t } })
      (fun t => [okLine [w "ORDER", w "DRAFT", n' (lineOrder l), kd "lines" t.orders.draft.length,
        kd "octets" (textOctets t.orders.draft)]])) ∧
  (let i := lineOrder l
   let text : Option String := match l.at? 1 with | some (.str x) => some x | _ => none
   let d := s.orders.draft
   let new : List String := match text with
     | none => d.take i ++ d.drop (i + 1)
     | some x => d.take i ++ [x] ++ d.drop (i + 1)
   Answers (.orderLine l) s { order := false, minPos := 2, pos := [("i", .int 0 16), ("text", .any)] } l
      ((match l.at? 1 with
        | some (.word x) => erIf (x != "DELETE") ⟨"UNKNOWN", [x]⟩
        | some (.str _) => []
        | some _ => [erRange "text"]
        | none => []) ++
        erIf (decide (d.length < i) || (text.isNone && decide (i = d.length))) (erRange "i") ++
        erIf (decide (16 < new.length) || decide (448 < textOctets new)) ⟨"FULL", ["ORDER"]⟩) false
      (fun t => { t with orders := { t.orders with draft := new } })
      (fun _ => [okLine [w "ORDER", w "LINE", n' i, kd "lines" new.length, kd "octets" (textOctets new)]])) ∧
  Answers (.sswClear l) s { feat := some .ssw } l
      (erIf (decide (s.ssw.st = .ramp)) (erState "SSW" "RAMP") ++
        erIf (decide (s.ssw.st = .fault) && s.ssw.cause == 3 && s.ssw.hot) (erState "SSW" "FAULT")) false
      (fun t => if t.ssw.st = .fault then
          (({ t with ssw := { t.ssw with cause := 0 } }).sswTo .off).condOff (89 + s.ssw.cause)
        else t)
      (fun t => [okLine [w "SSW", w "CLEAR", w t.ssw.st.name]]) ∧
  Answers (.tamperClear l) s { order := false } l
      (erIf s.tamper.level ⟨"DENIED", ["ACTIVE"]⟩ ++ erIf s.tamperBusy ⟨"TAMPER-BUSY", []⟩) false
      (fun t =>
        let t1 := { t with tamper := { t.tamper with latched := false, source := 0 } }
        if t.tamper.latched then (t1.bump .tamper).condOff 88 else t1)
      (fun t => [okLine [w "TAMPER", w "CLEAR", edTok t .tamper]])

/-! ## Lines whose effect follows their reply -/

/-- EVENT CLEAR and EVENT RAISE, MODE, CANCEL and CANCEL ALL, RET and RET ALL: accepted, each is answered and has its
effect; what it may change besides is named (04_desk R103, 06_tickets R161, R162, 07_events R188, R191, R196). It rests in
part on the model's own choices and readings, log entries 32, 36 and 37. -/
def Obligations.QueueAndEventLinesTakeEffect : Prop := ∀ (l : Line) (s : State),
  (let all : Bool := (l.at? 0) == some (.word "ALL")
   let n := ((l.at? 0).bind eventOf).getD 0
   let m : BitVec 128 := if all then BitVec.allOnes 128 else (1 : BitVec 128) <<< n
   let act (t : State) : State :=
     { t with events := { t.events with pend := t.events.pend &&& ~~~(m &&& ~~~t.events.cond) } }.attnFollow
   (all || ((l.at? 0).bind eventOf).isSome) = true →
   Does (.eventClear l) s { minPos := 1, pos := [("event", .any)] } l (if all then [] else s.eventErs "event" (l.at? 0))
      (fun t =>
        Said.By s t l (if all then okLine [w "EVENT", w "CLEAR", w "ALL", kd "count" s.pendingList.length]
          else okLine [w "EVENT", w "CLEAR", n' n]) ∧
        t.besideTickets = s.besideTickets ∧
        ((∀ e c, s.orders.run.map (·.await) ≠ some (.waitClear e c)) →
          t.besideReply = (act (s.took l.origin)).besideReply))) ∧
  (let n := ((l.at? 0).bind eventOf).getD 0
   Does (.eventRaise l) s { minPos := 1, pos := [("event", .any)] } l
      (s.eventErs "event" (l.at? 0) ++ erIf (decide (n < 115) || decide (119 < n)) (erRange "event"))
      (fun t => Said.By s t l (okLine [w "EVENT", w "RAISE", n' n]) ∧ (s.quiet = false → t.pends n) ∧
        t.besideEvents = s.besideEvents)) ∧
  (∀ p, l.origin = .port p →
   let m : Bool := match l.posWord? 0 with | some x => x == "FRAMED" | none => s.framed p
   let h := (l.on? "hold").getD (s.holdOn p)
   Does (.mode l) s
      { order := false, pos := [("mode", .any)], keys := [("hold", .word ["ON", "OFF"]), saveKey] } l
      ((match l.at? 0 with
        | some (.word x) => erIf (!(["TYPED", "FRAMED"].contains x)) ⟨"UNKNOWN", [x]⟩ ++
            erIf (decide (p = .chute) && x == "TYPED") (erRange "TYPED")
        | some _ => [erExtra]
        | none => []) ++ erIf (!m && h && decide (p = .desk)) (erRange "hold"))
      (fun t =>
        let put := (s.took l.origin).putMode p m h
        let saved := if l.save then put.saveMode p else put
        Said.By s t l (okLine [w "MODE", w (if m then "FRAMED" else "TYPED"), kw "hold" (onOff h), edTok saved (portUnit p)]) ∧
        t.framed p = m ∧ t.holdOn p = h ∧ t.besideTickets = saved.besideTickets ∧
        ((s.holdOn p = true → h = true) → t.besideReply = saved.besideReply) ∧
        (s.holdOn p = true → h = false → ∀ x, x ∈ s.heldOf p →
          (s.took l.origin |>.port p).out.any (fun o => decide (o.kind = .ret x.n)) = false →
          ∃ y, t.ticket? x.n = some y ∧ y.st = .complete))) ∧
  (∀ x, (l.posNat? 0).bind s.ticket? = some x → x.n = (l.posNat? 0).getD 0 →
   Does (.cancel l) s { minPos := 1, pos := [("n", .int 0 511)] } l (s.cancelErs l)
      (fun t => Said.By s t l (okLine [w "CANCEL", n' x.n, w x.st.name]) ∧
        (x.unstarted = true → (∃ ed, Completed t x .cancelled [kw "by" (byName l.origin)] ed) ∧
          t.besideTickets = State.besideTickets (match x.op with
            | .frameSend _ _ _ e => s.ringFree e
            | .linkWake _ _ _ e => s.ringFree e
            | .tariffSched _ _ => if s.ledger.pendTicket = some x.n then s.unschedule else s
            | _ => s)) ∧
        (x.st = .running → match x.op with
          | .rawCapture _ => (∃ ed, Completed t x .cancelled [kw "by" (byName l.origin)] ed) ∧ t.besideTickets = s.besideTickets
          | .collateFeed c _ _ => (∃ ed, Completed t x .cancelled [kw "by" (byName l.origin), kd "n" (s.col c).fed] ed) ∧
              t.besideTickets = s.besideTickets
          | .sswOn => (∃ ed, Completed t x .cancelled [kw "by" (byName l.origin)] ed) ∧ t.ssw.st = .off ∧ t.ssw.limit = false
          | _ => True))) ∧
  Does (.cancelAll l) s {} l []
      (fun t => Said.By s t l (okLine [w "CANCEL", w "ALL", kd "count" (s.cancellable l.origin).length]) ∧
        (∀ p x, l.origin = .port p → s.ticket? x.n = some x → x.unstarted = true → mayCancel l.origin x.owner = true →
          ∃ y, t.ticket? x.n = some y ∧ y.st = .complete ∧ y.result = some .cancelled)) ∧
  (∀ n x, l.posNat? 0 = some n → s.ticket? n = some x →
    Answers (.ret l) s { order := false, minPos := 1, pos := [("n", .int 0 511)] } l
      (s.noHold l.origin ++ s.retErs l.origin n) false id
      (fun _ => [[w "OK", w "RET", n' x.n, w ((x.result.map Result.name).getD "")] ++ x.fields])) ∧
  (∀ p, l.origin = .port p →
    Answers (.retAll l) s { noun := true, order := false } l (erIf (!s.holdOn p) (erState (portName p) "NOHOLD")) false id
      (fun _ => (s.heldOf p).map (fun x => [w "OK", w "RET", n' x.n, w ((x.result.map Result.name).getD "")] ++ x.fields) ++
        [[w "OK", w "END", n' (s.heldOf p).length]]))

/-- DAY SET, LINK ASSOC given by hand, TARIFF UNSCHED, NOISE RAW ON and VAULT SEAL: accepted, each is answered and has
its effect (10_daybook R261, 15_link R400, 16_ledger R441, 18_noise_vault R475, R491). It rests in part on the model's
own choices and readings, log entries 44, 49, 52, 54, 55 and 79. -/
def Obligations.UnitLinesTakeEffect : Prop := ∀ (l : Line) (s : State),
  (∀ v, (l.at? 0).bind (s.timeOf l) = some v →
   Does (.daySet l) s { minPos := 1, pos := [("value", .time)] } l
      (erIf (decide (2 ^ 64 ≤ v)) (erRange "value") ++ erIf (decide (s.radio.st ≠ .idle)) (erState "DAYBOOK" "RADIO") ++
        erIf (s.tickets.pool.any (·.scheduled)) (erState "DAYBOOK" "SCHEDULED"))
      (fun t => Said.By s t l (okLine [w "DAY", w "SET", .w (.time v), kd "ed" (s.edition .daybook + 1).toNat]) ∧
        t.day.now.toNat = v ∧ t.day.slew = 0 ∧ t.day.cont = true ∧ t.edition .daybook = s.edition .daybook + 1 ∧
        t.frame.tx.length = s.frame.tx.length ∧ t.cfg = s.cfg ∧ t.tickets = s.tickets ∧ t.store = s.store)) ∧
  (let own := (l.nat? "short").getD 0
   let a : Assoc :=
     {
       pan := BitVec.ofNat 16 ((l.nat? "pan").getD 0), own := BitVec.ofNat 16 own
       parent := BitVec.ofNat 16 ((l.nat? "parent").getD 0), eui := BitVec.ofNat 64 ((l.nat? "parent_eui").getD 0)
     }
   Does (.linkAssocLocal l) s { order := false, keys := assocKeys } l
      (erIf (!(l.has "pan" && l.has "parent" && l.has "parent_eui" && l.has "short")) erMissing ++
        erIf (l.has "chan" || l.has "plan") erExtra ++
        erIf (decide (65535 < (l.nat? "parent").getD 0)) (erRange "parent") ++
        erIf (decide (0xFFFE ≤ own)) (erRange "short") ++ s.needRole 1 ++
        erIf (decide (s.link.st ≠ .unassoc)) (erState "LINK" s.link.st.name))
      (fun t => Said.By s t l (okLine [w "LINK", w "ASSOC", .kv "short" (.hex 4 own), kd "ed" (s.edition .link + 1).toNat]) ∧
        t.link.st = .associated ∧ t.link.assoc = some a ∧ t.edition .link = s.edition .link + 1 ∧
        t.cfg.frame.addr = BitVec.ofNat 32 own ∧ fld t.cfg.frame.filter 15 0 = (l.nat? "pan").getD 0 % 65536 ∧
        t.frame.dups = [] ∧ t.frame.fcIn = 0 ∧ (s.quiet = false → t.pends 51) ∧
        t.tickets = s.tickets ∧ t.radio = s.radio)) ∧
  (s.ledger.pend = none → Answers (.tariffUnsched l) s { order := false } l [] false id
      (fun _ => [okLine [w "TARIFF", w "UNSCHED", w "NONE"]])) ∧
  (∀ i b, s.ledger.pend = some (i, b) → s.ledger.pendTicket = none →
    Answers (.tariffUnsched l) s { order := false } l [] false State.unschedule
      (fun _ => [okLine [w "TARIFF", w "UNSCHED", .w (.word (Nat.repr i ++ "@" ++ timeText b))]])) ∧
  (∀ i b n x, s.ledger.pend = some (i, b) → s.ledger.pendTicket = some n → s.ticket? n = some x → x.live = true →
    Does (.tariffUnsched l) s { order := false } l [] (fun t =>
      Said.By s t l (okLine [w "TARIFF", w "UNSCHED", .w (.word (Nat.repr i ++ "@" ++ timeText b))]) ∧
      (∃ ed, Completed t x .cancelled [kw "by" "HOST"] ed) ∧ t.besideTickets = s.unschedule.besideTickets)) ∧
  (s.noise.st = .raw → Answers (.noiseRawOn l) s { order := false } l (s.noiseErs [.startup, .failed]) false id
      (fun t => [okLine [w "NOISE", w "RAW", w "ON", edTok t .noise]])) ∧
  (s.noise.st ≠ .raw → Does (.noiseRawOn l) s { order := false } l (s.noiseErs [.startup, .failed]) (fun t =>
      Said.By s t l (okLine [w "NOISE", w "RAW", w "ON", kd "ed" (s.edition .noise + 1).toNat]) ∧
      t.noise.st = .raw ∧ t.noise.pool = 0 ∧ t.noise.refill = false ∧ t.noise.reseeding = false ∧
      t.noise.due = (s.noise.due || s.noise.reseeding) ∧ t.edition .noise = s.edition .noise + 1 ∧
      (s.quiet = false → t.pends 81) ∧
      (s.randRuns = false → s.link.op.map (·.phase) ≠ some .draw → t.besideEvents =
        ((State.bump { s with noise :=
          {
            s.noise with st := .raw, pool := 0, refill := false, due := s.noise.due || s.noise.reseeding
                         reseeding := false, seed := none
          } } .noise)).besideEvents))) ∧
  Does (.vaultSeal l) s { feat := some .vault, order := false, keys := [("confirm", .int 0 65535)] } l
      (erIf (!l.has "confirm") erMissing ++
        erIf (l.has "confirm" && l.nat? "confirm" != some (s.eui.toNat % 65536)) (erRange "confirm") ++
        erIf (s.slotKey 0).isNone ⟨"DENIED", ["NOKEK"]⟩ ++ erIf (s.slotKey 1).isNone ⟨"DENIED", ["NOTRANSPORT"]⟩ ++
        s.tamperErs ++ erIf s.vault.sealed (erState "VAULT" "SEALED"))
      (fun t =>
        let t1 := (State.bump { s with vault := { s.vault with sealed := true } } .vault).rowWrite
          { what := .twin 19 [(0, [0x5A, s.vault.eraseMask])] }
        Said.By s t l (okLine [w "VAULT", w "SEAL", kd "ed" (s.edition .vault + 1).toNat]) ∧ t.vault.sealed = true ∧
        (s.quiet = false → t.pends 84) ∧ t.besideEvents = t1.besideEvents)

/-- ORDER STOP by what it finds, WAIT, WAIT CLEAR and SKIP: the effects on the running order (21_orders R548, R552, R554,
R555), and CAT REMOVE with and without its notice (15_link R407). It rests in part on the model's own choices and readings,
log entries 25, 61 and 62. -/
def Obligations.OrderLinesTakeEffect : Prop := ∀ (l : Line) (s : State),
  (let all : Bool := l.posWord? 0 == some "ALL"
   let k := lineOrder l
   let f : Form := { order := false, minPos := 1, pos := [("k", if all then .word ["ALL"] else .int 0 31)] }
   let es := if all then [] else s.emptyErs l
   (s.orders.run = none → (∀ p, p ∈ s.orders.pending → p.runTicket = none) →
     (all || s.orders.pending.any (fun p => p.k == k)) = true →
     Answers (.orderStop l) s f l es false
       (fun t => { t with orders := { t.orders with pending := t.orders.pending.filter (fun p => !(all || p.k == k)) } })
       (fun _ => [if all then okLine [w "ORDER", w "STOP", w "ALL", kd "count" s.orders.pending.length]
         else okLine [w "ORDER", w "STOP", n' k, w "PENDING"]])) ∧
   (all = false → s.orders.run.map (·.k) ≠ some k → s.orders.pending.any (fun p => p.k == k) = false →
     Answers (.orderStop l) s f l es false id (fun _ => [okLine [w "ORDER", w "STOP", n' k, w "IDLE"]])) ∧
   (∀ r, all = false → s.orders.run = some r → r.k = k → (∀ n, r.await ≠ .ticket n) →
     Does (.orderStop l) s f l es (fun t => Said.By s t l (okLine [w "ORDER", w "STOP", n' k, w "RUNNING"]) ∧
       vget t.orders.last k none = some
         { result := .stopped, line := (r.lastErr.map (·.1)).getD r.line, code := (r.lastErr.map (·.2)).getD 0, errors := r.errors } ∧
       (s.quiet = false → t.pends 113) ∧ t.besideTickets = s.besideTickets)) ∧
   (∀ r n x, all = false → s.orders.run = some r → r.k = k → r.await = .ticket n → s.ticket? n = some x → x.live = true →
     x.unstarted = false → s.interruptible x = false →
     Answers (.orderStop l) s f l es false
       (fun t => { t with orders := { t.orders with run := some { r with stopping := some .stopped } } })
       (fun _ => [okLine [w "ORDER", w "STOP", n' k, w "RUNNING"]]))) ∧
  (∀ k, l.origin = .order k →
   Does (.wait l) s { port := false, minPos := 1, pos := [("ms", .int 1 600000)] } l []
      (fun t => t = { s with orders := { s.orders with said := .nothing, run := s.orders.run.map (fun r =>
        { r with await := .waitUntil (s.day.cyc + (l.posNat? 0).getD 0 * tickMs) }) } }) ∧
   (∀ n, (l.at? 0).bind eventOf = some n → s.events.pend.getLsbD n = true →
     Does (.waitClear l) s { port := false, minPos := 1, pos := [("event", .any)], keys := [("max", .int 1 600000)] } l
      (s.eventErs "event" (l.at? 0))
      (fun t => t = { s with orders := { s.orders with said := .nothing, run := s.orders.run.map (fun r =>
        { r with await := .waitClear n (s.day.cyc + (l.nat? "max").getD 600000 * tickMs) }) } })) ∧
   (∀ r, s.orders.run = some r → r.stopping = none →
     let n := (l.posNat? 0).getD 0
     let nextLine := r.line + (if s.skipHolds l then n else 0) + 1
     Does (.skip l) s
      { port := false, minPos := 1, pos := [("n", .int 1 15)],
        keys := [("pin", .any), ("level", .word ["H", "L"]), ("pending", .any), ("unit", .any), ("state", .any),
                 ("last", .word ["DONE", "NOTDONE"])] } l
      (s.skipErs l ++ erIf (!l.pos.isEmpty && decide (r.slot.lines.length ≤ r.line + n)) (erRange "n"))
      (fun t =>
        (nextLine < r.slot.lines.length → t = { s with orders := { s.orders with
          said := .nothing
          run := some { r with line := nextLine, lastOk := true, await := .next, ready := s.day.cyc + 1 } } }) ∧
        (r.slot.lines.length ≤ nextLine → t.besideTickets = s.besideTickets ∧ (s.quiet = false → t.pends 112))))) ∧
  (∀ e, (s.lineEntry l).getD noEntry = e →
   let es := s.late (erIf (!l.pos.isEmpty && (s.lineEntry l).isNone) (erRange "short")) ++ s.needRole 2
   let f : Form :=
     {
       feat := some .parent, order := false, minPos := 1, pos := [("short", .int 0 65535)]
       keys := [("notify", .word ["YES", "NO"])]
     }
   (l.word? "notify" ≠ some "NO" →
     Answers (.catRemove l) s f l
      (es ++ erIf (decide (s.txFree < ringSize (s.noticeFrame e).ringOctets)) ⟨"FULL", ["TXRING"]⟩) false
      (fun t => (((t.hold (t.noticeFrame e) e.idx .notice).1).setEntry { e with leaving := true }).bump .link)
      (fun t => [okLine (t.entryToks { e with leaving := true })])) ∧
   (l.word? "notify" = some "NO" →
     Does (.catRemove l) s f l es (fun t => Said.By s t l (okLine (s.entryToks e)) ∧
       t.link.cat = s.link.cat.filter (fun c => !(c.idx == e.idx)) ∧
       (∀ x ∈ t.frame.tx, x.child = some e.idx → e.idx = goneChild) ∧ (s.quiet = false → t.pends 54) ∧
       t.tickets = s.tickets ∧ t.cfg = s.cfg)))

/-! ## Ticketed lines (06_tickets R151, R152, R159): accepted, each gets the next number and a QUEUED ticket for its
operation, and is answered `TK n`; nothing else but events changes -/

/-- PWR MEASURE, EVENT SAVE, TX CW, RX, CCA CHECK, CENSUS SCAN, LINK ASSOC over the air, LINK LEAVE, LINK POLL and TRIM RUN.
It rests in part on the model's own choices and readings, log entries 36, 49, 50 and 53. -/
def Obligations.RadioLinesIssueTickets : Prop := ∀ (l : Line) (s : State),
  Issues (.pwrMeasure l) s {} .pwr l [] [] .pwrMeasure ∧
  Issues (.eventSave l) s {} .stacks l [] [] .eventSave ∧
  Issues (.txCw l) s { order := false, keys := [("dur", .int 1 10000)] } .link l (erIf (!l.has "dur") erMissing) []
      (.txCw ((l.nat? "dur").getD 1)) ∧
  Issues (.rx l) s { noun := true, keys := [("dur", .intOr 1 4294967 ["CONT"]), ("chan", .any), ("plan", .any)] } .radio l
      (s.chanErs l "c") (erIf s.trimStops (erState "RADIO" "TRIM")) (.rx (l.nat? "dur") (s.linePlan l) (s.lineChan l)) ∧
  Issues (.ccaCheck l) s { keys := [("chan", .any), ("plan", .any)] } .radio l (s.chanErs l "c") []
      (.ccaCheck (s.linePlan l) (s.lineChan l)) ∧
  Issues (.censusScan l) s { feat := some .census, keys := [("dur", .int 1 600000)] } .census l
      (erIf (!l.has "dur") erMissing) [] (.censusScan ((l.nat? "dur").getD 1)) ∧
  Issues (.linkAssoc l) s
      { order := false,
        keys := [("pan", .int 0 65535), ("parent", .int 0 (2 ^ 64 - 1)), ("chan", .any), ("plan", .any),
                 ("parent_eui", .int 0 (2 ^ 64 - 1)), ("short", .int 0 65535)] } .link l
      (erIf (!(l.has "pan" && l.has "parent")) erMissing ++ erIf (l.has "parent_eui" || l.has "short") erExtra ++
        s.chanErs l "c" ++ s.needRole 1 ++ erIf (decide (6 ≤ s.profile.code)) ⟨"DENIED", ["PROFILE"]⟩)
      (erIf (decide (s.link.st ≠ .unassoc)) (erState "LINK" s.link.st.name))
      (.assoc (addrOf ((l.nat? "parent").getD 0)) (BitVec.ofNat 16 ((l.nat? "pan").getD 0)) (s.linePlan l) (s.lineChan l)) ∧
  Issues (.linkLeave l) s { keys := [("notify", .word ["YES", "NO"])] } .link l [] s.needAssoc
      (.leave (l.word? "notify" != some "NO")) ∧
  Issues (.linkPoll l) s { keys := [("repoll", .int 0 7)] } .link l [] s.needAssoc
      (.poll ((l.nat? "repoll").getD (fld s.cfg.link.config 20 18))) ∧
  (let items := s.lineItems l
   Issues (.trimRun l) s { minPos := 1, pos := [("item", .name)], keys := [("chan", .any), ("plan", .any)] } .trim l
      (s.itemErs l ++ (if items == [.censuseq] then
          erIf (l.has "chan") (erRange "chan") ++ erIf (l.has "plan") (erRange "plan")
        else s.chanErs l "chan"))
      (match s.trimForbids items with | some x => [erState x.1 x.2] | none => [])
      (.trimRun items (l.posWord? 0 == some "ALL") (s.linePlan l) (s.lineChan l)))

/-- NOISE RAW OFF and RAW CAPTURE, VAULT LOAD, ERASE, RAND and CCM, SSW ON and OFF. It rests in part on the model's own
choices and readings, log entries 36, 54, 55, 69 and 73. -/
def Obligations.VaultLinesIssueTickets : Prop := ∀ (l : Line) (s : State),
  Issues (.noiseRawOff l) s { order := false } .noise l s.rawErs [] .rawOff ∧
  Issues (.noiseRawCapture l) s { order := false, keys := [("n", .int 1 4096)] } .noise l
      (erIf (!l.has "n") erMissing ++ s.rawErs) [] (.rawCapture ((l.nat? "n").getD 1)) ∧
  (let k := (l.posNat? 0).getD 0
   let plain := l.has "key"
   Issues (.vaultLoad l) s
      { feat := some .vault, order := false, minPos := 1, pos := [("s", .int 0 7)],
        keys := [("key", .any), ("wrapped", .any)] } .vault l
      (erIf (!plain && !l.has "wrapped") erMissing ++ erIf (plain && l.has "wrapped") erExtra ++
        sizedErs "key" 16 (l.arg "key") ++ sizedErs "wrapped" 24 (l.arg "wrapped") ++
        erIf (k == 0) ⟨"DENIED", ["KEK"]⟩ ++ erIf (s.slotKey 0).isNone ⟨"DENIED", ["NOKEK"]⟩ ++
        erIf (plain && s.vault.sealed) ⟨"LOCKED", ["PROVISIONING"]⟩ ++ s.tamperErs)
      (s.noiseErs [.raw, .failed])
      (.vaultLoad k (octetsOf (if plain then l.arg "key" else l.arg "wrapped")) (!plain))) ∧
  (let all := l.at? 0 == some (.word "ALL")
   let k := (l.posNat? 0).getD 0
   Issues (.vaultErase l) s { feat := some .vault, order := false, minPos := 1, pos := [("s", .intOr 0 7 ["ALL"])] } .vault l
      (erIf (!all && k == 0) ⟨"DENIED", ["KEK"]⟩ ++ s.busyErs) [] (.vaultErase (if all then [1, 2, 3, 4, 5, 6, 7] else [k]))) ∧
  Issues (.vaultRand l) s { feat := some .vault, keys := [("n", .int 1 64)] } .vault l
      (erIf (!l.has "n") erMissing ++ s.tamperErs) (s.noiseErs [.startup, .raw, .failed]) (.vaultRand ((l.nat? "n").getD 1)) ∧
  (let dec := l.posWord? 0 == some "DEC"
   let slot := (l.nat? "slot").getD 2
   let level := (l.nat? "level").getD 5
   let pay := l.at? 1
   Issues (.vaultCcm l) s
      { feat := some .vault, minPos := 2, pos := [("mode", .word ["ENC", "DEC"]), ("payload", .any)],
        keys := [("slot", .int 2 7), ("level", .oneOf ccmLevels), ("nonce", .any), ("adata", .any)] } .vault l
      (erIf (!(l.has "slot" && l.has "level" && l.has "nonce")) erMissing ++
        s.late (erIf (l.has "slot" && (s.slotKey slot).isNone) (erRange "slot")) ++ sizedErs "nonce" 13 (l.arg "nonce") ++
        erIf (l.has "adata" && (!(isData (l.arg "adata")) || decide (64 < argLen (l.arg "adata")))) (erRange "adata") ++
        erIf (pay.isSome && (!isData pay || decide (1024 < argLen pay) || (dec && decide (argLen pay < micLen level))))
          (erRange "payload") ++ s.tamperErs) []
      (.vaultCcm dec slot level (octetsOf (l.arg "nonce")) (octetsOf (l.arg "adata")) (l.data pay)
        (match pay with | some (.block _) => true | _ => false))) ∧
  Issues (.sswOn l) s { feat := some .ssw } .ssw l [] s.sswOnErs .sswOn ∧
  Issues (.sswOff l) s { feat := some .ssw } .ssw l [] s.sswOffErs .sswOff

/-- RECORD WRITE, STACKS PART and WRITE, ARCH ADD, FIND, MARK and DROP, PORTER GO, COLLATE FEED and CLOSE. It rests in part
on the model's own choices and readings, log entries 36, 57, 58 and 59. -/
def Obligations.StoreLinesIssueTickets : Prop := ∀ (l : Line) (s : State),
  (let a := (l.posNat? 0).getD 0
   let o := storeData l 1
   Issues (.recordWrite l) s { minPos := 2, pos := [("off", .int 0 8191), ("payload", .any)] } .stacks l
      (dataErs l 1 ++ spanErs a o.length 8192 "payload") [] (.recordWrite a o) ∧
   Issues (.stacksWrite l) s
      { feat := some .stacks, order := false, minPos := 2, pos := [("off", .int 0 (2 ^ 32 - 1)), ("payload", .any)] } .stacks l
      (dataErs l 1 ++ erIf (decide (a < s.freeBase)) ⟨"DENIED", ["PROTECTED"]⟩ ++ spanErs a o.length s.stacksSize "off") []
      (.stacksWrite a o)) ∧
  (let k := (l.nat? "archive").getD 0
   Issues (.stacksPart l) s
      { feat := some .stacks, order := false,
        keys := [("archive", .int 8 2040), ("pmax", .int 1 240), ("policy", .word ["WRAP", "REFUSE"])] } .stacks l
      (erIf (!(l.has "archive" && l.has "pmax" && l.has "policy")) erMissing ++
        erIf (decide (k % 8 ≠ 0) || decide (s.stacksSize < (k + 8) * 1024)) (erRange "archive")) s.porterErs
      (.stacksPart k ((l.nat? "pmax").getD 1) (l.word? "policy" == some "REFUSE"))) ∧
  (let pmax := match s.store.part with | some p => p.pmax | none => 240
   let o := storeData l 0
   Issues (.archAdd l) s
      { feat := some .stacks, pos := [("payload", .any)],
        keys := [("kind", .int 0 255), ("from", .int 0 (2 ^ 32 - 1)), ("n", .int 1 4096)] } .stacks l
      ((match lineSource l with
        | some (a, n) => erIf (l.at? 0).isSome erExtra ++ erIf (!l.has "n") erMissing ++ carrelErs a n "from" ++
            s.late (erIf (decide (pmax < n)) (erRange "n"))
        | none => erIf (l.has "n") erExtra ++ dataErs l 0 ++
            erIf ((l.at? 0).isSome && decide (o.length = 0)) (erRange "payload") ++
            s.late (erIf (decide (pmax < o.length)) (erRange "payload"))) ++
        erIf (s.archFull && (s.store.part.map (·.refuse)).getD false) ⟨"FULL", ["ARCHIVE"]⟩)
      s.partErs (.archAdd ((l.nat? "kind").getD 0) o (lineSource l))) ∧
  (let most := (l.nat? "max").getD 4096
   let cap := match s.store.part with | some p => p.capacity | none => 4096
   let tm (k : String) : Option Nat := (l.arg k).bind (s.timeOf l)
   Issues (.archFind l) s
      { feat := some .stacks,
        keys := [("from", .int 0 (2 ^ 32 - 1)), ("to", .int 0 (2 ^ 32 - 1)), ("since", .time), ("until", .time),
                 ("kind", .int 0 255), ("unsent", .word ["YES"]), ("unacked", .word ["YES"]),
                 ("max", .int 1 4096), ("list", .int 0 (2 ^ 32 - 1))] } .stacks l
      (match l.nat? "list" with
        | some a => listErs a 1 ++ s.late (listErs a (min most cap))
        | none => []) s.partErs
      (.archFind (l.nat? "from") (l.nat? "to") (tm "since") (tm "until") (l.nat? "kind") (l.has "unsent") (l.has "unacked")
        most (l.nat? "list"))) ∧
  (let range : Option (Nat × Nat) := match l.nat? "from", l.nat? "to" with | some a, some b => some (a, b) | _, _ => none
   let list : Option (Nat × Nat) := (l.nat? "list").map (fun a => (a, (l.nat? "n").getD 1))
   Issues (.archMark l) s
      { feat := some .stacks,
        keys := [("from", .int 0 (2 ^ 32 - 1)), ("to", .int 0 (2 ^ 32 - 1)), ("list", .int 0 (2 ^ 32 - 1)),
                 ("n", .int 1 65535), ("set", .words ["SENT", "ACKED"]), ("clear", .words ["SENT", "ACKED"])] } .stacks l
      (match list with
        | some (a, n) => erIf (l.has "from" || l.has "to") erExtra ++ erIf (!l.has "n") erMissing ++ listErs a n
        | none => erIf range.isNone erMissing ++ erIf (l.has "n") erExtra) s.partErs
      (.archMark range list (lineMarks l "set") (lineMarks l "clear"))) ∧
  Issues (.archDrop l) s { feat := some .stacks, keys := [("up", .int 0 (2 ^ 32 - 1))] } .stacks l
      (erIf (!l.has "up") erMissing) s.partErs (.archDrop ((l.nat? "up").getD 0)) ∧
  (let n := (l.posNat? 0).getD 0
   let a := (l.nat? "slip").getD 0x18000
   Issues (.porterGo l) s
      { minPos := 1, pos := [("ch", .int 0 3), ("block", .any)],
        keys := [("slip", .int 0 (2 ^ 32 - 1)), ("max", .int 1 65535)] } (.porter (Fin.ofNat 4 n)) l
      (s.chanAbsent n ++ erIf (!l.has "slip") erMissing ++
        (match l.at? 1 with
          | none => []
          | some (.block k) => erIf (decide (4096 < k)) (erRange "block")
          | some _ => [erRange "block"]) ++
        erIf (!inCarrels a 32 || decide (a % 32 ≠ 0)) (erRange "slip")) []
      (.porterGo n a ((l.nat? "max").getD 256) (match l.blockGot with | .good o => some o | _ => none)
        (match l.origin with | .port p => s.framed p | .order _ => false))) ∧
  (let n := (l.posNat? 0).getD 0
   Issues (.collateFeed l) s
      { minPos := 1, pos := [("n", .int 0 3), ("payload", .any)],
        keys := [("from", .int 0 (2 ^ 32 - 1)), ("n", .int 1 4096)] } (colQueue n) l
      (s.colAbsent n ++
        (match lineSource l with
          | some (a, k) => erIf (l.at? 1).isSome erExtra ++ erIf (!l.has "n") erMissing ++ carrelErs a k "from"
          | none => erIf (l.has "n") erExtra ++ dataErs l 1 ++
              erIf ((l.at? 1).isSome && decide ((storeData l 1).length = 0)) (erRange "n"))) (s.closedErs n)
      (.collateFeed n (storeData l 1) (lineSource l)) ∧
   Issues (.collateClose l) s
      { minPos := 1, pos := [("n", .int 0 3)], keys := [("expect", .intOr 0 (2 ^ 32 - 1) ["NONE"])] } (colQueue n) l
      (s.colAbsent n ++
        s.late (erIf ((s.col n).isOpen && decide (2 ^ (s.col n).width ≤ (l.nat? "expect").getD 0)) (erRange "expect")))
      (s.closedErs n) (.collateClose n ((l.arg "expect").map (fun a => (argInt a).map Int.toNat))))

/-- ORDER STORE, SET, ERASE and RUN. A store checks each line as it would run (21_orders R540). It rests in part on the
model's own choices and readings, log entry 60. -/
def Obligations.OrderLinesIssueTickets : Prop := ∀ (l : Line) (s : State),
  (let k := lineOrder l
   let lines : List String := match l.blockGot with
     | .good o => blockLines o
     | .absent => s.orders.draft
     | _ => []
   let x := lineStore l lines
   let known : Bool := match l.blockGot with | .good _ => true | .absent => true | _ => false
   let found := if known && s.orders.checking.isNone then s.orderLinesErs k lines else []
   Issues (.orderStore l) s
      { order := false, minPos := 1, pos := [("k", .int 0 31), ("block", .data 4096)], keys := settingKeys ++ [("name", .any)] }
      .stacks l
      (nameErs l ++ (match l.at? 1 with | some (.octets _) => [erExtra] | _ => []) ++ s.settingErs l { x with trigger := .none } ++
        erIf (decide (16 < lines.length) || decide (448 < textOctets lines)) ⟨"FULL", ["ORDER"]⟩ ++ found)
      (s.orderBusyErs k) (.orderStore k x) ∧
   Issues (.orderSet l) s
      { order := false, minPos := 1, pos := [("k", .int 0 31)], keys := settingKeys ++ [("trigger", .word ["NONE"])] } .stacks l
      (s.emptyErs l ++ s.settingErs l ((s.slot k).getD emptySlot)) [] (.orderSet k l.named) ∧
   Issues (.orderErase l) s { order := false, minPos := 1, pos := [("k", .int 0 31)] } .stacks l (s.emptyErs l)
      (s.orderBusyErs k) (.orderErase k) ∧
   Issues (.orderRun l) s { order := false, minPos := 1, pos := [("k", .int 0 31)] } .orders l (s.emptyErs l) []
      (.orderRun k))

/-- FRAME SEND and LINK WAKE build their frame into the TX ring, TARIFF SCHED records its change, and each issues its
ticket, the two last with a start fixed to a Daybook time (14_frames R387, 15_link R422, 16_ledger R440). It rests in
part on the model's own choices and readings, log entries 24, 36, 50, 52 and 68. -/
def Obligations.BuildingLinesIssueTickets : Prop := ∀ (l : Line) (s : State),
  (let fmt := fmtOf ((l.word? "fmt").getD "S")
   let f := s.sendFrame l
   let n := s.number f
   let r := (n.2.unstage l).ringPut n.1 none .data []
   let es := (if fmt = .d then s.needs .deep else []) ++ erIf (!l.has "fmt") erMissing ++
      erIf (fmt != .m && !l.has "dst") erMissing ++ payloadErs l 0 ++
      s.late (erIf (!s.profile.fmts.contains fmt) (erRange "fmt")) ++
      erIf (fmt == .d && (match f.dst with | .ext _ => true | _ => false)) (erRange "dst") ++
      erIf (fmt != .s && l.has "sec" && f.sec != 0) (erRange "sec") ++ s.secErs l ++ s.chanErs l "c" ++
      (if l.has "data" then s.late (erIf f.tooLong (erRange "payload")) else erIf f.tooLong (erRange "payload")) ++
      s.ringErs l f ++ erIf (s.noTicketFor (ownerOf l.origin)) ⟨"NOTICKET", []⟩
   Does (.frameSend l) s
      { ticketed := true, pos := [("payload", .any)],
        keys := [("fmt", .word ["S", "M", "D"]), ("dst", .int 0 (2 ^ 64 - 1)), ("pan", .int 0 65535),
                 ("ext", .word ["YES", "NO"]), ("ack", .word ["YES", "NO"]), ("mfmt", .word ["A", "B"]),
                 ("chan", .any), ("plan", .any)] ++ secKeys } l es
      (fun t => ∃ k, s.nextNumber = some k ∧
        Issued s t l k .link (.frameSend n.1 (s.linePlan l) (s.lineChan l) r.2) none ∧ t.besideTickets = r.1.besideTickets)) ∧
  (let e := ((l.nat? "dst").bind s.entryShort).getD noEntry
   let f := s.childFrame l e 0
   let n := s.number f
   let r := (n.2.unstage l).ringPut n.1 none .data []
   let at_ := s.nextSniff e
   Does (.linkWake l) s
      { ticketed := true, feat := some .parent, pos := [("payload", .any)], keys := [("dst", .int 0 65535)] ++ secKeys } l
      (erIf (!l.has "dst") erMissing ++ payloadErs l 0 ++
        s.late (erIf (l.has "dst" && (!e.valid || e.sniffEvery == 0)) (erRange "dst")) ++ s.childErs l f ++ s.needRole 2 ++
        s.late (erIf (!s.profile.wakes) ⟨"DENIED", ["PROFILE"]⟩) ++ erIf (s.noTicketFor (ownerOf l.origin)) ⟨"NOTICKET", []⟩)
      (fun t => ∃ k, s.nextNumber = some k ∧
        Issued s t l k .link (.linkWake n.1 e.idx at_ r.2) (some (at_ - s.leadMs * tickMs)) ∧
        t.besideTickets = r.1.besideTickets)) ∧
  (let i := (l.posNat? 0).getD 8
   let b := s.effective i (((l.arg "at").bind (s.timeOf l)).getD 0)
   Does (.tariffSched l) s { ticketed := true, order := false, minPos := 1, pos := [("t", .int 0 7)], keys := [("at", .time)] } l
      (erIf (!l.has "at") erMissing ++ erIf ((s.tariff i).isNone || decide (s.ledger.active = i)) (erRange "t") ++
        erIf (decide (2 ^ 64 ≤ b)) (erRange "at") ++
        (if l.has "after" then [] else erIf s.ledger.pend.isSome (erState "LEDGER" "CHANGEPENDING")) ++
        erIf (s.noTicketFor (ownerOf l.origin)) ⟨"NOTICKET", []⟩)
      (fun t => ∃ k, s.nextNumber = some k ∧ Issued s t l k .ledger (.tariffSched i b) (some b) ∧
        (s.ledger.pend = none → t.ledger.pend = some (i, b) ∧ t.ledger.pendTicket = some k ∧
          t.edition .ledger = s.edition .ledger + 1 ∧
          (vget t.ledger.journal ((s.ledger.row + 1) % 32) none).map (·.kind) = some .sched ∧ t.cfg = s.cfg ∧
          t.store = s.store) ∧
        (s.ledger.pend.isSome = true → t.besideTickets = s.besideTickets)))

/-! ## Register writes (05_register_file R118, R122, R126) -/

/-- Every row that writes a register: where the line names a register of the row's kind and is accepted, the register takes
the word written, its read-only bits as they read, and the line is answered with the value as written; a reserved address
takes nothing. A rate that DESK_CONFIG takes from elsewhere than the Desk does not wait for a reply. It rests in part on the
model's own choices and readings, log entries 31, 33 and 35. -/
def Obligations.RegisterWritesTakeEffect : Prop := ∀ (f : WriteForm) (l : Line) (s : State),
  (lineClass f l = .plain → Writes (.registerWrite f l) s f l) ∧
  (lineClass f l = .counter → Writes (.counterWrite f l) s f l) ∧
  (lineClass f l = .eventsPend → Writes (.eventsPendWrite f l) s f l) ∧
  (lineClass f l = .sysAlert → Writes (.sysAlertClear f l) s f l) ∧
  (lineClass f l = .carrelLost → Writes (.carrelLostClear f l) s f l) ∧
  (lineClass f l = .ordersDamaged → Writes (.ordersDamagedClear f l) s f l) ∧
  (lineClass f l = .desk → Writes (.deskConfigWrite f l) s f l) ∧
  (lineClass f l = .chute → Writes (.chuteConfigWrite f l) s f l) ∧
  (lineClass f l = .dorm → Writes (.dormConfigWrite f l) s f l) ∧
  (lineClass f l = .padDrive → Writes (.sysPadDriveWrite f l) s f l) ∧
  (lineClass f l = .vbatWarn → Writes (.pwrVbatWarnWrite f l) s f l) ∧
  (lineClass f l = .radioChan → Writes (.radioChanWrite f l) s f l) ∧
  (lineClass f l = .radioTx → Writes (.radioTxConfigWrite f l) s f l) ∧
  (lineClass f l = .radioPlan → Writes (.radioPlanWrite f l) s f l) ∧
  (lineClass f l = .modem → Writes (.modemConfigWrite f l) s f l) ∧
  (lineClass f l = .census → Writes (.censusConfigWrite f l) s f l) ∧
  (lineClass f l = .frame → Writes (.frameConfigWrite f l) s f l) ∧
  (lineClass f l = .filter → Writes (.frameFilterWrite f l) s f l) ∧
  (lineClass f l = .link → Writes (.linkConfigWrite f l) s f l) ∧
  (lineClass f l = .tickets → Writes (.ticketsConfigWrite f l) s f l) ∧
  (lineClass f l = .masks → Writes (.eventsMaskWrite f l) s f l) ∧
  (lineClass f l = .attnCfg → Writes (.eventsAttnConfigWrite f l) s f l) ∧
  (lineClass f l = .vault → Writes (.vaultConfigWrite f l) s f l) ∧
  (lineClass f l = .vaultFc → Writes (.vaultFcWrite f l) s f l) ∧
  (lineClass f l = .feed → Writes (.collateFeedWrite f l) s f l) ∧
  (lineClass f l = .compare → Writes (.collateCompareWrite f l) s f l) ∧
  (lineClass f l = .gpioOut → Writes (.gpioOutWrite f l) s f l) ∧
  (lineClass f l = .gpio → Writes (.gpioConfigWrite f l) s f l) ∧
  (lineClass f l = .tamper → Writes (.tamperConfigWrite f l) s f l)

/-- 05_register_file R116: a reserved address of a present block reads 0; WR of 0 to it is accepted and has no effect, and
WR of any other value is refused with RANGE value. -/
def Obligations.ReservedAddressesTakeNothing : Prop := ∀ (l : Line) (s : State) (a v : Nat) (x : Instr × WriteClass),
  a % 4 = 0 → a < 0x2800 → regAt a = none → s.addrAbsent a = [] → s.orders.checking = none →
  (l.posNat? 0 = some a → l.nat? "n" = none →
    s.Accepts { minPos := 1, pos := [("address", .int 0 0x27FF)], keys := [("n", .int 1 16)] } l [] →
      ∃ t, exec (.rd l) s = .next t ∧ Answered s t l true [okLine [w "RD", .w (.hex 4 a), .w (.hex 8 0)]] ∧
        t.besideReply = s.besideReply) ∧
  (l.posNat? 0 = some a → l.posInt? 1 = some (v : Int) → v < 2 ^ 32 → x ∈ writeRows .wr l → lineClass .wr l = x.2 →
    s.listens l.origin = true → firstEr (s.formErs (writeForm .wr l) l) = none →
    (v = 0 → ∃ t, exec x.1 s = .next t ∧ Ended s t l .ok (okLine [w "WR", .w (.hex 4 a), .w (.hex 8 0)]) ∧
      t.besideReply = s.besideReply) ∧
    (v ≠ 0 → exec x.1 s = .next ((s.took l.origin).refuse l (erRange "value"))))

/-- 05_register_file R119, R120: among the errors of a WR are, for a register that is all read-only, DENIED READONLY, and
for a 1 in a reserved bit, RANGE value; a word read gives 0 in write-only bits. It rests in part on the model's own choices
and readings, log entry 33. -/
def Obligations.WriteRefusals : Prop := ∀ (l : Line) (s : State) (a v : Nat),
  l.posNat? 0 = some a → l.posInt? 1 = some (v : Int) → 2 ≤ l.pos.length → v < 2 ^ 32 → a % 4 = 0 → a < 0x2800 →
    s.orders.checking = none → s.addrAbsent a = [] → ∀ r, regAt a = some r →
    (r.readOnly = true → ⟨"DENIED", ["READONLY"]⟩ ∈ s.wrErs l) ∧
    (BitVec.ofNat 32 v &&& ~~~(r.mask (fun _ => true)) ≠ 0 → erRange "value" ∈ s.wrErs l) ∧
    s.readAt a &&& r.mask (fun x => x == .wo) = 0

/-- 05_register_file R118, R132: writing a counter sets it and clears its WRAP bit, and nothing else of it remains. -/
def Obligations.CounterWriteSetsValue : Prop := ∀ (s : State) (v : Word),
  (∀ r ∈ allRegs, r.counter = true →
    r.read (r.write v s) = v) ∧
  (Counter.write v 0).val = v ∧ (Counter.write v 0).wrap = false

/-- 05_register_file R118 and the chapters of the registers: a 1 written to a write-one-to-clear bit clears it, and a 0
leaves it; so for the alerts, the lost carrels, the damaged orders and, but for conditions that hold, the pending
events. -/
def Obligations.WriteOneClears : Prop := ∀ (s : State) (v : Word),
  (∀ r, regAt 0x0004 = some r → (r.write v s).sys.alert = s.sys.alert &&& ~~~(v.setWidth 8 &&& 0x78#8)) ∧
  (∀ r, regAt 0x1804 = some r → ∀ i, i < 16 → (r.read (r.write v s)).getLsbD i =
    ((r.read s).getLsbD i && (!v.getLsbD i || decide (8 ≤ i)))) ∧
  (∀ r, regAt 0x1E10 = some r → (r.write v s).orders.damaged = s.orders.damaged &&& ~~~v) ∧
  (∀ r, regAt 0x2210 = some r → s.orders.run = none → ∀ i, i < 32 → (r.write v s).events.pend.getLsbD i =
    (s.events.pend.getLsbD i && (!v.getLsbD i || s.events.cond.getLsbD i)))

/-! ## Events: supply, pins and resets -/

/-- The resets: each where its cause applies (08_bringup R208–R210, 03_power R43, R51–R54, 02_pins R19, R35, 09_dormant
R241). While another cause holds the part, the one of higher precedence is reported and the other noted beside it. It
rests in part on the model's own choices and readings, log entries 2, 11, 18 and 78. -/
def Obligations.ResetsLeaveTableState : Prop := ∀ s : State,
  Leads .por s (fun t => ResetLeaves s t .por .por ∧ t.tamper.latched = false ∧ t.day.keeper = 0 ∧ t.day.cont = false ∧
    t.sys.testMode = false ∧ (s.pads.testEn = false → t.pads.testEn = false)) ∧
  (s.borWatched = true → s.holding = false → Resets .borRun s .borRun .borRun (fun t => t.sys.also = 0)) ∧
  (s.borWatched = true → s.holding = true → Leads .borRun s (fun t =>
    ResetLeaves s t (Cause.borRun.first s.sys.cause) .borRun)) ∧
  (s.borWatched = false → exec .borRun s = .next s) ∧
  (s.resettable = true → s.dregLowMode = true → s.sys.hold = .none →
    Resets .borDormant s .borDormant .none (fun t => t.pwr.borDormantLatch = true ∧ t.day.cont = false)) ∧
  (s.resettable = true → s.dregLowMode = true → s.sys.hold = .nrst → Leads .borDormant s (fun t =>
    ResetLeaves s t (Cause.borDormant.first s.sys.cause) .nrst)) ∧
  (s.dregLowMode = false → exec .borDormant s = .next s) ∧
  (let s0 : State := { s with pads := { s.pads with nrst := false } }
   (s.resettable = true → s.holding = false → Leads .nrstReset s (fun t => ResetLeaves s0 t .pin .nrst ∨
      s.unclocked = true ∧ ResetLeaves s0 t (Cause.pin.first s.sys.cause) .nrst)) ∧
   (s.resettable = true → s.holding = true → Leads .nrstReset s (fun t =>
      ResetLeaves s0 t (Cause.pin.first s.sys.cause) (if s.sys.hold = .borRun then .borRun else .nrst) ∧
      (s.sys.cause.rank < Cause.pin.rank → t.sys.also.getLsbD Cause.pin.code = true))) ∧
   (s.resettable = false → exec .nrstReset s = .next s0)) ∧
  (s.booting = true → s.sys.stage ≠ .power → Leads .seqWatchdog s (fun t =>
    ResetLeaves s t .seqWatchdog .none ∧ t.sys.causeStage = s.workStage.code)) ∧
  (s.booting = false → exec .seqWatchdog s = .next s) ∧
  (∀ r q, s.pwr.state = .entry r q → s.holding = false →
    Resets .entryWatchdog s .seqWatchdog .none (fun t => t.sys.causeStage = 7)) ∧
  (∀ o, s.sys.pendingReset = some o → s.resettable = true → s.holding = false →
    (match o with
      | .order _ => True
      | .port .desk => ∀ x ∈ s.dport.out, x.kind ≠ .resetReply
      | .port .chute => s.sys.resetReplyRead = true ∧ s.pads.chuteCs = true) →
    Resets .commandReset s .command .none (fun t => t.sys.also = 0)) ∧
  (s.sys.pendingReset = some (.port .chute) → s.sys.replySince + 100 * tickMs ≤ s.day.cyc → s.resettable = true →
    s.holding = false → Resets .chuteReplyTimeout s .command .none (fun t => t.sys.also = 0)) ∧
  (s.day.cyc < s.sys.replySince + 100 * tickMs → exec .chuteReplyTimeout s = .next s)

/-- Supply and pins where no reset follows, each at every state: the power-on detector and the comparator release the part,
into the test state where TEST_EN is high and held by NRST where that is low; NRST is sampled; TEST_EN enters the test state;
VDDIO goes, and with it ATTN in Dormant, and returns, and the partial input of the ports is dropped; and the oscillator
restarts (02_pins R17, R19, R20, R35, 03_power R43, R51, R53, R55). It rests in part on the model's own choices and readings,
log entries 10, 11, 18 and 40. -/
def Obligations.SupplyEventsTakeEffect : Prop := ∀ s : State,
  (s.sys.hold = .por → s.pads.testEn = true →
    exec .powerOn s = .next { s with sys := { s.sys with testMode := true, hold := .test } }) ∧
  (s.sys.hold = .por → s.pads.testEn = false → s.pads.nrst = true →
    exec .powerOn s = .next { s with sys := { s.sys with hold := .none } }) ∧
  (s.sys.hold = .por → s.pads.testEn = false → s.pads.nrst = false →
    exec .powerOn s = .next { s with sys := { s.sys with hold := .nrst, also := s.sys.also ||| 2 } }) ∧
  (s.sys.hold ≠ .por → exec .powerOn s = .next s) ∧
  (s.sys.hold = .borRun →
    exec .borRelease s = .next { s with sys := { s.sys with hold := if s.pads.nrst then .none else .nrst } }) ∧
  (s.sys.hold ≠ .borRun → exec .borRelease s = .next s) ∧
  (s.sys.hold = .nrst → exec .nrstRelease s = .next { s with
    pads := { s.pads with nrst := true }
    sys := { s.sys with hold := .none, dregLow := false } }) ∧
  (s.sys.hold ≠ .nrst → exec .nrstRelease s = .next { s with pads := { s.pads with nrst := true } }) ∧
  (s.sys.hold ≠ .por → exec .testModeEntry s = .next { s with
    pads := { s.pads with testEn := true }
    sys := { s.sys with testMode := true, hold := .test } }) ∧
  (s.sys.hold = .por → exec .testModeEntry s = .next { s with pads := { s.pads with testEn := true } }) ∧
  (∃ t, exec .vddioLoss s = .next t ∧ t.pwr = { s.pwr with vddioOk := false } ∧
    (s.pwr.state = .dormant → t.events.attn = false) ∧ t.events.pend = s.events.pend ∧
    t.besideEvents = State.besideEvents { s with pwr := { s.pwr with vddioOk := false } }) ∧
  (s.pwr.vddioOk = true → exec .vddioRestore s = .next s) ∧
  (s.pwr.vddioOk = false → ∃ t, exec .vddioRestore s = .next t ∧ t.pwr = { s.pwr with vddioOk := true } ∧
    t.dport = { s.dport with fifo := [], raw := [], lost := ⟨false, false, false⟩, sawCr := false, block := none } ∧
    t.cport = { s.cport with fifo := [], raw := [], lost := ⟨false, false, false⟩, sawCr := false, block := none } ∧
    t.events.pend = s.events.pend ∧ t.besideEvents = State.besideEvents { s with
      pwr := { s.pwr with vddioOk := true }
      dport := { s.dport with fifo := [], raw := [], lost := ⟨false, false, false⟩, sawCr := false, block := none }
      cport := { s.cport with fifo := [], raw := [], lost := ⟨false, false, false⟩, sawCr := false, block := none } }) ∧
  exec .oscillatorRestart s = .next s

/-- The sequence of bring-up: each stage's end leads to the next stage, with what the stage does (08_bringup R212–R218,
Tables 8.3, 8.4; 10_daybook R264; 16_ledger R447; 17_trim R458; 18_noise_vault R470; 21_orders R538). It rests in part
on the model's own choices and readings, log entries 10, 12, 15, 16, 17 and 79. -/
def Obligations.BringupPassesStages : Prop := ∀ (s : State) (temp : Int) (keeper ticks : Nat) (found : RecordFindings)
    (damaged : Word),
  (s.inStage .power = true → Leads (.powerStageEnd temp keeper ticks) s (fun t =>
    t.sys.stage = .record ∧ t.sys.oscOn = true ∧ t.day.keeper = keeper % 2 ^ 48 ∧ t.day.temp = temp ∧
    (s.sys.continuous = false → t.day.now = s.day.now) ∧ t.record = s.record ∧ t.store = s.store)) ∧
  (s.inStage .record = true → Leads (.bringupRecord found) s (fun t =>
    t.sys.stage = .trim ∧ t.sys.bootCount = (countersOf ((s.damaged found).twinData 2)).boots.inc ∧
    (t.day.keeperOk = false → s.eventPresent 20 = true → t.events.cond.getLsbD 20 = true))) ∧
  (s.inStage .record = true → s.blank = true → Leads (.bringupRecord ⟨[], []⟩) s (fun t =>
    t.sys.stage = .trim ∧ t.cfg = s.newCfg ∧ t.sys.alert.getLsbD 3 = true ∧ t.vault.sealed = false ∧
    t.vault.eraseMask = 0)) ∧
  (s.inStage .trim = true → Leads .bringupTrim s (fun t =>
    t.sys.stage = .ledger ∧ t = State.bump
      { s with trim := { s.trim with sel := trimOf (s.twinData 17) }, sys := { s.sys with stage := .ledger } } .sys)) ∧
  (s.inStage .ledger = true → s.sys.alert.getLsbD 3 = true → Leads .bringupLedger s (fun t =>
    t.sys.stage = .vault ∧ vget t.ledger.tariffs 0 none = some ⟨100, 3600⟩ ∧ t.ledger.active = 0 ∧ t.ledger.isOpen = true ∧
    t.ledger.spent = 0 ∧ t.ledger.recovered = false)) ∧
  (s.inStage .ledger = true → s.sys.alert.getLsbD 3 = false → Leads .bringupLedger s (fun t =>
    t.sys.stage = .vault ∧ t.ledger.isOpen = true)) ∧
  (s.inStage .vault = true → s.tamper.resp = none → Leads (.bringupVault true) s (fun t =>
    t.sys.stage = .orders ∧ t.noise.st = .ready ∧ (s.has .vault = true → t.noise.drbg.isSome = true) ∧
    t.tamper.owed = none ∧ t.tamper.resp = none)) ∧
  (s.inStage .vault = true → s.tamper.resp = none → Leads (.bringupVault false) s (fun t =>
    t.sys.stage = .orders ∧ t.noise.st = .failed ∧ t.noise.failTest = 3 ∧ t.noise.drbg = none ∧
    (s.eventPresent 80 = true → t.events.cond.getLsbD 80 = true) ∧ t.tamper.owed = none ∧ t.tamper.resp = none)) ∧
  (s.inStage .orders = true → s.orders.loaded = false → Leads (.bringupOrders damaged) s (fun t =>
    t.sys.stage = .orders ∧ t.orders.loaded = true ∧ ∀ k, k < 32 →
      (damaged.getLsbD k = true → vget t.orders.slots k none = none ∧ t.orders.damaged.getLsbD k = true) ∧
      (damaged.getLsbD k = false → vget t.orders.slots k none = s.recordOrder k ∧
        t.orders.damaged.getLsbD k = (octetAt (vget s.record.orders k ([], [])).1 0 != 0 && (s.recordOrder k).isNone)))) ∧
  (s.inStage .orders = true → s.orders.loaded = true → Leads .bringupReady s (fun t =>
    t.sys.stage = .ready ∧ t.sys.alertEvents = [] ∧ t.pwr.wakeInEdge = none ∧
    (∃ more, t.dport.out = s.dport.out ++ [{ kind := .ready false, toks := [w "+READY", w "BOOT",
      kw "cause" s.sys.cause.name] }] ++ more)))

/-! ## Events: the ports -/

/-- Octets and breaks of the Desk: what each does to the FIFO, the counters and the rate (04_desk R66–R74, R80, R104,
09_dormant R249). It rests in part on the model's own choices and readings, log entries 8, 10, 29, 31 and 72. -/
def Obligations.DeskOctetsTakeEffect : Prop := ∀ (s : State) (b : Byte) (n m : Nat),
  (s.pwr.vddioOk = true → s.pwr.state = .wake 3 false → ∀ low, exec (.deskOctet b low) s =
    .next { s with desk := { s.desk with lostWake := s.desk.lostWake.inc } }) ∧
  (s.portHears .desk = false → s.pwr.state ≠ .wake 3 false → ∀ low, exec (.deskOctet b low) s = .next s) ∧
  (s.portHears .desk = true → s.pwr.state ≠ .wake 3 false → s.dport.overruns b = false →
    exec (.deskOctet b false) s = .next { s with
      pwr := { s.pwr with idleSince := s.day.cyc }
      desk := { s.desk with breakArmed := false }
      pads := { s.pads with deskRx := true }
      dport := (s.dport.octet (s.framed .desk) { b := b, drop := false, bad := false, at_ := s.now }).settled }) ∧
  (s.portHears .desk = true → s.pwr.state ≠ .wake 3 false → s.dport.overruns b = true →
    Leads (.deskOctet b false) s (fun t => t.desk.overrun = s.desk.overrun.inc ∧ (s.quiet = false → t.pends 124) ∧
      t.tickets = s.tickets)) ∧
  (s.portHears .desk = true → s.pwr.state ≠ .wake 3 false → s.dport.block = none →
    exec (.deskOctet b true) s = .next { s with
      pwr := { s.pwr with idleSince := s.day.cyc }
      desk := { s.desk with breakArmed := false, framing := s.desk.framing.inc }
      pads := { s.pads with deskRx := false }
      dport := PortSt.settled { s.dport with
        lost := { s.dport.lost with char := true }
        sawCr := false
        raw := s.dport.raw ++ [{ b := b, drop := false, bad := true, at_ := s.now }] } }) ∧
  (∀ x, s.portHears .desk = true → s.pwr.state ≠ .wake 3 false → s.dport.block = some x → s.dport.lines ≠ [] →
    Leads (.deskOctet b true) s (fun t => t.desk.framing = s.desk.framing.inc ∧ t.dport.block = none ∧
      t.dport.lines = s.dport.lines.dropLast ∧
      ∃ y more, t.dport.out = s.dport.out ++ y :: more ∧ y.toks.head? = some (w "ER"))) ∧
  (s.pwr.vddioOk = true → s.dport.announced = true → s.pwr.state ≠ .dormant → s.sys.testMode = false →
    s.dport.block = none → exec .deskBreak s = .next { s with
      pwr := { s.pwr with idleSince := s.day.cyc }
      desk := { s.desk with breakArmed := true }
      pads := { s.pads with deskRx := false }
      dport := PortSt.settled
        { s.dport with fifo := [], raw := [], lost := ⟨false, false, false⟩, sawCr := false, block := none } }) ∧
  (s.desk.breakArmed = false ∨ s.pwr.vddioOk = false → exec (.autobaudCharacter n m) s = .next s) ∧
  (∀ r, s.desk.breakArmed = true → s.pwr.vddioOk = true → rateOfStart n = some r → 36 * n ≤ 10 * m → 10 * m ≤ 44 * n →
    Leads (.autobaudCharacter n m) s (fun t => t.desk.rate = r ∧ t.desk.autobaud = true ∧ t.desk.breakArmed = false ∧
      t.desk.ratePending = none ∧ fld t.cfg.desk.desk 3 0 = r ∧
      ∃ x, t.dport.out = s.dport.out ++ [x] ∧ x.toks = okLine t.deskToks)) ∧
  (s.desk.breakArmed = true → s.pwr.vddioOk = true →
    rateOfStart n = none ∨ 10 * m < 36 * n ∨ 44 * n < 10 * m → exec (.autobaudCharacter n m) s = .next { s with
      desk := { s.desk with breakArmed := false }
      pads := { s.pads with deskRx := true } }) ∧
  (s.pwr.vddioOk = false → exec .deskTxOctetEnd s = .next s) ∧
  (∀ c cs, s.pwr.vddioOk = true → s.desk.rateAtOctet = false → s.pwr.attemptBy ≠ some (.port .desk) →
    s.dport.sending = some (c :: cs) →
    exec .deskTxOctetEnd s = .next { s with dport := { s.dport with sending := some cs } }) ∧
  (s.pwr.vddioOk = true → s.desk.rateAtOctet = false → s.pwr.attemptBy ≠ some (.port .desk) → s.dport.sending = none →
    s.dport.echo ≠ [] → exec .deskTxOctetEnd s = .next { s with dport := { s.dport with echo := s.dport.echo.tail } }) ∧
  (∀ r, s.pwr.vddioOk = true → s.desk.rateAtOctet = true → s.desk.ratePending = some r →
    Leads .deskTxOctetEnd s (fun t => t.desk.rate = r ∧ t.desk.ratePending = none ∧ t.desk.rateAtOctet = false ∧
      t.dport = s.deskSent))

/-- The Chute's transactions, lines with errors, blocks that stay away, and lines that have been sent (04_desk R75–R79,
R86, R90, R101, 06_tickets R170, 07_events R203, 08_bringup R229). It rests in part on the model's own choices and
readings, log entries 10, 12, 28, 31, 38 and 72. -/
def Obligations.PortEventsTakeEffect : Prop := ∀ (s : State) (p : Port) (b : Byte) (mode3 : Bool) (text : List Byte)
    (lost : LostMarks),
  (let sdi : PadsSt := { s.pads with chuteSdi := b.getLsbD 0 }
   let out (v : Byte) : ChuteTx := { s.chute with sdo := v, octets := s.chute.octets + 1 }
   (s.has .chute = true → exec (.chuteCsFall mode3) s = .next { s with
     pads := { s.pads with chuteCs := false, chuteSck := mode3 }
     chute :=
      {
        active := true, mode3 := mode3, octets := 0, discard := !s.portHears .chute
        status := if s.cport.announced then BitVec.ofNat 16 (b2n s.cport.busy * 32768 + s.outCount .chute % 32768) else 0xFFFF
      } }) ∧
   (s.has .chute = false → exec (.chuteCsFall mode3) s = .next s ∧ exec .chuteCsRise s = .next s) ∧
   (s.has .chute = true → Leads .chuteCsRise s (fun t => t.pads.chuteCs = true ∧ t.chute.active = false ∧
     t.cport = s.cport ∧ t.dport = s.dport ∧ t.tickets = s.tickets)) ∧
   (s.chute.active = true → Leads (.chuteOctet none) s (fun t => t.chute.active = true ∧
     t.chute.octets = s.chute.octets + 1 ∧ t.cport.fifo = s.cport.fifo ∧ t.cport.lines = s.cport.lines ∧
     t.cport.block = s.cport.block)) ∧
   (s.chute.active = false → exec (.chuteOctet none) s = .next s ∧ exec (.chuteOctet (some b)) s = .next s) ∧
   (s.chute.active = true → s.chute.octets < 2 → exec (.chuteOctet (some b)) s = .next { s with
     pads := sdi
     chute := out (BitVec.ofNat 8 (s.chute.status.toNat / (if s.chute.octets = 0 then 256 else 1))) }) ∧
   (s.chute.active = true → 2 ≤ s.chute.octets → s.chute.discard = true →
     exec (.chuteOctet (some b)) s = .next { s with pads := sdi, chute := out 0xFF }) ∧
   (s.chute.active = true → 2 ≤ s.chute.octets → s.chute.discard = false → s.cport.block = none → s.cport.out = [] →
     b = 0xFF → exec (.chuteOctet (some b)) s = .next { s with pads := sdi, chute := out 0xFF }) ∧
   (∀ x rest, s.chute.active = true → 2 ≤ s.chute.octets → s.chute.discard = false → s.cport.block = none →
     s.sdoDriven = true → s.cport.out = x :: rest → x.due ≤ s.day.cyc → s.maySend .chute x = false →
     s.outCount .chute ≠ 0 → b = 0xFF → exec (.chuteOctet (some b)) s = .next { s with
       pads := sdi
       chute := out ((x.wire true).getD s.cport.partialRead 0xFF)
       cport := { s.cport with partialRead := s.cport.partialRead + 1 } }) ∧
   (s.chute.active = true → 2 ≤ s.chute.octets → s.chute.discard = false → s.cport.block = none → s.portHears .chute = true →
     s.cport.out = [] → b ≠ 0xFF → s.cport.overruns b = false → exec (.chuteOctet (some b)) s = .next { s with
       pads := sdi
       chute := out 0xFF
       pwr := { s.pwr with idleSince := s.day.cyc }
       cport := (s.cport.octet true { b := b, drop := false, bad := false, at_ := s.now }).settled })) ∧
  ((s.port p).block = none → exec (.blockTimeout p) s = .next s) ∧
  (∀ x, (s.port p).block = some x → (s.port p).lines ≠ [] → Leads (.blockTimeout p) s (fun t =>
    (t.port p).block = none ∧ (t.port p).lines = (s.port p).lines.dropLast ∧ t.tickets.pool = s.tickets.pool ∧
    ∃ y more, (t.port p).out = (s.port p).out ++ y :: more ∧ y.toks.head? = some (w "ER"))) ∧
  (s.listens (.port p) = false → exec (.lineError p text lost) s = .next s) ∧
  (∀ tag e, s.listens (.port p) = true → lexLine (s.lineMode p) text lost = .bad tag e →
    exec (.lineError p text lost) s = .next ((s.took (.port p)).refuse
      { origin := .port p, tag := tag, pos := [], named := [], block := .absent } e)) ∧
  (∀ x, s.listens (.port p) = true → lexLine (s.lineMode p) text lost = .good x → verbNamed x.verb = none →
    exec (.lineError p text lost) s = .next ((s.took (.port p)).refuse
      { origin := .port p, tag := x.tag, pos := [], named := [], block := .absent } ⟨"UNKNOWN", [x.verb]⟩)) ∧
  (s.listens (.port p) = true → s.framed p = true → lexLine (s.lineMode p) text lost = .empty →
    exec (.lineError p text lost) s = .next (s.took (.port p))) ∧
  ((s.port p).out = [] → exec (.lineSent p) s = .next s) ∧
  (∀ x rest, (s.port p).out = x :: rest → s.maySend p x = false → exec (.lineSent p) s = .next s) ∧
  (∀ x rest, (s.port p).out = x :: rest → s.maySend p x = true → Leads (.lineSent p) s (fun t =>
    (∃ more, (t.port p).out = rest ++ more) ∧ t.cfg = s.cfg ∧ t.store = s.store ∧
    (∀ n, x.kind = .dn n → s.holdOn p = false → t.ticket? n = none) ∧
    (∀ n y, x.kind = .dn n → s.holdOn p = true → s.ticket? n = some y → (t.ticket? n).map (·.st) = some .held) ∧
    (∀ n, x.kind = .ret n → t.ticket? n = none) ∧
    (x.kind = .ready false → p = .desk → s.quiet = false → t.pends 0 ∧ t.pwr.measBusy = true) ∧
    (x.kind = .ready true → p = .desk → s.quiet = false → t.pends 1 ∧ t.pwr.measBusy = true) ∧
    (x.kind = .boot → p = .desk → t.sys.bootSent = true) ∧
    (x.kind = .resetReply → p = .chute → t.sys.resetReplyRead = true)))

/-! ## Events: tickets, measurements and event lines -/

/-- A measurement ends: its readings, the levels they warn of, and the ticket that asked for it (03_power R58–R65). It
rests in part on the model's own choices and readings, log entries 10 and 12. -/
def Obligations.MeasurementsTakeEffect : Prop := ∀ (s : State) (vbat vddio vddpa : Nat),
  (s.pwr.measBusy = false → exec (.measurementDone vbat vddio vddpa) s = .next s) ∧
  (s.pwr.measBusy = true → Leads (.measurementDone vbat vddio vddpa) s (fun t =>
    t.pwr.vbat = BitVec.ofNat 16 vbat ∧ t.pwr.vddio = BitVec.ofNat 16 vddio ∧ t.pwr.vddpa = BitVec.ofNat 16 vddpa ∧
    t.pwr.measBusy = false ∧ t.pwr.vbatLow = decide (vbat < fld s.cfg.sys.vbatWarn 15 0) ∧
    t.pwr.vddpaLow = (if s.pwr.measHp then decide (vddpa < 3300) else s.pwr.vddpaLow) ∧
    t.edition .pwr = s.edition .pwr + 1 ∧ (1800 ≤ vbat → t.pwr.vregOk = true ∧ t.pwr.buckOk = true) ∧
    (vbat < fld s.cfg.sys.vbatWarn 15 0 → s.quiet = false → t.pends 16) ∧
    (s.pwr.measHp = true → vddpa < 3300 → s.quiet = false → t.pends 17) ∧
    (∀ x, s.running .pwr = some x → x.live = true → s.ticket? x.n = some x →
      Completed t x .done [kd "vbat" vbat, kd "vddio" vddio, kd "vddpa" vddpa] (s.edition .pwr + 1))))

/-- The head of a queue: overdue, cancelled by the ticket it waits for, stale, forbidden by a state, waiting for its
time, or started (06_tickets R155, R159–R163). It rests in part on the model's own choices and readings, log entries
10, 11, 36 and 69. -/
def Obligations.QueueHeadsAdvance : Prop := ∀ (s : State) (q : Queue) (x : Ticket),
  (s.head q = none → exec (.ticketHead q) s = .next s ∧ exec (.ticketTimedStart q) s = .next s) ∧
  (s.head q = some x → s.awake = false → exec (.ticketHead q) s = .next s ∧ exec (.ticketTimedStart q) s = .next s) ∧
  (s.head q = some x → x.unstarted = false ∨ x.timed = true → exec (.ticketHead q) s = .next s) ∧
  (s.head q = some x → s.awake = true → x.unstarted = true → x.timed = false → s.ticket? x.n = some x →
    (s.isOverdue x = true → Leads (.ticketHead q) s (fun t => ∃ ed, Completed t x .overdue [] ed)) ∧
    (s.isOverdue x = false →
      (∀ m, x.after = some m → s.awaited x m = none →
        exec (.ticketHead q) s = .next (s.updTicket x.n (fun y => { y with st := .waiting }))) ∧
      (∀ m r, x.after = some m → s.awaited x m = some r → r ≠ some .done → Leads (.ticketHead q) s (fun t =>
        ∃ ed, Completed t x .cancelled [kw "by" "AFTER", kd "after" m] ed)) ∧
      (((∀ m, x.after = some m → s.awaited x m = some (some .done))) →
        (∀ u e, x.guard = some (u, e) → (s.edition u).toNat ≠ e →
          Leads (.ticketHead q) s (fun t => ∃ ed, Completed t x .stale [] ed)) ∧
        ((∀ u e, x.guard = some (u, e) → (s.edition u).toNat = e) →
          (∀ u y, s.startForbid x.op = some (u, y) → Leads (.ticketHead q) s (fun t =>
            ∃ ed, Completed t x .state [kw "unit" u, kw "state" y] ed)) ∧
          (s.startForbid x.op = none →
            (∀ v, x.startAt = some v → (s.headed x).now < v → exec (.ticketHead q) s = .next (((s.headed x).updTicket x.n
              (fun y => { y with st := .waiting, timed := true })).settled s)) ∧
            ((∀ v, x.startAt = some v → v ≤ (s.headed x).now) → exec (.ticketHead q) s = .next ((((s.headed x).updTicket x.n
              (fun y => { y with st := .running })).startOp x.n x.op).settled s))))))) ∧
  (∀ v, s.head q = some x → s.awake = true → s.timedDue x = true → x.startAt = some v → s.isOverdue x = false →
    s.dueList = [(v, 3, x.n)] → s.ticket? x.n = some x → x.guard = none → s.startForbid x.op = none →
    v ≤ (s.headed x).now → exec (.ticketTimedStart q) s = .next ((((s.headed x).updTicket x.n
      (fun y => { y with st := .running })).startOp x.n x.op).settled s)) ∧
  (s.head q = some x → s.timedDue x = false → exec (.ticketTimedStart q) s = .next s) ∧
  (s.ticket? x.n = none → exec (.ticketOverdue x.n) s = .next s) ∧
  (s.ticket? x.n = some x → s.awake = true → s.isOverdue x = true →
    Leads (.ticketOverdue x.n) s (fun t => ∃ ed, Completed t x .overdue [] ed)) ∧
  (s.ticket? x.n = some x → s.isOverdue x = false → exec (.ticketOverdue x.n) s = .next s)

/-- The events that a line joining the Chute queue causes in the next cycle, and the end of ATTN's minimum width (07_events
R198, R206). It rests in part on the model's own choices and readings, log entries 10 and 37. -/
def Obligations.EventLinesTakeEffect : Prop := ∀ s : State,
  (s.events.deferred = [] → exec .deferredEvent s = .next s) ∧
  (∀ ds, s.events.deferred = .chuteOut :: ds → Leads .deferredEvent s (fun t => (s.quiet = false → t.pends 125) ∧
    t.besideEvents = s.besideEvents)) ∧
  (∀ p n ds, s.events.deferred = .lineDropped p n :: ds → Leads .deferredEvent s (fun t => (s.quiet = false → t.pends 127) ∧
    t.besideEvents = s.besideEvents)) ∧
  exec .attnMinWidthEnd s = .next s.attnFollow

/-! ## Events: Dormant and wake -/

/-- Entry into Dormant: an attempt is refused or begins, the pads latch, and the entry completes (09_dormant R233–R238,
R245, R247, R252, Table 9.2). It rests in part on the model's own choices and readings, log entries 10, 12, 42 and 71.
-/
def Obligations.EntryPassesToDormant : Prop := ∀ (s : State) (temp : Int) (lag : Nat) (q : Bool),
  (let due := s.inRun && decide (s.pwr.state = .entryWait) && !s.pwr.measBusy &&
     (s.pwr.attemptDue || (s.pwr.armed && s.orders.run.isNone))
   let began (t : State) : Prop := t.pwr = { s.pwr with
       state := .entry false false, attemptBy := none, attemptDue := false, armed := false } ∧
     t.day.temp = temp ∧ t.day.tempEntry = temp ∧ t.day.window = false ∧ t.day.now = s.day.now ∧
     t.edition .pwr = s.edition .pwr + 1 ∧ t.radio.st = .idle ∧ t.pads.paEn = false ∧ t.tickets = s.tickets ∧
     t.dport = s.dport ∧ t.cport = s.cport ∧ t.cfg = s.cfg ∧ t.store = s.store
   (due = false → exec (.dormantAttempt temp) s = .next s) ∧
   (due = true → s.refusers.any id = false → Leads (.dormantAttempt temp) s began) ∧
   (due = true → s.refusers.any id = true → Leads (.dormantAttempt temp) s (fun t =>
     t.pwr.state = .run ∧ t.pwr.refusals = s.pwr.refusals.inc ∧ t.pwr.refCode = s.refusers.idxOf true ∧ t.pwr.refValid = true ∧
     t.pwr.refAbort = false ∧
     vget t.pwr.refuser (s.refusers.idxOf true) {} = (vget s.pwr.refuser (s.refusers.idxOf true) {}).inc ∧
     t.pends 18 ∧ t.day = s.day)) ∧
   (s.inRun = true → s.pwr.state = .run → bit s.cfg.sys.dorm 0 = true → s.day.keeperOk = true → s.pwr.measBusy = false →
     s.refusers.any id = false → (∀ x ∈ s.tickets.pool, x.st ≠ .running) →
     s.pwr.idleSince + fld s.cfg.sys.dorm 31 16 * tickMs ≤ s.day.cyc → Leads (.autoDormant temp) s began) ∧
   ((s.inRun = false ∨ bit s.cfg.sys.dorm 0 = false ∨ s.refusers.any id = true ∨
     s.day.cyc < s.pwr.idleSince + fld s.cfg.sys.dorm 31 16 * tickMs) → exec (.autoDormant temp) s = .next s)) ∧
  (s.pwr.state = .entry false true → exec (.entryPadLatch lag) s = .next { s with
    pwr := { s.pwr with state := .entry true true } }) ∧
  (s.pwr.state = .entry false false → Leads (.entryPadLatch lag) s (fun t =>
    let s1 : State := { s with pwr := { s.pwr with state := .entry true false } }
    t.pwr.state = .entry true false ∧ t.pads.deskTx = true ∧ (∀ i : Fin 24, t.pads.heldDrive[i] = s1.padDrive i.val) ∧
    t.pads.held = s1.holdMasks.1 ||| s.pads.held ∧ t.pads.heldLevel = padMask s1.padLevel ∧
    t.day.checkpoint = some (s.day.now + BitVec.ofNat 64 lag) ∧ t.day.driftSeq = (s.day.driftSeq + 1) % 2 ^ 32 ∧ t.dport = s.dport ∧
    t.cport = s.cport)) ∧
  (s.pwr.state = .entry true q → Leads .entryComplete s (fun t =>
    t.pwr.state = .dormant ∧ ((∀ r ∈ s.rows, r.what.twin? = none) → t.rows = []) ∧ t.pwr.entries = s.pwr.entries.incIf (!q) ∧ t.pwr.stacksOn = false ∧
    t.pwr.stall = [] ∧ t.noise.pool = 0 ∧ t.noise.refill = false ∧
    (q = false → t.pwr.powered = BitVec.ofNat 8 (fld s.cfg.sys.dorm 15 8)))) ∧
  ((∀ b, s.pwr.state ≠ .entry true b) → exec .entryComplete s = .next s) ∧
  ((∀ r b, s.pwr.state ≠ .entry r b) → exec .entryWatchdog s = .next s)

/-- Wake sources, and the stages of a wake up to LOGIC_RDY and `+READY WAKE`, each with its late reset (09_dormant
R239–R246, R251, Table 9.4; 10_daybook R260–R262, R267). It rests in part on the model's own choices and readings, log
entries 10, 12, 43 and 70. -/
def Obligations.WakesPassToRun : Prop := ∀ (s : State) (src : WakeSource) (level q : Bool) (temp : Int) (keeper : Nat),
  (src ≠ .wakeIn → s.sourceOn src level = false → exec (.wakeSourceRegistered src level) s = .next s) ∧
  (src ≠ .wakeIn → s.sourceOn src level = true → s.pwr.state = .dormant →
    exec (.wakeSourceRegistered src level) s = .next { s with pwr := { s.pwr with
      state := .wake 0 false, wakeSrc := sourceCode src, wakeAlso := BitVec.ofNat 7 (2 ^ sourceCode src)
      wakeOrigin := s.day.keeper } }) ∧
  (src ≠ .wakeIn → s.sourceOn src level = true → s.pwr.state = .entry true false ∨ s.pwr.state = .entry false false →
    Leads (.wakeSourceRegistered src level) s (fun t => t.pwr.state = .run ∧ t.pwr.refusals = s.pwr.refusals.inc ∧
      t.pwr.refAbort = true ∧ t.pwr.refCode = sourceCode src ∧ t.pends 18 ∧ t.pads.held = 0)) ∧
  (∀ n, src ≠ .wakeIn → s.sourceOn src level = true → s.pwr.state = .wake n false → n ≠ 3 →
    Leads (.wakeSourceRegistered src level) s (fun t => t.pwr.state = s.pwr.state ∧
      t.pwr.wakeAlso = s.pwr.wakeAlso ||| BitVec.ofNat 7 (2 ^ sourceCode src) ∧ t.pads = s.pads ∧ t.events = s.events)) ∧
  (s.pwr.state = .dormant → s.nextListen.isSome = true → exec .quietWakeOrigin s = .next { s with pwr := { s.pwr with
    state := .wake 0 true, wakeOrigin := s.day.keeper, wakeInEdge := none } }) ∧
  (s.pwr.state ≠ .dormant → exec .quietWakeOrigin s = .next s) ∧
  (s.pwr.state = .wake 0 q → exec (.wakeRegRdy true true) s = .next { s with pwr := { s.pwr with state := .wake 1 q } }) ∧
  (s.pwr.state = .wake 0 q → s.holding = false →
    Resets (.wakeRegRdy false true) s .wakeLate .none (fun t => t.pwr.lateStage = 1) ∧
    ∀ ready, Leads (.wakeRegRdy ready false) s (fun t => ResetLeaves s t .borRun .borRun)) ∧
  (s.pwr.state = .wake 1 q → exec (.wakeOscRdy true) s = .next { s with
    pwr := { s.pwr with state := .wake 2 q, resumed := false }
    day := { s.day with resumeCyc := s.day.cyc, kw := s.day.keeper } }) ∧
  (s.pwr.state = .wake 1 q → s.holding = false →
    Resets (.wakeOscRdy false) s .wakeLate .none (fun t => t.pwr.lateStage = 2)) ∧
  (s.pwr.state = .wake 2 q → s.pwr.resumed = false → exec (.wakeResumeEdge keeper) s = .next { s with
    pwr := { s.pwr with resumed := true }
    day := { s.day with keeper := keeper % 2 ^ 48, kw := keeper % 2 ^ 48, resumeCyc := s.day.cyc, window := !q,
                        windowOk := !q && s.day.keeperOk } }) ∧
  (s.pwr.state = .wake 2 q → s.holding = false →
    (∀ b, Resets (.wakeLogicRdy temp false b) s .wakeLate .none (fun t => t.pwr.lateStage = 3)) ∧
    Resets (.wakeLogicRdy temp true false) s .wakeLate .none (fun t => t.pwr.lateStage = 4)) ∧
  (s.pwr.state = .wake 2 false → Leads (.wakeLogicRdy temp true true) s (fun t =>
    t.pwr.state = .wake 3 false ∧ t.day.temp = temp ∧ t.day.now = (s.resumeDay temp).day.now ∧
    t.pwr.lost = s.pwr.lost ||| (~~~s.pwr.powered &&& 0xFE) ∧ t.pwr.wakeInEdge = none ∧
    (s.pwr.resumed = false → t.day.keeperOk = false ∧ t.day.cont = false ∧ (s.eventPresent 20 = true →
      t.events.cond.getLsbD 20 = true)))) ∧
  (s.pwr.state = .wake 2 true → (s.resumeDay temp).dueList = [] → Leads (.wakeLogicRdy temp true true) s (fun t =>
    t.pwr.state = .wake 3 true ∧ t.pwr.quietWakes = s.pwr.quietWakes.inc ∧ t.radio.sniff.isSome = true)) ∧
  (s.pwr.state = .wake 3 false → s.portPresent .desk = true → Leads .wakeReadyLine s (fun t =>
    t.pwr.state = .run ∧ t.dport.announced = true ∧ t.cport.announced = true ∧
    ∃ more, t.dport.out = { kind := .ready true, toks := [w "+READY", w "WAKE",
      kw "src" (sourceNames.getD s.pwr.wakeSrc "")] } :: s.dport.out ++ more)) ∧
  (s.pwr.state ≠ .wake 3 false → exec .wakeReadyLine s = .next s) ∧
  (s.radio.sniff.isSome = true → Leads .sniffEnd s (fun t => t.pwr.state = .entry false true ∧ t.radio.sniff = none ∧
    t.radio.st = .idle ∧ t.tickets = s.tickets)) ∧
  (s.radio.sniff = none → exec .sniffEnd s = .next s)

/-! ## Events: the Daybook -/

/-- The keeper's edges and faults, slew ticks (one each 1024 cycles), drift windows and alarms (05_register_file R144,
10_daybook R258, R259, R263, R266–R270, R274–R277). It rests in part on the model's own choices and readings, log
entries 10, 12, 44 and 45. -/
def Obligations.DaybookEventsTakeEffect : Prop := ∀ (s : State) (period ticks : Nat) (temp : Int) (a : Fin 4),
  (s.sys.hold = .por → exec (.keeperEdge period) s = .next s) ∧
  (s.sys.hold ≠ .por → s.counting = false → exec (.keeperEdge period) s =
    .next { s with day := { s.day with keeper := (s.day.keeper + 1) % 2 ^ 48 } }) ∧
  (s.sys.hold ≠ .por → s.counting = true → exec (.keeperEdge period) s = .next { s with day := { s.day with
    keeper := (s.day.keeper + 1) % 2 ^ 48
    dh := (if s.inBoot then s.day.dh else s.day.now), kh := (if s.inBoot then s.day.kh else (s.day.keeper + 1) % 2 ^ 48)
    goodPeriods := if s.quiet then s.day.goodPeriods
      else if 557 ≤ period ∧ period ≤ 615 then min (s.day.goodPeriods + 1) 256 else 0 } }) ∧
  (s.day.slew = 0 ∨ s.awake = false ∨ s.day.cyc % 1024 ≠ 0 → exec .slewTick s = .next s) ∧
  (s.day.slew ≠ 0 → s.awake = true → s.day.cyc % 1024 = 0 → Leads .slewTick s (fun t =>
    t.day.now = s.day.now + (if 0 < s.day.slew then 2 else 0) ∧ t.day.cyc = s.day.cyc + 1 ∧
    t.day.slew = (if 0 < s.day.slew then s.day.slew - 1 else s.day.slew + 1) ∧
    t.edition .daybook = (if t.day.slew = 0 then s.edition .daybook + 1 else s.edition .daybook) ∧
    (s.isEnd = true → s.day.now.toNat + 2 < 2 ^ 64 →
      (t.day.now.toNat : Int) + t.day.offset = s.day.now.toNat + s.day.offset + 1) ∧ t.cfg = s.cfg ∧ t.tickets = s.tickets)) ∧
  (s.day.keeperOk = true ∨ s.day.goodPeriods < 256 → exec .keeperRunning s = .next s) ∧
  (s.day.keeperOk = false → 256 ≤ s.day.goodPeriods → exec .keeperRunning s = .next (State.bump
    { s with
      day := { s.day with keeperOk := true }
      events := { s.events with cond := s.events.cond &&& ~~~((1 : BitVec 128) <<< 20) } } .daybook)) ∧
  (s.keeperWatched = false → exec .keeperPeriodFault s = .next s ∧ exec .keeperEdgeTimeout s = .next s) ∧
  (s.keeperWatched = true → ∀ c ∈ [Instr.keeperPeriodFault, .keeperEdgeTimeout], Leads c s (fun t =>
    t.day.keeperOk = false ∧ t.day.goodPeriods = 0 ∧ t.day.windowOk = false ∧ t.day.window = s.day.window ∧
    (s.day.keeperOk = true → s.eventPresent 20 = true → t.events.cond.getLsbD 20 = true ∧
      t.edition .daybook = s.edition .daybook + 1) ∧
    (s.day.keeperOk = true → s.events.cond.getLsbD 20 = false → t.pends 20))) ∧
  ((s.day.window && s.inRun) = false → exec (.driftWindowClose temp ticks) s = .next s) ∧
  ((s.day.window && s.inRun) = true →
    (s.day.keeperOk = false ∨ s.day.windowOk = false ∨ 4 ≤ (temp - s.day.tempWake).natAbs →
      exec (.driftWindowClose temp ticks) s =
        .next { s with day := { s.day with window := false, windowOk := false, temp := temp } }) ∧
    (let v := roundAway (100000000 * (384375 - (ticks : Int))) (max ticks 1 : Nat)
     let b := binOf ((temp + s.day.tempWake) / 2)
     s.day.keeperOk = true → s.day.windowOk = true → (temp - s.day.tempWake).natAbs < 4 → -32768 ≤ v → v ≤ 32767 → (s.bin b).conf = 0 →
      Leads (.driftWindowClose temp ticks) s (fun t => t.day.window = false ∧ (t.bin b).e = v ∧ (t.bin b).conf = 1 ∧
        t.day.samples = s.day.samples.inc ∧ t.day.rejects = s.day.rejects ∧ t.day.checkpoint = some s.day.now))) ∧
  ((s.awake && s.alarmDue a.val) = false → exec (.alarmFire a) s = .next s) ∧
  ((s.awake && s.alarmDue a.val) = true → Leads (.alarmFire a) s (fun t =>
    (∀ b : Fin 4, t.alarm b.val = if s.alarmDue b.val then (s.alarm b.val).after s.now else s.alarm b.val) ∧
    ((s.alarm a.val).every = 0 → (t.alarm a.val).st = .done) ∧
    (s.dueList = [((s.alarm a.val).at_.toNat, 0, a.val)] →
      ((s.alarm a.val).every = 0 → t.edition .daybook = s.edition .daybook + 1) ∧
      ((s.alarm a.val).order = none → t.tickets = s.tickets ∧ t.orders = s.orders))))

/-! ## Events: the radio -/

/-- Lock and its loss, keying from the lead to the end of the ramp, and the antenna controls (11_radio R289–R296,
R304). It rests in part on the model's own choices and readings, log entries 10, 12, 46, 71 and 75. -/
def Obligations.TransmissionsPassTheirPhases : Prop := ∀ (s : State) (x : Tx) (pa : Bool),
  ((s.onAir && s.radio.tuning) = false → exec .synthLock s = .next s ∧ exec .lockTimeout s = .next s) ∧
  ((s.onAir && s.radio.tuning) = true → s.radio.tx = some x → exec .synthLock s = .next { s with radio := { s.radio with
    locked := true, tuning := false, tx := some { x with phase := .lead } } }) ∧
  ((s.onAir && s.radio.tuning) = true → s.radio.tx = none → Leads .synthLock s (fun t =>
    t.radio.locked = true ∧ t.radio.tuning = false ∧ t.radio.st = s.radio.st ∧ t.tickets = s.tickets ∧ t.events = s.events)) ∧
  ((s.onAir && s.radio.tuning) = true → Leads .lockTimeout s (fun t =>
    t.radio.unlocks = s.radio.unlocks.inc ∧ (s.quiet = false → t.pends 32))) ∧
  (s.onAir = true → s.radio.locked = true → s.radio.st ≠ .idle → Leads .lockLost s (fun t =>
    t.radio.unlocks = s.radio.unlocks.inc ∧ (s.quiet = false → t.pends 32) ∧
    (s.radio.tx = some x → x.phase = .rampUp ∨ x.phase = .symbols ∨ x.phase = .rampDown →
      ∃ y, t.radio.tx = some y ∧ y.phase = .rampDown ∧ y.cut = true))) ∧
  (s.radio.locked = false → exec .lockLost s = .next s) ∧
  (s.radio.tx = none → ∀ c ∈ [Instr.keyingLead pa, .keying, .rampUpEnd, .txSymbolsEnd, .rampDownEnd, .ackTurnaround,
    .heldFrameTurnaround], exec c s = .next s) ∧
  (s.radio.tx = some x → x.phase = .lead →
    (bit s.cfg.radio.txConfig 13 = true → Leads (.keyingLead true) s (fun t => t.pads.paEn = true ∧ t.radio = s.radio)) ∧
    (bit s.cfg.radio.txConfig 13 = false → exec (.keyingLead true) s = .next s) ∧
    Leads (.keyingLead false) s (fun t =>
      let pair := if x.hp then 3 else 2
      let v := fld s.cfg.radio.antMap (2 * pair + 1) (2 * pair)
      t.pads.antA = decide (v % 2 = 1) ∧ t.pads.antB = decide (2 ≤ v) ∧ t.radio = s.radio) ∧
    (x.turn = true ∨ s.keyWaits = true → exec .keying s = .next s)) ∧
  (∀ c, s.radio.tx = some x → x.phase = .lead →
    (c = .keying ∧ x.turn = false ∧ s.keyWaits = false) ∨
      (c = .heldFrameTurnaround ∧ s.journalBusy = false ∧ ∃ id, x.kind = .held id) ∨
      (c = .ackTurnaround ∧ s.journalBusy = false ∧ ∃ b, x.kind = .ack b) →
    Leads c s (fun t => t.radio.keyings = s.radio.keyings.inc ∧
      t.radio.tx = some { x with phase := .rampUp } ∧ t.tickets = s.tickets ∧ t.radio.st = s.radio.st)) ∧
  (s.radio.tx = some x → x.phase = .rampUp → exec .rampUpEnd s = .next { s with
    radio := { s.radio with tx := some { x with phase := .symbols, symCyc := s.day.cyc } }
    pwr := { s.pwr with measBusy := true
                        measHp := (s.pwr.measBusy && s.pwr.measHp) || (x.hp && decide (20 < x.level)) } }) ∧
  (s.radio.tx = some x → x.phase = .symbols → exec .txSymbolsEnd s = .next { s with radio := { s.radio with
    tx := some { x with phase := .rampDown, actual := x.air } } }) ∧
  (∀ o y, s.radio.tx = some x → x.phase = .rampDown → x.kind = .cw → x.cut = false → s.link.op = some o →
    s.ticket? o.ticket = some y → y.n = o.ticket → y.live = true → o.kind = .cw →
    Leads .rampDownEnd s (fun t => t.pads.paEn = false ∧ t.radio.tx = none ∧ t.radio.antLag = true ∧ t.link.op = none ∧
      ∃ ed, Completed t y .done [kd "level" x.level, kd "vddpa" s.pwr.vddpa.toNat] ed)) ∧
  (s.radio.tx = some x → x.phase ≠ .rampDown → exec .rampDownEnd s = .next s) ∧
  (s.radio.antLag = false → exec .antennaLagEnd s = .next s) ∧
  (s.radio.antLag = true → s.radio.st ≠ .transmit → Leads .antennaLagEnd s (fun t =>
    let pair := if s.radio.st = .idle then 0 else 1
    let v := fld s.cfg.radio.antMap (2 * pair + 1) (2 * pair)
    t.radio.antLag = false ∧ t.pads.antA = decide (v % 2 = 1) ∧ t.pads.antB = decide (2 ≤ v)))

/-- The readings of the receiver, preambles and wake patterns, and what ends a listening (11_radio R298–R303, R308,
12_modem R326, 13_census R347–R355, R362, R363). It rests in part on the model's own choices and readings, log entries
10, 12, 13, 47 and 76. -/
def Obligations.ReceiverEventsTakeEffect : Prop := ∀ (s : State) (gain lna chan : Nat) (rssi offset : Int)
    (bits : BitVec 32) (readings : List Int) (x : Listener) (y : Ticket),
  ((s.receiving && decide (s.radio.st = .listen)) = false → exec (.agcUpdate gain lna) s = .next s ∧
    exec (.afcLimit offset) s = .next s ∧ exec (.preambleDetected chan) s = .next s ∧
    (s.returning = false → exec (.wakePatternDetected chan ⟨rssi, bits⟩) s = .next s) ∧
    (s.returning = true → s.profile.wakes = true → s.wakeMatch bits = true →
      Leads (.wakePatternDetected chan ⟨rssi, bits⟩) s (fun t => t.modem.wakes = s.modem.wakes.inc ∧ t.pwr.wakeSrc = 5 ∧
        t.pwr.state = .wake 3 false ∧ t.pends 35))) ∧
  (s.profile.wakes = false ∨ s.wakeMatch bits = false → exec (.wakePatternDetected chan ⟨rssi, bits⟩) s = .next s) ∧
  ((s.receiving && decide (s.radio.st = .listen)) = true →
    Leads (.agcUpdate gain lna) s (fun t => t.radio.frozen = false ∧
      t.radio.gain = (if bit s.cfg.radio.rxConfig 0 then min (gain / 2 * 2) 78 else 2 * fld s.cfg.radio.rxConfig 6 1) ∧
      ([0, 12, 24].contains lna = true → lna ≤ t.radio.gain → t.radio.gain ≤ lna + 54 → t.radio.lna = lna) ∧
      t.radio.lna ≤ t.radio.gain ∧ [0, 12, 24].contains t.radio.lna = true) ∧
    (s.radio.afcOnce = false → 3000 ≤ offset.natAbs → Leads (.afcLimit offset) s (fun t =>
      t.radio.afcLimits = s.radio.afcLimits.inc ∧ t.radio.afcOnce = true ∧ (s.quiet = false → t.pends 34))) ∧
    (s.radio.afcOnce = true ∨ offset.natAbs < 3000 → exec (.afcLimit offset) s = .next s) ∧
    (chan = s.radio.chan → s.ccaMode = 0 → exec (.preambleDetected chan) s =
      .next { s with radio := { s.radio with ownSeen := some s.day.cyc } }) ∧
    (chan ≠ s.radio.chan → (s.inRun && s.searches chan && s.census.hop) = false → exec (.preambleDetected chan) s = .next s) ∧
    (chan ≠ s.radio.chan → s.inRun = true → s.searches chan = true → s.census.hop = true → s.ccaNow = .none →
      s.radio.ownSeen = none → s.radio.handed = none → Leads (.preambleDetected chan) s (fun t =>
        t.radio.chan = chan ∧ t.census.handovers = s.census.handovers.inc ∧ t.radio.handed.map (·.chan) = some chan)) ∧
    (s.profile.wakes = true → s.wakeMatch bits = true → chan = s.radio.chan ∨ s.searches chan = true →
      Leads (.wakePatternDetected chan ⟨rssi, bits⟩) s (fun t => t.modem.wakes = s.modem.wakes.inc ∧
        (s.quiet = false ∨ s.radio.sniff.isSome = true → t.pends 35) ∧
        (s.radio.sniff.isSome = true → t.pwr.wakeSrc = 5 ∧ t.pwr.state = .wake 3 false)))) ∧
  (s.receiving = false → (s.inRun && decide (s.radio.st = .trim)) = false → exec (.rssiUpdate rssi) s = .next s) ∧
  (s.receiving = true → s.ccaNow = .none → s.holder = none → exec (.rssiUpdate rssi) s =
    .next { s with radio := { s.radio with
      rssiNow := clampInt (-280) (-20) (rssi + signed 8 (fld s.cfg.radio.rxConfig 23 16)) } }) ∧
  (s.inRun = true → s.radio.st = .trim → s.trim.run = none → exec (.rssiUpdate rssi) s = .next s) ∧
  (s.listenerOf .rx = none → exec .rxDurationEnd s = .next s) ∧
  (s.listenerOf .rx = some x → s.inRun = true → s.durationOver x = true → s.radio.rx = none → s.ticket? x.ticket = some y →
    y.n = x.ticket → y.live = true → Leads .rxDurationEnd s (fun t =>
      ∃ ed, Completed t y .done [kd "frames" x.frames, .kv "rssi_max" (dbm (x.rssiMax.getD (-280)))] ed)) ∧
  (s.listenerOf .scan = none → exec .censusScanEnd s = .next s) ∧
  (∀ k, s.listenerOf k = some x → s.durationOver x = false →
    (k = .rx → exec .rxDurationEnd s = .next s) ∧ (k = .scan → exec .censusScanEnd s = .next s)) ∧
  (s.listenerOf .scan = some x → s.inRun = true → s.durationOver x = true → s.radio.rx = none → s.ticket? x.ticket = some y → y.n = x.ticket →
    y.live = true → Leads .censusScanEnd s (fun t => ∃ fs ed, Completed t y .done fs ed)) ∧
  (s.receiving = false → exec (.censusWindowClose readings) s = .next s) ∧
  (s.receiving = true → s.measuring = true → readings.length = 16 → s.census.stale = false → s.radio.sniff = none →
    Leads (.censusWindowClose readings) s (fun t =>
      (∀ k : Fin 16, t.census.levels[k] =
        clampInt (-270) (-80) (readings.getD k.val (-270) + signed 8 (fld s.cfg.radio.rxConfig 23 16))) ∧
      t.census.at_ = s.day.now ∧ t.census.held = false ∧ t.census.hop = s.hopOn ∧ t.census.allow = s.cfg.census.allow)) ∧
  (s.inRun = false ∨ s.ccaNow = .none → exec .ccaListenEnd s = .next s) ∧
  (∀ o c, s.inRun = true → s.ccaNow = .op o c → Leads .ccaListenEnd s (fun t => t.radio.ccaClear = s.radio.ccaClear.inc)) ∧
  (∀ c, s.inRun = true → s.ccaNow = .check x c → s.radio.rx = none → x.kind = .check → s.ticket? x.ticket = some y →
    y.n = x.ticket → y.live = true → Leads .ccaListenEnd s (fun t => t.radio.ccaClear = s.radio.ccaClear.inc ∧
      ∃ ed, Completed t y .done [kw "clear" "YES", kw "cause" "NONE", .kv "level" (dbm s.radio.rssiNow)] ed)) ∧
  (s.radio.handed = none → exec .handoverHoldEnd s = .next s) ∧
  (s.inRun = true → s.radio.handed.isSome = true → s.radio.rx = none → s.radio.tx = none →
    Leads .handoverHoldEnd s (fun t => t.radio.handed = none ∧ t.tickets = s.tickets))

/-- Sync and the decision on a frame: measured, dropped by the first reason of the table, or taken (12_modem R332,
R334, 14_frames R378–R382, Table 14.7). It rests in part on the model's own choices and readings, log entries 10, 13,
20, 23, 48 and 77. -/
def Obligations.ReceptionsAreDecided : Prop := ∀ (s : State) (bits : BitVec 32) (rssi afc : Int) (sync : Ticks) (len : Nat)
    (x : RxFrame) (n : RxNow),
  (∀ y, s.syncOf bits = some y → s.inRun = true → s.radio.locked = true → s.radio.st = .listen → s.radio.tx = none →
    s.profile.fmts.contains y.fmt = true ∧
    Leads (.syncDeclared bits rssi afc sync) s (fun t => t.modem.syncs = s.modem.syncs.inc ∧ t.pends 33 ∧
      (s.ccaNow = .none → s.link.op = none → t.radio.st = .receive ∧
        t.radio.rx.map (fun z => (z.fmt, z.sync, z.serr)) = some (y.fmt, sync, y.errors) ∧
        t.radio.frozen = true ∧ t.radio.rssiNow = s.radio.rssiNow ∧ t.radio.afc = clampInt (-3000) 3000 afc))) ∧
  (s.syncOf bits = none ∨ s.inRun = false → exec (.syncDeclared bits rssi afc sync) s = .next s) ∧
  (s.radio.rx = none → exec (.dHeaderDecoded len) s = .next s ∧ exec (.frameDecision x) s = .next s) ∧
  (s.radio.rx = some n → s.inRun = false → exec (.frameDecision x) s = .next s) ∧
  (s.radio.rx = some n → s.inRun = true → n.fmt = .d → 127 < len → Leads (.dHeaderDecoded len) s (fun t =>
    t.modem.headerFail = s.modem.headerFail.inc ∧ t.radio.rx = none ∧
    vget t.frame.ctrs 1 {} = (vget s.frame.ctrs 1 {}).inc)) ∧
  (s.radio.rx = some n → n.fmt ≠ .d ∨ len ≤ 127 → exec (.dHeaderDecoded len) s = .next s) ∧
  (s.radio.rx = some n → s.inRun = true →
    (parseFrame x n = .header → Leads (.frameDecision x) s (fun t => t.modem.headerFail = s.modem.headerFail.inc ∧
      vget t.frame.ctrs 1 {} = (vget s.frame.ctrs 1 {}).inc ∧ t.radio.rx = none ∧ t.frame.rx = s.frame.rx)) ∧
    (parseFrame x n = .phr → Leads (.frameDecision x) s (fun t => vget t.frame.ctrs 1 {} = (vget s.frame.ctrs 1 {}).inc ∧
      t.radio.rx = none ∧ t.frame.rx = s.frame.rx)) ∧
    (parseFrame x n = .check → Leads (.frameDecision x) s (fun t => vget t.frame.ctrs 2 {} = (vget s.frame.ctrs 2 {}).inc ∧
      t.radio.rx = none ∧ t.frame.rx = s.frame.rx)) ∧
    (parseFrame x n = .unsupported → Leads (.frameDecision x) s (fun t =>
      vget t.frame.ctrs 3 {} = (vget s.frame.ctrs 3 {}).inc ∧ t.radio.rx = none ∧ t.frame.rx = s.frame.rx)) ∧
    (∀ r, parseFrame x n = .frame r → bit n.filter 16 = false → s.addrDrop n r = true → Leads (.frameDecision x) s (fun t =>
      vget t.frame.ctrs 4 {} = (vget s.frame.ctrs 4 {}).inc ∧ t.radio.rx = none ∧ t.frame.rx = s.frame.rx)) ∧
    (∀ r, parseFrame x n = .frame r →
      exec (.frameDecision x) s = .next ((s.measured n x).decideFrame n x r)) ∧
    (∀ a, parseFrame x n = .ack a → exec (.frameDecision x) s = .next ((s.measured n x).ackIn a)))

/-! ## Events: the link -/

/-- Waits and turnarounds of the link: acknowledgements, backoff, poll windows, exchanges, held frames, the poll
schedule and the next sniff (15_link R397–R423). It rests in part on the model's own choices and readings, log entries
10, 12, 13, 49, 50, 51 and 74. -/
def Obligations.LinkEventsTakeEffect : Prop := ∀ (s : State) (o : LinkOp) (y : Ticket) (x : Exch),
  (s.inRun = false → ∀ c ∈ [Instr.ackWaitTimeout, .backoffEnd, .assocResponseWaitEnd, .pollWindowEnd, .exchangeLapse,
    .heldFrameExpiry, .linkWakeNextSniff], exec c s = .next s) ∧
  (s.inRun = true → s.link.op = some o → o.phase = .ackWait →
    (s.radio.rx.isSome = true → exec .ackWaitTimeout s = .next { s with link := { s.link with op := some { o with late := true } } }) ∧
    (s.radio.rx = none → s.linkRetries ≤ o.retries → s.ticket? o.ticket = some y → y.n = o.ticket → y.live = true →
      Leads .ackWaitTimeout s (fun t => t.link.op = none ∧
        (vget t.link.ctrs 2 {}) = (vget s.link.ctrs 2 {}).inc ∧ ∃ ed, Completed t y .noack [kd "retries" o.retries] ed)) ∧
    (s.radio.rx = none → o.retries < s.linkRetries → o.kind = .wake → Leads .ackWaitTimeout s (fun t =>
      t.link.op = some { o with retries := o.retries + 1, phase := .wakeWait } ∧
      (vget t.link.ctrs 1 {}) = (vget s.link.ctrs 1 {}).inc ∧ t.tickets = s.tickets))) ∧
  (s.inRun = true → s.link.op = none → s.link.exch = some x → x.phase = .ackWait →
    (s.radio.rx.isSome = true →
      exec .ackWaitTimeout s = .next { s with link := { s.link with exch := some { x with late := true } } }) ∧
    (s.radio.rx = none → Leads .ackWaitTimeout s (fun t => t.link.exch = none ∧ t.link.st = .parent ∧ t.tickets = s.tickets))) ∧
  (s.link.op = none → s.link.exch = none → exec .ackWaitTimeout s = .next s) ∧
  (∀ c, s.inRun = true → s.link.op = some o → o.phase = .backoff c →
    (s.linkBlocked = true → exec .backoffEnd s =
      .next { s with link := { s.link with op := some { o with phase := .extended } } }) ∧
    (s.linkBlocked = false → Leads .backoffEnd s (fun t => t.link.op.map (·.phase) = some .cca ∧ t.tickets = s.tickets))) ∧
  (s.link.op = none → exec .backoffEnd s = .next s ∧ exec .assocResponseWaitEnd s = .next s ∧ exec .pollWindowEnd s = .next s ∧
    exec .linkWakeNextSniff s = .next s) ∧
  (s.inRun = true → s.link.op = some o → o.phase = .respWait → Leads .assocResponseWaitEnd s (fun t =>
    t.link.op = none ∨ t.link.op.map (·.kind) = some .assocData)) ∧
  (∀ b, s.inRun = true → s.link.op = some o → o.phase = .window b →
    (s.radio.rx.isSome = true ∨ s.radio.tx.isSome = true → exec .pollWindowEnd s =
      .next { s with link := { s.link with op := some { o with phase := .window true } } }) ∧
    (s.radio.rx = none → s.radio.tx = none → s.ticket? o.ticket = some y → y.n = o.ticket → y.live = true →
      (o.kind = .assocData → Leads .pollWindowEnd s (fun t => t.link.op = none ∧ t.link.st = .unassoc ∧
        ∃ ed, Completed t y .fail [kw "why" "NORESPONSE"] ed)) ∧
      (o.kind = .poll → o.frames = 0 → Leads .pollWindowEnd s (fun t => t.link.op = none ∧
        ∃ ed, Completed t y .fail [kw "why" "NODATA"] ed)) ∧
      (o.kind = .poll → o.frames ≠ 0 → Leads .pollWindowEnd s (fun t => t.link.op = none ∧
        ∃ ed, Completed t y .done [kd "pending" (b2n o.pendBit), kd "frames" o.frames, kd "tries" o.tries] ed)))) ∧
  (s.link.exch = none → exec .exchangeLapse s = .next s) ∧
  (s.inRun = true → s.link.exch = some x → s.radio.tx = none → s.radio.st ≠ .receive → Leads .exchangeLapse s (fun t =>
    t.link.exch = none ∧ t.pends 56 ∧ vget t.link.catCtrs 3 {} = (vget s.link.catCtrs 3 {}).inc)) ∧
  ((s.awake && s.pollDue) = false → exec .pollScheduleDue s = .next s) ∧
  (∀ v, s.awake = true → s.pollDue = true → s.link.nextPoll = some v → s.dueList = [(v, 2, 0)] →
    (s.pollRuns = true → Leads .pollScheduleDue s (fun t => t.tickets = s.tickets ∧
      t.link.nextPoll = some (v + s.cfg.link.pollEvery.toNat * tickMs) ∧
      vget t.link.ctrs 5 {} = (vget s.link.ctrs 5 {}).inc)) ∧
    (s.pollRuns = false → s.noTicketFor .link = true → Leads .pollScheduleDue s (fun t => t.tickets.pool = s.tickets.pool ∧
      t.tickets.noTicket = s.tickets.noTicket.inc ∧ vget t.link.ctrs 5 {} = (vget s.link.ctrs 5 {}).inc ∧
      (s.quiet = false → t.pends 123))) ∧
    (s.pollRuns = false → s.noTicketFor .link = false → Leads .pollScheduleDue s (fun t =>
      t.link.nextPoll = some (v + s.cfg.link.pollEvery.toNat * tickMs) ∧ ∃ n, s.nextNumber = some n ∧
      t.ticket? n = some { n := n, queue := .link, owner := .link, op := .poll (fld s.cfg.link.config 20 18) }))) ∧
  (let life := fld s.cfg.link.catConfig 31 16 * 19200000
   let busy (id : Nat) : Bool := match s.link.exch with | some z => z.entry == some id | none => false
   s.inRun = true → Leads .heldFrameExpiry s (fun t =>
     ∀ e ∈ s.frame.tx, e.child.isSome = true → e.since + life ≤ s.elapsed → busy e.id = false → ∀ z ∈ t.frame.tx, z.id ≠ e.id)) ∧
  (s.inRun = true → s.link.op = some o → o.phase = .wakeWait → o.kind = .wake → Leads .linkWakeNextSniff s (fun t =>
    t.link.op.map (·.sniffAt) = some (o.sniffAt +
      (match s.entry o.child with | some e => e.sniffEvery.toNat * tickMs | none => 0)) ∧ t.tickets = s.tickets))

/-! ## Events: the ledger, trim, noise and the Vault -/

/-- The interval boundary, and the passes of a trim item (16_ledger R437–R441, 17_trim R455–R458, R462). It rests in
part on the model's own choices and readings, log entries 10, 12, 52, 53 and 79. -/
def Obligations.LedgerAndTrimEventsTakeEffect : Prop := ∀ (s : State) (sel stats : List Int) (x : TrimRun) (y : Ticket),
  ((s.awake && s.boundaryDue) = false → exec .intervalBoundary s = .next s) ∧
  (s.awake = true → s.boundaryDue = true → Leads .intervalBoundary s (fun t =>
    t.ledger.isOpen = true ∧ t.ledger.recovered = false ∧ t.ledger.total = s.ledger.total ∧
    t.ledger.spent = (if s.intervalEnd ≤ s.now then 0 else s.ledger.spent) ∧ (s.quiet = false → t.pends 68) ∧
    (s.changeDue = false → t.ledger.active = s.ledger.active ∧ t.ledger.pend = s.ledger.pend ∧
      t.edition .ledger = s.edition .ledger + 1) ∧
    (∀ i b, s.changeDue = true → s.ledger.pend = some (i, b) → t.ledger.active = i ∧ t.ledger.pend = none ∧
      (s.quiet = false → t.pends 67) ∧
      (∀ n, s.ledger.pendTicket = some n → s.ticket? n = some y → y.n = n → y.live = true → t.ledger.pendTicket = none ∧
        ∃ fs ed, Completed t y .done fs ed)))) ∧
  (s.trim.run = none → exec (.trimPassEnd sel stats) s = .next s ∧ exec (.trimItemEnd sel stats) s = .next s ∧
    exec .censuseqTimeout s = .next s) ∧
  (s.trim.run = some x → x.writing = none →
    (x.second = false → selValid x.item sel stats = true → exec (.trimPassEnd sel stats) s = .next { s with trim := { s.trim with
      run := some { x with second := true, sel1 := sel, stat1 := stats } } }) ∧
    (x.second = true ∨ selValid x.item sel stats = false → exec (.trimPassEnd sel stats) s = .next s) ∧
    (x.second = false ∨ selValid x.item sel stats = false → exec (.trimItemEnd sel stats) s = .next s) ∧
    (x.second = true → selValid x.item sel stats = true →
      (x.dirty1 = false → x.dirty2 = false → passesAgree x.item x.sel1 x.stat1 sel stats = true →
        Leads (.trimItemEnd sel stats) s (fun t => t.trim.sel = putSel s.trim.sel x.item (s.trimBand x) sel stats ∧
          (∃ r ∈ t.rows, r.what = .twin 17 [(0, t.trim.sel.body)]) ∧ t.trim.commits = s.trim.commits.inc ∧ t.trim.disagrees = s.trim.disagrees ∧
          (s.quiet = false → t.pends 72))) ∧
      (x.dirty1 = true ∨ x.dirty2 = true ∨ passesAgree x.item x.sel1 x.stat1 sel stats = false →
        Leads (.trimItemEnd sel stats) s (fun t => t.trim.sel = s.trim.sel ∧
          t.trim.commits = s.trim.commits ∧ t.trim.disagrees = s.trim.disagrees.inc ∧ (s.quiet = false → t.pends 73))))) ∧
  (s.trim.run = some x → s.ceqRuns = true → x.all = false → s.link.op = none → s.ticket? x.ticket = some y → y.n = x.ticket → y.live = true →
    Leads .censuseqTimeout s (fun t => t.trim.run = none ∧ t.trim.sel = s.trim.sel ∧
      ∃ ed, Completed t y .fail [kw "why" "TIMEOUT"] ed))

/-- Tests, refills, seeds and requests of the noise source, and the ends of the Vault's operations (18_noise_vault
R469–R478, R482, R486, R489, R492). It rests in part on the model's own choices and readings, log entries 6, 10, 54,
55, 73 and 80. -/
def Obligations.NoiseAndVaultEventsTakeEffect : Prop := ∀ (s : State) (y : Ticket) (apt : Bool) (n k : Nat)
    (octets nonce aad data : List Byte) (blk : Bool) (d : Drbg) (z : BitVec 128),
  (s.inRun = false → ∀ c ∈ [Instr.noiseStartupTestEnd true apt, .noiseStartupTestEnd false apt, .noiseHealthFail apt,
    .gradeBRefillDone, .seedBlockDone, .drbgReseedDone], exec c s = .next s) ∧
  (s.inRun = true → s.noise.st = .startup →
    Leads (.noiseStartupTestEnd true apt) s (fun t => t.noise.st = .ready ∧ t.noise.refill = true ∧
      t.noise.rawBits = s.noise.rawBits.add 1024 ∧ t.edition .noise = s.edition .noise + 1 ∧
      (s.running .noise = some y → s.ticket? y.n = some y → y.live = true → ∃ ed, Completed t y .done [] ed)) ∧
    Leads (.noiseStartupTestEnd false apt) s (fun t => t.noise.st = .failed ∧ t.noise.failTest = 3 ∧ t.noise.drbg = none ∧
      t.noise.pool = 0 ∧ t.noise.rawBits = s.noise.rawBits.add 1024 ∧
      (s.events.cond.getLsbD 80 = false → t.pends 80))) ∧
  (s.noise.st ≠ .startup → exec (.noiseStartupTestEnd true apt) s = .next s) ∧
  (s.inRun = true → s.noise.st = .raw → exec (.noiseHealthFail apt) s = .next { s with noise := { s.noise with
    rawAlarms := s.noise.rawAlarms.inc, capAlarms := s.noise.capAlarms + 1 } }) ∧
  (s.inRun = true → s.sourceRuns = true → Leads (.noiseHealthFail apt) s (fun t => t.noise.st = .failed ∧
    t.noise.failTest = (if apt then 2 else 1) ∧ t.noise.drbg = none ∧ t.noise.pool = 0 ∧ t.noise.refill = false ∧
    (s.events.cond.getLsbD 80 = false → t.pends 80))) ∧
  (s.inRun = true → s.noise.refill = true → s.noise.st = .ready → s.link.op = none → Leads .gradeBRefillDone s (fun t =>
    t.noise.pool = 64 ∧ t.noise.refill = false ∧ t.noise.st = .ready ∧ t.drawn = s.drawn + 2 ∧ t.tickets = s.tickets)) ∧
  (s.noise.refill = false → exec .gradeBRefillDone s = .next s) ∧
  (s.inRun = true → s.noise.reseeding = true → s.noise.seed = none → Leads .seedBlockDone s (fun t => t.noise.seed.isSome = true ∧
    t.noise.rawBits = s.noise.rawBits.add 512 ∧ t.tickets = s.tickets)) ∧
  (s.inRun = true → s.noise.reseeding = true → s.noise.seed = some z → Leads .drbgReseedDone s (fun t =>
    t.noise.reseeding = false ∧ t.noise.seed = none ∧ t.noise.requests = 0 ∧
    (s.noise.drbg = some d → t.noise.drbg = some (d.reseed (keyN z))) ∧ t.noise.reseeds = s.noise.reseeds.inc ∧
    t.pends 82)) ∧
  (s.noise.reseeding = false → exec .seedBlockDone s = .next s ∧ exec .drbgReseedDone s = .next s) ∧
  (s.running .noise = none → exec .rawCaptureDone s = .next s) ∧
  (s.running .noise = some y → y.op = .rawCapture n → s.noise.st = .raw → s.ticket? y.n = some y → y.live = true →
    Leads .rawCaptureDone s (fun t => t.noise = s.noise ∧ t.drawn = s.drawn + n ∧
      ∃ ed, Completed t y .done [kd "n" n, kd "alarms" s.noise.capAlarms] ed)) ∧
  (s.running .vault = none → exec .vaultLoadDone s = .next s ∧ exec .vaultRandDone s = .next s ∧ exec .vaultCcmDone s = .next s) ∧
  (s.running .vault = some y → y.op = .vaultRand n → s.noise.reseeding = false → s.gradeA = true →
    s.noise.drbg = some d → s.ticket? y.n = some y → y.live = true → Leads .vaultRandDone s (fun t =>
      t.noise.requests = s.noise.requests + 1 ∧ t.noise.aRequests = s.noise.aRequests.inc ∧
      t.noise.reseeding = decide (4096 ≤ s.noise.requests + 1) ∧ t.noise.drbg = some (d.generate n).2 ∧
      ∃ ed, Completed t y .done [kd "n" n, .w (.octets (toB (d.generate n).1))] ed)) ∧
  (s.running .vault = some y → y.op = .vaultRand n → s.noise.reseeding = true ∨ s.gradeA = false →
    exec .vaultRandDone s = .next s) ∧
  (s.running .vault = some y → y.op = .vaultLoad k octets false → y.fields = [] → k < 8 → 2 ≤ k → s.ticket? y.n = some y →
    Leads .vaultLoadDone s (fun t => t.slotKey k = some (BitVec.ofNat 128 (beNat octets)) ∧
      (∀ j, j ≠ k → t.slotKey j = s.slotKey j) ∧ t.vault.loads = s.vault.loads.inc ∧ vget t.frame.fc k 1 = 0 ∧
      t.edition .vault = s.edition .vault + 1 ∧
      (t.ticket? y.n).map (·.fields) = some [kd "slot" k, .kv "kcv" (.hex 6 (kcv (BitVec.ofNat 128 (beNat octets))))])) ∧
  (s.running .vault = some y → y.op = .vaultLoad k octets true → y.fields = [] → s.loadedKey octets true = none →
    s.ticket? y.n = some y → y.live = true → Leads .vaultLoadDone s (fun t => t.vault.slots = s.vault.slots ∧
      t.vault.unwrapFails = s.vault.unwrapFails.inc ∧ (s.quiet = false → t.pends 85) ∧
      ∃ ed, Completed t y .fail [kw "why" "UNWRAP"] ed)) ∧
  (∀ dec slot level, s.running .vault = some y → y.op = .vaultCcm dec slot level nonce aad data blk → s.ticket? y.n = some y →
    y.live = true →
    (s.slotKey slot = none → Leads .vaultCcmDone s (fun t =>
      ∃ ed, Completed t y .fail [kw "why" "KEY"] ed)) ∧
    (∀ key, s.slotKey slot = some key →
      (∀ o, (if dec then ccmDec (keyN key) (toN nonce) (toN aad) (toN data) level
          else some (ccmEnc (keyN key) (toN nonce) (toN aad) (toN data) level)) = some o →
        Leads .vaultCcmDone s (fun t => t.vault = s.vault ∧
          ∃ ed, Completed t y .done (kd "n" (toB o).length :: if blk then [] else [.w (.octets (toB o))]) ed)) ∧
      (dec = true → ccmDec (keyN key) (toN nonce) (toN aad) (toN data) level = none → Leads .vaultCcmDone s (fun t =>
        t.vault.ccmFails = s.vault.ccmFails.inc ∧ ∃ ed, Completed t y .fail [kw "why" "MIC"] ed))))

/-! ## Events: the stores, the Porter, the Collators and orders -/

/-- The end of a row write, the power of the arrays, and the end of an archive search (19_stacks_porter R495, R503,
R507; 09_dormant R250). It rests in part on the model's own choices and readings, log entries 10, 14, 41, 57 and 79. -/
def Obligations.StoreEventsTakeEffect : Prop := ∀ (s : State) (r : RowWrite) (rs : List RowWrite) (y : Ticket) (p : Part19)
    (fromN toN since til cls list : Option Nat) (us ua : Bool) (mx : Nat),
  (let mine : Bool := match r.what with | .stacks _ _ => false | .cat _ => false | _ => true
   let counted : State := { s with
     rows := rs
     store := { s.store with recordWrites := s.store.recordWrites.incIf mine } }
   let next : State := match rs with | [] => counted | x :: xs => counted.beginRow x xs
   (s.rows = [] → exec .recordRowWriteDone s = .next s) ∧
   (s.rows = r :: rs → mine = false → s.stalled 8 = true → exec .recordRowWriteDone s = .next s) ∧
   (s.rows = r :: rs → (mine = true ∨ s.stalled 8 = false) → r.last = none → exec .recordRowWriteDone s = .next next) ∧
   (s.rows = r :: rs → (mine = true ∨ s.stalled 8 = false) → r.last = some y.n → s.ticket? y.n = some y → y.live = true →
     (∀ band all a b, y.op ≠ .trimRun band all a b) → Leads .recordRowWriteDone s (fun t =>
       t.rows = next.rows ∧ t.record = next.record ∧ t.store.recordWrites = s.store.recordWrites.incIf mine ∧
       (∀ kind o src, y.op = .archAdd kind o src → t.store.adds = s.store.adds.inc) ∧
       (∀ k x, y.op = .orderStore k x ∨ y.op = .orderErase k → k < 32 → t.slot k = next.recordOrder k) ∧
       ∃ ed, Completed t y .done y.fields ed))) ∧
  exec .arrayPowerUpEnd s = .next { s with pwr := { s.pwr with stall := s.pwr.stall.tail } } ∧
  (s.stalled 8 = false → exec .stacksPowerDown s = .next { s with pwr := { s.pwr with stacksOn := false } }) ∧
  (s.stalled 8 = true → exec .stacksPowerDown s = .next s) ∧
  (s.running .stacks = none → exec .archFindDone s = .next s) ∧
  (s.running .stacks = some y → y.op = .archFind fromN toN since til cls us ua mx list → s.store.part = some p →
    s.ticket? y.n = some y → y.live = true →
    (let ns := ((s.accessions p).filter (s.matchesFind p fromN toN since til cls us ua)).take mx
     Leads .archFindDone s (fun t =>
       t.store = { s.store with carrels := match list with
         | some a => cellsPutAll s.store.carrels a (ns.flatMap (fun n => leBytes 2 (s.slotIndex p n)))
         | none => s.store.carrels } ∧
       ∃ ed, Completed t y .done [kd "count" ns.length, .kv "first" (noneOr ns.head?), .kv "last" (noneOr ns.getLast?),
         .kv "base" (hex8 (0x10000000 + archBase)), kd "scale" p.slot] ed)))

/-- The fetch of a call slip, and the move of one element by the channel that has the turn (19_stacks_porter R510–R519,
Table 19.5). It rests in part on the model's own choices and readings, log entries 10 and 58. -/
def Obligations.PorterMovesElements : Prop := ∀ (s : State) (q : Fin 4) (x : PRun) (sl : Slip) (y : Ticket),
  let c := s.chan q.val
  let failed (cmd : Instr) (why at_ : Nat) : Prop := Leads cmd s (fun t =>
    (t.chan q.val).run = none ∧ (t.chan q.val).last = 2 ∧ (t.chan q.val).why = why ∧ (t.chan q.val).addr = at_ ∧
    (t.chan q.val).slip = x.at_ ∧ t.porter.faults = s.porter.faults.inc ∧ t.edition .porter = s.edition .porter + 1 ∧
    t.pends (100 + q.val) ∧ t.store.carrels = s.store.carrels ∧ t.store.shelf = s.store.shelf ∧
    (s.ticket? x.ticket = some y → y.live = true → ∃ ed, Completed t y .fail
      [kw "why" (faultNames.getD why ""), .kv "slip" (hex8 x.at_), .kv "at" (hex8 at_)] ed))
  let ready (a : Nat) : Prop := s.pwr.powered.getLsbD (a / 0x8000) = true ∧ s.stalled (a / 0x8000) = false
  (s.inRun = false ∨ c.run = none → exec (.porterSlipFetch q) s = .next s ∧ exec (.porterElement q) s = .next s) ∧
  (s.inRun = true → c.run = some x →
    -- the fetch
    (x.slip.isSome = true → exec (.porterSlipFetch q) s = .next s) ∧
    (x.slip = none → exec (.porterElement q) s = .next s) ∧
    (x.slip = none → x.max ≤ c.slips → failed (.porterSlipFetch q) 7 x.at_) ∧
    (x.slip = none → c.slips < x.max → inCarrels x.at_ 32 = false → failed (.porterSlipFetch q) 6 x.at_) ∧
    (x.slip = none → c.slips < x.max → inCarrels x.at_ 32 = true →
      (s.pwr.powered.getLsbD (x.at_ / 0x8000) = false → exec (.porterSlipFetch q) s = .next (s.touch (x.at_ / 0x8000))) ∧
      (ready x.at_ → slipBad x.at_ (s.carrelRead x.at_ 32) = true → failed (.porterSlipFetch q) 6 x.at_) ∧
      (ready x.at_ → slipBad x.at_ (s.carrelRead x.at_ 32) = false →
        let new := slipOf (s.carrelRead x.at_ 32)
        exec (.porterSlipFetch q) s = .next (s.setChan q.val
          { c with
            run := some { x with slip := some new, k0 := 0, k1 := 0, k2 := 0, off := 0, p := if new.walkDst then new.src else new.dst }
            slips := c.slips + 1, slip := x.at_ }))) ∧
    -- an element; an entry of a shelf list is read when it begins
    (s.elementTurn q.val = false → exec (.porterElement q) s = .next s) ∧
    (x.slip = some sl → (sl.shelf = true → x.k0 = 0 → ready (sl.list + 2 * x.k1)) →
      let la := sl.list + 2 * x.k1
      let x1 : PRun := if sl.shelf && decide (x.k0 = 0) then { x with off := leNat (s.carrelRead la 2) } else x
      let src := if sl.walkDst then x.p else x1.walked sl
      let dst := if sl.walkDst then x1.walked sl else x.p
      let data := s.carrelRead src sl.size
      let moved : Chan :=
        { c with addr := if sl.walkDst then dst else src, elements := (c.elements + 1) % 2 ^ 32 }
      let put (t : State) : State := { t with porter := { t.porter with turn := q.val } }
      (∀ n k, s.target dst true = .port n k → (s.col n).isOpen = true → (s.col n).full = true →
        exec (.porterElement q) s = .next s) ∧
      (∀ why at_, s.elementTurn q.val = true → s.elementFault src dst sl.size = some (why, at_) → failed (.porterElement q) why at_) ∧
      (s.elementTurn q.val = true → s.elementFault src dst sl.size = none → s.target src false = .carrel (src / 0x8000) → ready src →
        (s.target dst true = .carrel (dst / 0x8000) → ready dst →
          (∀ x2, x1.advance sl = some x2 → exec (.porterElement q) s =
            .next (put ((s.carrelWrite dst data).setChan q.val { moved with run := some x2 }))) ∧
          (x1.advance sl = none → sl.last = false → exec (.porterElement q) s =
            .next (put ((s.carrelWrite dst data).setChan q.val { moved with run := some { x1 with slip := none, at_ := sl.next } }))) ∧
          (x1.advance sl = none → sl.last = true → Leads (.porterElement q) s (fun t =>
            (t.chan q.val).run = none ∧ (t.chan q.val).last = 1 ∧ (t.chan q.val).elements = (c.elements + 1) % 2 ^ 32 ∧
            t.store.carrels = cellsPutAll s.store.carrels dst data ∧ t.porter.runs = s.porter.runs.inc ∧
            t.pends (96 + q.val) ∧ (s.ticket? x.ticket = some y → y.live = true → ∃ fs ed, Completed t y .done fs ed)))) ∧
        (∀ n k x2, s.target dst true = .port n k → (s.col n).isOpen = true → (s.col n).full = false →
          x1.advance sl = some x2 → n < 4 → Leads (.porterElement q) s (fun t =>
            t.col n = (s.col n).accept data ∧ t.store = s.store ∧ t.chan q.val = { moved with run := some x2 })) ∧
        (s.target dst true = .fifo → x.fifo = false → failed (.porterElement q) 8 dst))))

/-- The end of a FEED ticket and the close cycle of a Collator (20_collators R525, R531, R532, R535). It rests in part on
the model's own choices and readings, log entries 10 and 59. -/
def Obligations.CollatorEventsTakeEffect : Prop := ∀ (s : State) (q : Fin 4) (y : Ticket) (data : List Byte)
    (src : Option (Nat × Nat)) (e : Option (Option Nat)),
  let c := s.col q.val
  let v := crcValue c.crc c.reg
  let want : Option Nat := match e with
    | some x => x
    | none => if c.check then some c.expect.toNat else none
  let shut (k : Nat) : Collator := { c with isOpen := false, value := BitVec.ofNat 32 v, last := k, stages := [] }
  (s.running (.collate q) = none → exec (.collateFeedDone q) s = .next s ∧ exec (.collateCloseCycle q) s = .next s) ∧
  (s.running (.collate q) = some y → s.ticket? y.n = some y → y.live = true →
    (y.op = .collateFeed q.val data src →
      exec (.collateCloseCycle q) s = .next s ∧
      (let k := feedLen data src
       let rest := (List.range' c.fed (k - c.fed)).map (s.feedOctet data src)
       let count := min (c.count + rest.length) 0xFFFFFFFF
       Leads (.collateFeedDone q) s (fun t =>
        t.col q.val = { c with reg := crcRun c.crc c.reg rest, count := count, fed := k, stages := [] } ∧
        (∀ j, j ≠ q.val → t.col j = s.col j) ∧ t.store = s.store ∧
        ∃ ed, Completed t y .done [kd "n" k, kd "count" count] ed))) ∧
    (y.op = .collateClose q.val e →
      exec (.collateFeedDone q) s = .next s ∧
      (want = none → Leads (.collateCloseCycle q) s (fun t => t.col q.val = shut 3 ∧
        t.collate.mismatches = s.collate.mismatches ∧ t.edition .collate = s.edition .collate + 1 ∧
        ∃ ed, Completed t y .done [.kv "result" (c.hex v), kw "match" "NONE", kd "count" c.count] ed)) ∧
      (want = some v → Leads (.collateCloseCycle q) s (fun t => t.col q.val = shut 1 ∧
        t.collate.mismatches = s.collate.mismatches ∧ t.edition .collate = s.edition .collate + 1 ∧
        ∃ ed, Completed t y .done [.kv "result" (c.hex v), kw "match" "YES", kd "count" c.count] ed)) ∧
      (∀ x, want = some x → x ≠ v → Leads (.collateCloseCycle q) s (fun t => t.col q.val = shut 2 ∧
        t.collate.mismatches = s.collate.mismatches.inc ∧ t.edition .collate = s.edition .collate + 1 ∧
        (s.quiet = false → t.pends (104 + q.val)) ∧
        ∃ ed, Completed t y .fail
          [kw "why" "MISMATCH", .kv "result" (c.hex v), .kv "expect" (c.hex x), kd "count" c.count] ed))))

/-- Schedules, the taking of a running order's lines, its limit and its waits (21_orders R541, R544, R546–R555). It rests in
part on the model's own choices and readings, log entries 10, 61 and 62. -/
def Obligations.OrderEventsTakeEffect : Prop := ∀ (s : State) (k : Fin 32) (r : Run) (temp : Int) (at_ c : Nat) (ev : Nat),
  let goes : Run := { r with lastOk := true, await := .next, line := r.line + 1, ready := s.day.cyc + 1 }
  let put (x : Run) : State := { s with orders := { s.orders with run := some x } }
  (vget s.orders.next k.val none = none → exec (.orderScheduleDue k) s = .next s) ∧
  (vget s.orders.next k.val none = some at_ → (s.awake = false ∨ s.now < at_) → exec (.orderScheduleDue k) s = .next s) ∧
  (vget s.orders.next k.val none = some at_ → s.awake = true → at_ ≤ s.now →
    (∀ x, s.dueList = [(at_, 1, k.val)] → s.slot k.val = some x → s.orders.run = none → s.orders.pending = [] → Leads (.orderScheduleDue k) s (fun t =>
      t.orders.run = some { k := k.val, slot := x, ready := s.day.cyc + 1, afterReady := !s.inRun } ∧
      t.orders.runs = s.orders.runs.inc ∧ vget t.orders.next k.val none = x.nextAt (s.now + 1) ∧
      t.edition .orders = s.edition .orders + 1 ∧ t.orders.missed = s.orders.missed)) ∧
    (s.dueList = [(at_, 1, k.val)] → s.orders.run = some r → r.k = k.val → Leads (.orderScheduleDue k) s (fun t =>
      t.orders.run = s.orders.run ∧ t.orders.runs = s.orders.runs ∧ t.pends 114))) ∧
  (s.orders.run = none → exec (.orderLineTake temp) s = .next s ∧ exec .orderLimitExpiry s = .next s ∧
    exec .waitExpiry s = .next s) ∧
  (s.orders.run = some r →
    (s.inRun = false ∨ r.await ≠ .next ∨ r.stopping.isSome = true ∨ r.afterReady = true ∨ s.day.cyc < r.ready →
      exec (.orderLineTake temp) s = .next s) ∧
    (∀ text, s.inRun = true → r.await = .next → r.stopping = none → r.afterReady = false → r.ready ≤ s.day.cyc →
      s.sys.pendingReset = none → r.slot.lines[r.line]? = some text →
      let r1 : Run := { r with started := some (r.started.getD s.day.cyc) }
      let s1 : State := { s with orders := { s.orders with said := .nothing, run := some r1 } }
      (∀ p act u, lexOrder text = .good p → s1.rowFor temp (.order r.k) .absent p = .ok act → act s1 = .next u →
        (∀ n, u.orders.said = .ticket n → u.orders.run = some r1 → u.sys.pendingReset = none →
          exec (.orderLineTake temp) s = .next { u with orders := { u.orders with run := some { r1 with await := .ticket n } } }) ∧
        (u.orders.said = .ok → u.orders.run = some r1 → u.sys.pendingReset = none → r.line + 1 < r.slot.lines.length →
          exec (.orderLineTake temp) s = .next { u with orders := { u.orders with
            run := some { r1 with lastOk := true, line := r.line + 1, ready := u.day.cyc + 1 } } })) ∧
      (∀ o e, lexOrder text = .bad o e →
        let run (x : Run) : State := { s1 with orders := { s1.orders with run := some x } }
        let on : Run := { r1 with lastOk := false, errors := r.errors + 1, lastErr := some (r.line, e.orderCode),
                                  line := r.line + 1, ready := s.day.cyc + 1 }
        let again : Run := { r1 with lastOk := true, errors := 0, lastErr := some (r.line, e.orderCode), line := 0,
                                     retriesUsed := r.retriesUsed + 1, ready := s.day.cyc + 1 }
        (r.slot.cont = true → r.line + 1 < r.slot.lines.length → exec (.orderLineTake temp) s = .next (run on)) ∧
        (r.slot.cont = false → r.retriesUsed < r.slot.retries → exec (.orderLineTake temp) s = .next (run again)) ∧
        (r.slot.cont = false → r.slot.retries ≤ r.retriesUsed → r.k < 32 → Leads (.orderLineTake temp) s (fun t =>
          vget t.orders.last r.k none =
            some { result := .fail, line := r.line, code := e.orderCode, errors := r.errors + 1 } ∧
          t.orders.fails = s.orders.fails.inc ∧ t.pends 113)))) ∧
    (s.inRun = false ∨ r.slot.limitMs = 0 ∨ r.started = none ∨ r.stopping.isSome = true →
      exec .orderLimitExpiry s = .next s) ∧
    (r.started = some c → s.day.cyc < c + r.slot.limitMs * tickMs → exec .orderLimitExpiry s = .next s) ∧
    (s.inRun = true → 0 < r.slot.limitMs → r.started = some c → r.stopping = none → (∀ n, r.await ≠ .ticket n) → r.k < 32 →
      c + r.slot.limitMs * tickMs ≤ s.day.cyc → Leads .orderLimitExpiry s (fun t =>
        (vget t.orders.last r.k none).map (·.result) = some .timeout ∧ t.orders.fails = s.orders.fails.inc ∧ t.pends 113)) ∧
    (r.await = .waitUntil c ∨ r.await = .waitClear ev c →
      (s.day.cyc < c → exec .waitExpiry s = .next s) ∧
      (c ≤ s.day.cyc → r.stopping = none → r.line + 1 < r.slot.lines.length → exec .waitExpiry s = .next (put goes)) ∧
      (c ≤ s.day.cyc → r.stopping = none → r.slot.lines.length ≤ r.line + 1 → r.k < 32 → Leads .waitExpiry s (fun t =>
        (vget t.orders.last r.k none).map (·.result) = some .done ∧ t.orders.fails = s.orders.fails ∧
        (s.quiet = false → t.pends 112)))) ∧
    (r.await = .next → exec .waitExpiry s = .next s))

/-! ## Events: the sensor supply switch, the tamper input and the pins -/

/-- The switch's ramp, check, limits, junction and trips (22_tamper_ssw_gpio R560–R567). It rests in part on the model's own
choices and readings, log entries 10 and 63. -/
def Obligations.SwitchEventsTakeEffect : Prop := ∀ (s : State) (sswOut sswIn : Nat) (b : Bool) (y : Ticket),
  let tripped (c : Instr) (cause : Nat) : Prop := Leads c s (fun t =>
    t.ssw.st = .fault ∧ t.ssw.cause = cause ∧ t.ssw.limit = false ∧ t.ssw.faults = s.ssw.faults.inc ∧
    t.edition .ssw = s.edition .ssw + 1 ∧
    (s.quiet = false → s.events.cond.getLsbD (89 + cause) = false → t.pends (89 + cause) ∧
      (s.eventPresent (89 + cause) = true → t.events.cond.getLsbD (89 + cause) = true)) ∧
    (s.running .ssw = some y → y.op = .sswOn → s.ticket? y.n = some y → y.live = true →
      ∃ ed, Completed t y .fault [kw "why" (causeName cause)] ed))
  let off (cause : Nat) (hot : Bool) : State :=
    ({ s with ssw := { s.ssw with st := .off, latched := cause, limit := false, hot := hot } }).release (BitVec.ofNat 32 (2 ^ 23))
  (s.ssw.st = .ramp → exec .sswRampEnd s = .next { s with ssw := { s.ssw with ramped := true } }) ∧
  (s.ssw.st ≠ .ramp → exec .sswRampEnd s = .next s ∧ exec (.sswCheck sswOut sswIn) s = .next s) ∧
  (s.ssw.st = .ramp → s.ssw.ramped = true →
    (9 * sswIn ≤ 10 * sswOut → 1600 ≤ sswIn → Leads (.sswCheck sswOut sswIn) s (fun t =>
      t.ssw.st = .on ∧ t.ssw.cause = s.ssw.cause ∧ t.ssw.faults = s.ssw.faults ∧ t.edition .ssw = s.edition .ssw + 1 ∧
      (s.quiet = false → t.pends 93) ∧
      (s.running .ssw = some y → s.ticket? y.n = some y → y.live = true → ∃ ed, Completed t y .done [] ed))) ∧
    (10 * sswOut < 9 * sswIn ∨ sswIn < 1600 → tripped (.sswCheck sswOut sswIn) 1)) ∧
  (s.ssw.limit = true → s.ssw.st = .ramp → s.ssw.ramped = false → tripped (.sswLimitTimeout sswIn) 1) ∧
  (s.ssw.limit = true → s.ssw.st = .on → tripped (.sswLimitTimeout sswIn) 2) ∧
  (s.ssw.limit = false ∨ s.ssw.st = .off ∨ s.ssw.st = .fault → exec (.sswLimitTimeout sswIn) s = .next s) ∧
  (s.sswHeldOn = true → exec .sswThermal s = .next (off 3 true) ∧ exec .sswDormantOverload s = .next (off 2 s.ssw.hot)) ∧
  (s.sswHeldOn = false → exec .sswDormantOverload s = .next s ∧
    (s.awake = true → s.ssw.st = .on ∨ s.ssw.st = .ramp → tripped .sswThermal 3) ∧
    (s.awake = false ∨ s.ssw.st = .off ∨ s.ssw.st = .fault → exec .sswThermal s = .next s)) ∧
  (s.ssw.st = .on ∨ s.ssw.st = .ramp → exec (.sswCurrentLimit b) s = .next { s with ssw := { s.ssw with limit := b } }) ∧
  (s.ssw.st = .off ∨ s.ssw.st = .fault → exec (.sswCurrentLimit b) s = .next s) ∧
  (s.has .ssw = true → exec (.sswHotChange b) s = .next { s with ssw := { s.ssw with hot := b } }) ∧
  (s.has .ssw = false → exec (.sswHotChange b) s = .next s)

/-- Readings of the tamper input and dips, the latch, the response they begin, and its end (22_tamper_ssw_gpio R568–R575;
18_noise_vault R490). It rests in part on the model's own choices and readings, log entries 10, 64 and 65. -/
def Obligations.TamperEventsTakeEffect : Prop := ∀ (s : State) (level : Bool) (r : TamperResp) (j : Nat),
  let ks := s.eraseList { source := 1, ctx := 1, period := s.day.keeper }
  let latched (c : Instr) (src : BitVec 2) : Prop := Leads c s (fun t =>
    t.tamper.latched = true ∧ t.tamper.source = s.tamper.source ||| src ∧ t.tamper.latches = s.tamper.latches.inc ∧
    t.tamper.owed = none ∧ t.edition .tamper = s.edition .tamper + 1 ∧
    (s.events.cond.getLsbD 88 = false → t.pends 88) ∧
    (s.has .vault = true → (t.tamper.resp.map (·.erased)) = some (BitVec.ofNat 8 (maskOf ks)) ∧
      (j < 8 → j ∈ ks → t.slotKey j = none) ∧ (j ∉ ks → t.slotKey j = s.slotKey j)) ∧
    (s.has .vault = false → t.tamper.resp = none ∧ ∃ e, vget t.tamper.log (t.tamper.seq % 32) none = some e ∧
      e.seq = t.tamper.seq ∧ e.at_ = s.now ∧ e.source = src.toNat ∧ e.ctx = 1 ∧ e.erased = 0))
  let quietly : Prop := s.inRun = true ∧ s.tamper.latched = false ∧ s.tamper.owed = none ∧ s.tamper.resp = none ∧
    s.running .vault = none
  (s.senses 1 = false → exec (.tamperSample level) s = .next s) ∧
  (s.senses 1 = true → (s.tampActive level = false ∨ s.tamper.level = true) → exec (.tamperSample level) s = .next { s with
    pads := { s.pads with tamp := level }
    tamper := { s.tamper with level := s.tampActive level } }) ∧
  (s.senses 1 = true → s.tampActive level = true → s.tamper.level = false → quietly → latched (.tamperSample level) 1) ∧
  (s.senses 2 = false → exec (.tamperContinuous level) s = .next s) ∧
  (s.senses 2 = true → (s.tampActive level = false ∨ s.tamper.seenOnce = false) →
    exec (.tamperContinuous level) s = .next { s with
      pads := { s.pads with tamp := level }
      tamper := { s.tamper with level := s.tampActive level, seenOnce := s.tampActive level && !s.tamper.level } }) ∧
  (s.senses 2 = true → s.tampActive level = true → s.tamper.seenOnce = true → quietly → latched (.tamperContinuous level) 1) ∧
  (bit s.cfg.pins.tamper 4 = false → exec .vbatDip s = .next s) ∧
  (bit s.cfg.pins.tamper 4 = true → quietly → latched .vbatDip 2) ∧
  (s.tamper.resp = none → exec .erasureDone s = .next s) ∧
  (s.tamper.resp = some r → s.tamper.owed = none →
    (let q := if (s.tamper.seq + 1) % 2 ^ 32 = 0 then 1 else (s.tamper.seq + 1) % 2 ^ 32
     Leads .erasureDone s (fun t =>
      t.tamper.resp = none ∧ t.tamper.seq = q ∧
      vget t.tamper.log (q % 32) none =
        some { seq := q, at_ := r.at_, source := r.what.source.toNat, ctx := r.what.ctx, erased := r.erased } ∧
      (∀ i, i ≠ q % 32 → vget t.tamper.log i none = vget s.tamper.log i none) ∧ t.vault.slots = s.vault.slots ∧
      (r.erased = 0 → t.vault.erasures = s.vault.erasures) ∧
      (r.erased ≠ 0 → t.vault.erasures = s.vault.erasures.inc ∧ (s.quiet = false → t.pends 83)) ∧
      (s.quiet = false → (vget s.tamper.log (q % 32) none).isSome = true → t.pends 89))))

/-- Edges of the general pins and of WAKE_IN (22_tamper_ssw_gpio R578; 09_dormant R241, R243). It rests in part on the
model's own choices and readings, log entries 10, 39 and 43. -/
def Obligations.PinEdgesTakeEffect : Prop := ∀ (s : State) (n : Fin 8) (level : Bool),
  (let m : BitVec 8 := BitVec.ofNat 8 (2 ^ n.val)
   let put (v : BitVec 8) : BitVec 8 := if level then v ||| m else v &&& ~~~m
   let e := fld (s.gpioCfg n.val) 9 8
   let selected : Bool := if level then decide (e % 2 = 1) else decide (2 ≤ e)
   let plain : State := { s with pads := { s.pads with gpioIn := put s.pads.gpioIn }, gpio := { s.gpio with filt := put s.gpio.filt } }
   (s.awake = false ∨ s.gpioFn n.val ≠ 0 ∨ s.gpio.filt.getLsbD n.val = level ∨ selected = false →
     exec (.gpioEdge n level) s = .next plain) ∧
   (s.awake = true → s.gpioFn n.val = 0 → s.gpio.filt.getLsbD n.val ≠ level → selected = true →
     Leads (.gpioEdge n level) s (fun t => t.gpio.filt = put s.gpio.filt ∧ t.pads.gpioIn = put s.pads.gpioIn ∧
       t.gpio.edges = s.gpio.edges.inc ∧ t.pends 94 ∧ t.cfg = s.cfg))) ∧
  (s.pads.wakeIn = level → exec (.wakeInEdge level) s = .next s) ∧
  (s.pads.wakeIn ≠ level →
    (s.awake = true → s.wakeInOn level = false →
      exec (.wakeInEdge level) s = .next { s with pads := { s.pads with wakeIn := level } }) ∧
    (s.awake = true → s.wakeInOn level = true → Leads (.wakeInEdge level) s (fun t =>
      t.pads.wakeIn = level ∧ t.pends 4 ∧ t.pwr = s.pwr)) ∧
    (s.booting = true → s.awake = false → s.pwr.wakeInEdge = none → exec (.wakeInEdge level) s = .next
      { s with pads := { s.pads with wakeIn := level }, pwr := { s.pwr with wakeInEdge := some level } }) ∧
    (s.booting = false → s.pwr.state = .dormant → s.wakeInOn level = true → s.pwr.vddioOk = true → s.pwr.wakeInEdge = none →
      exec (.wakeInEdge level) s = .next
        { s with
          pads := { s.pads with wakeIn := level }
          pwr := { s.pwr with state := .wake 0 false, wakeSrc := 3, wakeAlso := 8, wakeInEdge := some level
                              wakeOrigin := s.day.keeper } }))

/-! ## Rules that hold of many commands -/

/-- 06_tickets R152: the number given next is the lowest free one above the number issued last, or, where none above is
free, the lowest free one from 0; after a reset it is 0; and a pool that is not full always gives one. -/
def Obligations.TicketNumbersAscend : Prop := ∀ s : State, (∀ m, s.tickets.last = some m → m < 512) →
  (∀ n, s.nextNumber = some n → n < 512 ∧ s.ticket? n = none ∧
    (∀ m, s.tickets.last = some m → m < n → ∀ j, m < j → j < n → (s.ticket? j).isSome = true) ∧
    (∀ m, s.tickets.last = some m → n ≤ m →
      (∀ j, m < j → j < 512 → (s.ticket? j).isSome = true) ∧ ∀ j, j < n → (s.ticket? j).isSome = true) ∧
    (s.tickets.last = none → ∀ j, j < n → (s.ticket? j).isSome = true)) ∧
  (s.tickets = {} → s.nextNumber = some 0) ∧
  (s.tickets.pool.length < 512 → s.nextNumber.isSome = true)

/-- 19_stacks_porter R512, R513: a LOOP slip moves c0 × c1 × c2 elements and a SHELF slip n × c0, in the order of their
loops, each at the walked address its counts give, and the side that is not walked moves by `other` after each. -/
def Obligations.SlipsMoveTheirElements : Prop := ∀ (x : PRun) (sl : Slip) (i : Nat),
  x.k0 = 0 → x.k1 = 0 → x.k2 = 0 → x.p < 2 ^ 32 → 0 < sl.c0 →
  (sl.shelf = false → 0 < sl.c1 → 0 < sl.c2 →
    (i < sl.c0 * sl.c1 * sl.c2 → ∃ y, x.after sl i = some y ∧
      y = { x with
        k0 := i % sl.c0
        k1 := i / sl.c0 % sl.c1
        k2 := i / (sl.c0 * sl.c1)
        p := unsigned 32 ((x.p : Int) + i * sl.other) } ∧
      y.walked sl = unsigned 32 (((if sl.walkDst then sl.dst else sl.src : Nat) : Int) + (i / (sl.c0 * sl.c1) : Nat) * sl.s2 +
        (i / sl.c0 % sl.c1 : Nat) * sl.s1 + (i % sl.c0 : Nat) * sl.s0)) ∧
    (sl.c0 * sl.c1 * sl.c2 ≤ i → x.after sl i = none)) ∧
  (sl.shelf = true → 0 < sl.n →
    (i < sl.n * sl.c0 → ∃ y, x.after sl i = some y ∧
      y = { x with
        k0 := i % sl.c0
        k1 := i / sl.c0
        p := unsigned 32 ((x.p : Int) + i * sl.other) } ∧
      ∀ off, ({ y with off := off } : PRun).walked sl =
        unsigned 32 (((if sl.walkDst then sl.dst else sl.src : Nat) : Int) + off * sl.scale + (i % sl.c0 : Nat) * sl.s0)) ∧
    (sl.n * sl.c0 ≤ i → x.after sl i = none))

/-- 18_noise_vault R492: what DEC returns a plaintext for is exactly what ENC makes of that plaintext under the same key,
nonce, associated data and level. It rests in part on the model's own choices and readings, log entry 20. -/
def Obligations.CcmOpensExactlyWhatItSeals : Prop := ∀ (key nonce aad msg data : List Nat) (level : Nat),
  key.length = 16 → nonce.length = 13 →
    (ccmDec key nonce aad data level = some msg ↔ data = ccmEnc key nonce aad msg level)

/-- 19_stacks_porter R500: octets written to the carrels read back, and every other octet reads as before, where the cells
stand in canonical form. It rests in part on the model's own choices and readings, log entry 3. -/
def Obligations.CarrelsReadBack : Prop := ∀ (s : State) (a b : Nat) (o : List Byte), Memory.wf none s.store.carrels = true →
  (s.carrelWrite a o).carrelRead a o.length = o ∧
  ((b < a ∨ a + o.length ≤ b) → (s.carrelWrite a o).carrelByte b = s.carrelByte b)

/-- 21_orders R541: the next time of an enabled schedule is the least at or above the Daybook value given that is phase_s
past a multiple of every_s. -/
def Obligations.SchedulesTakeLeastTime : Prop := ∀ (x : OrderSlot) (e p v : Nat), x.enabled = true → x.trigger = .schedule e p →
  p < e → ∃ t, x.nextAt v = some t ∧ v ≤ t ∧ t % (e * 19200000) = p * 19200000 ∧
    ∀ u, v ≤ u → u % (e * 19200000) = p * 19200000 → t ≤ u

/-- 21_orders R543: ORDER RUN and the action of a host alarm start an order whether or not it is enabled; a disabled order
has no schedule time, and no firing of an event starts it or makes it pending. -/
def Obligations.CommandTriggersStartAnyOrder : Prop := ∀ (s : State) (k : Nat) (x : OrderSlot) (y : Ticket) (a : Fin 4),
  s.slot k = some x →
  (s.orders.run = none → s.orders.pending = [] →
    (s.head .orders = some y → y.op = .orderRun k → y.unstarted = true → y.after = none → y.due = none → y.guard = none →
      y.startAt = none → y.timed = false → s.awake = true → Leads (.ticketHead .orders) s (fun t =>
        t.orders.run.map (fun r => (r.k, r.slot, r.runTicket)) = some (k, x, some y.n) ∧ t.orders.runs = s.orders.runs.inc)) ∧
    (s.awake = true → s.dueList = [((s.alarm a.val).at_.toNat, 0, a.val)] → s.alarmDue a.val = true →
      (s.alarm a.val).order = some k → Leads (.alarmFire a) s (fun t =>
      t.orders.run.map (fun r => (r.k, r.slot, r.runTicket)) = some (k, x, none) ∧ t.orders.runs = s.orders.runs.inc))) ∧
  (x.enabled = false →
    (∀ v, vget (s.scheduleOrder k v).orders.next k none = none) ∧
    (∀ (j : Fin 32) (v : Nat), j.val = k → exec (.orderScheduleDue j) (s.scheduleOrder k v) = .next (s.scheduleOrder k v)) ∧
    (∀ n fields, (∀ j z, s.slot j = some z → z.trigger = .event n → z.enabled = false) →
      (s.fire n fields).orders = s.orders) ∧
    ∀ n fields, ((s.fire n fields).orders.run.map (·.k) = some k → s.orders.run.map (·.k) = some k) ∧
      ((s.fire n fields).orders.pending.any (·.k == k) = true → s.orders.pending.any (·.k == k) = true))
end

