-- ==== Sys2Proof/Laws/Memory.lean ====
section
/-! SUPPORT. The addressed stores: a read after a write gives the octet written and every other octet is left alone,
and every operation on the cells keeps their canonical form. -/
namespace Sys2Proof.Machine

open Sys2Proof

/-! ## Read after write -/

theorem cellsRead_cellsWrite_same (m : List Host.Cell) (a : Nat) (b d : Byte) (h : Memory.wf (some d) m = true) :
    cellsRead (cellsWrite m a b d) a d = b := by
  induction m with
  | nil => unfold cellsWrite; split <;> simp_all [cellsRead]
  | cons c r ih =>
    obtain ⟨x, y⟩ := c
    have hr : Memory.wf (some d) r = true := by simp only [Memory.wf, Bool.and_eq_true] at h; exact h.2
    have below : ∀ (r : List Host.Cell) (a : Nat), Memory.wf (some d) r = true → (∀ z w r', r = (z, w) :: r' → a < z) →
        cellsRead r a d = d := by
      intro r
      induction r with
      | nil => simp [cellsRead]
      | cons e r ih =>
        obtain ⟨z, v⟩ := e
        intro a hw hl
        have hz := hl z v r rfl
        have : a ≠ z := by omega
        simp only [cellsRead, this, if_false]
        simp only [Memory.wf, Bool.and_eq_true] at hw
        refine ih a hw.2 ?_
        intro z' w' r' hr'
        subst hr'
        have := of_decide_eq_true hw.1.1
        omega
    unfold cellsWrite
    split
    · split
      · rename_i hb
        subst hb
        have : a ≠ x := by omega
        simp only [cellsRead, this, if_false]
        refine below r a hr ?_
        intro z w' r' he
        subst he
        simp only [Memory.wf, Bool.and_eq_true] at h
        have := of_decide_eq_true h.1.1
        omega
      · simp [cellsRead]
    · split
      · rename_i hx
        subst hx
        split
        · rename_i hb
          subst hb
          refine below r a hr ?_
          intro z w' r' he
          subst he
          simp only [Memory.wf, Bool.and_eq_true] at h
          exact of_decide_eq_true h.1.1
        · simp [cellsRead]
      · rename_i hx
        simp only [cellsRead, hx, if_false]
        exact ih hr

theorem cellsRead_cellsWrite_other (m : List Host.Cell) (a c : Nat) (b d : Byte) (hc : c ≠ a)
    (h : Memory.wf (some d) m = true) : cellsRead (cellsWrite m a b d) c d = cellsRead m c d := by
  induction m with
  | nil => unfold cellsWrite; split <;> simp [cellsRead, hc]
  | cons e r ih =>
    obtain ⟨x, y⟩ := e
    have hr : Memory.wf (some d) r = true := by simp only [Memory.wf, Bool.and_eq_true] at h; exact h.2
    unfold cellsWrite
    split
    · split <;> simp [cellsRead, hc]
    · split
      · rename_i hx
        subst hx
        split <;> simp [cellsRead, hc]
      · simp only [cellsRead]
        split
        · rfl
        · exact ih hr

/-! ## The canonical form -/

/-- Every address of a store lies above a bound. -/
theorem Memory.wf_cons {d : Option Byte} {a : Nat} {b : Byte} {r : List Host.Cell} (h1 : d ≠ some b)
    (h2 : ∀ c ∈ r, a < c.1) (h3 : Memory.wf d r = true) : Memory.wf d ((a, b) :: r) = true := by
  cases r with
  | nil => simp [Memory.wf, h1]
  | cons e r' =>
    obtain ⟨x, y⟩ := e
    have hx : a < x := h2 (x, y) (by simp)
    simp [Memory.wf, h1, hx] at h3 ⊢
    exact h3

theorem Memory.wf_tail {d : Option Byte} {c : Host.Cell} {r : List Host.Cell} (h : Memory.wf d (c :: r) = true) :
    Memory.wf d r = true := by
  obtain ⟨a, b⟩ := c
  simp only [Memory.wf, Bool.and_eq_true] at h
  exact h.2

theorem Memory.wf_above {d : Option Byte} {a : Nat} {b : Byte} {r : List Host.Cell} (h : Memory.wf d ((a, b) :: r) = true) :
    d ≠ some b ∧ ∀ c ∈ r, a < c.1 := by
  induction r generalizing a b with
  | nil => simp [Memory.wf] at h; simp [h]
  | cons e r ih =>
    obtain ⟨x, y⟩ := e
    have h' := h
    simp only [Memory.wf, Bool.and_eq_true] at h
    have hx : a < x := of_decide_eq_true h.1.1
    refine ⟨of_decide_eq_true h.1.2, ?_⟩
    intro c hc
    rcases List.mem_cons.1 hc with hc | hc
    · subst hc; exact hx
    · exact hx.trans ((ih (Memory.wf_tail h')).2 c hc)

theorem cellsWrite_mem (m : List Host.Cell) (a : Nat) (b d : Byte) : ∀ c ∈ cellsWrite m a b d, c.1 = a ∨ c ∈ m := by
  induction m with
  | nil => unfold cellsWrite; split <;> simp
  | cons e r ih =>
    obtain ⟨x, y⟩ := e
    unfold cellsWrite
    intro c hc
    split at hc
    · split at hc
      · exact Or.inr hc
      · rcases List.mem_cons.1 hc with h | h
        · subst h; simp
        · exact Or.inr h
    · split at hc
      · split at hc
        · exact Or.inr (List.mem_cons_of_mem _ hc)
        · rcases List.mem_cons.1 hc with h | h
          · subst h; simp
          · exact Or.inr (List.mem_cons_of_mem _ h)
      · rcases List.mem_cons.1 hc with h | h
        · subst h; simp
        · rcases ih c h with h | h
          · exact Or.inl h
          · exact Or.inr (List.mem_cons_of_mem _ h)

theorem cellsWrite_wf (m : List Host.Cell) (a : Nat) (b d : Byte) (h : Memory.wf (some d) m = true) :
    Memory.wf (some d) (cellsWrite m a b d) = true := by
  induction m with
  | nil =>
    unfold cellsWrite
    split
    · rfl
    · rename_i hb; simp [Memory.wf, Ne.symm hb]
  | cons e r ih =>
    obtain ⟨x, y⟩ := e
    have hr := Memory.wf_tail h
    have hx := Memory.wf_above h
    unfold cellsWrite
    split
    · rename_i ha
      split
      · exact h
      · rename_i hb
        refine Memory.wf_cons (by simp [Ne.symm hb]) ?_ h
        intro c hc
        rcases List.mem_cons.1 hc with hc | hc
        · subst hc; exact ha
        · exact ha.trans (hx.2 c hc)
    · split
      · rename_i hax
        subst hax
        split
        · exact hr
        · rename_i hb
          exact Memory.wf_cons (by simp [Ne.symm hb]) hx.2 hr
      · rename_i h1 h2
        refine Memory.wf_cons hx.1 ?_ (ih hr)
        intro c hc
        rcases cellsWrite_mem r a b d c hc with hc | hc
        · omega
        · exact hx.2 c hc

theorem cellsWriteAll_wf (l : List Byte) (m : List Host.Cell) (a : Nat) (h : Memory.wf (some 0) m = true) :
    Memory.wf (some 0) (cellsWriteAll m a l) = true := by
  induction l generalizing m a with
  | nil => exact h
  | cons b bs ih => exact ih _ _ (cellsWrite_wf m a b 0 h)

theorem cellsPut_mem (m : List Host.Cell) (a : Nat) (b : Byte) : ∀ c ∈ cellsPut m a b, c.1 = a ∨ c ∈ m := by
  induction m with
  | nil => simp [cellsPut]
  | cons e r ih =>
    obtain ⟨x, y⟩ := e
    unfold cellsPut
    intro c hc
    split at hc
    · rcases List.mem_cons.1 hc with h | h
      · subst h; simp
      · exact Or.inr h
    · split at hc
      · rcases List.mem_cons.1 hc with h | h
        · subst h; simp
        · exact Or.inr (List.mem_cons_of_mem _ h)
      · rcases List.mem_cons.1 hc with h | h
        · subst h; simp
        · rcases ih c h with h | h
          · exact Or.inl h
          · exact Or.inr (List.mem_cons_of_mem _ h)

theorem cellsPut_wf (m : List Host.Cell) (a : Nat) (b : Byte) (h : Memory.wf none m = true) :
    Memory.wf none (cellsPut m a b) = true := by
  induction m with
  | nil => simp [cellsPut, Memory.wf]
  | cons e r ih =>
    obtain ⟨x, y⟩ := e
    have hr := Memory.wf_tail h
    have hx := Memory.wf_above h
    unfold cellsPut
    split
    · rename_i ha
      refine Memory.wf_cons (by simp) ?_ h
      intro c hc
      rcases List.mem_cons.1 hc with hc | hc
      · subst hc; exact ha
      · exact ha.trans (hx.2 c hc)
    · split
      · rename_i hax
        subst hax
        exact Memory.wf_cons (by simp) hx.2 hr
      · rename_i h1 h2
        refine Memory.wf_cons (by simp) ?_ (ih hr)
        intro c hc
        rcases cellsPut_mem r a b c hc with hc | hc
        · omega
        · exact hx.2 c hc

theorem cellsPutAll_wf (l : List Byte) (m : List Host.Cell) (a : Nat) (h : Memory.wf none m = true) :
    Memory.wf none (cellsPutAll m a l) = true := by
  induction l generalizing m a with
  | nil => exact h
  | cons b bs ih => exact ih _ _ (cellsPut_wf m a b h)

/-- Leaving cells out keeps the canonical form. -/
theorem Memory.wf_filter (d : Option Byte) (p : Host.Cell → Bool) (m : List Host.Cell) (h : Memory.wf d m = true) :
    Memory.wf d (m.filter p) = true := by
  induction m with
  | nil => rfl
  | cons e r ih =>
    obtain ⟨x, y⟩ := e
    have hx := Memory.wf_above h
    have hr := ih (Memory.wf_tail h)
    by_cases hp : p (x, y) = true
    · rw [List.filter_cons_of_pos hp]
      exact Memory.wf_cons hx.1 (fun c hc => hx.2 c (List.mem_of_mem_filter hc)) hr
    · rw [List.filter_cons_of_neg hp]
      exact hr

theorem State.reset_memWf : State.reset.memWf = true := by rfl

end Sys2Proof.Machine
end

