-- ==== Sys2Proof/Laws/Keeps.lean ====
section
/-! SUPPORT. What no operation of the model changes: the part, the queue of waiting commands and, but for the few
operations that store octets, the cells of the addressed stores.  One lemma for each operation on the state. -/
namespace Sys2Proof.Machine

open Sys2Proof

set_option maxRecDepth 4000
set_option linter.unusedSimpArgs false
set_option linter.unusedTactic false

/-- The part, the queue and every cell are as before. -/
abbrev Fixed (s t : State) : Prop :=
  t.part = s.part ∧ t.pending = s.pending ∧ t.store.scratch = s.store.scratch ∧ t.store.shelf = s.store.shelf ∧
    t.store.carrels = s.store.carrels

/-- The part and the queue are as before. -/
abbrev Kept (s t : State) : Prop := t.part = s.part ∧ t.pending = s.pending

/-- A row write that stores no octets of the host scratch or the Stacks. -/
def RowWhat.plain : RowWhat → Bool
  | .scratch _ _ => false
  | .stacks _ _ => false
  | .twin _ _ => true
  | .twinEnd _ _ _ => true
  | .mirror _ => true
  | .counters _ _ => true
  | .drift _ _ => true
  | .journal _ _ => true
  | .key _ _ => true
  | .tamperLog _ _ => true
  | .cat _ => true
  | .order _ _ _ => true
  | .archFirst _ => true
  | .archNext _ => true
theorem Fixed.trans {a b c : State} (h : Fixed a b) (k : Fixed b c) : Fixed a c := by simp_all [Fixed]
theorem Kept.trans {a b c : State} (h : Kept a b) (k : Kept b c) : Kept a c := by simp_all [Kept]
theorem Fixed.kept {a b : State} (h : Fixed a b) : Kept a b := ⟨h.1, h.2.1⟩
theorem foldl_fst {α β : Type} (g : State × β → α → State × β) (h : ∀ a x, Fixed a.1 (g a x).1) (l : List α) (a : State × β) :
    Fixed a.1 (l.foldl g a).1 := by
  induction l generalizing a with
  | nil => simp [Fixed]
  | cons x xs ih => exact (h a x).trans (ih _)
theorem foldl_fixed {α : Type} (g : State → α → State) (h : ∀ s x, Fixed s (g s x)) (l : List α) (s : State) :
    Fixed s (l.foldl g s) := by
  induction l generalizing s with
  | nil => simp [Fixed]
  | cons x xs ih => exact (h s x).trans (ih _)
@[simp] theorem part_ite (c : Prop) [Decidable c] (a b : State) : (if c then a else b).part = if c then a.part else b.part :=
  apply_ite State.part c a b
@[simp] theorem pending_ite (c : Prop) [Decidable c] (a b : State) :
    (if c then a else b).pending = if c then a.pending else b.pending := apply_ite State.pending c a b
@[simp] theorem store_ite (c : Prop) [Decidable c] (a b : State) :
    (if c then a else b).store = if c then a.store else b.store := apply_ite State.store c a b
@[simp] theorem scratch_ite (c : Prop) [Decidable c] (a b : StoreSt) :
    (if c then a else b).scratch = if c then a.scratch else b.scratch := apply_ite StoreSt.scratch c a b
@[simp] theorem shelf_ite (c : Prop) [Decidable c] (a b : StoreSt) :
    (if c then a else b).shelf = if c then a.shelf else b.shelf := apply_ite StoreSt.shelf c a b
@[simp] theorem carrels_ite (c : Prop) [Decidable c] (a b : StoreSt) :
    (if c then a else b).carrels = if c then a.carrels else b.carrels := apply_ite StoreSt.carrels c a b
section
variable {α : Type} (g : State → α → State) (l : List α) (s : State)
@[simp] theorem foldl_part (h : ∀ s x, (g s x).part = s.part) : (l.foldl g s).part = s.part := by
  induction l generalizing s <;> simp_all
@[simp] theorem foldl_pending (h : ∀ s x, (g s x).pending = s.pending) : (l.foldl g s).pending = s.pending := by
  induction l generalizing s <;> simp_all
@[simp] theorem foldl_scratch (h : ∀ s x, (g s x).store.scratch = s.store.scratch) :
    (l.foldl g s).store.scratch = s.store.scratch := by
  induction l generalizing s <;> simp_all
@[simp] theorem foldl_shelf (h : ∀ s x, (g s x).store.shelf = s.store.shelf) :
    (l.foldl g s).store.shelf = s.store.shelf := by
  induction l generalizing s <;> simp_all
@[simp] theorem foldl_carrels (h : ∀ s x, (g s x).store.carrels = s.store.carrels) :
    (l.foldl g s).store.carrels = s.store.carrels := by
  induction l generalizing s <;> simp_all
end

@[simp] theorem State.release_fixed (s : State) (m : Word) : Fixed s (State.release s m) := by
  unfold State.release; simp [Fixed]
@[simp] theorem State.padFollow_fixed (s : State) : Fixed s (State.padFollow s) := by
  unfold State.padFollow; simp [Fixed]
@[simp] theorem State.latchPads_fixed (s : State) : Fixed s (State.latchPads s) := by
  unfold State.latchPads; simp [Fixed]
@[simp] theorem State.bump_fixed (s : State) (u : EdUnit) : Fixed s (State.bump s u) := by
  unfold State.bump; simp [Fixed]
@[simp] theorem State.attnFollow_fixed (s0 : State) : Fixed s0 (State.attnFollow s0) := by
  unfold State.attnFollow; simp [Fixed]
@[simp] theorem State.clearPend_fixed (s : State) (m : BitVec 128) : Fixed s (State.clearPend s m) := by
  unfold State.clearPend; simp [Fixed]
@[simp] theorem State.setTwin_fixed (s : State) (i : Nat) (c : Copies) : Fixed s (State.setTwin s i c) := by
  unfold State.setTwin; simp [Fixed]
@[simp] theorem State.cfgSet_fixed (s : State) (r : CfgReg) (v : Word) : Fixed s (State.cfgSet s r v) := by
  unfold State.cfgSet; simp [Fixed]
@[simp] theorem State.setPort_fixed (s : State) (p : Port) (x : PortSt) : Fixed s (State.setPort s p x) := by
  unfold State.setPort; (repeat' split) <;> simp [Fixed]
@[simp] theorem State.push_fixed (s : State) (p : Port) (l : OutLine) : Fixed s (State.push s p l) := by
  unfold State.push; simp [Fixed]
@[simp] theorem State.pushEv_fixed (s : State) (p : Port) (n : Nat) (l : OutLine) :
    Fixed s (State.pushEv s p n l) := by
  unfold State.pushEv; simp [Fixed]
@[simp] theorem State.fireCore_fixed (s : State) (n : Nat) (fields : List Tok) :
    Fixed s (State.fireCore s n fields) := by
  unfold State.fireCore; simp [Fixed]
@[simp] theorem State.startOrder_fixed (s : State) (k : Nat) (slot : OrderSlot) (rt : Option Nat) (afterReady : Bool) :
    Fixed s (State.startOrder s k slot rt afterReady) := by
  unfold State.startOrder; simp [Fixed]
@[simp] theorem State.triggerCore_fixed (s : State) (k : Nat) (rt : Option Nat) (afterReady : Bool) :
    Fixed s (State.triggerCore s k rt afterReady) := by
  unfold State.triggerCore; (repeat' split) <;> simp [Fixed]
@[simp] theorem State.eventTriggers_fixed (s : State) (n : Nat) : Fixed s (State.eventTriggers s n).1 := by
  unfold State.eventTriggers; exact foldl_fst _ (fun a x => by simp [Fixed]) _ (s, [])
@[simp] theorem State.fireMissed_fixed (s : State) (ms : List (Nat × String)) :
    Fixed s (State.fireMissed s ms) := by
  unfold State.fireMissed; (repeat' split) <;> simp [Fixed]
@[simp] theorem State.fire_fixed (s : State) (n : Nat) (fields : List Tok) : Fixed s (State.fire s n fields) := by
  unfold State.fire; simp [Fixed]
@[simp] theorem State.condOn_fixed (s : State) (n : Nat) (fields : List Tok) :
    Fixed s (State.condOn s n fields) := by
  unfold State.condOn; simp [Fixed]
@[simp] theorem State.condOff_fixed (s : State) (n : Nat) : Fixed s (State.condOff s n) := by
  unfold State.condOff; simp [Fixed]
@[simp] theorem State.triggerOrder_fixed (s : State) (k : Nat) (rt : Option Nat) (afterReady : Bool) :
    Fixed s (State.triggerOrder s k rt afterReady) := by
  unfold State.triggerOrder; refine ⟨?_, ?_, ?_, ?_, ?_⟩ <;> simp <;> (repeat' split) <;> simp_all
@[simp] theorem State.settled_fixed (t s : State) : Fixed t (State.settled t s) := by
  unfold State.settled; simp [Fixed]
@[simp] theorem State.touch_fixed (s : State) (n : Nat) : Fixed s (State.touch s n) := by
  unfold State.touch; simp [Fixed]
@[simp] theorem State.putTwin_fixed (s : State) (i : Nat) (patch : List (Nat × List Byte)) :
    Fixed s (State.putTwin s i patch) := by
  unfold State.putTwin; simp [Fixed]
@[simp] theorem State.applyRow_fixed (s : State) (x : RowWhat) (h : x.plain = true) : Fixed s (s.applyRow x) := by
  unfold State.applyRow
  cases x <;> first | (simp [Fixed]; done) | (simp [RowWhat.plain] at h; done) | (simp only []; split <;> simp [Fixed])
@[simp] theorem State.applyRow_kept (s : State) (x : RowWhat) : Kept s (s.applyRow x) := by
  unfold State.applyRow; cases x <;> first | (simp [Kept]; done) | (simp only []; split <;> simp [Kept])
@[simp] theorem State.beginRow_fixed (s : State) (r : RowWrite) (rest : List RowWrite) (h : r.what.plain = true) :
    Fixed s (s.beginRow r rest) := by
  have := s.applyRow_fixed r.what h
  unfold State.beginRow; simp_all [Fixed]
@[simp] theorem State.beginRow_kept (s : State) (r : RowWrite) (rest : List RowWrite) : Kept s (s.beginRow r rest) := by
  unfold State.beginRow; simp [Kept]
@[simp] theorem State.rowWrite_fixed (s : State) (r : RowWrite) (h : r.what.plain = true) : Fixed s (s.rowWrite r) := by
  unfold State.rowWrite; split
  · exact State.beginRow_fixed _ _ _ h
  · simp [Fixed]
@[simp] theorem State.rowWrite_twin_fixed (s : State) (i : Nat) (p : List (Nat × List Byte)) (j : Bool) (t : Option Nat) :
    Fixed s (s.rowWrite ⟨.twin i p, j, t⟩) := State.rowWrite_fixed s _ rfl
@[simp] theorem State.rowWrite_mirror_fixed (s : State) (i : Nat) (j : Bool) (t : Option Nat) :
    Fixed s (s.rowWrite ⟨.mirror i, j, t⟩) := State.rowWrite_fixed s _ rfl
@[simp] theorem State.rowWrite_counters_fixed (s : State) (d : List Byte) (v : Word) (j : Bool) (t : Option Nat) :
    Fixed s (s.rowWrite ⟨.counters d v, j, t⟩) := State.rowWrite_fixed s _ rfl
@[simp] theorem State.rowWrite_drift_fixed (s : State) (k : Nat) (o : List Byte) (j : Bool) (t : Option Nat) :
    Fixed s (s.rowWrite ⟨.drift k o, j, t⟩) := State.rowWrite_fixed s _ rfl
@[simp] theorem State.rowWrite_journal_fixed (s : State) (k : Nat) (o : List Byte) (j : Bool) (t : Option Nat) :
    Fixed s (s.rowWrite ⟨.journal k o, j, t⟩) := State.rowWrite_fixed s _ rfl
@[simp] theorem State.rowWrite_key_fixed (s : State) (k : Nat) (m : Option (List Byte)) (j : Bool) (t : Option Nat) :
    Fixed s (s.rowWrite ⟨.key k m, j, t⟩) := State.rowWrite_fixed s _ rfl
@[simp] theorem State.rowWrite_tamperLog_fixed (s : State) (k : Nat) (o : List Byte) (j : Bool) (t : Option Nat) :
    Fixed s (s.rowWrite ⟨.tamperLog k o, j, t⟩) := State.rowWrite_fixed s _ rfl
@[simp] theorem State.rowWrite_cat_fixed (s : State) (l : List CatEntry) (j : Bool) (t : Option Nat) :
    Fixed s (s.rowWrite ⟨.cat l, j, t⟩) := State.rowWrite_fixed s _ rfl
@[simp] theorem State.rowWrite_order_fixed (s : State) (k i : Nat) (o : List Byte) (j : Bool) (t : Option Nat) :
    Fixed s (s.rowWrite ⟨.order k i o, j, t⟩) := State.rowWrite_fixed s _ rfl
@[simp] theorem State.rowWrite_archFirst_fixed (s : State) (n : Nat) (j : Bool) (t : Option Nat) :
    Fixed s (s.rowWrite ⟨.archFirst n, j, t⟩) := State.rowWrite_fixed s _ rfl
@[simp] theorem State.rowWrite_archNext_fixed (s : State) (n : Nat) (j : Bool) (t : Option Nat) :
    Fixed s (s.rowWrite ⟨.archNext n, j, t⟩) := State.rowWrite_fixed s _ rfl
@[simp] theorem State.rowWrite_kept (s : State) (r : RowWrite) : Kept s (s.rowWrite r) := by
  unfold State.rowWrite; split <;> simp [Kept]
@[simp] theorem State.rowWrites_fixed (s : State) (ws : List RowWhat) (t : Option Nat) (h : ws.all RowWhat.plain = true) :
    Fixed s (s.rowWrites ws t) := by
  induction ws generalizing s with
  | nil => simp [State.rowWrites, Fixed, Kept]
  | cons x xs ih => cases xs <;> simp_all [State.rowWrites, Fixed]
@[simp] theorem State.rowWrites_kept (s : State) (ws : List RowWhat) (t : Option Nat) :
    Kept s (State.rowWrites s ws t) := by
  induction ws generalizing s with
  | nil => simp [State.rowWrites, Fixed, Kept]
  | cons x xs ih => cases xs <;> simp_all [State.rowWrites, Kept]
theorem regRows_plain (xs : List (CfgReg × Word)) : (regRows xs).all RowWhat.plain = true := by
  rw [List.all_eq_true]
  intro x hx
  unfold regRows at hx
  simp only [List.mem_filterMap] at hx
  obtain ⟨y, _, hy⟩ := hx
  split at hy
  · cases hy
  · cases hy; rfl
@[simp] theorem State.saveAs_fixed (s : State) (xs : List (CfgReg × Word)) : Fixed s (s.saveAs xs) :=
  s.rowWrites_fixed _ _ (regRows_plain xs)
@[simp] theorem State.save_fixed (s : State) (rs : List CfgReg) : Fixed s (State.save s rs) := by
  unfold State.save; simp [Fixed]
@[simp] theorem State.saveCounters_fixed (s : State) : Fixed s (State.saveCounters s) := by
  unfold State.saveCounters; simp [Fixed]
@[simp] theorem State.saveFc_fixed (s : State) : Fixed s (State.saveFc s) := State.rowWrite_fixed s _ rfl
@[simp] theorem State.saveAssoc_fixed (s : State) : Fixed s (State.saveAssoc s) := by
  unfold State.saveAssoc; simp [Fixed]
@[simp] theorem State.saveCat_fixed (s : State) : Fixed s (State.saveCat s) := by
  unfold State.saveCat; simp [Fixed]
@[simp] theorem State.saveVault_fixed (s : State) : Fixed s (State.saveVault s) := by
  unfold State.saveVault; simp [Fixed]
@[simp] theorem State.saveTariffs_fixed (s : State) : Fixed s (State.saveTariffs s) := by
  unfold State.saveTariffs; simp [Fixed]
@[simp] theorem State.updTicket_fixed (s : State) (n : Nat) (f : Ticket → Ticket) :
    Fixed s (State.updTicket s n f) := by
  unfold State.updTicket; simp [Fixed]
@[simp] theorem State.issue_fixed (s : State) (a : TicketAsk) : Fixed s (State.issue s a).1 := by
  unfold State.issue; (repeat' split) <;> simp [Fixed]
@[simp] theorem State.poolLow_fixed (s : State) (was : Nat) : Fixed s (State.poolLow s was) := by
  unfold State.poolLow; simp [Fixed]
@[simp] theorem State.freeTicket_fixed (s : State) (n : Nat) : Fixed s (State.freeTicket s n) := by
  unfold State.freeTicket; (repeat' split) <;> simp [Fixed]
@[simp] theorem State.markDone_fixed (s : State) (t : Ticket) (r : Result) (fs : List Tok) (block : List Byte) :
    Fixed s (State.markDone s t r fs block) := by
  unfold State.markDone; simp [Fixed]
@[simp] theorem State.fireDone_fixed (s : State) (t : Ticket) (r : Result) : Fixed s (State.fireDone s t r) := by
  unfold State.fireDone; simp [Fixed]
@[simp] theorem State.fireFail_fixed (s : State) (t : Ticket) (r : Result) : Fixed s (State.fireFail s t r) := by
  unfold State.fireFail; simp [Fixed]
@[simp] theorem State.deliver_fixed (s : State) (t : Ticket) (r : Result) (fs : List Tok) (block : List Byte) :
    Fixed s (State.deliver s t r fs block) := by
  unfold State.deliver; (repeat' split) <;> simp [Fixed]
@[simp] theorem State.completeCore_fixed (s : State) (n : Nat) (r : Result) (fields : List Tok) (block : List Byte) (seen : Fired) :
    Fixed s (State.completeCore s n r fields block seen) := by
  unfold State.completeCore; (repeat' split) <;> simp [Fixed]
@[simp] theorem State.startPending_fixed (s : State) : Fixed s (State.startPending s) := by
  unfold State.startPending; (repeat' split) <;> simp [Fixed]
@[simp] theorem State.orderEnd_fixed (s : State) (res : OrderResult) (seen : Fired) :
    Fixed s (State.orderEnd s res seen) := by
  unfold State.orderEnd; (repeat' split) <;> simp [Fixed]
@[simp] theorem State.orderLineDone_fixed (s : State) (err : Option Nat) (seen : Fired) :
    Fixed s (State.orderLineDone s err seen) := by
  unfold State.orderLineDone; (repeat' split) <;> simp [Fixed]
@[simp] theorem State.waitCheck_fixed (s : State) : Fixed s (State.waitCheck s) := by
  unfold State.waitCheck; (repeat' split) <;> simp [Fixed]
@[simp] theorem State.lineAfter_fixed (s : State) (n : Nat) (r : Result) (seen : Fired) :
    Fixed s (State.lineAfter s n r seen) := by
  unfold State.lineAfter; simp [Fixed]
@[simp] theorem State.complete_fixed (s : State) (n : Nat) (r : Result) (fields : List Tok) (block : List Byte) :
    Fixed s (State.complete s n r fields block) := by
  unfold State.complete; simp [Fixed]
@[simp] theorem State.completeAll_fixed (s : State) (xs : List (Ticket × Result × List Tok)) : Fixed s (s.completeAll xs) := by
  have e1 : ∀ (ys : List (Ticket × Result × List Tok)) (b : State),
      Fixed b (ys.foldl (fun s x => s.markDone x.1 x.2.1 x.2.2 []) b) := fun ys b => foldl_fixed _ (fun _ _ => by simp [Fixed]) ys b
  have e2 : ∀ (ys : List (Ticket × Result × List Tok)) (b : State),
      Fixed b (ys.foldl (fun s x => s.deliver x.1 x.2.1 x.2.2 []) b) := fun ys b => foldl_fixed _ (fun _ _ => by simp [Fixed]) ys b
  have e3 : ∀ (o : Option (Ticket × Result × List Tok)) (b : State),
      Fixed b (match o with | some x => b.fireDone x.1 x.2.1 | none => b) := fun o b => by cases o <;> simp [Fixed]
  have e4 : ∀ (o : Option (Ticket × Result × List Tok)) (b : State),
      Fixed b (match o with | some x => b.fireFail x.1 x.2.1 | none => b) := fun o b => by cases o <;> simp [Fixed]
  have e5 : ∀ (o : Option (Ticket × Result × List Tok)) (q : Fired) (b : State),
      Fixed b (match o with | some x => b.lineAfter x.1.n x.2.1 q | none => b) := fun o q b => by cases o <;> simp [Fixed]
  unfold State.completeAll
  exact (e1 _ s).trans ((e3 _ _).trans ((e4 _ _).trans ((e2 _ _).trans ((e5 _ _ _).trans (State.settled_fixed _ _)))))
@[simp] theorem State.completeRunning_fixed (s : State) (q : Queue) (r : Result) (fields : List Tok) :
    Fixed s (State.completeRunning s q r fields) := by
  unfold State.completeRunning; (repeat' split) <;> simp [Fixed]
@[simp] theorem State.completeOr_fixed (s : State) (q : Queue) (r : Result) (fields : List Tok) :
    Fixed s (State.completeOr s q r fields) := by
  unfold State.completeOr; (repeat' split) <;> simp [Fixed]
@[simp] theorem State.rowDone_kept (s : State) : Kept s (State.rowDone s).1 := by
  unfold State.rowDone; (repeat' split) <;> simp [Kept]
@[simp] theorem State.ticketRows_fixed (s : State) (n : Nat) (ws : List RowWhat) (f : List Tok) (h : ws.all RowWhat.plain = true) :
    Fixed s (s.ticketRows n ws f) := by
  unfold State.ticketRows; split <;> simp_all [Fixed]
@[simp] theorem State.ticketRows_kept (s : State) (n : Nat) (ws : List RowWhat) (fields : List Tok) :
    Kept s (State.ticketRows s n ws fields) := by
  unfold State.ticketRows; split <;> simp_all [Kept]
@[simp] theorem State.draw_fixed (s : State) : Fixed s (State.draw s).2 := by
  unfold State.draw; simp [Fixed]
@[simp] theorem State.replyLines_fixed (s : State) (l : Line) (kind : OutKind) (multi : Bool) (ls : List (List Tok)) (block : List Byte) :
    Fixed s (State.replyLines s l kind multi ls block) := by
  unfold State.replyLines; (repeat' split) <;> simp [Fixed]
@[simp] theorem State.ok_fixed (s : State) (l : Line) (toks : List Tok) (block : List Byte) :
    Fixed s (State.ok s l toks block) := by
  unfold State.ok; simp [Fixed]
@[simp] theorem State.okAccess_fixed (s : State) (l : Line) (ns : List Nat) (toks : List Tok) :
    Fixed s (State.okAccess s l ns toks) := by
  unfold State.okAccess; (repeat' split) <;> simp [Fixed]
@[simp] theorem State.okMany_fixed (s : State) (l : Line) (ls : List (List Tok)) :
    Fixed s (State.okMany s l ls) := by
  unfold State.okMany; simp [Fixed]
@[simp] theorem State.tk_fixed (s : State) (l : Line) (n : Nat) : Fixed s (State.tk s l n) := by
  unfold State.tk; (repeat' split) <;> simp [Fixed]
@[simp] theorem State.refuse_fixed (s : State) (l : Line) (e : Er) : Fixed s (State.refuse s l e) := by
  unfold State.refuse; (repeat' split) <;> simp [Fixed]
@[simp] theorem State.took_fixed (s : State) (o : Origin) : Fixed s (State.took s o) := by
  unfold State.took; (repeat' split) <;> simp [Fixed]
@[simp] theorem State.partnerUpdate_fixed (s : State) (eps : Int) : Fixed s (State.partnerUpdate s eps) := by
  unfold State.partnerUpdate; simp [Fixed]
@[simp] theorem State.partnerClear_fixed (s : State) : Fixed s (State.partnerClear s) := by
  unfold State.partnerClear; simp [Fixed]
@[simp] theorem State.partnerRole_fixed (s : State) : Fixed s (State.partnerRole s) := by
  unfold State.partnerRole; simp [Fixed]
@[simp] theorem State.advance_fixed (s : State) (d : Nat) : Fixed s (State.advance s d) := by
  unfold State.advance; simp [Fixed]
@[simp] theorem State.applySet_fixed (s : State) (v : Ticks) : Fixed s (State.applySet s v) := by
  unfold State.applySet; simp [Fixed]
@[simp] theorem State.tick_fixed (s : State) : Fixed s (State.tick s) := by
  unfold State.tick; simp [Fixed]
@[simp] theorem setTemp_fixed (s : State) (t : Int) : Fixed s (setTemp s t) := by
  unfold setTemp; simp [Fixed]
@[simp] theorem State.setRef_fixed (s : State) (l : Line) :
    Fixed s (State.setRef s l) := by
  unfold State.setRef; (repeat' split) <;> simp [Fixed]
@[simp] theorem State.putRef_fixed (s : State) (l : Line) : Fixed s (State.putRef s l) := by
  unfold State.putRef; (repeat' split) <;> simp [Fixed]
@[simp] theorem State.driftRowAt_fixed (s : State) (at_ : Ticks) : Fixed s (State.driftRowAt s at_) := by
  unfold State.driftRowAt; simp [Fixed]
@[simp] theorem State.driftRowWrite_fixed (s : State) : Fixed s (State.driftRowWrite s) := by
  exact State.driftRowAt_fixed s s.day.now
@[simp] theorem State.keeperStop_fixed (s : State) : Fixed s (State.keeperStop s) := by
  unfold State.keeperStop; simp [Fixed]
@[simp] theorem State.driftSample_fixed (s : State) (b : Nat) (v : Int) : Fixed s (State.driftSample s b v) := by
  unfold State.driftSample; simp [Fixed]
@[simp] theorem State.setAlarm_fixed (s : State) (a : Nat) (x : Alarm) : Fixed s (State.setAlarm s a x) := by
  unfold State.setAlarm; simp [Fixed]
@[simp] theorem State.alarmGo_fixed (s : State) (a : Nat) (afterReady : Bool) :
    Fixed s (State.alarmGo s a afterReady) := by
  unfold State.alarmGo; refine ⟨?_, ?_, ?_, ?_, ?_⟩ <;> simp <;> (repeat' split) <;> simp_all
@[simp] theorem State.alarmSet_fixed (s : State) : Fixed s (State.alarmSet s) := by
  unfold State.alarmSet; simp [Fixed]
@[simp] theorem State.journal_fixed (s : State) (k : JKind) : Fixed s (State.journal s k) := by
  unfold State.journal; simp [Fixed]
@[simp] theorem State.lowCheck_fixed (s old : State) : Fixed s (State.lowCheck s old) := by
  unfold State.lowCheck; simp [Fixed]
@[simp] theorem State.book_fixed (s : State) (b : Nat) (ack : Bool) : Fixed s (State.book s b ack) := by
  unfold State.book; simp [Fixed]
@[simp] theorem State.bookRefused_fixed (s : State) (b : Nat) (ack : Bool) :
    Fixed s (State.bookRefused s b ack) := by
  unfold State.bookRefused; simp [Fixed]
@[simp] theorem State.settleBooking_fixed (s : State) (actual : Nat) :
    Fixed s (State.settleBooking s actual) := by
  unfold State.settleBooking; (repeat' split) <;> simp [Fixed]
@[simp] theorem State.openInterval_fixed (s : State) (spent : Nat) (recovered : Bool) :
    Fixed s (State.openInterval s spent recovered) := by
  unfold State.openInterval; simp [Fixed]
@[simp] theorem State.closeInterval_fixed (s : State) : Fixed s (State.closeInterval s) := by
  unfold State.closeInterval; simp [Fixed]
@[simp] theorem State.applyChange_fixed (s : State) : Fixed s (State.applyChange s) := by
  unfold State.applyChange; (repeat' split) <;> simp [Fixed]
@[simp] theorem State.boundary_fixed (s : State) (change : Bool) : Fixed s (State.boundary s change) := by
  unfold State.boundary; refine ⟨?_, ?_, ?_, ?_, ?_⟩ <;> simp <;> (repeat' split) <;> simp_all
@[simp] theorem State.startTariff_fixed (s : State) : Fixed s (State.startTariff s) := by
  unfold State.startTariff; simp [Fixed]
@[simp] theorem State.unschedule_fixed (s : State) : Fixed s (State.unschedule s) := by
  unfold State.unschedule; (repeat' split) <;> simp [Fixed]
@[simp] theorem State.schedule_fixed (s : State) (t b n : Nat) : Fixed s (State.schedule s t b n) := by
  unfold State.schedule; simp [Fixed]
@[simp] theorem State.adopt_fixed (s : State) (n t b : Nat) : Fixed s (State.adopt s n t b) := by
  unfold State.adopt; simp [Fixed]
@[simp] theorem State.ledgerDaySet_fixed (s : State) : Fixed s (State.ledgerDaySet s) := by
  unfold State.ledgerDaySet; simp [Fixed]
@[simp] theorem State.countRecovery_fixed (s : State) (start : Nat) : Fixed s (State.countRecovery s start) := by
  unfold State.countRecovery; simp [Fixed]
@[simp] theorem State.ledgerRecover_fixed (s : State) (cont : Bool) : Fixed s (State.ledgerRecover s cont) := by
  unfold State.ledgerRecover; split
  · simp [Fixed]
  · simp only []
    refine Fixed.trans (b := _) ?_ (by refine ⟨?_, ?_, ?_, ?_, ?_⟩ <;> rfl)
    have e1 : ∀ x : State, ∀ b, Fixed x (if x.ledger.isOpen then x else
      let l := x.activeTariff.len
      if b = some (x.now / l * l) then (x.openInterval x.budget true).condOn 65 [kd "need" 0, kd "left" 0]
      else x.openInterval 0 false) := fun x b => by
        simp only []; (repeat' split) <;> simp [Fixed]
    refine Fixed.trans ?_ (e1 _ _)
    have e2 : ∀ x : State, ∀ c : Bool, Fixed x (if c then x.applyChange else x) := fun x c => by
      split <;> simp [Fixed]
    refine Fixed.trans ?_ (e2 _ _)
    (repeat' split) <;> simp [Fixed]
@[simp] theorem State.ledgerFirst_fixed (s : State) : Fixed s (State.ledgerFirst s) := by
  unfold State.ledgerFirst; simp [Fixed]
@[simp] theorem State.ledgerReissue_fixed (s : State) : Fixed s (State.ledgerReissue s) := by
  unfold State.ledgerReissue; (repeat' split) <;> simp [Fixed]
@[simp] theorem State.putTariff_fixed (s : State) (t : Nat) (x : Option Tariff) :
    Fixed s (State.putTariff s t x) := by
  unfold State.putTariff; simp [Fixed]
@[simp] theorem State.startMeasure_fixed (s : State) (hp : Bool) : Fixed s (State.startMeasure s hp) := by
  unfold State.startMeasure; simp [Fixed]
@[simp] theorem State.antSet_fixed (s : State) (pair : Nat) : Fixed s (State.antSet s pair) := by
  unfold State.antSet; simp [Fixed]
@[simp] theorem State.antFollow_fixed (s : State) : Fixed s (State.antFollow s) := by
  unfold State.antFollow; (repeat' split) <;> simp [Fixed]
@[simp] theorem State.censusHold_fixed (s : State) : Fixed s (State.censusHold s) := by
  unfold State.censusHold; simp [Fixed]
@[simp] theorem State.radioTo_fixed (s : State) (x : RState) : Fixed s (State.radioTo s x) := by
  unfold State.radioTo; simp [Fixed]
@[simp] theorem State.tune_fixed (s : State) (p c : Nat) (tx : Bool) : Fixed s (State.tune s p c tx) := by
  unfold State.tune; simp [Fixed]
@[simp] theorem State.listenOn_fixed (s : State) (p c : Nat) : Fixed s (State.listenOn s p c) := by
  unfold State.listenOn; simp [Fixed]
@[simp] theorem State.radioRest_rest_fixed (s : State) (r : RadioSt) : Fixed s (State.radioRest.rest s r) := by
  unfold State.radioRest.rest; (repeat' split) <;> simp [Fixed]
@[simp] theorem State.radioRest_fixed (s : State) : Fixed s (State.radioRest s) := by
  unfold State.radioRest; simp only []; (repeat' split) <;> simp [Fixed]
@[simp] theorem State.putPlan_fixed (s : State) (p : Nat) (base ctrl : Word) :
    Fixed s (State.putPlan s p base ctrl) := by
  unfold State.putPlan; simp [Fixed]
@[simp] theorem setRadio_fixed (f : RadioSt → RadioSt) (s : State) : Fixed s (setRadio f s) := by
  unfold setRadio; simp [Fixed]
@[simp] theorem setModem_fixed (f : ModemSt → ModemSt) (s : State) : Fixed s (setModem f s) := by
  unfold setModem; simp [Fixed]
@[simp] theorem State.scanStore_fixed (s : State) (x : Listener) : Fixed s (State.scanStore s x) := by
  unfold State.scanStore; simp [Fixed]
@[simp] theorem State.freeLevels_fixed (s : State) : Fixed s (State.freeLevels s) := by
  unfold State.freeLevels; simp [Fixed]
@[simp] theorem State.setCensus_fixed (s : State) (c : CensusCfg) : Fixed s (State.setCensus s c) := by
  unfold State.setCensus; simp [Fixed]
@[simp] theorem setCensusSt_fixed (f : CensusSt → CensusSt) (s : State) : Fixed s (setCensusSt f s) := by
  unfold setCensusSt; simp [Fixed]
@[simp] theorem State.drawOctets_fixed (n : Nat) (s : State) : Fixed s (State.drawOctets n s).2 := by
  induction n generalizing s with
  | zero => simp [State.drawOctets, Fixed]
  | succ k ih => exact (State.draw_fixed s).trans (ih _)
@[simp] theorem State.rawSeen_fixed (s : State) (bits : Nat) : Fixed s (State.rawSeen s bits) := by
  unfold State.rawSeen; simp [Fixed]
@[simp] theorem State.startupBits_fixed (s : State) : Fixed s (State.startupBits s) := by
  unfold State.startupBits; simp [Fixed]
@[simp] theorem State.rawFailed_fixed (s : State) (bits : Nat) (apt : Bool) :
    Fixed s (State.rawFailed s bits apt) := by
  unfold State.rawFailed; simp [Fixed]
@[simp] theorem State.seedNext_fixed (s : State) : Fixed s (State.seedNext s).2 := by
  unfold State.seedNext; simp [Fixed]
@[simp] theorem State.noiseTo_fixed (s : State) (x : NState) : Fixed s (State.noiseTo s x) := by
  unfold State.noiseTo; simp [Fixed]
@[simp] theorem State.poolWant_fixed (s : State) : Fixed s (State.poolWant s) := by
  unfold State.poolWant; simp [Fixed]
@[simp] theorem State.drawB_fixed (s : State) (k : Nat) : Fixed s (State.drawB s k).2 := by
  unfold State.drawB; (repeat' split) <;> simp [Fixed]
@[simp] theorem State.refillPool_fixed (s : State) : Fixed s (State.refillPool s) := by
  unfold State.refillPool; simp [Fixed]
@[simp] theorem State.eraseSlots_fixed (s : State) (ks : List Nat) : Fixed s (State.eraseSlots s ks) := by
  unfold State.eraseSlots; simp [Fixed]
@[simp] theorem State.installKey_fixed (s : State) (k : Nat) (key : BitVec 128) :
    Fixed s (State.installKey s k key) := by
  unfold State.installKey; simp [Fixed]
@[simp] theorem State.startErase_fixed (s : State) (t : Nat) (ks : List Nat) :
    Fixed s (State.startErase s t ks) := by
  unfold State.startErase
  exact Fixed.trans (by simp [Fixed]) (State.rowWrites_fixed _ _ _ (by simp [RowWhat.plain]))
@[simp] theorem State.setFlags_fixed (s : State) (m : BitVec 8) : Fixed s (State.setFlags s m) := by
  unfold State.setFlags; simp [Fixed]
@[simp] theorem State.startRand_fixed (s : State) : Fixed s (State.startRand s) := by
  unfold State.startRand; simp [Fixed]
@[simp] theorem State.countRequest_fixed (s : State) : Fixed s (State.countRequest s) := by
  unfold State.countRequest; simp [Fixed]
@[simp] theorem State.generate_fixed (s : State) (n : Nat) : Fixed s (State.generate s n).2 := by
  unfold State.generate; (repeat' split) <;> simp [Fixed]
@[simp] theorem setNoise_fixed (f : NoiseSt → NoiseSt) (s : State) : Fixed s (setNoise f s) := by
  unfold setNoise; simp [Fixed]
@[simp] theorem setVault_fixed (f : VaultSt → VaultSt) (s : State) : Fixed s (setVault f s) := by
  unfold setVault; simp [Fixed]
@[simp] theorem State.ringPut_fixed (s : State) (f : TxFrame) (child : Option Nat) (kind : HeldKind) (octets : List Byte) :
    Fixed s (State.ringPut s f child kind octets).1 := by
  unfold State.ringPut; simp [Fixed]
@[simp] theorem State.ringFree_fixed (s : State) (id : Nat) : Fixed s (State.ringFree s id) := by
  unfold State.ringFree; simp [Fixed]
@[simp] theorem State.nextSeq_fixed (s : State) : Fixed s (State.nextSeq s).2 := by
  unfold State.nextSeq; simp [Fixed]
@[simp] theorem State.nextCounter_fixed (s : State) (k : Nat) : Fixed s (State.nextCounter s k).2 := by
  unfold State.nextCounter; refine ⟨?_, ?_, ?_, ?_, ?_⟩ <;> simp <;> (repeat' split) <;> simp_all
@[simp] theorem State.number_fixed (s : State) (f : TxFrame) : Fixed s (State.number s f).2 := by
  unfold State.number; (repeat' split) <;> simp [Fixed]
@[simp] theorem State.unstage_fixed (s : State) (l : Line) : Fixed s (State.unstage s l) := by
  unfold State.unstage; simp [Fixed]
@[simp] theorem State.sendData_fixed (s : State) (l : Line) (head : List Tok) (line : List Tok) (o : List Byte) :
    Fixed s (State.sendData s l head line o) := by
  unfold State.sendData; (repeat' split) <;> simp [Fixed]
@[simp] theorem setFrame_fixed (f : FrameSt → FrameSt) (s : State) : Fixed s (setFrame f s) := by
  unfold setFrame; simp [Fixed]
@[simp] theorem State.countFrame_fixed (s : State) (i : Nat) : Fixed s (State.countFrame s i) := by
  unfold State.countFrame; simp [Fixed]
@[simp] theorem State.countLink_fixed (s : State) (i : Nat) : Fixed s (State.countLink s i) := by
  unfold State.countLink; simp [Fixed]
@[simp] theorem State.countCat_fixed (s : State) (i : Nat) : Fixed s (State.countCat s i) := by
  unfold State.countCat; simp [Fixed]
@[simp] theorem State.linkTo_fixed (s : State) (x : LState) : Fixed s (State.linkTo s x) := by
  unfold State.linkTo; simp [Fixed]
@[simp] theorem State.associate_fixed (s : State) (a : Assoc) : Fixed s (State.associate s a) := by
  unfold State.associate; simp [Fixed]
@[simp] theorem State.dissociate_fixed (s : State) (by_ : String) : Fixed s (State.dissociate s by_) := by
  unfold State.dissociate; simp [Fixed]
@[simp] theorem State.setEntry_fixed (s : State) (x : CatEntry) : Fixed s (State.setEntry s x) := by
  unfold State.setEntry; simp [Fixed]
@[simp] theorem State.addEntry_fixed (s : State) (x : CatEntry) : Fixed s (State.addEntry s x) := by
  unfold State.addEntry; simp [Fixed]
@[simp] theorem State.poolCheck_fixed (s : State) : Fixed s (State.poolCheck s) := by
  unfold State.poolCheck; simp [Fixed]
@[simp] theorem State.dropEntry_fixed (s : State) (i : Nat) : Fixed s (State.dropEntry s i) := by
  unfold State.dropEntry; simp [Fixed]
@[simp] theorem State.childLeave_fixed (s : State) (e : CatEntry) (by_ : String) :
    Fixed s (State.childLeave s e by_) := by
  unfold State.childLeave; simp [Fixed]
@[simp] theorem State.hold_fixed (s : State) (f : TxFrame) (i : Nat) (k : HeldKind) :
    Fixed s (State.hold s f i k).1 := by
  unfold State.hold; simp [Fixed]
@[simp] theorem State.responseLost_fixed (s : State) (e : CatEntry) : Fixed s (State.responseLost s e) := by
  unfold State.responseLost; simp [Fixed]
@[simp] theorem State.respond_fixed (s : State) (e : CatEntry) (status : Nat) :
    Fixed s (State.respond s e status) := by
  unfold State.respond; simp [Fixed]
@[simp] theorem State.refuseChild_fixed (s : State) (eui : BitVec 64) (status : Nat) (old : Option CatEntry) :
    Fixed s (State.refuseChild s eui status old) := by
  unfold State.refuseChild; (repeat' split) <;> simp [Fixed]
@[simp] theorem State.dropResponses_fixed (s : State) (i : Nat) : Fixed s (State.dropResponses s i) := by
  unfold State.dropResponses; simp [Fixed]
@[simp] theorem State.admitChild_fixed (s0 : State) (eui : BitVec 64) : Fixed s0 (State.admitChild s0 eui) := by
  unfold State.admitChild; refine ⟨?_, ?_, ?_, ?_, ?_⟩ <;> simp <;> (repeat' split) <;> simp_all
@[simp] theorem State.heldLost_fixed (s : State) (x : TxEntry) : Fixed s (State.heldLost s x) := by
  unfold State.heldLost; (repeat' split) <;> simp [Fixed]
@[simp] theorem State.heldSent_fixed (s : State) (x : TxEntry) : Fixed s (State.heldSent s x) := by
  unfold State.heldSent; refine ⟨?_, ?_, ?_, ?_, ?_⟩ <;> simp <;> (repeat' split) <;> simp_all
@[simp] theorem State.expireHeld_fixed (s : State) : Fixed s (State.expireHeld s) := by
  unfold State.expireHeld; simp [Fixed]
@[simp] theorem State.setOp_fixed (s : State) (f : LinkOp → LinkOp) : Fixed s (State.setOp s f) := by
  unfold State.setOp; simp [Fixed]
@[simp] theorem State.txTake_fixed (s : State) (t : Tx) : Fixed s (State.txTake s t) := by
  unfold State.txTake; simp [Fixed]
@[simp] theorem State.txEnter_fixed (s : State) : Fixed s (State.txEnter s) := by
  unfold State.txEnter; simp [Fixed]
theorem State.startTx_fixed (s : State) (t : Tx) (a : Bool) (u : State) (h : s.startTx t a = some u) : Fixed s u := by
  unfold State.startTx at h
  split at h
  · simp only [Option.some.injEq] at h; subst h; simp [Fixed]
  · simp at h
@[simp] theorem State.linkEnd_fixed (s : State) (r : Result) (fields : List Tok) :
    Fixed s (State.linkEnd s r fields) := by
  unfold State.linkEnd; (repeat' split) <;> simp [Fixed]
@[simp] theorem State.linkKey_fixed (s : State) (chan : Nat) (hop : Bool) : Fixed s (State.linkKey s chan hop) := by
  unfold State.linkKey; simp only []; split
  · simp [Fixed]
  · split
    · simp [Fixed]
    · split
      · simp [Fixed]
      · rename_i h; have := State.startTx_fixed _ _ _ _ h; simp_all [Fixed]
@[simp] theorem State.buildOp_fixed (s : State) (f : TxFrame) : Fixed s (State.buildOp s f) := by
  unfold State.buildOp; simp [Fixed]
@[simp] theorem State.linkCca_fixed (s : State) : Fixed s (State.linkCca s) := by
  unfold State.linkCca; simp [Fixed]
@[simp] theorem State.linkGo_fixed (s : State) : Fixed s (State.linkGo s) := by
  unfold State.linkGo; split
  · simp [Fixed]
  · rename_i o _
    have h := State.drawB_fixed s o.be
    (repeat' split) <;> simp_all [Fixed]
@[simp] theorem State.linkAttempt_fixed (s : State) : Fixed s (State.linkAttempt s) := by
  unfold State.linkAttempt; simp [Fixed]
@[simp] theorem State.linkBusy_fixed (s : State) (goOn : Bool) : Fixed s (State.linkBusy s goOn) := by
  unfold State.linkBusy; (repeat' split) <;> simp [Fixed]
@[simp] theorem State.linkResume_fixed (s : State) : Fixed s (State.linkResume s) := by
  unfold State.linkResume; (repeat' split) <;> simp [Fixed]
@[simp] theorem State.linkNoAck_fixed (s : State) : Fixed s (State.linkNoAck s) := by
  unfold State.linkNoAck; (repeat' split) <;> simp [Fixed]
@[simp] theorem State.pollNext_fixed (s : State) : Fixed s (State.pollNext s) := by
  unfold State.pollNext; (repeat' split) <;> simp [Fixed]
@[simp] theorem State.exchEnd_fixed (s : State) : Fixed s (State.exchEnd s) := by
  unfold State.exchEnd; simp [Fixed]
@[simp] theorem State.schedPoll_fixed (s : State) : Fixed s (State.schedPoll s) := by
  unfold State.schedPoll; simp [Fixed]
@[simp] theorem State.putLink_fixed (s : State) (v : Word) : Fixed s (State.putLink s v) := by
  unfold State.putLink; simp [Fixed]
@[simp] theorem setLink_fixed (f : LinkSt → LinkSt) (s : State) : Fixed s (setLink f s) := by
  unfold setLink; simp [Fixed]
@[simp] theorem State.failRand_fixed (s : State) (why : String) : Fixed s (State.failRand s why) := by
  unfold State.failRand; simp [Fixed]
@[simp] theorem State.failDraw_fixed (s : State) : Fixed s (State.failDraw s) := by
  unfold State.failDraw; simp [Fixed]
@[simp] theorem State.noiseFail_fixed (s : State) (test : Nat) : Fixed s (State.noiseFail s test) := by
  unfold State.noiseFail; simp [Fixed]
@[simp] theorem State.enterRaw_fixed (s : State) : Fixed s (State.enterRaw s) := by
  unfold State.enterRaw; simp [Fixed]
@[simp] theorem State.notRaw_fixed (s : State) (n : Nat) : Fixed s (State.notRaw s n) := by
  unfold State.notRaw; simp [Fixed]
@[simp] theorem State.startRawOff_fixed (s : State) (n : Nat) : Fixed s (State.startRawOff s n) := by
  unfold State.startRawOff; simp [Fixed]
@[simp] theorem State.startCapture_fixed (s : State) (n : Nat) : Fixed s (State.startCapture s n) := by
  unfold State.startCapture; simp [Fixed]
@[simp] theorem State.completeData_fixed (s : State) (t : Ticket) (fields : List Tok) (line : List Tok) (o : List Byte) :
    Fixed s (State.completeData s t fields line o) := by
  unfold State.completeData; (repeat' split) <;> simp [Fixed]
@[simp] theorem State.setMasks_fixed (s : State) (a li wk : BitVec 128) : Fixed s (State.setMasks s a li wk) := by
  unfold State.setMasks; simp [Fixed]
@[simp] theorem State.startEventSave_fixed (s : State) (n : Nat) : Fixed s (State.startEventSave s n) :=
  s.rowWrites_fixed _ _ (regRows_plain _)
@[simp] theorem State.ceqStale_fixed (s : State) (b : Bool) : Fixed s (State.ceqStale s b) := by
  unfold State.ceqStale; simp [Fixed]
@[simp] theorem State.setRun_fixed (s : State) (f : TrimRun → TrimRun) : Fixed s (State.setRun s f) := by
  unfold State.setRun; simp [Fixed]
@[simp] theorem State.trimLast_fixed (s : State) (i : TrimItem) (result cause : Nat) (peak : Int) :
    Fixed s (State.trimLast s i result cause peak) := by
  unfold State.trimLast; simp [Fixed]
@[simp] theorem State.trimFinish_fixed (s : State) (r : Result) (fields : List Tok) :
    Fixed s (State.trimFinish s r fields) := by
  unfold State.trimFinish; (repeat' split) <;> simp [Fixed]
@[simp] theorem State.trimItem_fixed (s : State) : Fixed s (State.trimItem s) := by
  unfold State.trimItem; (repeat' split) <;> simp [Fixed]
@[simp] theorem State.startTrim_fixed (s : State) (n : Nat) (items : List TrimItem) (all : Bool) (plan chan : Nat) :
    Fixed s (State.startTrim s n items all plan chan) := by
  unfold State.startTrim; (repeat' split) <;> simp [Fixed]
@[simp] theorem State.trimNext_fixed (s : State) (fields : List Tok) (wrote : Bool) :
    Fixed s (State.trimNext s fields wrote) := by
  unfold State.trimNext; (repeat' split) <;> simp [Fixed]
@[simp] theorem State.trimReading_fixed (s : State) (level : Int) (sync : Bool) :
    Fixed s (State.trimReading s level sync) := by
  unfold State.trimReading; (repeat' split) <;> simp [Fixed]
@[simp] theorem State.trimSlot_fixed (s : State) (t : Option Nat) : Fixed s (State.trimSlot s t) := by
  unfold State.trimSlot; simp [Fixed]
@[simp] theorem State.trimCancel_fixed (s : State) (by_ : String) : Fixed s (State.trimCancel s by_) := by
  unfold State.trimCancel; (repeat' split) <;> simp [Fixed]
@[simp] theorem State.trimWritten_fixed (s : State) : Fixed s (State.trimWritten s) := by
  unfold State.trimWritten; (repeat' split) <;> simp [Fixed]
@[simp] theorem setTrim_fixed (f : TrimSt → TrimSt) (s : State) : Fixed s (setTrim f s) := by
  unfold setTrim; simp [Fixed]
@[simp] theorem setRad_fixed (f : RadioSt → RadioSt) (s : State) : Fixed s (setRad f s) := by
  unfold setRad; simp [Fixed]
@[simp] theorem State.setListener_fixed (s : State) (n : Nat) (f : Listener → Listener) :
    Fixed s (State.setListener s n f) := by
  unfold State.setListener; simp [Fixed]
@[simp] theorem State.completeCancel_fixed (s : State) (n : Nat) (r : Result) :
    Fixed s (State.completeCancel s n r) := by
  unfold State.completeCancel; (repeat' split) <;> simp [Fixed]
@[simp] theorem State.listenerEnd_fixed (s : State) (x : Listener) (r : Result) :
    Fixed s (State.listenerEnd s x r) := by
  unfold State.listenerEnd; (repeat' split) <;> simp [Fixed]
@[simp] theorem State.listenerStop_fixed (s : State) (x : Listener) (r : Result) :
    Fixed s (State.listenerStop s x r) := by
  unfold State.listenerStop; simp [Fixed]
@[simp] theorem State.ccaBegin_fixed (s : State) (cyc : Nat) : Fixed s (State.ccaBegin s cyc) := by
  unfold State.ccaBegin; (repeat' split) <;> simp [Fixed]
@[simp] theorem State.listenerStart_fixed (s : State) (x : Listener) : Fixed s (State.listenerStart s x) := by
  unfold State.listenerStart; simp [Fixed]
@[simp] theorem State.heldStart_fixed (s : State) (x : Exch) : Fixed s (State.heldStart s x) := by
  unfold State.heldStart; (repeat' split) <;> simp [Fixed]
@[simp] theorem State.afterAck_fixed (s : State) : Fixed s (State.afterAck s) := by
  unfold State.afterAck; (repeat' split) <;> simp [Fixed]
@[simp] theorem State.txEnd_fixed (s : State) : Fixed s (State.txEnd s) := by
  unfold State.txEnd; refine ⟨?_, ?_, ?_, ?_, ?_⟩ <;> simp <;> (repeat' split) <;> simp_all
@[simp] theorem State.returnTemp_fixed (s : State) : Fixed s (State.returnTemp s) := by
  unfold State.returnTemp; simp [Fixed]
@[simp] theorem State.windowEnd_fixed (s : State) : Fixed s (State.windowEnd s) := by
  unfold State.windowEnd; (repeat' split) <;> simp [Fixed]
@[simp] theorem State.sniffStop_fixed (s : State) : Fixed s (State.sniffStop s) := by
  unfold State.sniffStop; simp [Fixed]
@[simp] theorem State.relock_fixed (s : State) : Fixed s (State.relock s) := by
  unfold State.relock; simp [Fixed]
@[simp] theorem State.listenAgain_fixed (s : State) (o : LinkOp) : Fixed s (State.listenAgain s o) := by
  unfold State.listenAgain; (repeat' split) <;> simp [Fixed]
@[simp] theorem State.unlockListen_fixed (s : State) : Fixed s (State.unlockListen s) := by
  unfold State.unlockListen; refine ⟨?_, ?_, ?_, ?_, ?_⟩ <;> simp <;> (repeat' split) <;> simp_all
@[simp] theorem State.unlock_fixed (s : State) : Fixed s (State.unlock s) := by
  unfold State.unlock; refine ⟨?_, ?_, ?_, ?_, ?_⟩ <;> simp <;> (repeat' split) <;> simp_all
@[simp] theorem State.paOn_fixed (s : State) : Fixed s (State.paOn s) := by
  unfold State.paOn; simp [Fixed]
@[simp] theorem State.keyUp_fixed (s : State) (t : Tx) : Fixed s (State.keyUp s t) := by
  unfold State.keyUp; simp [Fixed]
@[simp] theorem State.ccaBusyEvent_fixed (s : State) (chan : Nat) (cause : String) :
    Fixed s (State.ccaBusyEvent s chan cause) := by
  unfold State.ccaBusyEvent; simp [Fixed]
@[simp] theorem State.opBusy_fixed (s : State) (cause : String) : Fixed s (State.opBusy s cause) := by
  unfold State.opBusy; (repeat' split) <;> simp [Fixed]
@[simp] theorem State.checkEnd_fixed (s : State) (x : Listener) (clear : Bool) (cause : String) :
    Fixed s (State.checkEnd s x clear cause) := by
  unfold State.checkEnd; simp [Fixed]
@[simp] theorem State.carrierSeen_fixed (s : State) : Fixed s (State.carrierSeen s) := by
  unfold State.carrierSeen; (repeat' split) <;> simp [Fixed]
@[simp] theorem State.setReadings_fixed (s : State) (v : Vector Int 16) : Fixed s (State.setReadings s v) := by
  unfold State.setReadings; simp [Fixed]
@[simp] theorem State.countWindow_fixed (s : State) (v : Vector Int 16) : Fixed s (State.countWindow s v) := by
  unfold State.countWindow; refine ⟨?_, ?_, ?_, ?_, ?_⟩ <;> simp <;> (repeat' split) <;> simp_all
@[simp] theorem State.gateCheck_fixed (s : State) (census : Bool) (v : Vector Int 16) :
    Fixed s (State.gateCheck s census v) := by
  unfold State.gateCheck; (repeat' split) <;> simp [Fixed]
@[simp] theorem State.censusApply_fixed (s : State) : Fixed s (State.censusApply s) := by
  unfold State.censusApply; simp [Fixed]
@[simp] theorem State.handOver_fixed (s : State) (c : Nat) (wake : Bool) : Fixed s (State.handOver s c wake) := by
  unfold State.handOver; simp [Fixed]
@[simp] theorem State.pollIssue_fixed (s : State) : Fixed s (State.pollIssue s) := by
  unfold State.pollIssue; simp [Fixed]
@[simp] theorem State.syncNow_fixed (s : State) (x : Synced) (afc : Int) (sync : Ticks) :
    Fixed s (State.syncNow s x afc sync) := by
  unfold State.syncNow; simp [Fixed]
@[simp] theorem State.syncBusy_fixed (s : State) : Fixed s (State.syncBusy s) := by
  unfold State.syncBusy; (repeat' split) <;> simp [Fixed]
@[simp] theorem State.dupSet_fixed (s : State) (r : Rcv) : Fixed s (State.dupSet s r) := by
  unfold State.dupSet; (repeat' split) <;> simp [Fixed]
@[simp] theorem State.counterIn_fixed (s : State) (src : Addr) (c : Nat) : Fixed s (State.counterIn s src c) := by
  unfold State.counterIn; (repeat' split) <;> simp [Fixed]
@[simp] theorem State.bookAck_fixed (s : State) (n : RxNow) (r : Rcv) (pend : Bool) : Fixed s (State.bookAck s n r pend).1 := by
  unfold State.bookAck; simp only []; split
  · rename_i h; exact State.startTx_fixed _ _ _ _ h
  · simp [Fixed]
@[simp] theorem State.beginExch_fixed (s : State) (r : Rcv) (pend : Bool) :
    Fixed s (State.beginExch s r pend) := by
  unfold State.beginExch; (repeat' split) <;> simp [Fixed]
@[simp] theorem State.place_fixed (s : State) (n : RxNow) (x : RxFrame) (r : Rcv) (ring : List Byte) (secured acked pend : Bool) :
    Fixed s (State.place s n x r ring secured acked pend) := by
  unfold State.place; refine ⟨?_, ?_, ?_, ?_, ?_⟩ <;> simp <;> (repeat' split) <;> simp_all
@[simp] theorem State.childLqi_fixed (s : State) (r : Rcv) (lqi : Nat) : Fixed s (State.childLqi s r lqi) := by
  unfold State.childLqi; (repeat' split) <;> simp [Fixed]
@[simp] theorem State.assocResponse_fixed (s : State) (o : LinkOp) (r : Rcv) (p : List Byte) :
    Fixed s (State.assocResponse s o r p) := by
  unfold State.assocResponse; (repeat' split) <;> simp [Fixed]
@[simp] theorem State.windowFrame_fixed (s : State) (r : Rcv) (cmd : Option (Nat × List Byte)) :
    Fixed s (State.windowFrame s r cmd) := by
  unfold State.windowFrame; (repeat' split) <;> simp [Fixed]
@[simp] theorem State.commandIn_fixed (s : State) (r : Rcv) (cmd : Option (Nat × List Byte)) :
    Fixed s (State.commandIn s r cmd) := by
  unfold State.commandIn; (repeat' split) <;> simp [Fixed]
@[simp] theorem State.trainUpdate_fixed (s : State) (r : Rcv) (sync : Nat) :
    Fixed s (State.trainUpdate s r sync) := by
  unfold State.trainUpdate; (repeat' split) <;> simp [Fixed]
@[simp] theorem State.placed_fixed (s : State) (r : Rcv) (ring : List Byte) (lqi sync : Nat) :
    Fixed s (State.placed s r ring lqi sync) := by
  unfold State.placed; simp [Fixed]
@[simp] theorem State.opAcked_fixed (s : State) (o : LinkOp) (a : RcvAck) : Fixed s (State.opAcked s o a) := by
  unfold State.opAcked; (repeat' split) <;> simp [Fixed]
@[simp] theorem State.ackOp_fixed (s : State) (o : LinkOp) (a : RcvAck) : Fixed s (State.ackOp s o a) := by
  unfold State.ackOp; (repeat' split) <;> simp [Fixed]
@[simp] theorem State.ackExch_fixed (s : State) (x : Exch) (a : RcvAck) : Fixed s (State.ackExch s x a) := by
  unfold State.ackExch; (repeat' split) <;> simp [Fixed]
@[simp] theorem State.afterFrame_fixed (s : State) : Fixed s (State.afterFrame s) := by
  unfold State.afterFrame; refine ⟨?_, ?_, ?_, ?_, ?_⟩ <;> simp <;> (repeat' split) <;> simp_all
@[simp] theorem State.rxOver_fixed (s : State) : Fixed s (State.rxOver s) := by
  unfold State.rxOver; simp [Fixed]
@[simp] theorem State.drop_fixed (s : State) (i : Nat) : Fixed s (State.drop s i) := by
  unfold State.drop; simp [Fixed]
@[simp] theorem State.dropWhy_fixed (s : State) (i : Nat) (why : String) (src : Addr) :
    Fixed s (State.dropWhy s i why src) := by
  unfold State.dropWhy; simp [Fixed]
@[simp] theorem State.headerFailed_fixed (s : State) : Fixed s (State.headerFailed s) := by
  unfold State.headerFailed; simp [Fixed]
@[simp] theorem State.measured_fixed (s : State) (n : RxNow) (x : RxFrame) : Fixed s (State.measured s n x) := by
  unfold State.measured; simp [Fixed]
@[simp] theorem State.ackIn_exch_fixed (a : RcvAck) (s : State) (y : Exch) : Fixed s (State.ackIn.exch a s y) := by
  unfold State.ackIn.exch; (repeat' split) <;> simp [Fixed]
@[simp] theorem State.ackIn_fixed (s : State) (a : RcvAck) : Fixed s (State.ackIn s a) := by
  unfold State.ackIn; (repeat' split) <;> simp [Fixed]
@[simp] theorem State.accept_fixed (s : State) (n : RxNow) (x : RxFrame) (r : Rcv) (acked pend : Bool) :
    Fixed s (State.accept s n x r acked pend) := by
  unfold State.accept; (repeat' split) <;> simp [Fixed]
@[simp] theorem State.decideFrame_fixed (s : State) (n : RxNow) (x : RxFrame) (r : Rcv) :
    Fixed s (State.decideFrame s n x r) := by
  unfold State.decideFrame; (repeat' split) <;> simp [Fixed]
@[simp] theorem State.scheduleOrder_fixed (s : State) (k v : Nat) : Fixed s (State.scheduleOrder s k v) := by
  unfold State.scheduleOrder; simp [Fixed]
@[simp] theorem State.scheduleOrders_fixed (s : State) : Fixed s (State.scheduleOrders s) := by
  unfold State.scheduleOrders; simp [Fixed]
@[simp] theorem State.orderCommit_fixed (s : State) (k : Nat) : Fixed s (State.orderCommit s k) := by
  unfold State.orderCommit; simp [Fixed]
@[simp] theorem State.orderDue_fixed (s : State) (k : Nat) (afterReady : Bool) :
    Fixed s (State.orderDue s k afterReady) := by
  unfold State.orderDue; simp [Fixed]
@[simp] theorem State.putDraft_fixed (s : State) (d : List String) : Fixed s (State.putDraft s d) := by
  unfold State.putDraft; simp [Fixed]
@[simp] theorem State.startOrderSet_fixed (s : State) (n k : Nat) (changes : List (String × Arg)) :
    Fixed s (State.startOrderSet s n k changes) := by
  unfold State.startOrderSet; split
  · simp [Fixed]
  · exact Fixed.trans (by simp [Fixed]) (State.ticketRows_fixed _ _ _ _ rfl)
@[simp] theorem State.startOrderErase_fixed (s : State) (n k : Nat) : Fixed s (State.startOrderErase s n k) := by
  unfold State.startOrderErase; exact Fixed.trans (by simp [Fixed]) (State.ticketRows_fixed _ _ _ _ rfl)
@[simp] theorem State.startOrderStore_fixed (s : State) (n k : Nat) (x : OrderSlot) :
    Fixed s (State.startOrderStore s n k x) := by
  unfold State.startOrderStore; exact Fixed.trans (by simp [Fixed]) (State.ticketRows_fixed _ _ _ _ rfl)
@[simp] theorem State.startOrderRun_fixed (s : State) (n k : Nat) : Fixed s (State.startOrderRun s n k) := by
  unfold State.startOrderRun; simp [Fixed]
@[simp] theorem State.orderAwait_fixed (s : State) (a : Await) : Fixed s (State.orderAwait s a) := by
  unfold State.orderAwait; simp [Fixed]
@[simp] theorem setOrders_fixed (f : OrdersSt → OrdersSt) (s : State) : Fixed s (setOrders f s) := by
  unfold setOrders; simp [Fixed]
@[simp] theorem State.carrelWrite_kept (s : State) (a : Nat) (o : List Byte) :
    Kept s (State.carrelWrite s a o) := by
  unfold State.carrelWrite; simp [Kept]
@[simp] theorem State.touchSpan_fixed (s : State) (a n : Nat) : Fixed s (State.touchSpan s a n) := by
  unfold State.touchSpan; simp [Fixed]
@[simp] theorem State.startRecordWrite_kept (s : State) (n a : Nat) (o : List Byte) :
    Kept s (State.startRecordWrite s n a o) := by
  unfold State.startRecordWrite; simp [Kept]
@[simp] theorem State.startPart_kept (s : State) (n : Nat) (kib pmax : Nat) (refuse : Bool) :
    Kept s (State.startPart s n kib pmax refuse) := by
  unfold State.startPart; simp [Kept]
@[simp] theorem State.startStacksWrite_kept (s : State) (n a : Nat) (o : List Byte) :
    Kept s (State.startStacksWrite s n a o) := by
  unfold State.startStacksWrite; simp [Kept]
@[simp] theorem State.startArchAdd_kept (s : State) (n : Nat) (kind : Nat) (data : List Byte) (src : Option (Nat × Nat)) :
    Kept s (State.startArchAdd s n kind data src) := by
  unfold State.startArchAdd; (repeat' split) <;> simp [Kept]
@[simp] theorem State.startMark_kept (s : State) (n : Nat) (range list : Option (Nat × Nat)) (setM clearM : Nat) :
    Kept s (State.startMark s n range list setM clearM) := by
  unfold State.startMark; (repeat' split) <;> simp [Kept]
@[simp] theorem State.startDrop_fixed (s : State) (n up : Nat) : Fixed s (State.startDrop s n up) := by
  unfold State.startDrop; exact State.ticketRows_fixed _ _ _ _ rfl
@[simp] theorem State.archRecover_fixed (s : State) : Fixed s (State.archRecover s) := by
  unfold State.archRecover; (repeat' split) <;> simp [Fixed]
@[simp] theorem State.setCol_fixed (s : State) (n : Nat) (c : Collator) : Fixed s (State.setCol s n c) := by
  unfold State.setCol; simp [Fixed]
@[simp] theorem State.feedPort_fixed (s : State) (n : Nat) (o : List Byte) : Fixed s (State.feedPort s n o) := by
  unfold State.feedPort; simp [Fixed]
@[simp] theorem State.startFeed_fixed (s : State) (n : Nat) (src : Option (Nat × Nat)) :
    Fixed s (State.startFeed s n src) := by
  unfold State.startFeed; (repeat' split) <;> simp [Fixed]
@[simp] theorem State.feedStep_fixed (s : State) (n : Nat) : Fixed s (State.feedStep s n) := by
  unfold State.feedStep; (repeat' split) <;> simp [Fixed]
@[simp] theorem State.collateTick_fixed (s : State) : Fixed s (State.collateTick s) := by
  unfold State.collateTick; simp [Fixed]
@[simp] theorem State.closeCycle_fixed (s : State) (t n : Nat) (e : Option (Option Nat)) :
    Fixed s (State.closeCycle s t n e) := by
  unfold State.closeCycle; refine ⟨?_, ?_, ?_, ?_, ?_⟩ <;> simp <;> (repeat' split) <;> simp_all
@[simp] theorem setCollate_fixed (f : CollateSt → CollateSt) (s : State) : Fixed s (setCollate f s) := by
  unfold setCollate; simp [Fixed]
@[simp] theorem State.putCol_fixed (s : State) (n : Nat) (c : Collator) : Fixed s (State.putCol s n c) := by
  unfold State.putCol; simp [Fixed]
@[simp] theorem State.rxWindow_fixed (s : State) (k : Nat) : Fixed s (State.rxWindow s k).2.2 := by
  unfold State.rxWindow; simp [Fixed]
@[simp] theorem State.txWindow_fixed (s : State) (o : List Byte) : Fixed s (State.txWindow s o) := by
  unfold State.txWindow; simp [Fixed]
@[simp] theorem State.setChan_fixed (s : State) (n : Nat) (c : Chan) : Fixed s (State.setChan s n c) := by
  unfold State.setChan; simp [Fixed]
@[simp] theorem State.chanStop_fixed (s : State) (n : Nat) (last why : Nat) :
    Fixed s (State.chanStop s n last why) := by
  unfold State.chanStop; simp [Fixed]
@[simp] theorem State.chanFault_fixed (s : State) (n : Nat) (x : PRun) (why at_ : Nat) :
    Fixed s (State.chanFault s n x why at_) := by
  unfold State.chanFault; simp [Fixed]
@[simp] theorem State.chanDone_fixed (s : State) (n : Nat) (x : PRun) : Fixed s (State.chanDone s n x) := by
  unfold State.chanDone; simp [Fixed]
@[simp] theorem State.startPorter_fixed (s : State) (t n slip max : Nat) (input : Option (List Byte)) (fifo : Bool) :
    Fixed s (State.startPorter s t n slip max input fifo) := by
  unfold State.startPorter; simp [Fixed]
@[simp] theorem State.cancelPorter_fixed (s : State) (n : Nat) (by_ : String) :
    Fixed s (State.cancelPorter s n by_) := by
  unfold State.cancelPorter; (repeat' split) <;> simp [Fixed]
@[simp] theorem State.power_fixed (s : State) (ts : List Target) : Fixed s (State.power s ts).1 := by
  unfold State.power; exact foldl_fst _ (fun a x => by cases x <;> simp [Fixed, Target.place]) _ (s, false)
theorem State.readElement_fixed (s : State) (n : Nat) (x : PRun) (t : Target) (a size : Nat) (o : List Byte × State × PRun)
    (h : s.readElement n x t a size = some o) : Fixed s o.2.1 := by
  unfold State.readElement at h
  cases t
  case rxWindow => simp only [Option.some.injEq] at h; subst h; simp [Fixed]
  case fifo =>
    dsimp only at h; split at h
    · split at h
      · simp at h
      · simp only [Option.some.injEq] at h; subst h; simp [Fixed]
    · simp at h
  all_goals simp at h
  all_goals subst h; simp [Fixed]
theorem State.writeElement_kept (s : State) (x : PRun) (t : Target) (a : Nat) (o : List Byte) (r : State × PRun)
    (h : s.writeElement x t a o = some r) : Kept s r.1 := by
  unfold State.writeElement at h
  cases t <;> simp at h
  all_goals first | (subst h; simp [Kept]; done) | (obtain ⟨_, h⟩ := h; subst h; simp [Kept])
@[simp] theorem State.moveElement_kept (s : State) (n : Nat) (x : PRun) (sl : Slip) (src dst : Nat) :
    Kept s (State.moveElement s n x sl src dst) := by
  unfold State.moveElement; split
  · simp [Kept]
  · rename_i h; have h1 := State.readElement_fixed _ _ _ _ _ _ _ h
    split
    · simp [Kept]
    · rename_i h2; have h3 := State.writeElement_kept _ _ _ _ _ _ h2
      simp only []; (repeat' split) <;> simp_all [Kept, Fixed]
@[simp] theorem setPorter_fixed (f : PorterSt → PorterSt) (s : State) : Fixed s (setPorter f s) := by
  unfold setPorter; simp [Fixed]
@[simp] theorem State.hostHeld_fixed (s : State) (n : Nat) : Fixed s (State.hostHeld s n) := by
  unfold State.hostHeld; simp [Fixed]
@[simp] theorem State.setGpio_fixed (s : State) (cfg : Vector Word 8) (out : Word) :
    Fixed s (State.setGpio s cfg out) := by
  unfold State.setGpio; simp [Fixed]
@[simp] theorem State.sswTo_fixed (s : State) (x : SState) : Fixed s (State.sswTo s x) := by
  unfold State.sswTo; simp [Fixed]
@[simp] theorem State.sswTrip_fixed (s : State) (cause : Nat) (fields : List Tok) :
    Fixed s (State.sswTrip s cause fields) := by
  unfold State.sswTrip; refine ⟨?_, ?_, ?_, ?_, ?_⟩ <;> simp <;> (repeat' split) <;> simp_all
@[simp] theorem State.startSswOn_fixed (s : State) : Fixed s (State.startSswOn s) := by
  unfold State.startSswOn; simp [Fixed]
@[simp] theorem State.startSswOff_fixed (s : State) (n : Nat) : Fixed s (State.startSswOff s n) := by
  unfold State.startSswOff; simp [Fixed]
@[simp] theorem State.sswDormantTrip_fixed (s : State) (cause : Nat) :
    Fixed s (State.sswDormantTrip s cause) := by
  unfold State.sswDormantTrip; simp [Fixed]
@[simp] theorem State.sswWake_fixed (s : State) : Fixed s (State.sswWake s) := by
  unfold State.sswWake; simp [Fixed]
@[simp] theorem State.tamperEntry_fixed (s : State) (r : TamperResp) : Fixed s (State.tamperEntry s r) := by
  unfold State.tamperEntry; simp [Fixed]
@[simp] theorem State.tamperRespond_fixed (s : State) : Fixed s (State.tamperRespond s) := by
  unfold State.tamperRespond; split
  · rename_i _ _ x _ _
    have h := State.rowWrites_fixed ((State.eraseSlots { s with tamper := { s.tamper with owed := none } } (s.eraseList x)).bump .vault)
      ((s.eraseList x).map (fun k => .key k none)) none (by simp [RowWhat.plain])
    simp only []; (repeat' split) <;> simp_all [Fixed]
  · simp [Fixed]
@[simp] theorem State.tamperFinish_fixed (s : State) : Fixed s (State.tamperFinish s) := by
  unfold State.tamperFinish; (repeat' split) <;> simp [Fixed]
@[simp] theorem State.tamperEvent_fixed (s : State) (x : TamperSet) : Fixed s (State.tamperEvent s x) := by
  unfold State.tamperEvent; simp [Fixed]
@[simp] theorem State.tamperLatch_fixed (s : State) (src : BitVec 2) : Fixed s (State.tamperLatch s src) := by
  unfold State.tamperLatch; refine ⟨?_, ?_, ?_, ?_, ?_⟩ <;> simp <;> (repeat' split) <;> simp_all
@[simp] theorem State.tamperSampled_fixed (s : State) (level : Bool) : Fixed s (State.tamperSampled s level) := by
  unfold State.tamperSampled; simp [Fixed]
@[simp] theorem State.tamperEdge_fixed (s : State) (level : Bool) : Fixed s (State.tamperEdge s level) := by
  unfold State.tamperEdge; simp [Fixed]
@[simp] theorem State.tamperDip_fixed (s : State) : Fixed s (State.tamperDip s) := by
  unfold State.tamperDip; simp [Fixed]
@[simp] theorem State.setTamper_fixed (s : State) (v : Word) : Fixed s (State.setTamper s v) := by
  unfold State.setTamper; simp [Fixed]
@[simp] theorem State.linkStart_fixed (s : State) (o : LinkOp) : Fixed s (State.linkStart s o) := by
  unfold State.linkStart; simp [Fixed]
@[simp] theorem State.startAssoc_fixed (s : State) (n : Nat) (parent : Addr) (pan : BitVec 16) (plan chan : Nat) :
    Fixed s (State.startAssoc s n parent pan plan chan) := by
  unfold State.startAssoc; simp [Fixed]
@[simp] theorem State.startLeave_fixed (s : State) (n : Nat) (notify : Bool) :
    Fixed s (State.startLeave s n notify) := by
  unfold State.startLeave; simp [Fixed]
@[simp] theorem State.startPoll_fixed (s : State) (n repoll : Nat) : Fixed s (State.startPoll s n repoll) := by
  unfold State.startPoll; simp [Fixed]
@[simp] theorem State.startListen_fixed (s : State) (n : Nat) (k : ListenKind) (durMs : Option Nat) (plan chan : Nat) :
    Fixed s (State.startListen s n k durMs plan chan) := by
  unfold State.startListen; simp [Fixed]
@[simp] theorem State.startSend_fixed (s : State) (o : LinkOp) : Fixed s (State.startSend s o) := by
  unfold State.startSend; (repeat' split) <;> simp [Fixed]
@[simp] theorem State.startScan_fixed (s : State) (n durMs : Nat) : Fixed s (State.startScan s n durMs) := by
  unfold State.startScan; simp [Fixed]
@[simp] theorem State.startOp_kept (s : State) (n : Nat) (op : TicketOp) : Kept s (State.startOp s n op) := by
  unfold State.startOp; (repeat' split) <;> simp [Kept]
@[simp] theorem State.undo_fixed (s : State) (t : Ticket) (r : Result) : Fixed s (State.undo s t r) := by
  unfold State.undo; (repeat' split) <;> simp [Fixed]
@[simp] theorem State.endUnstarted_fixed (s : State) (t : Ticket) (r : Result) (fields : List Tok) :
    Fixed s (State.endUnstarted s t r fields) := by
  unfold State.endUnstarted; (repeat' split) <;> simp [Fixed]
@[simp] theorem State.endAll_fixed (s : State) (ts : List Ticket) (r : Result) (fields : List Tok) :
    Fixed s (State.endAll s ts r fields) := by
  unfold State.endAll; simp [Fixed]
@[simp] theorem State.headed_fixed (s : State) (t : Ticket) : Fixed s (State.headed s t) := by
  unfold State.headed; (repeat' split) <;> simp [Fixed]
@[simp] theorem State.tryStart_start_kept (s : State) (t : Ticket) : Kept s (State.tryStart.start s t) := by
  unfold State.tryStart.start; simp [Kept]
@[simp] theorem State.tryStart_go_kept (s : State) (t : Ticket) : Kept s (State.tryStart.go s t) := by
  unfold State.tryStart.go; (repeat' split) <;> simp [Kept]
@[simp] theorem State.tryStart_kept (s : State) (t : Ticket) : Kept s (State.tryStart s t) := by
  unfold State.tryStart; (repeat' split) <;> simp [Kept]
@[simp] theorem State.goOverdue_fixed (s : State) (t : Ticket) : Fixed s (State.goOverdue s t) := by
  unfold State.goOverdue; simp [Fixed]
@[simp] theorem State.linkCancel_fixed (s : State) (by_ : String) : Fixed s (State.linkCancel s by_) := by
  unfold State.linkCancel; simp [Fixed]
@[simp] theorem State.cancelRunning_fixed (s : State) (t : Ticket) (by_ : String) :
    Fixed s (State.cancelRunning s t by_) := by
  unfold State.cancelRunning; refine ⟨?_, ?_, ?_, ?_, ?_⟩ <;> simp <;> (repeat' split) <;> simp_all
@[simp] theorem State.cancelTicket_fixed (s : State) (t : Ticket) (by_ : String) :
    Fixed s (State.cancelTicket s t by_) := by
  unfold State.cancelTicket; simp [Fixed]
@[simp] theorem State.setDay_fixed (s : State) (v : Nat) : Fixed s (State.setDay s v) := by
  unfold State.setDay; simp [Fixed]
@[simp] theorem State.dueGo_kept (s : State) (afterReady : Bool) (d : Nat × Nat × Nat) :
    Kept s (State.dueGo s afterReady d) := by
  unfold State.dueGo; (repeat' split) <;> simp [Kept]
@[simp] theorem State.dueAll_kept (s : State) (afterReady : Bool) : Kept s (State.dueAll s afterReady) := by
  unfold State.dueAll; simp [Kept]
@[simp] theorem State.dueNow_kept (s : State) : Kept s (State.dueNow s) := by
  unfold State.dueNow; simp [Kept]
@[simp] theorem State.overdueAll_fixed (s : State) : Fixed s (State.overdueAll s) := by
  unfold State.overdueAll; simp [Fixed]
@[simp] theorem State.takeUp_fixed (s : State) : Fixed s (State.takeUp s) := by
  unfold State.takeUp; simp [Fixed]
@[simp] theorem State.resetCore_kept (s : State) (cause : Cause) (also stage : Nat) (hold : Hold) :
    Kept s (State.resetCore s cause also stage hold) := by
  unfold State.resetCore; simp [Kept]
@[simp] theorem State.takeReset_kept (s0 : State) (cause : Cause) (stage : Nat) (hold : Hold) :
    Kept s0 (State.takeReset s0 cause stage hold) := by
  unfold State.takeReset; simp [Kept]
@[simp] theorem State.toTest_fixed (s : State) : Fixed s (State.toTest s) := by
  unfold State.toTest; simp [Fixed]
@[simp] theorem State.refuseEntry_fixed (s : State) (present : List Bool) :
    Fixed s (State.refuseEntry s present) := by
  unfold State.refuseEntry; simp [Fixed]
@[simp] theorem State.radioOff_fixed (s : State) : Fixed s (State.radioOff s) := by
  unfold State.radioOff; refine ⟨?_, ?_, ?_, ?_, ?_⟩ <;> simp <;> (repeat' split) <;> simp_all
@[simp] theorem State.beginEntry_fixed (s : State) (temp : Int) : Fixed s (State.beginEntry s temp) := by
  unfold State.beginEntry; simp [Fixed]
@[simp] theorem State.idleWatch_fixed (s : State) : Fixed s (State.idleWatch s) := by
  unfold State.idleWatch; simp [Fixed]
@[simp] theorem State.flushRows_kept (s : State) : Kept s (State.flushRows s) := by
  unfold State.flushRows; simp [Kept]
@[simp] theorem State.sourceRun_kept (s : State) (src : WakeSource) (level : Bool) :
    Kept s (State.sourceRun s src level) := by
  unfold State.sourceRun; (repeat' split) <;> simp [Kept]
@[simp] theorem State.abortEntry_kept (s : State) (src : WakeSource) (level : Bool) :
    Kept s (State.abortEntry s src level) := by
  unfold State.abortEntry; simp [Kept]
@[simp] theorem State.alsoAlarm_fixed (s : State) : Fixed s (State.alsoAlarm s) := by
  unfold State.alsoAlarm; simp [Fixed]
@[simp] theorem State.logicActions_kept (s : State) : Kept s (State.logicActions s) := by
  unfold State.logicActions
  extract_lets p gone loss fresh a0 d0 t0 a1 a2 a3 a4 a5 a6 a7
  have h1 : Kept s a1 := by simp [Kept, a1, a0]
  have h2 : Kept a1 a2 := by simp [Kept, a2]
  have h3 : Kept a2 a3 := by simp only [a3]; split <;> simp [Kept]
  have h4 : Kept a3 a4 := by simp only [a4]; split <;> simp [Kept]
  have h5 : Kept a4 a5 := by simp only [a5]; split <;> simp [Kept]
  have h6 : Kept a5 a6 := by simp only [a6]; split <;> simp [Kept]
  have h7 : Kept a6 a7 := by simp only [a7]; split <;> simp [Kept]
  have h8 : Kept a7 ((a7.sswWake.overdueAll).settled s).attnFollow := by simp [Kept]
  exact h1.trans (h2.trans (h3.trans (h4.trans (h5.trans (h6.trans (h7.trans h8))))))
@[simp] theorem State.quietFull_kept (s : State) (code : Nat) : Kept s (State.quietFull s code) := by
  unfold State.quietFull; simp [Kept]
@[simp] theorem State.wakeSource_kept (s0 : State) (src : WakeSource) (level : Bool) :
    Kept s0 (State.wakeSource s0 src level) := by
  unfold State.wakeSource; refine ⟨?_, ?_⟩ <;> simp <;> (repeat' split) <;> simp_all
@[simp] theorem State.wakeLateReset_kept (s : State) (stage : Nat) : Kept s (State.wakeLateReset s stage) := by
  unfold State.wakeLateReset; simp [Kept]
@[simp] theorem State.resumeDay_fixed (s : State) (temp : Int) : Fixed s (State.resumeDay s temp) := by
  unfold State.resumeDay; simp [Fixed]
@[simp] theorem State.beginSniff_fixed (s : State) : Fixed s (State.beginSniff s) := by
  unfold State.beginSniff; simp [Fixed]
@[simp] theorem State.pushFront_fixed (s : State) (p : Port) (l : OutLine) : Fixed s (State.pushFront s p l) := by
  unfold State.pushFront; simp [Fixed]
@[simp] theorem State.announce_fixed (s : State) : Fixed s (State.announce s) := by
  unfold State.announce; simp [Fixed]
@[simp] theorem State.wakeSeen_fixed (s : State) : Fixed s (State.wakeSeen s) := by
  unfold State.wakeSeen; simp [Fixed]
@[simp] theorem State.tamperWakes_kept (s : State) (f : State → State) (h : ∀ s, Kept s (f s)) :
    Kept s (s.tamperWakes f) := by
  unfold State.tamperWakes; simp only []; (repeat' split) <;> simp_all [Kept]
@[simp] theorem State.putDorm_fixed (s : State) (v : Word) : Fixed s (State.putDorm s v) := by
  unfold State.putDorm; simp [Fixed]
@[simp] theorem setPwr_fixed (f : PwrSt → PwrSt) (s : State) : Fixed s (setPwr f s) := by
  unfold setPwr; simp [Fixed]
@[simp] theorem State.newMode_fixed (s : State) (was all : Bool) : Fixed s (State.newMode s was all) := by
  unfold State.newMode; simp [Fixed]
@[simp] theorem State.inputOctet_fixed (s : State) (p : Port) (b : Byte) (bad : Bool) :
    Fixed s (State.inputOctet s p b bad) := by
  unfold State.inputOctet; simp [Fixed]
@[simp] theorem State.rejectBlock_fixed (s : State) (p : Port) : Fixed s (State.rejectBlock s p) := by
  unfold State.rejectBlock; refine ⟨?_, ?_, ?_, ?_, ?_⟩ <;> simp <;> (repeat' split) <;> simp_all
@[simp] theorem State.touched_fixed (s : State) : Fixed s (State.touched s) := by
  unfold State.touched; simp [Fixed]
@[simp] theorem State.putDesk_fixed (s : State) (v : Word) : Fixed s (State.putDesk s v) := by
  unfold State.putDesk; simp [Fixed]
@[simp] theorem State.applyRate_fixed (s : State) : Fixed s (State.applyRate s) := by
  unfold State.applyRate; (repeat' split) <;> simp [Fixed]
@[simp] theorem State.rateSoon_fixed (s : State) : Fixed s (State.rateSoon s) := by
  unfold State.rateSoon; simp [Fixed]
@[simp] theorem State.attemptNow_fixed (s : State) : Fixed s (State.attemptNow s) := by
  unfold State.attemptNow; simp [Fixed]
@[simp] theorem State.returnSent_fixed (s : State) (p : Port) (n : Nat) : Fixed s (State.returnSent s p n) := by
  unfold State.returnSent; simp [Fixed]
@[simp] theorem State.promptAfter_fixed (s : State) (k : OutKind) : Fixed s (State.promptAfter s k) := by
  unfold State.promptAfter; (repeat' split) <;> simp [Fixed]
@[simp] theorem State.lineSent_fixed (s : State) (p : Port) (k : OutKind) : Fixed s (State.lineSent s p k) := by
  unfold State.lineSent; (repeat' split) <;> simp [Fixed]
@[simp] theorem State.frontSent_fixed (s : State) (p : Port) : Fixed s (State.frontSent s p) := by
  unfold State.frontSent; simp only []; (repeat' split) <;> simp [Fixed]
@[simp] theorem State.chuteOut_fixed (s0 : State) : Fixed s0 (State.chuteOut s0) := by
  unfold State.chuteOut; simp [Fixed]
@[simp] theorem State.chuteIn_fixed (s : State) (b : Byte) : Fixed s (State.chuteIn s b) := by
  unfold State.chuteIn; (repeat' split) <;> simp [Fixed]
@[simp] theorem State.holdFlush_fixed (s : State) (p : Port) (was : Bool) :
    Fixed s (State.holdFlush s p was) := by
  unfold State.holdFlush; simp [Fixed]
@[simp] theorem State.putMode_fixed (s : State) (p : Port) (framed hold : Bool) :
    Fixed s (State.putMode s p framed hold) := by
  unfold State.putMode; (repeat' split) <;> simp [Fixed]
@[simp] theorem State.saveMode_fixed (s : State) (p : Port) : Fixed s (State.saveMode s p) := by
  unfold State.saveMode; (repeat' split) <;> simp [Fixed]
@[simp] theorem State.newRate_fixed (s : State) (r : Nat) : Fixed s (State.newRate s r) := by
  unfold State.newRate; simp [Fixed]
@[simp] theorem State.saveDesk_fixed (s : State) : Fixed s (State.saveDesk s) := by
  unfold State.saveDesk; simp [Fixed]
@[simp] theorem State.writeDesk_fixed (s : State) (v : Word) : Fixed s (State.writeDesk s v) := by
  unfold State.writeDesk; simp [Fixed]
@[simp] theorem State.writeChute_fixed (s : State) (v : Word) : Fixed s (State.writeChute s v) := by
  unfold State.writeChute; simp [Fixed]
@[simp] theorem setDeskSt_fixed (f : DeskSt → DeskSt) (s : State) : Fixed s (setDeskSt f s) := by
  unfold setDeskSt; simp [Fixed]
@[simp] theorem State.reportRepair_fixed (s : State) (x : Region × Nat) : Fixed s (State.reportRepair s x) := by
  unfold State.reportRepair; simp [Fixed]
@[simp] theorem State.reportFail_fixed (s : State) (x : Region × Nat) : Fixed s (State.reportFail s x) := by
  unfold State.reportFail; simp [Fixed]
@[simp] theorem State.damage_fixed (s : State) (second : Bool) (x : Region × Nat) :
    Fixed s (State.damage s second x) := by
  unfold State.damage; simp only []; (repeat' split) <;> simp [Fixed]
@[simp] theorem State.damaged_fixed (s : State) (found : RecordFindings) : Fixed s (State.damaged s found) := by
  unfold State.damaged; simp [Fixed]
@[simp] theorem State.loadDrift_fixed (s : State) : Fixed s (State.loadDrift s) := by
  unfold State.loadDrift; simp [Fixed]
@[simp] theorem State.checkRow_fixed (s : State) (rs : List CfgReg) : Fixed s (State.checkRow s rs).1 := by
  unfold State.checkRow; exact foldl_fst _ (fun a x => by split <;> simp [Fixed]) _ (s, false)
@[simp] theorem State.checkRows_fixed (s : State) : Fixed s (State.checkRows s).1 := by
  unfold State.checkRows; exact foldl_fst _ (fun a x => by simp [Fixed]) _ (s, [])
@[simp] theorem State.toStage_fixed (s : State) (x : Stage) : Fixed s (State.toStage s x) := by
  unfold State.toStage; simp [Fixed]
@[simp] theorem State.continueDay_fixed (s : State) (temp : Int) (keeper ticks : Nat) :
    Fixed s (State.continueDay s temp keeper ticks) := by
  unfold State.continueDay; simp [Fixed]
@[simp] theorem State.sendBoot_fixed (s : State) : Fixed s (State.sendBoot s) := by
  unfold State.sendBoot; simp [Fixed]
theorem State.firstRows_plain (s : State) : s.firstRows.all RowWhat.plain = true := by
  unfold State.firstRows
  simp [RowWhat.plain]
@[simp] theorem State.firstBoot_fixed (s : State) : Fixed s (State.firstBoot s) := by
  unfold State.firstBoot
  exact Fixed.trans (by simp [Fixed]) (State.rowWrites_fixed _ _ _ (State.firstRows_plain _))
@[simp] theorem State.countBoot_fixed (s : State) : Fixed s (State.countBoot s) := by
  unfold State.countBoot; simp [Fixed]
@[simp] theorem State.loadDay_fixed (s : State) : Fixed s (State.loadDay s) := by
  unfold State.loadDay; simp [Fixed]
@[simp] theorem State.loadLink_fixed (s : State) : Fixed s (State.loadLink s) := by
  unfold State.loadLink; (repeat' split) <;> simp [Fixed]
@[simp] theorem State.loadRecord_fixed (s : State) : Fixed s (State.loadRecord s) := by
  unfold State.loadRecord
  extract_lets c mend bad s1 s2
  have hc : Fixed s c.1 := by simp [Fixed, c]
  have h1 : Fixed c.1 s1 := (State.sendBoot_fixed _).trans (foldl_fixed _ (fun _ _ => by simp [Fixed]) _ _)
  have h2 : Fixed s1 s2 := foldl_fixed _ (fun _ _ => by simp [Fixed]) _ _
  exact hc.trans (h1.trans (h2.trans (State.rowWrites_fixed _ _ _ (by simp [RowWhat.plain]))))
@[simp] theorem State.loadLatch_fixed (s : State) : Fixed s (State.loadLatch s) := by
  unfold State.loadLatch; simp [Fixed]
@[simp] theorem State.journalAt_fixed (s : State) : Fixed s (State.journalAt s) := by
  unfold State.journalAt; (repeat' split) <;> simp [Fixed]
@[simp] theorem State.reportJournal_fixed (s : State) : Fixed s (State.reportJournal s) := by
  unfold State.reportJournal; (repeat' split) <;> simp [Fixed]
@[simp] theorem State.loadKey_fixed (s : State) (k : Nat) : Fixed s (State.loadKey s k) := by
  unfold State.loadKey; simp only []; (repeat' split) <;> simp [Fixed]
@[simp] theorem State.loadKeys_fixed (s : State) : Fixed s (State.loadKeys s) := by
  unfold State.loadKeys; simp [Fixed]
@[simp] theorem State.makeKek_fixed (s : State) : Fixed s (State.makeKek s) := by
  unfold State.makeKek State.keyRow
  split
  · simp [Fixed]
  · simp only []
    exact Fixed.trans (by simp [Fixed]) (State.rowWrite_key_fixed _ _ _ _ _)
@[simp] theorem State.noiseUp_fixed (s : State) : Fixed s (State.noiseUp s) := by
  unfold State.noiseUp; simp [Fixed]
@[simp] theorem State.firstSeq_fixed (s : State) : Fixed s (State.firstSeq s) := by
  have h := State.drawB_fixed s 8
  unfold State.firstSeq
  (repeat' split) <;> simp_all [Fixed]
@[simp] theorem State.sendReady_fixed (s : State) : Fixed s (State.sendReady s) := by
  unfold State.sendReady; simp [Fixed]
@[simp] theorem State.latchedWakeIn_fixed (s : State) : Fixed s (State.latchedWakeIn s) := by
  unfold State.latchedWakeIn; (repeat' split) <;> simp [Fixed]
@[simp] theorem State.stopOrder_fixed (s : State) (res : OrderResult) : Fixed s (State.stopOrder s res) := by
  unfold State.stopOrder; refine ⟨?_, ?_, ?_, ?_, ?_⟩ <;> simp <;> (repeat' split) <;> simp_all
@[simp] theorem State.discardPending_fixed (s : State) (drop : Nat → Bool) :
    Fixed s (State.discardPending s drop) := by
  unfold State.discardPending; exact Fixed.trans (by simp [Fixed]) (foldl_fixed _ (fun a x => by split <;> simp [Fixed]) _ _)
@[simp] theorem State.emptyLine_fixed (s : State) (p : Port) : Fixed s (State.emptyLine s p) := by
  unfold State.emptyLine; simp [Fixed]
@[simp] theorem State.afterLine_fixed (s : State) : Fixed s (State.afterLine s) := by
  unfold State.afterLine; (repeat' split) <;> simp [Fixed]
@[simp] theorem State.idleCycle_fixed (s : State) : Fixed s (State.idleCycle s) := by
  unfold State.idleCycle; simp [Fixed]
end Sys2Proof.Machine
end

