-- ==== Sys2Proof/Laws/Answers.lean ====
section
/-! SUPPORT. What taking a line and answering it do: once for `took`, `push`, `replyLines` and `runLine`. -/
namespace Sys2Proof.Machine

open Sys2Proof

@[simp] theorem PortSt.still_still (q : PortSt) : q.still.still = q.still := rfl

@[simp] theorem State.port_setPort (s : State) (p : Port) (x : PortSt) : (s.setPort p x).port p = x := by
  cases p <;> rfl

theorem State.port_setPort_other (s : State) {p q : Port} (x : PortSt) (h : q ≠ p) : (s.setPort p x).port q = s.port q := by
  cases p <;> cases q <;> first | rfl | exact absurd rfl h

/-- A change of a port's lines, busy level or output queue is none of the rest. -/
theorem State.setPort_besideReply (s : State) (p : Port) (x : PortSt) (h : x.still = (s.port p).still) :
    (s.setPort p x).besideReply = s.besideReply := by
  cases p <;> simp only [State.setPort, State.port] at h ⊢ <;> simp [State.besideReply, h]

theorem State.took_besideReply (s : State) (o : Origin) : (s.took o).besideReply = s.besideReply := by
  cases o with
  | order k => rfl
  | port p => cases p <;> rfl

theorem State.took_out (s : State) (o : Origin) (p : Port) : ((s.took o).port p).out = (s.port p).out := by
  cases o with
  | order k => rfl
  | port q => cases q <;> cases p <;> rfl

theorem State.took_lines (s : State) (p : Port) : ((s.took (.port p)).port p).lines = (s.port p).lines.tail := by
  cases p <;> rfl

theorem State.took_other (s : State) {p q : Port} (h : q ≠ p) : (s.took (.port p)).port q = s.port q := by
  cases p <;> cases q <;> first | rfl | exact absurd rfl h

@[simp] theorem State.took_framed (s : State) (o : Origin) (p : Port) : (s.took o).framed p = s.framed p := by
  cases o with
  | order k => rfl
  | port q => cases q <;> cases p <;> rfl

/-- A line joins the queue behind what stands there; nothing else of the port changes. -/
theorem State.push_port (s : State) (p : Port) (l : OutLine) :
    (s.push p l).port p = { s.port p with out := (s.port p).out ++ [l] } := by
  cases p <;> unfold State.push <;> simp only [] <;> split <;> rfl

theorem State.push_other (s : State) {p q : Port} (l : OutLine) (h : q ≠ p) : (s.push p l).port q = s.port q := by
  cases p <;> cases q <;> first | exact absurd rfl h | (unfold State.push; simp only []; split <;> rfl)

theorem State.push_besideReply (s : State) (p : Port) (l : OutLine) : (s.push p l).besideReply = s.besideReply := by
  cases p <;> unfold State.push <;> simp only [] <;> split <;> rfl

/-- Lines pushed one after another. -/
theorem State.pushes_port {α : Type} (g : α → OutLine) (xs : List α) (s : State) (p : Port) :
    (xs.foldl (fun s x => s.push p (g x)) s).port p = { s.port p with out := (s.port p).out ++ xs.map g } := by
  induction xs generalizing s with
  | nil => simp
  | cons x xs ih => simp [ih, State.push_port]

theorem State.pushes_other {α : Type} (g : α → OutLine) (xs : List α) (s : State) {p q : Port} (h : q ≠ p) :
    (xs.foldl (fun s x => s.push p (g x)) s).port q = s.port q := by
  induction xs generalizing s with
  | nil => rfl
  | cons x xs ih => simp [ih, State.push_other s _ h]

theorem State.pushes_besideReply {α : Type} (g : α → OutLine) (xs : List α) (s : State) (p : Port) :
    (xs.foldl (fun s x => s.push p (g x)) s).besideReply = s.besideReply := by
  induction xs generalizing s with
  | nil => rfl
  | cons x xs ih => simp [ih, State.push_besideReply]

theorem State.replyLines_besideReply (s : State) (l : Line) (k : OutKind) (m : Bool) (ls : List (List Tok)) (b : List Byte) :
    (s.replyLines l k m ls b).besideReply = s.besideReply := by
  unfold State.replyLines
  split
  · rfl
  · exact State.pushes_besideReply _ _ _ _

theorem State.ok_besideReply (s : State) (l : Line) (ts : List Tok) (b : List Byte) :
    (s.ok l ts b).besideReply = s.besideReply := s.replyLines_besideReply l _ _ _ _

theorem State.okMany_besideReply (s : State) (l : Line) (ls : List (List Tok)) :
    (s.okMany l ls).besideReply = s.besideReply := s.replyLines_besideReply l _ _ _ _

theorem says_zipIdx (tag : Option String) (k : Nat → List Tok → OutLine) (h : ∀ i x, (k i x).says = (tag, x))
    (ls : List (List Tok)) (i : Nat) :
    ((ls.zipIdx i).map (fun x => k x.2 x.1)).map OutLine.says = ls.map (fun x => (tag, x)) := by
  induction ls generalizing i with
  | nil => rfl
  | cons x xs ih =>
    have := ih (i + 1)
    simp only [List.zipIdx_cons, List.map_cons, h, this]

/-- A reply answers its line: with the lines given, under the tag, on its own port. -/
theorem State.replyLines_answered (s t : State) (l : Line) (k : OutKind) (m : Bool) (ls : List (List Tok)) (b : List Byte)
    (hout : ∀ p, l.origin = .port p → (s.port p).out = (t.port p).out ∧ (t.port p).lines = (s.port p).lines.tail ∧
      (m = true → t.framed p = s.framed p) ∧ ∀ q, q ≠ p → t.port q = s.port q)
    (hord : ∀ k, l.origin = .order k → t.dport = s.dport ∧ t.cport = s.cport) :
    Answered s (t.replyLines l k m ls b) l m ls (!b.isEmpty) := by
  unfold Answered State.replyLines State.replyBody
  split
  · rename_i k' hk
    simp only [hk]
    exact ⟨by trivial, (hord k' hk).1, (hord k' hk).2⟩
  · rename_i p hp
    obtain ⟨h1, h2, h3, h4⟩ := hout p hp
    have hb : (m && t.framed p && (decide (1 < ls.length) || !b.isEmpty)) =
        (m && s.framed p && (decide (1 < ls.length) || !b.isEmpty)) := by
      cases m
      · rfl
      · rw [h3 rfl]
    simp only [hp, hb]
    refine ⟨?_, ?_, fun q hq => ?_⟩
    · rw [State.pushes_port, h1]
      simp only [List.map_append]
      congr 1
      generalize (if (m && s.framed p && (decide (1 < ls.length) || !b.isEmpty)) = true then
        ls ++ [[w "OK", w "END", n' ls.length]] else ls) = body
      exact says_zipIdx l.tag
        (fun i x => { kind := if i = body.length - 1 then k else .reply false, tag := l.tag, toks := x,
                      block := if i + 1 = ls.length then b else [] })
        (fun _ _ => rfl) body 0
    · rw [State.pushes_port]; exact h2
    · rw [State.pushes_other _ _ _ hq]; exact h4 q hq

/-- What an accepted line does. -/
theorem runLine_accepts {s : State} {f : Form} {l : Line} {es : List Er} (h : s.Accepts f l es) (act : State → State) :
    runLine f l s es act = .next (act (s.took l.origin)) := by
  unfold runLine
  simp [h.listens, h.runs, h.form, h.verb, firstEr]

/-- What a line with an error does. -/
theorem runLine_refuses {s : State} {f : Form} {l : Line} {es : List Er} {e : Er} (hl : s.listens l.origin = true)
    (hc : s.orders.checking = none) (he : firstEr (s.formErs f l ++ es) = some e) (act : State → State) :
    runLine f l s es act = .next ((s.took l.origin).refuse l e) := by
  unfold runLine
  simp [hl, hc, he]

/-- No line acts where none is taken. -/
theorem runLine_deaf {s : State} {l : Line} (h : s.listens l.origin = false) (f : Form) (es : List Er) (act : State → State) :
    runLine f l s es act = .next s := by
  unfold runLine; simp [h]

/-- A reply made in a state that differs from the one in which the line was taken by anything but its ports. -/
theorem State.reply_answered (s t : State) (l : Line) (k : OutKind) (m : Bool) (ls : List (List Tok)) (b : List Byte)
    (hd : t.dport = (s.took l.origin).dport) (hc : t.cport = (s.took l.origin).cport) (hf : m = true → ∀ p, t.framed p = s.framed p) :
    Answered s (t.replyLines l k m ls b) l m ls (!b.isEmpty) := by
  have hp : ∀ p, t.port p = (s.took l.origin).port p := by intro p; cases p <;> assumption
  apply State.replyLines_answered
  · intro p h
    rw [hp p]
    refine ⟨(s.took_out _ _).symm, ?_, fun h => hf h p, fun q hq => ?_⟩
    · rw [h]; exact s.took_lines p
    · rw [hp q, h]; exact s.took_other hq
  · intro k h
    rw [hd, hc, h]
    exact ⟨rfl, rfl⟩

/-- A line whose action is an effect that leaves the ports alone and then a reply. -/
theorem runLine_answers {c : Instr} {s : State} {f : Form} {l : Line} {es : List Er} (m : Bool) (act : State → State)
    (ls : State → List (List Tok)) (kind : OutKind) (blk : List Byte)
    (h : exec c s = runLine f l s es (fun s => (act s).replyLines l kind m (ls (act s)) blk))
    (hd : (act (s.took l.origin)).dport = (s.took l.origin).dport)
    (hc : (act (s.took l.origin)).cport = (s.took l.origin).cport)
    (hf : m = true → ∀ p, (act (s.took l.origin)).framed p = s.framed p) :
    Answers c s f l es m act ls (!blk.isEmpty) := by
  refine ⟨fun ha => ?_, fun e hl hk he => ?_⟩
  · rw [h, runLine_accepts ha]
    exact ⟨_, rfl, State.reply_answered s _ l _ m _ _ hd hc hf, by rw [State.replyLines_besideReply]⟩
  · rw [h]; exact runLine_refuses hl hk he _

/-- A report. -/
theorem runLine_reports {c : Instr} {s : State} {f : Form} {l : Line} {es : List Er} (m : Bool) (ls : State → List (List Tok))
    (h : exec c s = runLine f l s es (fun s => s.replyLines l (.reply true) m (ls s))) : Reports c s f l es m ls := by
  refine ⟨runLine_answers m id ls _ [] h rfl rfl (fun _ p => s.took_framed _ p), fun t ha ht => ?_⟩
  rw [h, runLine_accepts ha] at ht
  cases ht
  rw [State.replyLines_besideReply, State.took_besideReply]

/-- Taking a line changes the ports and whose turn it is, and nothing else. -/
theorem State.took_eq (s : State) (o : Origin) :
    ∃ d c k, s.took o = { s with dport := d, cport := c, desk := { s.desk with turnChute := k } } := by
  cases o with
  | order k => exact ⟨s.dport, s.cport, s.desk.turnChute, rfl⟩
  | port p => cases p <;> exact ⟨_, _, _, rfl⟩

/-- What a line does depends on its action only where the line has been taken. -/
theorem runLine_congr {f : Form} {l : Line} {s : State} {es : List Er} {a b : State → State}
    (h : a (s.took l.origin) = b (s.took l.origin)) : runLine f l s es a = runLine f l s es b := by
  unfold runLine; simp only [h]

/-! ## Settings -/

/-- Two states with the same ports and queued lines. -/
abbrev SamePorts (s t : State) : Prop := t.dport = s.dport ∧ t.cport = s.cport

theorem SamePorts.trans {a b c : State} (h : SamePorts a b) (k : SamePorts b c) : SamePorts a c :=
  ⟨k.1.trans h.1, k.2.trans h.2⟩

theorem State.touch_ports (s : State) (k : Nat) : SamePorts s (s.touch k) := by
  unfold State.touch
  (repeat' split) <;> exact ⟨rfl, rfl⟩

theorem State.applyRow_ports (s : State) (x : RowWhat) : SamePorts s (s.applyRow x) := by
  unfold State.applyRow
  cases x <;> first | exact ⟨rfl, rfl⟩ | exact s.touch_ports 8 | (simp only []; split <;> exact ⟨rfl, rfl⟩)

theorem State.rowWrite_ports (s : State) (r : RowWrite) : SamePorts s (s.rowWrite r) := by
  unfold State.rowWrite
  split
  · exact State.applyRow_ports s _
  · exact ⟨rfl, rfl⟩

theorem State.rowWrites_ports (s : State) (ws : List RowWhat) (n : Option Nat) : SamePorts s (s.rowWrites ws n) := by
  induction ws generalizing s with
  | nil => exact ⟨rfl, rfl⟩
  | cons x xs ih =>
    cases xs with
    | nil => exact State.rowWrite_ports s _
    | cons y ys => exact (State.rowWrite_ports s _).trans (ih _)

theorem State.save_ports (s : State) (rs : List CfgReg) : SamePorts s (s.save rs) := s.rowWrites_ports _ _

theorem State.cfgSets_ports (new : List (CfgReg × Word)) (s : State) :
    (new.foldl (fun s x => s.cfgSet x.1 x.2) s).dport = s.dport ∧ (new.foldl (fun s x => s.cfgSet x.1 x.2) s).cport = s.cport := by
  induction new generalizing s with
  | nil => exact ⟨rfl, rfl⟩
  | cons x xs ih => exact ih _

theorem State.settings_ports (s : State) (u : EdUnit) (new : List (CfgReg × Word)) (sv : List CfgReg) :
    (s.settings u new sv).dport = s.dport ∧ (s.settings u new sv).cport = s.cport := by
  have h1 : ∀ s1 : State, (s1.dport = s.dport ∧ s1.cport = s.cport) →
      ((if sv.isEmpty then s1 else s1.save sv).dport = s.dport ∧ (if sv.isEmpty then s1 else s1.save sv).cport = s.cport) := by
    intro s1 h
    split
    · exact h
    · exact ⟨(State.save_ports s1 sv).1.trans h.1, (State.save_ports s1 sv).2.trans h.2⟩
  unfold State.settings
  simp only []
  apply h1
  split
  · exact ⟨rfl, rfl⟩
  · exact State.cfgSets_ports new s

theorem State.settings_nil (s : State) (u : EdUnit) (sv : List CfgReg) :
    s.settings u [] sv = if sv.isEmpty then s else s.save sv := by
  simp [State.settings]

theorem State.settings_one (s : State) (u : EdUnit) (r : CfgReg) (v : Word) (sv : List CfgReg) :
    s.settings u [(r, v)] sv = (let s1 := if s.cfgGet r = v then s else (s.cfgSet r v).bump u
      if sv.isEmpty then s1 else s1.save sv) := by
  simp [State.settings]

/-- A line whose effect is a setting. -/
theorem runLine_settings {c : Instr} {s : State} {f : Form} {l : Line} {es : List Er} (u : EdUnit)
    (new : List (CfgReg × Word)) (sv : List CfgReg) (ls : State → List (List Tok))
    (h : exec c s = runLine f l s es (fun s => (s.settings u new sv).replyLines l (.reply true) false (ls (s.settings u new sv)))) :
    Answers c s f l es false (fun t => t.settings u new sv) ls :=
  runLine_answers false _ ls _ [] h (State.settings_ports _ _ _ _).1 (State.settings_ports _ _ _ _).2 (by simp)

end Sys2Proof.Machine
end

