-- ==== Sys2Proof/Laws/Canonical.lean ====
section
/-! SUPPORT. The operations that store octets keep the canonical form of the stores, and with it the part and the
queue. -/
namespace Sys2Proof.Machine

open Sys2Proof

set_option linter.unusedSimpArgs false

/-- The part and the queue are as before, and stores in canonical form stay so. -/
def Keeps (s t : State) : Prop := t.part = s.part ∧ t.pending = s.pending ∧ (s.memWf = true → t.memWf = true)

theorem Keeps.refl (s : State) : Keeps s s := ⟨rfl, rfl, id⟩

theorem Keeps.trans {a b c : State} (h : Keeps a b) (k : Keeps b c) : Keeps a c :=
  ⟨k.1.trans h.1, k.2.1.trans h.2.1, fun w => k.2.2 (h.2.2 w)⟩

theorem Fixed.keeps {s t : State} (h : Fixed s t) : Keeps s t := by
  obtain ⟨h1, h2, h3, h4, h5⟩ := h
  exact ⟨h1, h2, by simp [State.memWf, h3, h4, h5]⟩

/-- A change of the state beside the part, the queue and the stores. -/
theorem Keeps.of_eq {s t : State} (h1 : t.part = s.part) (h2 : t.pending = s.pending) (h3 : t.store = s.store) : Keeps s t :=
  Fixed.keeps ⟨h1, h2, by rw [h3], by rw [h3], by rw [h3]⟩

theorem Keeps.foldl {α : Type} (g : State → α → State) (h : ∀ s x, Keeps s (g s x)) (l : List α) (s : State) :
    Keeps s (l.foldl g s) := by
  induction l generalizing s with
  | nil => exact .refl s
  | cons x xs ih => exact (h s x).trans (ih _)

theorem State.applyRow_keeps (s : State) (x : RowWhat) : Keeps s (s.applyRow x) := by
  refine ⟨(State.applyRow_kept s x).1, (State.applyRow_kept s x).2, fun h => ?_⟩
  by_cases hx : x.plain = true
  · exact (State.applyRow_fixed s x hx).keeps.2.2 h
  · simp only [State.memWf, Bool.and_eq_true] at h ⊢
    cases x <;> simp [RowWhat.plain] at hx
    · exact ⟨⟨cellsWriteAll_wf _ _ _ h.1.1, h.1.2⟩, h.2⟩
    · exact ⟨⟨h.1.1, cellsPutAll_wf _ _ _ h.1.2⟩, h.2⟩

theorem State.beginRow_keeps (s : State) (r : RowWrite) (rest : List RowWrite) : Keeps s (s.beginRow r rest) :=
  (State.applyRow_keeps s r.what).trans (.of_eq rfl rfl rfl)

theorem State.rowWrite_keeps (s : State) (r : RowWrite) : Keeps s (s.rowWrite r) := by
  unfold State.rowWrite
  split
  · exact State.beginRow_keeps s r []
  · exact .of_eq rfl rfl rfl

theorem State.rowWrites_keeps (s : State) (ws : List RowWhat) (t : Option Nat) : Keeps s (s.rowWrites ws t) := by
  induction ws generalizing s with
  | nil => exact .refl s
  | cons x xs ih =>
    cases xs with
    | nil => exact State.rowWrite_keeps s _
    | cons y ys => exact (State.rowWrite_keeps s _).trans (ih _)

theorem State.ticketRows_keeps (s : State) (n : Nat) (ws : List RowWhat) (f : List Tok) : Keeps s (s.ticketRows n ws f) := by
  unfold State.ticketRows
  split
  · exact Fixed.keeps (by simp [Fixed])
  · exact Keeps.trans (Fixed.keeps (by simp [Fixed])) (State.rowWrites_keeps _ _ _)

theorem State.rowDone_keeps (s : State) : Keeps s s.rowDone.1 := by
  unfold State.rowDone
  split
  · exact .refl s
  · simp only []
    split
    · exact Fixed.keeps (by simp [Fixed])
    · exact Keeps.trans (Fixed.keeps (by simp [Fixed])) (State.beginRow_keeps _ _ _)

theorem State.flushRows_keeps (s : State) : Keeps s s.flushRows := Keeps.foldl _ (fun s _ => s.rowDone_keeps) _ s

theorem State.carrelWrite_keeps (s : State) (a : Nat) (o : List Byte) : Keeps s (s.carrelWrite a o) := by
  refine ⟨rfl, rfl, fun h => ?_⟩
  simp only [State.memWf, Bool.and_eq_true] at h ⊢
  exact ⟨h.1, cellsPutAll_wf _ _ _ h.2⟩

theorem State.writeElement_keeps (s : State) (x : PRun) (t : Target) (a : Nat) (o : List Byte) (r : State × PRun)
    (h : s.writeElement x t a o = some r) : Keeps s r.1 := by
  unfold State.writeElement at h
  cases t
  case carrel => simp only [Option.some.injEq] at h; subst h; exact State.carrelWrite_keeps _ _ _
  case shelf =>
    simp only [Option.some.injEq] at h; subst h
    refine ⟨rfl, rfl, fun h => ?_⟩
    simp only [State.memWf, Bool.and_eq_true] at h ⊢
    exact ⟨⟨h.1.1, cellsPutAll_wf _ _ _ h.1.2⟩, h.2⟩
  case txWindow => simp only [Option.some.injEq] at h; subst h; exact Fixed.keeps (by simp [Fixed])
  case port => simp only [Option.some.injEq] at h; subst h; exact Fixed.keeps (by simp [Fixed])
  case fifo => simp at h; obtain ⟨_, h⟩ := h; subst h; exact .refl s
  all_goals simp at h

theorem State.moveElement_keeps (s : State) (n : Nat) (x : PRun) (sl : Slip) (src dst : Nat) :
    Keeps s (s.moveElement n x sl src dst) := by
  unfold State.moveElement
  split
  · exact Fixed.keeps (by simp [Fixed])
  · rename_i h
    have h1 := (State.readElement_fixed _ _ _ _ _ _ _ h).keeps
    split
    · exact Fixed.keeps (by simp [Fixed])
    · rename_i h2
      have h3 := h1.trans (State.writeElement_keeps _ _ _ _ _ _ h2)
      simp only []
      (repeat' split) <;> exact h3.trans (Fixed.keeps (by simp [Fixed]))

theorem State.startPart_keeps (s : State) (n kib pmax : Nat) (refuse : Bool) : Keeps s (s.startPart n kib pmax refuse) := by
  unfold State.startPart
  refine Keeps.trans (Keeps.trans (b := _) ?_ (State.bump_fixed _ _).keeps) (State.ticketRows_fixed _ _ _ _ rfl).keeps
  refine ⟨rfl, rfl, fun h => ?_⟩
  simp only [State.memWf, Bool.and_eq_true] at h ⊢
  exact ⟨⟨h.1.1, Memory.wf_filter _ _ _ h.1.2⟩, h.2⟩

theorem State.startRecordWrite_keeps (s : State) (n a : Nat) (o : List Byte) : Keeps s (s.startRecordWrite n a o) :=
  State.ticketRows_keeps _ _ _ _

theorem State.startStacksWrite_keeps (s : State) (n a : Nat) (o : List Byte) : Keeps s (s.startStacksWrite n a o) := by
  unfold State.startStacksWrite
  split
  · exact Fixed.keeps (by simp [Fixed])
  · exact State.ticketRows_keeps _ _ _ _

theorem State.startArchAdd_keeps (s : State) (n kind : Nat) (data : List Byte) (src : Option (Nat × Nat)) :
    Keeps s (s.startArchAdd n kind data src) := by
  unfold State.startArchAdd
  split
  · exact .refl s
  · extract_lets o s1 e q r s2
    have h1 : Fixed s s1 := by simp only [s1]; split <;> simp [Fixed]
    have h2 : Fixed s1 s2 := ⟨rfl, rfl, rfl, rfl, rfl⟩
    refine h1.keeps.trans ?_
    split
    · exact Fixed.keeps (by simp [Fixed])
    · split
      · exact Fixed.keeps (by simp [Fixed])
      · exact h2.keeps.trans (State.ticketRows_keeps _ _ _ _)

theorem State.startMark_keeps (s : State) (n : Nat) (range list : Option (Nat × Nat)) (a b : Nat) :
    Keeps s (s.startMark n range list a b) := by
  unfold State.startMark
  split
  · exact .refl s
  · refine Keeps.trans (Fixed.keeps ?_) (State.ticketRows_keeps _ _ _ _)
    split <;> simp [Fixed]

theorem State.startOp_keeps (s : State) (n : Nat) (op : TicketOp) : Keeps s (s.startOp n op) := by
  cases op
  case recordWrite => exact State.startRecordWrite_keeps _ _ _ _
  case stacksPart => exact State.startPart_keeps _ _ _ _ _
  case stacksWrite => exact State.startStacksWrite_keeps _ _ _ _
  case archAdd => exact State.startArchAdd_keeps _ _ _ _ _
  case archMark => exact State.startMark_keeps _ _ _ _ _ _
  all_goals exact Fixed.keeps (by simp [State.startOp, Fixed])

theorem State.tryStart_start_keeps (s : State) (t : Ticket) : Keeps s (State.tryStart.start s t) :=
  Keeps.trans (Fixed.keeps (by simp [Fixed])) (State.startOp_keeps _ _ _)

theorem State.tryStart_keeps (s : State) (t : Ticket) : Keeps s (s.tryStart t) := by
  have hs : Keeps s (State.tryStart.start (s.headed t) t) :=
    (State.headed_fixed s t).keeps.trans (State.tryStart_start_keeps _ _)
  have hg : Keeps s (State.tryStart.go s t) := by
    unfold State.tryStart.go
    simp only []
    (repeat' split) <;> first | exact hs | exact Fixed.keeps (by simp [Fixed])
  unfold State.tryStart
  (repeat' split) <;> first | exact hg | exact Fixed.keeps (by simp [Fixed])

theorem State.dueGo_keeps (s : State) (b : Bool) (d : Nat × Nat × Nat) : Keeps s (s.dueGo b d) := by
  unfold State.dueGo
  (repeat' split) <;> first | exact State.tryStart_keeps _ _ | exact Fixed.keeps (by simp [Fixed])

theorem State.dueAll_keeps (s : State) (b : Bool) : Keeps s (s.dueAll b) := Keeps.foldl _ (fun s d => s.dueGo_keeps b d) _ s

theorem State.dueNow_keeps (s : State) : Keeps s s.dueNow :=
  (State.dueAll_keeps s _).trans (State.settled_fixed _ _).keeps

theorem State.sourceRun_keeps (s : State) (x : WakeSource) (b : Bool) : Keeps s (s.sourceRun x b) := by
  unfold State.sourceRun
  split <;> first | exact State.dueAll_keeps _ _ | exact Fixed.keeps (by simp [Fixed])

theorem State.abortEntry_keeps (s : State) (x : WakeSource) (b : Bool) : Keeps s (s.abortEntry x b) :=
  Keeps.trans (Fixed.keeps (by simp [Fixed])) (State.sourceRun_keeps _ _ _)

theorem State.logicActions_keeps (s : State) : Keeps s s.logicActions := by
  unfold State.logicActions
  extract_lets p gone loss fresh a0 d0 t0 a1 a2 a3 a4 a5 a6 a7
  have h1 : Keeps s a1 := by
    refine ⟨by simp [a1, a0], by simp [a1, a0], fun h => ?_⟩
    simp only [State.memWf, Bool.and_eq_true] at h ⊢
    simp only [a1, a0, t0, State.bump_fixed]
    exact ⟨h.1, Memory.wf_filter _ _ _ h.2⟩
  have h2 : Keeps a1 a2 := (State.alsoAlarm_fixed _).keeps.trans (State.dueAll_keeps _ _)
  have h3 : Fixed a2 a3 := by simp only [a3]; split <;> simp [Fixed]
  have h4 : Fixed a3 a4 := by simp only [a4]; split <;> simp [Fixed]
  have h5 : Fixed a4 a5 := by simp only [a5]; split <;> simp [Fixed]
  have h6 : Fixed a5 a6 := by simp only [a6]; split <;> simp [Fixed]
  have h7 : Fixed a6 a7 := by simp only [a7]; split <;> simp [Fixed]
  have h8 : Fixed a7 ((a7.sswWake.overdueAll).settled s).attnFollow := by simp [Fixed]
  exact h1.trans (h2.trans (Fixed.keeps (h3.trans (h4.trans (h5.trans (h6.trans (h7.trans h8)))))))

theorem State.quietFull_keeps (s : State) (c : Nat) : Keeps s (s.quietFull c) := by
  unfold State.quietFull
  refine Keeps.trans (Fixed.keeps ?_) (State.logicActions_keeps _)
  simp [Fixed]

theorem State.wakeSource_keeps (s : State) (x : WakeSource) (b : Bool) : Keeps s (s.wakeSource x b) := by
  unfold State.wakeSource
  extract_lets c q s1 p edge first
  have h0 : Fixed s s1 := by simp only [s1]; split <;> simp [Fixed]
  refine h0.keeps.trans ?_
  split
  · exact .refl _
  · split
    · exact State.abortEntry_keeps _ _ _
    · exact Keeps.trans (Fixed.keeps (by simp [Fixed])) (State.quietFull_keeps _ _)
    · exact Fixed.keeps (by simp [first, Fixed])
    · split
      · exact Keeps.trans (Fixed.keeps (by simp [Fixed])) (State.quietFull_keeps _ _)
      · exact Fixed.keeps (by simp [first, Fixed])
    · split
      · refine Keeps.trans ?_ (State.sourceRun_keeps _ _ _)
        exact .of_eq rfl rfl rfl
      · exact .of_eq rfl rfl rfl
    · exact .refl _

theorem State.resetCore_keeps (s : State) (c : Cause) (a st : Nat) (h : Hold) : Keeps s (s.resetCore c a st h) := by
  refine ⟨rfl, rfl, fun w => ?_⟩
  simp only [State.memWf, Bool.and_eq_true] at w ⊢
  exact ⟨w.1, rfl⟩

theorem State.takeReset_keeps (s : State) (c : Cause) (st : Nat) (h : Hold) : Keeps s (s.takeReset c st h) := by
  unfold State.takeReset
  simp only []
  (repeat' split) <;> exact State.resetCore_keeps _ _ _ _ _

theorem State.wakeLateReset_keeps (s : State) (st : Nat) : Keeps s (s.wakeLateReset st) :=
  Keeps.trans (Fixed.keeps (by simp [Fixed])) (State.takeReset_keeps _ _ _ _)

theorem State.tamperWakes_keeps (s : State) (f : State → State) (h : ∀ s, Fixed s (f s)) : Keeps s (s.tamperWakes f) := by
  unfold State.tamperWakes
  simp only []
  split
  · exact (h s).keeps
  · split
    · rename_i hx _ _ _
      have h1 : Keeps s { s with tamper := { s.tamper with owed := (f s).tamper.owed } } := .of_eq rfl rfl rfl
      have h2 := h1.trans (State.wakeSource_keeps _ .tamper true)
      exact h2.trans (Keeps.trans (.of_eq rfl rfl rfl) (h _).keeps)
    · exact (h s).keeps.trans (State.wakeSource_keeps _ _ _)

end Sys2Proof.Machine
end

