-- ==== Sys2Proof/Laws/Firing.lean ====
section
/-! SUPPORT. What firing an event does: the frame of `fire` and of the operations it calls, and the pending bit that it
sets. -/
namespace Sys2Proof.Machine

open Sys2Proof

@[simp] theorem vset_vset {α : Type} {n : Nat} (v : Vector α n) (i : Nat) (x y : α) : vset (vset v i x) i y = vset v i y := by
  apply Vector.ext
  intro j hj
  simp only [vset, Vector.getElem_setIfInBounds]
  split <;> rfl

theorem State.besideEvents_of_reply {s t : State} (h : t.besideReply = s.besideReply) : t.besideEvents = s.besideEvents := by
  have e : ∀ x : State, x.besideEvents = x.besideReply.besideEvents := fun _ => rfl
  rw [e t, h, ← e s]

theorem State.besideTickets_of_events {s t : State} (h : t.besideEvents = s.besideEvents) : t.besideTickets = s.besideTickets := by
  unfold State.besideTickets
  rw [h]

theorem State.release_besideEvents (s : State) (m : Word) : (s.release m).besideEvents = s.besideEvents := rfl

theorem State.padFollow_besideEvents (s : State) : s.padFollow.besideEvents = s.besideEvents := by
  unfold State.padFollow
  split
  · rfl
  · exact s.release_besideEvents _

theorem State.attnFollow_besideEvents (s : State) : s.attnFollow.besideEvents = s.besideEvents := by
  rw [← s.padFollow_besideEvents]
  unfold State.attnFollow
  simp only []
  (repeat' split) <;> rfl

theorem State.push_besideEvents (s : State) (p : Port) (l : OutLine) : (s.push p l).besideEvents = s.besideEvents :=
  State.besideEvents_of_reply (s.push_besideReply p l)

theorem State.pushEv_besideEvents (s : State) (p : Port) (n : Nat) (l : OutLine) :
    (s.pushEv p n l).besideEvents = s.besideEvents := by
  unfold State.pushEv
  split
  · rfl
  · split
    · exact s.push_besideEvents p l
    · cases p <;> simp only [] <;> split <;> rfl

theorem State.fireCore_besideEvents (s : State) (n : Nat) (fs : List Tok) : (s.fireCore n fs).besideEvents = s.besideEvents := by
  unfold State.fireCore
  split
  · rfl
  · simp only []
    rw [State.attnFollow_besideEvents]
    split
    · rfl
    · split
      · rfl
      · rw [State.pushEv_besideEvents, State.pushEv_besideEvents]; rfl

theorem State.bumpOrders_besideEvents (s : State) : (s.bump .orders).besideEvents = s.besideEvents := by
  simp [State.bump, State.besideEvents]

theorem State.startOrder_besideEvents (s : State) (k : Nat) (x : OrderSlot) (rt : Option Nat) (b : Bool) :
    (s.startOrder k x rt b).besideEvents = s.besideEvents := rfl

theorem State.triggerCore_besideEvents (s : State) (k : Nat) (rt : Option Nat) (b : Bool) :
    (s.triggerCore k rt b).besideEvents = s.besideEvents := by
  unfold State.triggerCore
  split
  · rfl
  · rfl
  · split
    · rw [State.bumpOrders_besideEvents, State.startOrder_besideEvents]
    · rfl

theorem State.eventTriggers_besideEvents (s : State) (n : Nat) : (s.eventTriggers n).1.besideEvents = s.besideEvents := by
  have aux : ∀ (ks : List Nat) (a : State × List (Nat × String)),
      (ks.foldl (fun acc k => (acc.1.triggerCore k none false,
        match acc.1.missWhy k with | some y => acc.2 ++ [(k, y)] | none => acc.2)) a).1.besideEvents = a.1.besideEvents := by
    intro ks
    induction ks with
    | nil => intro a; rfl
    | cons k ks ih => intro a; simp only [List.foldl_cons]; rw [ih]; exact a.1.triggerCore_besideEvents _ _ _
  exact aux _ _

theorem State.fireMissed_besideEvents (s : State) (ms : List (Nat × String)) : (s.fireMissed ms).besideEvents = s.besideEvents := by
  unfold State.fireMissed
  split
  · rfl
  · rw [State.eventTriggers_besideEvents, State.fireCore_besideEvents]

theorem State.fire_besideEvents (s : State) (n : Nat) (fs : List Tok) : (s.fire n fs).besideEvents = s.besideEvents := by
  unfold State.fire
  split
  · split
    · simp only []
      rw [State.fireMissed_besideEvents, State.eventTriggers_besideEvents, State.fireCore_besideEvents]
    · simp only []
      rw [State.fireCore_besideEvents, State.fireMissed_besideEvents, State.eventTriggers_besideEvents]
  · rfl

theorem State.clearPend_besideEvents (s : State) (m : BitVec 128) : (s.clearPend m).besideEvents = s.besideEvents := by
  unfold State.clearPend
  rw [State.attnFollow_besideEvents]; rfl

theorem State.triggerOrder_besideEvents (s : State) (k : Nat) (rt : Option Nat) (b : Bool) :
    (s.triggerOrder k rt b).besideEvents = s.besideEvents := by
  unfold State.triggerOrder
  simp only []
  split
  · rw [State.fireMissed_besideEvents, State.triggerCore_besideEvents]
  · exact s.triggerCore_besideEvents _ _ _

/-! ## Pending bits -/

theorem State.attnFollow_pend (s : State) : s.attnFollow.events.pend = s.events.pend := by
  have h : s.padFollow.events = s.events := by unfold State.padFollow; split <;> rfl
  unfold State.attnFollow
  simp only []
  (repeat' split) <;> simp [h]

theorem State.push_pend (s : State) (p : Port) (l : OutLine) : (s.push p l).events.pend = s.events.pend := by
  cases p <;> unfold State.push <;> simp only [] <;> split <;> rfl

theorem State.pushEv_pend (s : State) (p : Port) (n : Nat) (l : OutLine) : (s.pushEv p n l).events.pend = s.events.pend := by
  unfold State.pushEv
  split
  · rfl
  · split
    · exact s.push_pend p l
    · cases p <;> simp only [] <;> split <;> rfl

theorem State.fireCore_pend (s : State) (n : Nat) (fs : List Tok) (h : s.eventPresent n = true) :
    (s.fireCore n fs).events.pend = s.events.pend ||| ((1 : BitVec 128) <<< n) := by
  unfold State.fireCore
  simp only [h, Bool.not_true, Bool.false_eq_true, ↓reduceIte]
  rw [State.attnFollow_pend]
  split
  · rfl
  · split
    · rfl
    · rw [State.pushEv_pend, State.pushEv_pend]

/-- No pending bit is lost. -/
def State.PendLe (s t : State) : Prop := ∀ i, s.events.pend.getLsbD i = true → t.events.pend.getLsbD i = true

theorem State.PendLe.refl (s : State) : s.PendLe s := fun _ h => h
theorem State.PendLe.trans {a b c : State} (h : a.PendLe b) (k : b.PendLe c) : a.PendLe c := fun i x => k i (h i x)
theorem State.PendLe.of_eq {s t : State} (h : t.events.pend = s.events.pend) : s.PendLe t := fun i x => by rw [h]; exact x

theorem State.fireCore_pendLe (s : State) (n : Nat) (fs : List Tok) : s.PendLe (s.fireCore n fs) := by
  by_cases h : s.eventPresent n = true
  · intro i hi
    rw [State.fireCore_pend s n fs h]
    simp [hi]
  · exact .of_eq (by unfold State.fireCore; simp [h])

theorem State.triggerCore_pend (s : State) (k : Nat) (rt : Option Nat) (b : Bool) :
    (s.triggerCore k rt b).events.pend = s.events.pend := by
  unfold State.triggerCore
  split
  · rfl
  · rfl
  · split <;> rfl

theorem State.eventTriggers_pend (s : State) (n : Nat) : (s.eventTriggers n).1.events.pend = s.events.pend := by
  have aux : ∀ (ks : List Nat) (a : State × List (Nat × String)),
      (ks.foldl (fun acc k => (acc.1.triggerCore k none false,
        match acc.1.missWhy k with | some y => acc.2 ++ [(k, y)] | none => acc.2)) a).1.events.pend = a.1.events.pend := by
    intro ks
    induction ks with
    | nil => intro a; rfl
    | cons k ks ih => intro a; simp only [List.foldl_cons]; rw [ih]; exact a.1.triggerCore_pend _ _ _
  exact aux _ _

theorem State.fireMissed_pendLe (s : State) (ms : List (Nat × String)) : s.PendLe (s.fireMissed ms) := by
  unfold State.fireMissed
  split
  · exact .refl s
  · exact (s.fireCore_pendLe _ _).trans (.of_eq (State.eventTriggers_pend _ _))

theorem State.fire_pendLe (s : State) (n : Nat) (fs : List Tok) : s.PendLe (s.fire n fs) := by
  unfold State.fire
  split
  · split
    · exact ((s.fireCore_pendLe _ _).trans (.of_eq (State.eventTriggers_pend _ _))).trans (State.fireMissed_pendLe _ _)
    · exact (State.PendLe.trans (.of_eq (State.eventTriggers_pend _ _)) (State.fireMissed_pendLe _ _)).trans
        (State.fireCore_pendLe _ _ _)
  · exact .refl s

theorem State.eventPresent_of_part {s t : State} {n : Nat} (h : t.part = s.part) : t.eventPresent n = s.eventPresent n := by
  simp only [State.eventPresent, State.has, h]

/-- An event that fires is pending. -/
theorem State.fire_pends (s : State) (n : Nat) (fs : List Tok) (hp : s.eventPresent n = true) (hq : s.quiet = false)
    (hn : n < 128) : (s.fire n fs).events.pend.getLsbD n = true := by
  unfold State.fire
  simp only [hp, hq, Bool.not_false, Bool.and_self, ↓reduceIte]
  split
  · refine State.fireMissed_pendLe _ _ n ?_
    rw [State.eventTriggers_pend, State.fireCore_pend s n fs hp]
    simp [hn]
  · rw [State.fireCore_pend _ n fs ((State.eventPresent_of_part (s := s) (by simp)).trans hp)]
    simp [hn]

end Sys2Proof.Machine
end

