-- ==== Sys2Proof/Laws/Completing.lean ====
section
/-! SUPPORT. What completing a ticket does: its frame, what becomes of the ticket, and that firing events leaves the pool
alone. -/
namespace Sys2Proof.Machine

open Sys2Proof

/-! ## The frame -/

theorem State.push_besideTickets (s : State) (p : Port) (l : OutLine) : (s.push p l).besideTickets = s.besideTickets :=
  State.besideTickets_of_events (s.push_besideEvents p l)

theorem State.fire_besideTickets (s : State) (n : Nat) (fs : List Tok) : (s.fire n fs).besideTickets = s.besideTickets :=
  State.besideTickets_of_events (s.fire_besideEvents n fs)

theorem State.bumpOrders_besideTickets (s : State) : (s.bump .orders).besideTickets = s.besideTickets :=
  State.besideTickets_of_events s.bumpOrders_besideEvents

theorem State.freeTicket_besideTickets (s : State) (n : Nat) : (s.freeTicket n).besideTickets = s.besideTickets := by
  unfold State.freeTicket
  split <;> rfl

theorem State.pool_besideTickets (s : State) (a : TicketsSt) (b : LinkSt) (c : PwrSt)
    (hb : { b with lastPoll := (0, false, 0) } = { s.link with lastPoll := (0, false, 0) })
    (hc : { c with idleSince := 0 } = { s.pwr with idleSince := 0 }) :
    State.besideTickets { s with tickets := a, link := b, pwr := c } = s.besideTickets := by
  simp [State.besideTickets, State.besideEvents, hb, hc]

theorem State.markDone_besideTickets (s : State) (t : Ticket) (r : Result) (fs : List Tok) (b : List Byte) :
    (s.markDone t r fs b).besideTickets = s.besideTickets := by
  unfold State.markDone
  extract_lets s1
  have h1 : s1.besideTickets = s.besideTickets := rfl
  rw [← h1]
  refine State.pool_besideTickets s1 _ _ _ ?_ rfl
  split <;> rfl

theorem State.fireDone_besideTickets (s : State) (t : Ticket) (r : Result) : (s.fireDone t r).besideTickets = s.besideTickets := by
  unfold State.fireDone
  split
  · exact s.fire_besideTickets _ _
  · rfl

theorem State.fireFail_besideTickets (s : State) (t : Ticket) (r : Result) : (s.fireFail t r).besideTickets = s.besideTickets := by
  unfold State.fireFail
  split
  · rfl
  · exact s.fire_besideTickets _ _

theorem State.deliver_besideTickets (s : State) (t : Ticket) (r : Result) (fs : List Tok) (b : List Byte) :
    (s.deliver t r fs b).besideTickets = s.besideTickets := by
  unfold State.deliver
  split
  · exact s.push_besideTickets _ _
  · exact s.freeTicket_besideTickets _

theorem State.completeCore_besideTickets (s : State) (n : Nat) (r : Result) (fs : List Tok) (b : List Byte) (z : Fired) :
    (s.completeCore n r fs b z).besideTickets = s.besideTickets := by
  unfold State.completeCore
  split
  · rfl
  · split
    · rfl
    · simp only []
      rw [State.deliver_besideTickets]
      (repeat' split) <;>
        simp only [State.fireFail_besideTickets, State.fireDone_besideTickets, State.markDone_besideTickets]

/-- What a cycle leaves differs from what it did by the order of lines, and by the edition that is left out. -/
theorem State.settled_besideTickets {s t : State} (h : t.besideTickets = s.besideTickets) :
    (t.settled s).besideTickets = s.besideTickets := by
  rw [← h]
  have he : vset t.ed EdUnit.orders.index 0 = vset s.ed EdUnit.orders.index 0 := congrArg (·.ed) h
  have hed : vset (t.settled s).ed EdUnit.orders.index 0 = vset t.ed EdUnit.orders.index 0 := by
    apply Vector.ext
    intro i hi
    have hi' := congrArg (fun v : Vector (BitVec 16) 22 => v[i]) he
    simp only [vset, Vector.getElem_setIfInBounds, State.settled] at hi' ⊢
    split
    · rfl
    · rename_i hne
      rw [if_neg hne, if_neg hne] at hi'
      simp [vget, hi']
  have e : ∀ x y : State, x.besideTickets = { y.besideTickets with ed := vset x.ed EdUnit.orders.index 0 } →
      vset x.ed EdUnit.orders.index 0 = y.besideTickets.ed → x.besideTickets = y.besideTickets := by
    intro x y h1 h2
    rw [h1, h2]
  exact e _ _ rfl hed

theorem State.startPending_besideTickets (s : State) : s.startPending.besideTickets = s.besideTickets := by
  unfold State.startPending
  split
  · rfl
  · simp only []
    split <;> rfl

theorem State.orderEnd_besideTickets (s : State) (r : OrderResult) (z : Fired) :
    (s.orderEnd r z).besideTickets = s.besideTickets := by
  unfold State.orderEnd
  split
  · rfl
  · rename_i x _
    extract_lets line code o l pw s1 s2 s3 s4
    have h2 : s2.besideTickets = s.besideTickets := by
      simp only [s2]
      split <;> rw [State.fire_besideTickets] <;> rfl
    have h3 : s3.besideTickets = s.besideTickets := by
      simp only [s3]
      split
      · exact h2
      · rw [State.bumpOrders_besideTickets, State.startPending_besideTickets]; exact h2
    have h4 : s4.besideTickets = s.besideTickets := by
      simp only [s4]
      (repeat' split) <;> first | exact h3 | (rw [State.completeCore_besideTickets]; exact h3)
    exact State.settled_besideTickets h4

theorem State.orderLineDone_besideTickets (s : State) (e : Option Nat) (z : Fired) :
    (s.orderLineDone e z).besideTickets = s.besideTickets := by
  unfold State.orderLineDone
  split
  · rfl
  · simp only []
    (repeat' split) <;> simp only [State.orderEnd_besideTickets] <;> rfl

theorem State.lineAfter_besideTickets (s : State) (n : Nat) (r : Result) (z : Fired) :
    (s.lineAfter n r z).besideTickets = s.besideTickets := by
  unfold State.lineAfter
  split
  · exact s.orderLineDone_besideTickets _ _
  · rfl

theorem State.complete_besideTickets (s : State) (n : Nat) (r : Result) (fs : List Tok) (b : List Byte) :
    (s.complete n r fs b).besideTickets = s.besideTickets := by
  unfold State.complete
  apply State.settled_besideTickets
  split
  · rw [State.lineAfter_besideTickets, State.completeCore_besideTickets]
  · exact s.completeCore_besideTickets n r fs b _

theorem State.completeRunning_besideTickets (s : State) (q : Queue) (r : Result) (fs : List Tok) :
    (s.completeRunning q r fs).besideTickets = s.besideTickets := by
  unfold State.completeRunning
  split
  · rfl
  · exact s.complete_besideTickets _ _ _ _

/-! ## The pool under other operations -/

theorem State.padFollow_tickets (s : State) : s.padFollow.tickets = s.tickets := by
  unfold State.padFollow; split <;> rfl

theorem State.attnFollow_tickets (s : State) : s.attnFollow.tickets = s.tickets := by
  unfold State.attnFollow
  simp only []
  (repeat' split) <;> simp [s.padFollow_tickets]

theorem State.push_tickets (s : State) (p : Port) (l : OutLine) : (s.push p l).tickets = s.tickets := by
  cases p <;> unfold State.push <;> simp only [] <;> split <;> rfl

theorem State.pushEv_tickets (s : State) (p : Port) (n : Nat) (l : OutLine) : (s.pushEv p n l).tickets = s.tickets := by
  unfold State.pushEv
  split
  · rfl
  · split
    · exact s.push_tickets p l
    · cases p <;> simp only [] <;> split <;> rfl

theorem State.fireCore_tickets (s : State) (n : Nat) (fs : List Tok) : (s.fireCore n fs).tickets = s.tickets := by
  unfold State.fireCore
  split
  · rfl
  · simp only []
    rw [State.attnFollow_tickets]
    split
    · rfl
    · split
      · rfl
      · rw [State.pushEv_tickets, State.pushEv_tickets]

theorem State.triggerCore_tickets (s : State) (k : Nat) (rt : Option Nat) (b : Bool) :
    (s.triggerCore k rt b).tickets = s.tickets := by
  unfold State.triggerCore
  split
  · rfl
  · rfl
  · split <;> rfl

theorem State.eventTriggers_tickets (s : State) (n : Nat) : (s.eventTriggers n).1.tickets = s.tickets := by
  have aux : ∀ (ks : List Nat) (a : State × List (Nat × String)),
      (ks.foldl (fun acc k => (acc.1.triggerCore k none false,
        match acc.1.missWhy k with | some y => acc.2 ++ [(k, y)] | none => acc.2)) a).1.tickets = a.1.tickets := by
    intro ks
    induction ks with
    | nil => intro a; rfl
    | cons k ks ih => intro a; simp only [List.foldl_cons]; rw [ih]; exact a.1.triggerCore_tickets _ _ _
  exact aux _ _

theorem State.fireMissed_tickets (s : State) (ms : List (Nat × String)) : (s.fireMissed ms).tickets = s.tickets := by
  unfold State.fireMissed
  split
  · rfl
  · rw [State.eventTriggers_tickets, State.fireCore_tickets]

/-- Firing an event leaves the pool alone. -/
@[simp] theorem State.fire_tickets (s : State) (n : Nat) (fs : List Tok) : (s.fire n fs).tickets = s.tickets := by
  unfold State.fire
  split
  · split
    · simp only []
      rw [State.fireMissed_tickets, State.eventTriggers_tickets, State.fireCore_tickets]
    · simp only []
      rw [State.fireCore_tickets, State.fireMissed_tickets, State.eventTriggers_tickets]
  · rfl

theorem State.fireDone_tickets (s : State) (t : Ticket) (r : Result) : (s.fireDone t r).tickets = s.tickets := by
  unfold State.fireDone
  split
  · exact s.fire_tickets _ _
  · rfl

theorem State.fireFail_tickets (s : State) (t : Ticket) (r : Result) : (s.fireFail t r).tickets = s.tickets := by
  unfold State.fireFail
  split
  · rfl
  · exact s.fire_tickets _ _

/-- A cycle's end leaves the pool alone. -/
@[simp] theorem State.settled_tickets (t s : State) : (t.settled s).tickets = t.tickets := rfl

/-! ## The ticket that completes -/

theorem find_map_ticket (f : Ticket → Ticket) (hf : ∀ t, (f t).n = t.n) (n m : Nat) (l : List Ticket) :
    (l.map (fun t => if t.n = n then f t else t)).find? (fun t => t.n == m) =
      (l.find? (fun t => t.n == m)).map (fun t => if t.n = n then f t else t) := by
  induction l with
  | nil => rfl
  | cons x xs ih =>
    have hx : (if x.n = n then f x else x).n = x.n := by split <;> simp [hf]
    simp only [List.map_cons, List.find?_cons, hx]
    cases h : x.n == m
    · exact ih
    · rfl

theorem State.ticket_updTicket (s : State) (n m : Nat) (f : Ticket → Ticket) (hf : ∀ t, (f t).n = t.n) :
    (s.updTicket n f).ticket? m = (s.ticket? m).map (fun t => if t.n = n then f t else t) :=
  find_map_ticket f hf n m s.tickets.pool

theorem State.ticket_n {s : State} {n : Nat} {x : Ticket} (h : s.ticket? n = some x) : x.n = n := by
  have := List.find?_some h
  simpa using this

theorem State.freeTicket_ticket (s : State) (n : Nat) : (s.freeTicket n).ticket? n = none := by
  unfold State.freeTicket
  split
  · rename_i h; exact h
  · simp [State.ticket?]

theorem State.freeTicket_past (s : State) (n : Nat) (x : Ticket) (h : s.ticket? n = some x) :
    ((s.freeTicket n).past? n).map (·.result) = some x.result := by
  unfold State.freeTicket
  simp [h, State.past?]

theorem State.ticket_of_tickets {s t : State} (h : t.tickets = s.tickets) (n : Nat) : t.ticket? n = s.ticket? n := by
  unfold State.ticket?; rw [h]

theorem State.past_of_tickets {s t : State} (h : t.tickets = s.tickets) (n : Nat) : t.past? n = s.past? n := by
  unfold State.past?; rw [h]

/-- The state of `completeCore` before the events and the ticket's end. -/
theorem State.completeCore_spec (s : State) (x : Ticket) (r : Result) (fs : List Tok) (b : List Byte)
    (hx : s.ticket? x.n = some x) (hl : x.live = true) :
    match x.owner with
    | .host _ => (s.completeCore x.n r fs b).ticket? x.n = some { x with
        st := .complete, result := some r, fields := fs ++ [edTok s (queueUnit x.queue)], block := b,
        doneAt := s.day.cyc, doneSeq := s.tickets.seq }
    | _ => (s.completeCore x.n r fs b).ticket? x.n = none ∧
        ((s.completeCore x.n r fs b).past? x.n).map (·.result) = some (some r) := by
  have hu := s.ticket_updTicket x.n x.n (fun t => { t with
      st := .complete, result := some r, fields := fs ++ [edTok s (queueUnit x.queue)], block := b,
      doneAt := s.day.cyc, doneSeq := s.tickets.seq }) (fun _ => rfl)
  rw [hx] at hu
  simp only [Option.map_some, ↓reduceIte] at hu
  have hm : (((s.markDone x r (fs ++ [edTok s (queueUnit x.queue)]) b).fireDone x r).fireFail x r).ticket? x.n = some { x with
      st := .complete, result := some r, fields := fs ++ [edTok s (queueUnit x.queue)], block := b,
      doneAt := s.day.cyc, doneSeq := s.tickets.seq } := by
    rw [State.ticket_of_tickets (State.fireFail_tickets _ _ _), State.ticket_of_tickets (State.fireDone_tickets _ _ _)]
    exact hu
  unfold State.completeCore State.deliver
  simp only [hx, hl, Bool.not_true, Bool.false_eq_true, ↓reduceIte]
  cases ho : x.owner with
  | host p =>
    simp only []
    rw [State.ticket_of_tickets (State.push_tickets _ _ _)]
    simpa [ho] using hm
  | order k => exact ⟨State.freeTicket_ticket _ _, State.freeTicket_past _ _ _ hm⟩
  | link => exact ⟨State.freeTicket_ticket _ _, State.freeTicket_past _ _ _ hm⟩

/-- A number that is free, and what it keeps, stay so while other tickets complete. -/
theorem State.updTicket_free {s : State} {n : Nat} (hn : s.ticket? n = none) (m : Nat) (f : Ticket → Ticket)
    (hf : ∀ t, (f t).n = t.n) : (s.updTicket m f).ticket? n = none := by
  rw [State.ticket_updTicket s m n f hf, hn]; rfl

theorem State.freeTicket_free {s : State} {n : Nat} (hn : s.ticket? n = none) (m : Nat) :
    (s.freeTicket m).ticket? n = none ∧ (n ≠ m → (s.freeTicket m).past? n = s.past? n) := by
  unfold State.freeTicket
  split
  · exact ⟨hn, fun _ => rfl⟩
  · refine ⟨?_, fun hnm => ?_⟩
    · unfold State.ticket? at hn ⊢
      simp only [List.find?_eq_none] at hn ⊢
      intro z hz
      exact hn z (List.mem_of_mem_filter hz)
    · unfold State.past?
      have h1 : (m == n) = false := by simp; omega
      simp only [List.find?_cons, h1, List.find?_filter]
      congr 1
      funext p
      by_cases hp : p.n = n
      · subst hp; simp; omega
      · simp [hp]

/-- A number that is free, and what it keeps, stay so while other tickets complete. -/
theorem State.completeCore_free (s : State) (m : Nat) (r : Result) (fs : List Tok) (b : List Byte) (z : Fired) (n : Nat)
    (hn : s.ticket? n = none) :
    (s.completeCore m r fs b z).ticket? n = none ∧ (s.completeCore m r fs b z).past? n = s.past? n := by
  unfold State.completeCore
  split
  · exact ⟨hn, rfl⟩
  · rename_i t ht
    split
    · exact ⟨hn, rfl⟩
    · have hnm : n ≠ t.n := by rw [State.ticket_n ht]; rintro rfl; rw [hn] at ht; cases ht
      extract_lets fs1 s1 s2 s3
      have h1 : s1.ticket? n = none ∧ s1.past? n = s.past? n := ⟨State.updTicket_free hn _ _ (fun _ => rfl), rfl⟩
      have h2 : s2.tickets = s1.tickets := by
        simp only [s2]
        split
        · rfl
        · exact State.fireDone_tickets _ _ _
      have h3 : s3.tickets = s1.tickets := by
        rw [← h2]
        simp only [s3]
        split
        · rfl
        · exact State.fireFail_tickets _ _ _
      have h4 : s3.ticket? n = none ∧ s3.past? n = s.past? n := by
        rw [State.ticket_of_tickets h3, State.past_of_tickets h3]; exact h1
      unfold State.deliver
      split
      · rw [State.ticket_of_tickets (State.push_tickets _ _ _), State.past_of_tickets (State.push_tickets _ _ _)]
        exact h4
      · exact ⟨(State.freeTicket_free h4.1 t.n).1, ((State.freeTicket_free h4.1 t.n).2 hnm).trans h4.2⟩

theorem State.startPending_tickets (s : State) : s.startPending.tickets = s.tickets := by
  unfold State.startPending
  split
  · rfl
  · simp only []
    split <;> rfl

theorem State.orderEnd_free (s : State) (r : OrderResult) (z : Fired) (n : Nat) (hn : s.ticket? n = none) :
    (s.orderEnd r z).ticket? n = none ∧ (s.orderEnd r z).past? n = s.past? n := by
  unfold State.orderEnd
  split
  · exact ⟨hn, rfl⟩
  · rename_i x _
    extract_lets line code o l pw s1 s2 s3 s4
    have h2 : s2.tickets = s.tickets := by
      simp only [s2]
      split <;> exact State.fire_tickets _ _ _
    have h3 : s3.tickets = s.tickets := by
      simp only [s3]
      split
      · exact h2
      · exact (State.startPending_tickets s2).trans h2
    have k3 : s3.ticket? n = none ∧ s3.past? n = s.past? n := by
      rw [State.ticket_of_tickets h3, State.past_of_tickets h3]; exact ⟨hn, rfl⟩
    have k4 : ∀ (m : Nat) (q : Result) (fs : List Tok) (b : List Byte),
        (s3.completeCore m q fs b z).ticket? n = none ∧ (s3.completeCore m q fs b z).past? n = s.past? n := fun m q fs b => by
      rw [← k3.2]
      exact s3.completeCore_free m q fs b z n k3.1
    rw [State.ticket_of_tickets (s4.settled_tickets s), State.past_of_tickets (s4.settled_tickets s)]
    simp only [s4]
    split
    · exact k3
    · split <;> exact k4 _ _ _ _

theorem State.orderLineDone_free (s : State) (e : Option Nat) (z : Fired) (n : Nat) (hn : s.ticket? n = none) :
    (s.orderLineDone e z).ticket? n = none ∧ (s.orderLineDone e z).past? n = s.past? n := by
  unfold State.orderLineDone
  split
  · exact ⟨hn, rfl⟩
  · simp only []
    (repeat' split) <;> first
      | exact ⟨hn, rfl⟩
      | exact State.orderEnd_free _ _ _ _ hn

theorem State.lineAfter_free (s : State) (m : Nat) (r : Result) (z : Fired) (n : Nat) (hn : s.ticket? n = none) :
    (s.lineAfter m r z).ticket? n = none ∧ (s.lineAfter m r z).past? n = s.past? n := by
  unfold State.lineAfter
  split
  · exact s.orderLineDone_free _ _ n hn
  · exact ⟨hn, rfl⟩

/-- What becomes of a live ticket that completes. -/
theorem State.complete_completed (s : State) (x : Ticket) (r : Result) (fs : List Tok) (b : List Byte)
    (hx : s.ticket? x.n = some x) (hl : x.live = true) :
    Completed (s.complete x.n r fs b) x r fs (s.edition (queueUnit x.queue)) := by
  have hc := s.completeCore_spec x r fs b hx hl
  have free : (s.completeCore x.n r fs b).ticket? x.n = none ∧
      ((s.completeCore x.n r fs b).past? x.n).map (·.result) = some (some r) →
      (s.complete x.n r fs b).ticket? x.n = none ∧ ((s.complete x.n r fs b).past? x.n).map (·.result) = some (some r) := by
    intro h
    unfold State.complete
    rw [State.ticket_of_tickets (State.settled_tickets _ _), State.past_of_tickets (State.settled_tickets _ _)]
    split
    · have := (s.completeCore x.n r fs b).lineAfter_free x.n r { fail := decide (r ≠ .done) } x.n h.1
      exact ⟨this.1, by rw [this.2]; exact h.2⟩
    · exact h
  unfold Completed
  cases ho : x.owner with
  | host p =>
    rw [ho] at hc
    simp only [] at hc ⊢
    have hh : (s.complete x.n r fs b).ticket? x.n = (s.completeCore x.n r fs b).ticket? x.n := by
      unfold State.complete
      rw [State.ticket_of_tickets (State.settled_tickets _ _)]
      split
      · unfold State.lineAfter
        rw [if_neg (by simp [hc])]
      · rfl
    exact ⟨_, hh.trans hc, rfl, rfl, rfl⟩
  | order k => rw [ho] at hc; exact free hc
  | link => rw [ho] at hc; exact free hc

end Sys2Proof.Machine
end

