-- ==== Sys2Proof/Laws/Issuing.lean ====
section
/-! SUPPORT. What accepting a ticketed line does: a number is free whenever the pool does not refuse, and the ticket of
that number joins the pool. -/
namespace Sys2Proof.Machine

open Sys2Proof

/-- While fewer than 512 tickets are allocated a number is free. -/
theorem State.nextNumber_some (s : State) (h : s.tickets.pool.length < 512) : ∃ n, s.nextNumber = some n := by
  by_contra hc
  have hn : s.nextNumber = none := by
    cases h1 : s.nextNumber with
    | none => rfl
    | some n => exact absurd ⟨n, h1⟩ hc
  have hall : ∀ n, n < 512 → n ∈ s.tickets.pool.map (·.n) := by
    intro n hn'
    unfold State.nextNumber at hn
    simp only [List.find?_eq_none, Option.isNone_iff_eq_none] at hn
    have hmem : ∀ start, start ≤ 512 → n ∈ List.range' start (512 - start) ++ List.range start := by
      intro start hs
      simp only [List.mem_append, List.mem_range'_1, List.mem_range]
      omega
    have key : ∀ start, (∀ x ∈ List.range' start (512 - start) ++ List.range start, ¬s.ticket? x = none) →
        n ∈ s.tickets.pool.map (·.n) := by
      intro start hk
      have hin : n ∈ List.range' start (512 - start) ++ List.range start := by
        by_cases hs : start ≤ 512
        · exact hmem start hs
        · simp only [List.mem_append, List.mem_range]; right; omega
      have := hk n hin
      rw [← ne_eq, Option.ne_none_iff_exists'] at this
      obtain ⟨t, ht⟩ := this
      rw [List.mem_map]
      exact ⟨t, List.mem_of_find?_eq_some ht, State.ticket_n ht⟩
    exact key _ hn
  have hsub : List.range 512 ⊆ s.tickets.pool.map (·.n) := fun n hn' => hall n (List.mem_range.mp hn')
  have hlen := (List.subperm_of_subset List.nodup_range hsub).length_le
  simp only [List.length_range, List.length_map] at hlen
  omega

theorem State.nextNumber_free (s : State) (n : Nat) (h : s.nextNumber = some n) : s.ticket? n = none := by
  unfold State.nextNumber at h
  simpa using List.find?_some h

theorem find_append_ticket (l : List Ticket) (t : Ticket) (m : Nat) :
    (l ++ [t]).find? (fun x => x.n == m) =
      match l.find? (fun x => x.n == m) with
      | some x => some x
      | none => if t.n = m then some t else none := by
  rw [List.find?_append]
  cases l.find? (fun x => x.n == m) with
  | some x => rfl
  | none =>
    simp only [Option.none_or, List.find?_cons, List.find?_nil]
    by_cases h : t.n = m
    · simp [h]
    · have h' : (t.n == m) = false := by simpa using h
      simp [h, h']

/-- What a ticket's issue does. -/
theorem State.issue_spec (s : State) (a : TicketAsk) (n : Nat) (h : s.nextNumber = some n) :
    ∃ t, s.issue a = (t, some n) ∧
      t.ticket? n = some { n := n, queue := a.queue, owner := a.owner, tag := a.tag, after := a.after, due := a.due,
                           guard := a.guard, startAt := a.startAt, op := a.op } ∧
      (∀ m, m ≠ n → t.ticket? m = s.ticket? m) ∧ t.tickets.last = some n ∧ t.besideTickets = s.besideTickets := by
  have hfree := s.nextNumber_free n h
  unfold State.issue
  simp only [h]
  refine ⟨_, rfl, ?_, ?_, rfl, rfl⟩
  · unfold State.ticket? at hfree ⊢
    simp only [find_append_ticket, hfree, ↓reduceIte]
  · intro m hm
    have hm' : ¬n = m := fun e => hm e.symm
    unfold State.ticket?
    simp only [find_append_ticket, hm', ↓reduceIte]
    cases s.tickets.pool.find? (fun x => x.n == m) <;> rfl

theorem State.setPort_tickets (s : State) (p : Port) (x : PortSt) : (s.setPort p x).tickets = s.tickets := by cases p <;> rfl

theorem State.took_tickets (s : State) (o : Origin) : (s.took o).tickets = s.tickets := by
  cases o with
  | order k => rfl
  | port p => cases p <;> rfl

theorem State.took_nextNumber (s : State) (o : Origin) : (s.took o).nextNumber = s.nextNumber := by
  unfold State.nextNumber State.ticket?
  rw [State.took_tickets]

theorem State.took_besideTickets (s : State) (o : Origin) : (s.took o).besideTickets = s.besideTickets :=
  State.besideTickets_of_events (State.besideEvents_of_reply (s.took_besideReply o))

theorem State.tk_tickets (s : State) (l : Line) (n : Nat) : (s.tk l n).tickets = s.tickets := by
  unfold State.tk
  split
  · rfl
  · exact State.push_tickets _ _ _

theorem State.tk_besideTickets (s : State) (l : Line) (n : Nat) : (s.tk l n).besideTickets = s.besideTickets := by
  unfold State.tk
  split
  · rfl
  · exact State.push_besideTickets _ _ _

/-! ## What firing adds to a queue -/

/-- Lines join the queue behind what stands there. -/
def State.OutLe (s t : State) : Prop := ∀ p, ∃ mid, (t.port p).out = (s.port p).out ++ mid

theorem State.OutLe.refl (s : State) : s.OutLe s := fun _ => ⟨[], by simp⟩
theorem State.OutLe.trans {a b c : State} (h : a.OutLe b) (k : b.OutLe c) : a.OutLe c := fun p => by
  obtain ⟨x, hx⟩ := h p
  obtain ⟨y, hy⟩ := k p
  exact ⟨x ++ y, by rw [hy, hx, List.append_assoc]⟩
theorem State.OutLe.of_eq {s t : State} (h : t.dport = s.dport) (k : t.cport = s.cport) : s.OutLe t := fun p => ⟨[], by
  cases p
  · show t.dport.out = s.dport.out ++ []; rw [h]; simp
  · show t.cport.out = s.cport.out ++ []; rw [k]; simp⟩

theorem State.push_outLe (s : State) (p : Port) (l : OutLine) : s.OutLe (s.push p l) := fun q => by
  by_cases h : q = p
  · subst h; exact ⟨[l], by rw [State.push_port]⟩
  · exact ⟨[], by rw [State.push_other s l h]; simp⟩

/-- Only lines of events join the queues, and what an order's line was answered stays. -/
def State.EvLe (s t : State) : Prop :=
  (∀ p, ∃ post, (t.port p).out = (s.port p).out ++ post ∧ ∀ y ∈ post, ∃ k, y.kind = .ev k) ∧ t.orders.said = s.orders.said

theorem State.EvLe.outLe {s t : State} (h : s.EvLe t) : s.OutLe t := fun p => by
  obtain ⟨x, hx, _⟩ := h.1 p
  exact ⟨x, hx⟩

theorem State.EvLe.trans {a b c : State} (h : a.EvLe b) (k : b.EvLe c) : a.EvLe c := by
  refine ⟨fun p => ?_, k.2.trans h.2⟩
  obtain ⟨x, hx, ex⟩ := h.1 p
  obtain ⟨y, hy, ey⟩ := k.1 p
  refine ⟨x ++ y, by rw [hy, hx, List.append_assoc], fun z hz => ?_⟩
  rcases List.mem_append.mp hz with h | h
  · exact ex z h
  · exact ey z h

theorem State.EvLe.of_eq {s t : State} (h : t.dport = s.dport) (k : t.cport = s.cport) (o : t.orders.said = s.orders.said) :
    s.EvLe t := ⟨fun p => ⟨[], by
  cases p
  · show t.dport.out = s.dport.out ++ []; rw [h]; simp
  · show t.cport.out = s.cport.out ++ []; rw [k]; simp, by simp⟩, o⟩

theorem State.EvLe.refl (s : State) : s.EvLe s := .of_eq rfl rfl rfl

theorem State.push_said (s : State) (p : Port) (l : OutLine) : (s.push p l).orders = s.orders := by
  cases p <;> unfold State.push <;> simp only [] <;> split <;> rfl

theorem State.pushEv_evLe (s : State) (p : Port) (n : Nat) (l : OutLine) (hl : l.kind = .ev n) : s.EvLe (s.pushEv p n l) := by
  unfold State.pushEv
  split
  · exact .refl s
  · split
    · refine ⟨fun q => ?_, by rw [State.push_said]⟩
      by_cases h : q = p
      · subst h; exact ⟨[l], by rw [State.push_port], by simp [hl]⟩
      · exact ⟨[], by rw [State.push_other s l h]; simp, by simp⟩
    · cases p <;> simp only [] <;> split <;> exact .of_eq rfl rfl rfl

theorem State.attnFollow_ports (s : State) : SamePorts s s.attnFollow ∧ s.attnFollow.orders = s.orders := by
  have h : SamePorts s s.padFollow ∧ s.padFollow.orders = s.orders := by
    unfold State.padFollow; split <;> exact ⟨⟨rfl, rfl⟩, rfl⟩
  unfold State.attnFollow
  simp only []
  (repeat' split) <;> exact h

theorem State.fireCore_evLe (s : State) (n : Nat) (fs : List Tok) : s.EvLe (s.fireCore n fs) := by
  unfold State.fireCore
  split
  · exact .refl s
  · simp only []
    refine State.EvLe.trans ?_ (.of_eq (State.attnFollow_ports _).1.1 (State.attnFollow_ports _).1.2
      (congrArg (·.said) (State.attnFollow_ports _).2))
    split
    · exact .of_eq rfl rfl rfl
    · split
      · exact .of_eq rfl rfl rfl
      · refine State.EvLe.trans ?_ (State.pushEv_evLe _ _ _ _ rfl)
        refine State.EvLe.trans ?_ (State.pushEv_evLe _ _ _ _ rfl)
        exact .of_eq rfl rfl rfl

theorem State.triggerCore_ports (s : State) (k : Nat) (rt : Option Nat) (b : Bool) :
    SamePorts s (s.triggerCore k rt b) ∧ (s.triggerCore k rt b).orders.said = s.orders.said := by
  unfold State.triggerCore
  split
  · exact ⟨⟨rfl, rfl⟩, rfl⟩
  · exact ⟨⟨rfl, rfl⟩, rfl⟩
  · split <;> exact ⟨⟨rfl, rfl⟩, rfl⟩

theorem State.eventTriggers_evLe (s : State) (n : Nat) : s.EvLe (s.eventTriggers n).1 := by
  have aux : ∀ (ks : List Nat) (a : State × List (Nat × String)), let r := ks.foldl (fun acc k => (acc.1.triggerCore k none false,
        match acc.1.missWhy k with | some y => acc.2 ++ [(k, y)] | none => acc.2)) a
      SamePorts a.1 r.1 ∧ r.1.orders.said = a.1.orders.said := by
    intro ks
    induction ks with
    | nil => intro a; exact ⟨⟨rfl, rfl⟩, rfl⟩
    | cons k ks ih =>
      intro a
      simp only [List.foldl_cons]
      have h := a.1.triggerCore_ports k none false
      exact ⟨h.1.trans (ih _).1, (ih _).2.trans h.2⟩
  have h := aux (s.ordersOn n) (s, [])
  exact .of_eq h.1.1 h.1.2 h.2

theorem State.fireMissed_evLe (s : State) (ms : List (Nat × String)) : s.EvLe (s.fireMissed ms) := by
  unfold State.fireMissed
  split
  · exact .refl s
  · exact (s.fireCore_evLe _ _).trans (State.eventTriggers_evLe _ _)

/-- Firing an event queues lines of events, and nothing else. -/
theorem State.fire_evLe (s : State) (n : Nat) (fs : List Tok) : s.EvLe (s.fire n fs) := by
  unfold State.fire
  split
  · split
    · exact ((s.fireCore_evLe _ _).trans (State.eventTriggers_evLe _ _)).trans (State.fireMissed_evLe _ _)
    · exact ((s.eventTriggers_evLe _).trans (State.fireMissed_evLe _ _)).trans (State.fireCore_evLe _ _ _)
  · exact .refl s

theorem State.fire_outLe (s : State) (n : Nat) (fs : List Tok) : s.OutLe (s.fire n fs) := (s.fire_evLe n fs).outLe

theorem State.poolLow_evLe (s : State) (k : Nat) : s.EvLe (s.poolLow k) := by
  unfold State.poolLow
  simp only []
  split
  · exact s.fire_evLe _ _
  · exact .refl s

theorem State.poolLow_tickets (s : State) (k : Nat) : (s.poolLow k).tickets = s.tickets := by
  unfold State.poolLow
  simp only []
  split
  · exact s.fire_tickets _ _
  · rfl

theorem State.poolLow_besideTickets (s : State) (k : Nat) : (s.poolLow k).besideTickets = s.besideTickets := by
  unfold State.poolLow
  simp only []
  split
  · exact s.fire_besideTickets _ _
  · rfl

theorem State.took_outLe (s : State) (o : Origin) : s.OutLe (s.took o) := fun p => ⟨[], by rw [State.took_out]; simp⟩

theorem State.issue_outLe (s : State) (a : TicketAsk) : s.OutLe (s.issue a).1 := by
  unfold State.issue
  split
  · exact .refl s
  · exact .of_eq rfl rfl

/-- The reply `TK n`, and the lines of events behind it. -/
theorem State.tk_told {s t u : State} (l : Line) (n : Nat) (h : s.OutLe t) (k : (t.tk l n).EvLe u) :
    Told s u l (.ticket n) [w "TK", n' n] := by
  unfold Told
  unfold State.tk at k
  cases ho : l.origin with
  | order j => rw [ho] at k; exact k.2
  | port p =>
    rw [ho] at k
    obtain ⟨mid, hm⟩ := h p
    obtain ⟨post, hp, he⟩ := k.1 p
    exact ⟨mid, { kind := .reply true, tag := l.tag, toks := [w "TK", n' n] }, post,
      by rw [hp, State.push_port, hm]; simp, rfl, he⟩

theorem State.noTicketFor_room (s : State) (o : Owner) (h : s.noTicketFor o = false) : s.tickets.pool.length < 512 := by
  unfold State.noTicketFor at h
  split at h <;> simp at h <;> omega

/-- The acceptance of a ticketed line issues its ticket. -/
theorem runTicket_issues {s : State} {f : Form} {q : Queue} {l : Line} {es ss : List Er} {op : TicketOp}
    (h : s.Accepts { f with ticketed := true } l (es ++ (if l.has "after" then [] else ss) ++
      erIf (s.noTicketFor (ownerOf l.origin)) ⟨"NOTICKET", []⟩)) :
    ∃ n t, s.nextNumber = some n ∧ runTicket f q l s es ss op = .next t ∧ Issued s t l n q op none ∧
      t.besideTickets = s.besideTickets := by
  have hr : s.noTicketFor (ownerOf l.origin) = false := by
    have := (List.append_eq_nil_iff.mp h.verb).2
    unfold erIf at this
    split at this
    · cases this
    · rename_i hh; simpa using hh
  obtain ⟨n, hn⟩ := s.nextNumber_some (s.noTicketFor_room _ hr)
  refine ⟨n, ?_⟩
  unfold runTicket runTicketMk
  rw [runLine_accepts h]
  have hn' : (s.took l.origin).nextNumber = some n := by rw [State.took_nextNumber]; exact hn
  obtain ⟨t, ht, h1, h2, h3, h4⟩ := (s.took l.origin).issue_spec (s.askOf l q none op) n hn'
  have hT : ((t.tk l n).poolLow (480 - (s.took l.origin).hostTickets)).tickets = t.tickets := by
    rw [State.poolLow_tickets, State.tk_tickets]
  refine ⟨(t.tk l n).poolLow (480 - (s.took l.origin).hostTickets), hn, ?_, ⟨?_, ?_, ?_, ?_⟩, ?_⟩
  · simp only [ht]
  · rw [State.ticket_of_tickets hT, h1]; rfl
  · intro m hm
    rw [State.ticket_of_tickets hT, h2 m hm]
    exact State.ticket_of_tickets (s.took_tickets _) m
  · rw [hT]; exact h3
  · refine State.tk_told l n ?_ (State.poolLow_evLe _ _)
    have := (s.took l.origin).issue_outLe (s.askOf l q none op)
    rw [ht] at this
    exact (s.took_outLe _).trans this
  · rw [State.poolLow_besideTickets, State.tk_besideTickets, h4, State.took_besideTickets]

theorem runTicket_refuses {s : State} {f : Form} {q : Queue} {l : Line} {es ss : List Er} {op : TicketOp} {e : Er}
    (hl : s.listens l.origin = true) (hc : s.orders.checking = none)
    (he : firstEr (s.formErs { f with ticketed := true } l ++ (es ++ (if l.has "after" then [] else ss) ++
      erIf (s.noTicketFor (ownerOf l.origin)) ⟨"NOTICKET", []⟩)) = some e) :
    runTicket f q l s es ss op = .next ((s.took l.origin).refuse l e) := by
  unfold runTicket runTicketMk
  exact runLine_refuses hl hc he _

theorem State.ok_ended {s t : State} (l : Line) (ts : List Tok) (b : List Byte) (h : s.OutLe t) :
    Ended s (t.ok l ts b) l .ok (w "OK" :: ts) := by
  unfold Ended State.ok State.replyLines
  cases ho : l.origin with
  | order k => rfl
  | port p =>
    obtain ⟨mid, hm⟩ := h p
    refine ⟨mid, { kind := .reply true, tag := l.tag, toks := w "OK" :: ts, block := b }, ?_, rfl⟩
    simp [State.push_port, hm]

/-- A line whose effect may fire events, and then a reply. -/
theorem runLine_last {c : Instr} {s : State} {f : Form} {l : Line} {es : List Er} (act : State → State)
    (ts : State → List Tok)
    (h : exec c s = runLine f l s es (fun s => (act s).ok l (ts (act s))))
    (ho : (s.took l.origin).OutLe (act (s.took l.origin))) : AnswersLast c s f l es act (fun t => okLine (ts t)) := by
  refine ⟨fun ha => ?_, fun e hl hk he => ?_⟩
  · rw [h, runLine_accepts ha]
    exact ⟨_, rfl, State.ok_ended l _ [] ((s.took_outLe _).trans ho), State.ok_besideReply _ _ _ _⟩
  · rw [h]; exact runLine_refuses hl hk he _

theorem State.condOn_outLe (s : State) (n : Nat) (fs : List Tok) : s.OutLe (s.condOn n fs) := by
  unfold State.condOn
  split
  · exact .refl s
  · split
    · refine State.OutLe.trans ?_ (State.fire_outLe _ _ _)
      exact .of_eq rfl rfl
    · exact .refl s

theorem State.poolCheck_outLe (s : State) : s.OutLe s.poolCheck := by
  unfold State.poolCheck
  split
  · exact s.condOn_outLe _ _
  · exact .of_eq rfl rfl

end Sys2Proof.Machine
end

