-- ==== Sys2Proof/Laws/Registers.lean ====
section
/-! SUPPORT. No write of a register stores an octet or changes the part or the queue. -/
namespace Sys2Proof.Machine

open Sys2Proof

set_option maxRecDepth 8000
set_option linter.unusedSimpArgs false
set_option linter.unusedTactic false
set_option linter.unreachableTactic false

/-- Carrying a write of the register out changes neither the part, nor the queue, nor a cell. -/
def Reg.Quiet (r : Reg) : Prop := ∀ v s, Fixed s (r.apply v s)

theorem roReg_quiet (a : Nat) (n : String) (f : List Field) (g : State → Word) : (roReg a n f g).Quiet := by
  intro v s; simp [roReg, Fixed]

theorem roVal_quiet (a : Nat) (n : String) (f : Nat) (g : State → Word) : (roVal a n f g).Quiet := by
  intro v s; simp [roVal, roReg, Fixed]

theorem wrapReg_quiet (a : Nat) (n : String) (f : Nat) (g : State → List Counter) : (wrapReg a n f g).Quiet := by
  intro v s; simp [wrapReg, roReg, Fixed]

theorem Reg.Quiet.write {r : Reg} (h : r.Quiet) (v : Word) (s : State) : Fixed s (r.write v s) := h _ _

theorem sysRegs_quiet : ∀ r ∈ sysRegs, r.Quiet := by
  unfold sysRegs
  simp only [List.forall_mem_cons, List.forall_mem_append, List.forall_mem_map, roReg_quiet, roVal_quiet, wrapReg_quiet,
    true_and, List.not_mem_nil, false_imp_iff, implies_true, and_true, List.forall_mem_flatMap]
  repeat' apply And.intro
  all_goals first
    | (intro v s; simp [Reg.Quiet, ctrReg, cfgReg, setStore, Fixed]; done)
    | (intro v s; simp only [Reg.Quiet, ctrReg, cfgReg]; (repeat' split) <;> simp_all [Fixed])

theorem padRegs_quiet : ∀ r ∈ padRegs, r.Quiet := by
  unfold padRegs
  simp only [List.forall_mem_cons, List.forall_mem_append, List.forall_mem_map, roReg_quiet, roVal_quiet, wrapReg_quiet,
    true_and, List.not_mem_nil, false_imp_iff, implies_true, and_true, List.forall_mem_flatMap]
  repeat' apply And.intro
  all_goals first
    | (intro v s; simp [Reg.Quiet, ctrReg, cfgReg, setStore, Fixed]; done)
    | (intro v s; simp only [Reg.Quiet, ctrReg, cfgReg]; (repeat' split) <;> simp_all [Fixed])

theorem pwrRegs_quiet : ∀ r ∈ pwrRegs, r.Quiet := by
  unfold pwrRegs
  simp only [List.forall_mem_cons, List.forall_mem_append, List.forall_mem_map, roReg_quiet, roVal_quiet, wrapReg_quiet,
    true_and, List.not_mem_nil, false_imp_iff, implies_true, and_true, List.forall_mem_flatMap]
  repeat' apply And.intro
  all_goals first
    | (intro v s; simp [Reg.Quiet, ctrReg, cfgReg, setStore, Fixed]; done)
    | (intro v s; simp only [Reg.Quiet, ctrReg, cfgReg]; (repeat' split) <;> simp_all [Fixed])

theorem dormRegs_quiet : ∀ r ∈ dormRegs, r.Quiet := by
  unfold dormRegs
  simp only [List.forall_mem_cons, List.forall_mem_append, List.forall_mem_map, roReg_quiet, roVal_quiet, wrapReg_quiet,
    true_and, List.not_mem_nil, false_imp_iff, implies_true, and_true, List.forall_mem_flatMap]
  repeat' apply And.intro
  all_goals first
    | (intro v s; simp [Reg.Quiet, ctrReg, cfgReg, setStore, Fixed]; done)
    | (intro v s; simp only [Reg.Quiet, ctrReg, cfgReg]; (repeat' split) <;> simp_all [Fixed])

theorem dayRegs_quiet : ∀ r ∈ dayRegs, r.Quiet := by
  unfold dayRegs
  simp only [List.forall_mem_cons, List.forall_mem_append, List.forall_mem_map, roReg_quiet, roVal_quiet, wrapReg_quiet,
    true_and, List.not_mem_nil, false_imp_iff, implies_true, and_true, List.forall_mem_flatMap]
  repeat' apply And.intro
  all_goals first
    | (intro v s; simp [Reg.Quiet, ctrReg, cfgReg, setStore, Fixed]; done)
    | (intro v s; simp only [Reg.Quiet, ctrReg, cfgReg]; (repeat' split) <;> simp_all [Fixed])

theorem radioRegs_quiet : ∀ r ∈ radioRegs, r.Quiet := by
  unfold radioRegs
  simp only [List.forall_mem_cons, List.forall_mem_append, List.forall_mem_map, roReg_quiet, roVal_quiet, wrapReg_quiet,
    true_and, List.not_mem_nil, false_imp_iff, implies_true, and_true, List.forall_mem_flatMap]
  repeat' apply And.intro
  all_goals first
    | (intro v s; simp [Reg.Quiet, ctrReg, cfgReg, setStore, Fixed]; done)
    | (intro v s; simp only [Reg.Quiet, ctrReg, cfgReg]; (repeat' split) <;> simp_all [Fixed])

theorem modemRegs_quiet : ∀ r ∈ modemRegs, r.Quiet := by
  unfold modemRegs
  simp only [List.forall_mem_cons, List.forall_mem_append, List.forall_mem_map, roReg_quiet, roVal_quiet, wrapReg_quiet,
    true_and, List.not_mem_nil, false_imp_iff, implies_true, and_true, List.forall_mem_flatMap]
  repeat' apply And.intro
  all_goals first
    | (intro v s; simp [Reg.Quiet, ctrReg, cfgReg, setStore, Fixed]; done)
    | (intro v s; simp only [Reg.Quiet, ctrReg, cfgReg]; (repeat' split) <;> simp_all [Fixed])

theorem censusRegs_quiet : ∀ r ∈ censusRegs, r.Quiet := by
  unfold censusRegs
  simp only [List.forall_mem_cons, List.forall_mem_append, List.forall_mem_map, roReg_quiet, roVal_quiet, wrapReg_quiet,
    true_and, List.not_mem_nil, false_imp_iff, implies_true, and_true, List.forall_mem_flatMap]
  repeat' apply And.intro
  all_goals first
    | (intro v s; simp [Reg.Quiet, ctrReg, cfgReg, setStore, Fixed]; done)
    | (intro v s; simp only [Reg.Quiet, ctrReg, cfgReg]; (repeat' split) <;> simp_all [Fixed])

theorem frameRegs_quiet : ∀ r ∈ frameRegs, r.Quiet := by
  unfold frameRegs
  simp only [List.forall_mem_cons, List.forall_mem_append, List.forall_mem_map, roReg_quiet, roVal_quiet, wrapReg_quiet,
    true_and, List.not_mem_nil, false_imp_iff, implies_true, and_true, List.forall_mem_flatMap]
  repeat' apply And.intro
  all_goals first
    | (intro v s; simp [Reg.Quiet, ctrReg, cfgReg, setStore, Fixed]; done)
    | (intro v s; simp only [Reg.Quiet, ctrReg, cfgReg]; (repeat' split) <;> simp_all [Fixed])

theorem linkRegs_quiet : ∀ r ∈ linkRegs, r.Quiet := by
  unfold linkRegs
  simp only [List.forall_mem_cons, List.forall_mem_append, List.forall_mem_map, roReg_quiet, roVal_quiet, wrapReg_quiet,
    true_and, List.not_mem_nil, false_imp_iff, implies_true, and_true, List.forall_mem_flatMap]
  repeat' apply And.intro
  all_goals first
    | (intro v s; simp [Reg.Quiet, ctrReg, cfgReg, setStore, Fixed]; done)
    | (intro v s; simp only [Reg.Quiet, ctrReg, cfgReg]; (repeat' split) <;> simp_all [Fixed])

theorem ledgerRegs_quiet : ∀ r ∈ ledgerRegs, r.Quiet := by
  unfold ledgerRegs
  simp only [List.forall_mem_cons, List.forall_mem_append, List.forall_mem_map, roReg_quiet, roVal_quiet, wrapReg_quiet,
    true_and, List.not_mem_nil, false_imp_iff, implies_true, and_true, List.forall_mem_flatMap]
  repeat' apply And.intro
  all_goals first
    | (intro v s; simp [Reg.Quiet, ctrReg, cfgReg, setStore, Fixed]; done)
    | (intro v s; simp only [Reg.Quiet, ctrReg, cfgReg]; (repeat' split) <;> simp_all [Fixed])

theorem trimRegs_quiet : ∀ r ∈ trimRegs, r.Quiet := by
  unfold trimRegs
  simp only [List.forall_mem_cons, List.forall_mem_append, List.forall_mem_map, roReg_quiet, roVal_quiet, wrapReg_quiet,
    true_and, List.not_mem_nil, false_imp_iff, implies_true, and_true, List.forall_mem_flatMap]
  repeat' apply And.intro
  all_goals first
    | (intro v s; simp [Reg.Quiet, ctrReg, cfgReg, setStore, Fixed]; done)
    | (intro v s; simp only [Reg.Quiet, ctrReg, cfgReg]; (repeat' split) <;> simp_all [Fixed])

theorem noiseRegs_quiet : ∀ r ∈ noiseRegs, r.Quiet := by
  unfold noiseRegs
  simp only [List.forall_mem_cons, List.forall_mem_append, List.forall_mem_map, roReg_quiet, roVal_quiet, wrapReg_quiet,
    true_and, List.not_mem_nil, false_imp_iff, implies_true, and_true, List.forall_mem_flatMap]
  repeat' apply And.intro
  all_goals first
    | (intro v s; simp [Reg.Quiet, ctrReg, cfgReg, setStore, Fixed]; done)
    | (intro v s; simp only [Reg.Quiet, ctrReg, cfgReg]; (repeat' split) <;> simp_all [Fixed])

theorem vaultRegs_quiet : ∀ r ∈ vaultRegs, r.Quiet := by
  unfold vaultRegs
  simp only [List.forall_mem_cons, List.forall_mem_append, List.forall_mem_map, roReg_quiet, roVal_quiet, wrapReg_quiet,
    true_and, List.not_mem_nil, false_imp_iff, implies_true, and_true, List.forall_mem_flatMap]
  repeat' apply And.intro
  all_goals first
    | (intro v s; simp [Reg.Quiet, ctrReg, cfgReg, setStore, Fixed]; done)
    | (intro v s; simp only [Reg.Quiet, ctrReg, cfgReg]; (repeat' split) <;> simp_all [Fixed])

theorem fcRegs_quiet : ∀ r ∈ fcRegs, r.Quiet := by
  unfold fcRegs
  simp only [List.forall_mem_cons, List.forall_mem_append, List.forall_mem_map, roReg_quiet, roVal_quiet, wrapReg_quiet,
    true_and, List.not_mem_nil, false_imp_iff, implies_true, and_true, List.forall_mem_flatMap]
  repeat' apply And.intro
  all_goals first
    | (intro v s; simp [Reg.Quiet, ctrReg, cfgReg, setStore, Fixed]; done)
    | (intro v s; simp only [Reg.Quiet, ctrReg, cfgReg]; (repeat' split) <;> simp_all [Fixed])

theorem storeRegs_quiet : ∀ r ∈ storeRegs, r.Quiet := by
  unfold storeRegs
  simp only [List.forall_mem_cons, List.forall_mem_append, List.forall_mem_map, roReg_quiet, roVal_quiet, wrapReg_quiet,
    true_and, List.not_mem_nil, false_imp_iff, implies_true, and_true, List.forall_mem_flatMap]
  repeat' apply And.intro
  all_goals first
    | (intro v s; simp [Reg.Quiet, ctrReg, cfgReg, setStore, Fixed]; done)
    | (intro v s; simp only [Reg.Quiet, ctrReg, cfgReg]; (repeat' split) <;> simp_all [Fixed])

theorem porterRegs_quiet : ∀ r ∈ porterRegs, r.Quiet := by
  unfold porterRegs
  simp only [List.forall_mem_cons, List.forall_mem_append, List.forall_mem_map, roReg_quiet, roVal_quiet, wrapReg_quiet,
    true_and, List.not_mem_nil, false_imp_iff, implies_true, and_true, List.forall_mem_flatMap]
  repeat' apply And.intro
  all_goals first
    | (intro v s; simp [Reg.Quiet, ctrReg, cfgReg, setStore, Fixed]; done)
    | (intro v s; simp only [Reg.Quiet, ctrReg, cfgReg]; (repeat' split) <;> simp_all [Fixed])

theorem collateRegs_quiet : ∀ r ∈ collateRegs, r.Quiet := by
  unfold collateRegs
  simp only [List.forall_mem_cons, List.forall_mem_append, List.forall_mem_map, roReg_quiet, roVal_quiet, wrapReg_quiet,
    true_and, List.not_mem_nil, false_imp_iff, implies_true, and_true, List.forall_mem_flatMap]
  refine ⟨?_, ?_⟩
  · repeat' apply And.intro
    all_goals (intro v s; simp [ctrReg, Fixed])
  · intro n _
    unfold colRegs
    simp only [List.forall_mem_cons, List.forall_mem_append, List.forall_mem_map, roReg_quiet, roVal_quiet, wrapReg_quiet,
      true_and, List.not_mem_nil, false_imp_iff, implies_true, and_true, List.forall_mem_flatMap]
    repeat' apply And.intro
    all_goals (intro v s; simp [ctrReg, feedReg, Fixed])

theorem orderRegs_quiet : ∀ r ∈ orderRegs, r.Quiet := by
  unfold orderRegs
  simp only [List.forall_mem_cons, List.forall_mem_append, List.forall_mem_map, roReg_quiet, roVal_quiet, wrapReg_quiet,
    true_and, List.not_mem_nil, false_imp_iff, implies_true, and_true, List.forall_mem_flatMap]
  repeat' apply And.intro
  all_goals first
    | (intro v s; simp [Reg.Quiet, ctrReg, cfgReg, setStore, Fixed]; done)
    | (intro v s; simp only [Reg.Quiet, ctrReg, cfgReg]; (repeat' split) <;> simp_all [Fixed])

theorem sswRegs_quiet : ∀ r ∈ sswRegs, r.Quiet := by
  unfold sswRegs
  simp only [List.forall_mem_cons, List.forall_mem_append, List.forall_mem_map, roReg_quiet, roVal_quiet, wrapReg_quiet,
    true_and, List.not_mem_nil, false_imp_iff, implies_true, and_true, List.forall_mem_flatMap]
  repeat' apply And.intro
  all_goals first
    | (intro v s; simp [Reg.Quiet, ctrReg, cfgReg, setStore, Fixed]; done)
    | (intro v s; simp only [Reg.Quiet, ctrReg, cfgReg]; (repeat' split) <;> simp_all [Fixed])

theorem tamperRegs_quiet : ∀ r ∈ tamperRegs, r.Quiet := by
  unfold tamperRegs
  simp only [List.forall_mem_cons, List.forall_mem_append, List.forall_mem_map, roReg_quiet, roVal_quiet, wrapReg_quiet,
    true_and, List.not_mem_nil, false_imp_iff, implies_true, and_true, List.forall_mem_flatMap]
  repeat' apply And.intro
  all_goals first
    | (intro v s; simp [Reg.Quiet, ctrReg, cfgReg, setStore, Fixed]; done)
    | (intro v s; simp only [Reg.Quiet, ctrReg, cfgReg]; (repeat' split) <;> simp_all [Fixed])

theorem gpioRegs_quiet : ∀ r ∈ gpioRegs, r.Quiet := by
  unfold gpioRegs
  simp only [List.forall_mem_cons, List.forall_mem_append, List.forall_mem_map, roReg_quiet, roVal_quiet, wrapReg_quiet,
    true_and, List.not_mem_nil, false_imp_iff, implies_true, and_true, List.forall_mem_flatMap]
  repeat' apply And.intro
  all_goals first
    | (intro v s; simp [Reg.Quiet, ctrReg, cfgReg, setStore, Fixed]; done)
    | (intro v s; simp only [Reg.Quiet, ctrReg, cfgReg]; (repeat' split) <;> simp_all [Fixed])

theorem eventRegs_quiet : ∀ r ∈ eventRegs, r.Quiet := by
  unfold eventRegs
  simp only [List.forall_mem_cons, List.forall_mem_append, List.forall_mem_map, roReg_quiet, roVal_quiet, wrapReg_quiet,
    true_and, List.not_mem_nil, false_imp_iff, implies_true, and_true, List.forall_mem_flatMap]
  repeat' apply And.intro
  all_goals first
    | (intro v s; simp [Reg.Quiet, ctrReg, cfgReg, Fixed]; done)
    | (intro v s; simp only [Reg.Quiet, ctrReg, cfgReg]; (repeat' split) <;> simp_all [Fixed]; done)
    | (intro a _; refine ⟨?_, ?_, ?_, ?_⟩ <;> (intro v s; simp [maskReg, Fixed]))

theorem deskRegs_quiet : ∀ r ∈ deskRegs, r.Quiet := by
  unfold deskRegs
  simp only [List.forall_mem_cons, List.forall_mem_append, List.forall_mem_map, roReg_quiet, roVal_quiet, wrapReg_quiet,
    true_and, List.not_mem_nil, false_imp_iff, implies_true, and_true, List.forall_mem_flatMap]
  repeat' apply And.intro
  all_goals first
    | (intro v s; simp [Reg.Quiet, ctrReg, cfgReg, setStore, Fixed]; done)
    | (intro v s; simp only [Reg.Quiet, ctrReg, cfgReg]; (repeat' split) <;> simp_all [Fixed])

theorem ticketRegs_quiet : ∀ r ∈ ticketRegs, r.Quiet := by
  unfold ticketRegs
  simp only [List.forall_mem_cons, List.forall_mem_append, List.forall_mem_map, roReg_quiet, roVal_quiet, wrapReg_quiet,
    true_and, List.not_mem_nil, false_imp_iff, implies_true, and_true, List.forall_mem_flatMap]
  repeat' apply And.intro
  all_goals first
    | (intro v s; simp [Reg.Quiet, ctrReg, cfgReg, setStore, Fixed]; done)
    | (intro v s; simp only [Reg.Quiet, ctrReg, cfgReg]; (repeat' split) <;> simp_all [Fixed])

theorem allRegs_quiet : ∀ r ∈ allRegs, r.Quiet := by
  unfold allRegs
  simp only [List.flatten_cons, List.flatten_nil, List.forall_mem_append, List.not_mem_nil, false_imp_iff, implies_true]
  exact ⟨sysRegs_quiet, padRegs_quiet, pwrRegs_quiet, dormRegs_quiet, dayRegs_quiet, radioRegs_quiet, modemRegs_quiet, censusRegs_quiet, frameRegs_quiet, linkRegs_quiet, ledgerRegs_quiet, trimRegs_quiet, noiseRegs_quiet, vaultRegs_quiet, fcRegs_quiet, storeRegs_quiet, porterRegs_quiet, collateRegs_quiet, orderRegs_quiet, sswRegs_quiet, tamperRegs_quiet, gpioRegs_quiet, eventRegs_quiet, deskRegs_quiet, ticketRegs_quiet, trivial⟩

theorem regAt_quiet {a : Nat} {r : Reg} (h : regAt a = some r) : r.Quiet := allRegs_quiet r (List.mem_of_find?_eq_some h)

theorem regNamed_quiet {x : String} {r : Reg} (h : regNamed x = some r) : r.Quiet := allRegs_quiet r (List.mem_of_find?_eq_some h)

end Sys2Proof.Machine
end

