-- ==== Sys2Proof/Laws/State.lean ====
section
/-! SUPPORT. What each named update of the state leaves alone, field by field, and what a reading after it gives, so that
no later proof unfolds a record update. -/
namespace Sys2Proof.Machine

open Sys2Proof

/-! ## A configuration register is set -/

@[simp] theorem State.cfgSet_part (s : State) (r : CfgReg) (v : Word) : (s.cfgSet r v).part = s.part := rfl
@[simp] theorem State.cfgSet_sys (s : State) (r : CfgReg) (v : Word) : (s.cfgSet r v).sys = s.sys := rfl
@[simp] theorem State.cfgSet_pwr (s : State) (r : CfgReg) (v : Word) : (s.cfgSet r v).pwr = s.pwr := rfl
@[simp] theorem State.cfgSet_pads (s : State) (r : CfgReg) (v : Word) : (s.cfgSet r v).pads = s.pads := rfl
@[simp] theorem State.cfgSet_day (s : State) (r : CfgReg) (v : Word) : (s.cfgSet r v).day = s.day := rfl
@[simp] theorem State.cfgSet_desk (s : State) (r : CfgReg) (v : Word) : (s.cfgSet r v).desk = s.desk := rfl
@[simp] theorem State.cfgSet_dport (s : State) (r : CfgReg) (v : Word) : (s.cfgSet r v).dport = s.dport := rfl
@[simp] theorem State.cfgSet_cport (s : State) (r : CfgReg) (v : Word) : (s.cfgSet r v).cport = s.cport := rfl
@[simp] theorem State.cfgSet_chute (s : State) (r : CfgReg) (v : Word) : (s.cfgSet r v).chute = s.chute := rfl
@[simp] theorem State.cfgSet_tickets (s : State) (r : CfgReg) (v : Word) : (s.cfgSet r v).tickets = s.tickets := rfl
@[simp] theorem State.cfgSet_events (s : State) (r : CfgReg) (v : Word) : (s.cfgSet r v).events = s.events := rfl
@[simp] theorem State.cfgSet_orders (s : State) (r : CfgReg) (v : Word) : (s.cfgSet r v).orders = s.orders := rfl
@[simp] theorem State.cfgSet_store (s : State) (r : CfgReg) (v : Word) : (s.cfgSet r v).store = s.store := rfl
@[simp] theorem State.cfgSet_porter (s : State) (r : CfgReg) (v : Word) : (s.cfgSet r v).porter = s.porter := rfl
@[simp] theorem State.cfgSet_collate (s : State) (r : CfgReg) (v : Word) : (s.cfgSet r v).collate = s.collate := rfl
@[simp] theorem State.cfgSet_radio (s : State) (r : CfgReg) (v : Word) : (s.cfgSet r v).radio = s.radio := rfl
@[simp] theorem State.cfgSet_modem (s : State) (r : CfgReg) (v : Word) : (s.cfgSet r v).modem = s.modem := rfl
@[simp] theorem State.cfgSet_census (s : State) (r : CfgReg) (v : Word) : (s.cfgSet r v).census = s.census := rfl
@[simp] theorem State.cfgSet_frame (s : State) (r : CfgReg) (v : Word) : (s.cfgSet r v).frame = s.frame := rfl
@[simp] theorem State.cfgSet_link (s : State) (r : CfgReg) (v : Word) : (s.cfgSet r v).link = s.link := rfl
@[simp] theorem State.cfgSet_ledger (s : State) (r : CfgReg) (v : Word) : (s.cfgSet r v).ledger = s.ledger := rfl
@[simp] theorem State.cfgSet_trim (s : State) (r : CfgReg) (v : Word) : (s.cfgSet r v).trim = s.trim := rfl
@[simp] theorem State.cfgSet_noise (s : State) (r : CfgReg) (v : Word) : (s.cfgSet r v).noise = s.noise := rfl
@[simp] theorem State.cfgSet_vault (s : State) (r : CfgReg) (v : Word) : (s.cfgSet r v).vault = s.vault := rfl
@[simp] theorem State.cfgSet_ssw (s : State) (r : CfgReg) (v : Word) : (s.cfgSet r v).ssw = s.ssw := rfl
@[simp] theorem State.cfgSet_tamper (s : State) (r : CfgReg) (v : Word) : (s.cfgSet r v).tamper = s.tamper := rfl
@[simp] theorem State.cfgSet_gpio (s : State) (r : CfgReg) (v : Word) : (s.cfgSet r v).gpio = s.gpio := rfl
@[simp] theorem State.cfgSet_rows (s : State) (r : CfgReg) (v : Word) : (s.cfgSet r v).rows = s.rows := rfl
@[simp] theorem State.cfgSet_ed (s : State) (r : CfgReg) (v : Word) : (s.cfgSet r v).ed = s.ed := rfl
@[simp] theorem State.cfgSet_drawn (s : State) (r : CfgReg) (v : Word) : (s.cfgSet r v).drawn = s.drawn := rfl
@[simp] theorem State.cfgSet_pending (s : State) (r : CfgReg) (v : Word) : (s.cfgSet r v).pending = s.pending := rfl

/-! ## An edition is counted -/

@[simp] theorem State.bump_part (s : State) (u : EdUnit) : (s.bump u).part = s.part := rfl
@[simp] theorem State.bump_cfg (s : State) (u : EdUnit) : (s.bump u).cfg = s.cfg := rfl
@[simp] theorem State.bump_sys (s : State) (u : EdUnit) : (s.bump u).sys = s.sys := rfl
@[simp] theorem State.bump_pwr (s : State) (u : EdUnit) : (s.bump u).pwr = s.pwr := rfl
@[simp] theorem State.bump_pads (s : State) (u : EdUnit) : (s.bump u).pads = s.pads := rfl
@[simp] theorem State.bump_day (s : State) (u : EdUnit) : (s.bump u).day = s.day := rfl
@[simp] theorem State.bump_desk (s : State) (u : EdUnit) : (s.bump u).desk = s.desk := rfl
@[simp] theorem State.bump_dport (s : State) (u : EdUnit) : (s.bump u).dport = s.dport := rfl
@[simp] theorem State.bump_cport (s : State) (u : EdUnit) : (s.bump u).cport = s.cport := rfl
@[simp] theorem State.bump_chute (s : State) (u : EdUnit) : (s.bump u).chute = s.chute := rfl
@[simp] theorem State.bump_tickets (s : State) (u : EdUnit) : (s.bump u).tickets = s.tickets := rfl
@[simp] theorem State.bump_events (s : State) (u : EdUnit) : (s.bump u).events = s.events := rfl
@[simp] theorem State.bump_orders (s : State) (u : EdUnit) : (s.bump u).orders = s.orders := rfl
@[simp] theorem State.bump_store (s : State) (u : EdUnit) : (s.bump u).store = s.store := rfl
@[simp] theorem State.bump_porter (s : State) (u : EdUnit) : (s.bump u).porter = s.porter := rfl
@[simp] theorem State.bump_collate (s : State) (u : EdUnit) : (s.bump u).collate = s.collate := rfl
@[simp] theorem State.bump_radio (s : State) (u : EdUnit) : (s.bump u).radio = s.radio := rfl
@[simp] theorem State.bump_modem (s : State) (u : EdUnit) : (s.bump u).modem = s.modem := rfl
@[simp] theorem State.bump_census (s : State) (u : EdUnit) : (s.bump u).census = s.census := rfl
@[simp] theorem State.bump_frame (s : State) (u : EdUnit) : (s.bump u).frame = s.frame := rfl
@[simp] theorem State.bump_link (s : State) (u : EdUnit) : (s.bump u).link = s.link := rfl
@[simp] theorem State.bump_ledger (s : State) (u : EdUnit) : (s.bump u).ledger = s.ledger := rfl
@[simp] theorem State.bump_trim (s : State) (u : EdUnit) : (s.bump u).trim = s.trim := rfl
@[simp] theorem State.bump_noise (s : State) (u : EdUnit) : (s.bump u).noise = s.noise := rfl
@[simp] theorem State.bump_vault (s : State) (u : EdUnit) : (s.bump u).vault = s.vault := rfl
@[simp] theorem State.bump_ssw (s : State) (u : EdUnit) : (s.bump u).ssw = s.ssw := rfl
@[simp] theorem State.bump_tamper (s : State) (u : EdUnit) : (s.bump u).tamper = s.tamper := rfl
@[simp] theorem State.bump_gpio (s : State) (u : EdUnit) : (s.bump u).gpio = s.gpio := rfl
@[simp] theorem State.bump_rows (s : State) (u : EdUnit) : (s.bump u).rows = s.rows := rfl
@[simp] theorem State.bump_drawn (s : State) (u : EdUnit) : (s.bump u).drawn = s.drawn := rfl
@[simp] theorem State.bump_pending (s : State) (u : EdUnit) : (s.bump u).pending = s.pending := rfl

/-! ## A ticket is changed -/

@[simp] theorem State.updTicket_part (s : State) (n : Nat) (f : Ticket → Ticket) : (s.updTicket n f).part = s.part :=
    rfl
@[simp] theorem State.updTicket_cfg (s : State) (n : Nat) (f : Ticket → Ticket) : (s.updTicket n f).cfg = s.cfg := rfl
@[simp] theorem State.updTicket_sys (s : State) (n : Nat) (f : Ticket → Ticket) : (s.updTicket n f).sys = s.sys := rfl
@[simp] theorem State.updTicket_pwr (s : State) (n : Nat) (f : Ticket → Ticket) : (s.updTicket n f).pwr = s.pwr := rfl
@[simp] theorem State.updTicket_pads (s : State) (n : Nat) (f : Ticket → Ticket) : (s.updTicket n f).pads = s.pads :=
    rfl
@[simp] theorem State.updTicket_day (s : State) (n : Nat) (f : Ticket → Ticket) : (s.updTicket n f).day = s.day := rfl
@[simp] theorem State.updTicket_desk (s : State) (n : Nat) (f : Ticket → Ticket) : (s.updTicket n f).desk = s.desk :=
    rfl
@[simp] theorem State.updTicket_dport (s : State) (n : Nat) (f : Ticket → Ticket) : (s.updTicket n f).dport = s.dport :=
    rfl
@[simp] theorem State.updTicket_cport (s : State) (n : Nat) (f : Ticket → Ticket) : (s.updTicket n f).cport = s.cport :=
    rfl
@[simp] theorem State.updTicket_chute (s : State) (n : Nat) (f : Ticket → Ticket) : (s.updTicket n f).chute = s.chute :=
    rfl
@[simp] theorem State.updTicket_events (s : State) (n : Nat) (f : Ticket → Ticket) : (s.updTicket n f).events = s.events :=
    rfl
@[simp] theorem State.updTicket_orders (s : State) (n : Nat) (f : Ticket → Ticket) : (s.updTicket n f).orders = s.orders :=
    rfl
@[simp] theorem State.updTicket_store (s : State) (n : Nat) (f : Ticket → Ticket) : (s.updTicket n f).store = s.store :=
    rfl
@[simp] theorem State.updTicket_porter (s : State) (n : Nat) (f : Ticket → Ticket) : (s.updTicket n f).porter = s.porter :=
    rfl
@[simp] theorem State.updTicket_collate (s : State) (n : Nat) (f : Ticket → Ticket) : (s.updTicket n f).collate = s.collate :=
    rfl
@[simp] theorem State.updTicket_radio (s : State) (n : Nat) (f : Ticket → Ticket) : (s.updTicket n f).radio = s.radio :=
    rfl
@[simp] theorem State.updTicket_modem (s : State) (n : Nat) (f : Ticket → Ticket) : (s.updTicket n f).modem = s.modem :=
    rfl
@[simp] theorem State.updTicket_census (s : State) (n : Nat) (f : Ticket → Ticket) : (s.updTicket n f).census = s.census :=
    rfl
@[simp] theorem State.updTicket_frame (s : State) (n : Nat) (f : Ticket → Ticket) : (s.updTicket n f).frame = s.frame :=
    rfl
@[simp] theorem State.updTicket_link (s : State) (n : Nat) (f : Ticket → Ticket) : (s.updTicket n f).link = s.link :=
    rfl
@[simp] theorem State.updTicket_ledger (s : State) (n : Nat) (f : Ticket → Ticket) : (s.updTicket n f).ledger = s.ledger :=
    rfl
@[simp] theorem State.updTicket_trim (s : State) (n : Nat) (f : Ticket → Ticket) : (s.updTicket n f).trim = s.trim :=
    rfl
@[simp] theorem State.updTicket_noise (s : State) (n : Nat) (f : Ticket → Ticket) : (s.updTicket n f).noise = s.noise :=
    rfl
@[simp] theorem State.updTicket_vault (s : State) (n : Nat) (f : Ticket → Ticket) : (s.updTicket n f).vault = s.vault :=
    rfl
@[simp] theorem State.updTicket_ssw (s : State) (n : Nat) (f : Ticket → Ticket) : (s.updTicket n f).ssw = s.ssw := rfl
@[simp] theorem State.updTicket_tamper (s : State) (n : Nat) (f : Ticket → Ticket) : (s.updTicket n f).tamper = s.tamper :=
    rfl
@[simp] theorem State.updTicket_gpio (s : State) (n : Nat) (f : Ticket → Ticket) : (s.updTicket n f).gpio = s.gpio :=
    rfl
@[simp] theorem State.updTicket_rows (s : State) (n : Nat) (f : Ticket → Ticket) : (s.updTicket n f).rows = s.rows :=
    rfl
@[simp] theorem State.updTicket_ed (s : State) (n : Nat) (f : Ticket → Ticket) : (s.updTicket n f).ed = s.ed := rfl
@[simp] theorem State.updTicket_drawn (s : State) (n : Nat) (f : Ticket → Ticket) : (s.updTicket n f).drawn = s.drawn :=
    rfl
@[simp] theorem State.updTicket_pending (s : State) (n : Nat) (f : Ticket → Ticket) : (s.updTicket n f).pending = s.pending :=
    rfl

/-! ## The radio is changed -/

@[simp] theorem setRad_part (s : State) (f : RadioSt → RadioSt) : (setRad f s).part = s.part := rfl
@[simp] theorem setRad_cfg (s : State) (f : RadioSt → RadioSt) : (setRad f s).cfg = s.cfg := rfl
@[simp] theorem setRad_sys (s : State) (f : RadioSt → RadioSt) : (setRad f s).sys = s.sys := rfl
@[simp] theorem setRad_pwr (s : State) (f : RadioSt → RadioSt) : (setRad f s).pwr = s.pwr := rfl
@[simp] theorem setRad_pads (s : State) (f : RadioSt → RadioSt) : (setRad f s).pads = s.pads := rfl
@[simp] theorem setRad_day (s : State) (f : RadioSt → RadioSt) : (setRad f s).day = s.day := rfl
@[simp] theorem setRad_desk (s : State) (f : RadioSt → RadioSt) : (setRad f s).desk = s.desk := rfl
@[simp] theorem setRad_dport (s : State) (f : RadioSt → RadioSt) : (setRad f s).dport = s.dport := rfl
@[simp] theorem setRad_cport (s : State) (f : RadioSt → RadioSt) : (setRad f s).cport = s.cport := rfl
@[simp] theorem setRad_chute (s : State) (f : RadioSt → RadioSt) : (setRad f s).chute = s.chute := rfl
@[simp] theorem setRad_tickets (s : State) (f : RadioSt → RadioSt) : (setRad f s).tickets = s.tickets := rfl
@[simp] theorem setRad_events (s : State) (f : RadioSt → RadioSt) : (setRad f s).events = s.events := rfl
@[simp] theorem setRad_orders (s : State) (f : RadioSt → RadioSt) : (setRad f s).orders = s.orders := rfl
@[simp] theorem setRad_store (s : State) (f : RadioSt → RadioSt) : (setRad f s).store = s.store := rfl
@[simp] theorem setRad_porter (s : State) (f : RadioSt → RadioSt) : (setRad f s).porter = s.porter := rfl
@[simp] theorem setRad_collate (s : State) (f : RadioSt → RadioSt) : (setRad f s).collate = s.collate := rfl
@[simp] theorem setRad_modem (s : State) (f : RadioSt → RadioSt) : (setRad f s).modem = s.modem := rfl
@[simp] theorem setRad_census (s : State) (f : RadioSt → RadioSt) : (setRad f s).census = s.census := rfl
@[simp] theorem setRad_frame (s : State) (f : RadioSt → RadioSt) : (setRad f s).frame = s.frame := rfl
@[simp] theorem setRad_link (s : State) (f : RadioSt → RadioSt) : (setRad f s).link = s.link := rfl
@[simp] theorem setRad_ledger (s : State) (f : RadioSt → RadioSt) : (setRad f s).ledger = s.ledger := rfl
@[simp] theorem setRad_trim (s : State) (f : RadioSt → RadioSt) : (setRad f s).trim = s.trim := rfl
@[simp] theorem setRad_noise (s : State) (f : RadioSt → RadioSt) : (setRad f s).noise = s.noise := rfl
@[simp] theorem setRad_vault (s : State) (f : RadioSt → RadioSt) : (setRad f s).vault = s.vault := rfl
@[simp] theorem setRad_ssw (s : State) (f : RadioSt → RadioSt) : (setRad f s).ssw = s.ssw := rfl
@[simp] theorem setRad_tamper (s : State) (f : RadioSt → RadioSt) : (setRad f s).tamper = s.tamper := rfl
@[simp] theorem setRad_gpio (s : State) (f : RadioSt → RadioSt) : (setRad f s).gpio = s.gpio := rfl
@[simp] theorem setRad_rows (s : State) (f : RadioSt → RadioSt) : (setRad f s).rows = s.rows := rfl
@[simp] theorem setRad_ed (s : State) (f : RadioSt → RadioSt) : (setRad f s).ed = s.ed := rfl
@[simp] theorem setRad_drawn (s : State) (f : RadioSt → RadioSt) : (setRad f s).drawn = s.drawn := rfl
@[simp] theorem setRad_pending (s : State) (f : RadioSt → RadioSt) : (setRad f s).pending = s.pending := rfl

/-! ## The link is changed -/

@[simp] theorem setLink_part (s : State) (f : LinkSt → LinkSt) : (setLink f s).part = s.part := rfl
@[simp] theorem setLink_cfg (s : State) (f : LinkSt → LinkSt) : (setLink f s).cfg = s.cfg := rfl
@[simp] theorem setLink_sys (s : State) (f : LinkSt → LinkSt) : (setLink f s).sys = s.sys := rfl
@[simp] theorem setLink_pwr (s : State) (f : LinkSt → LinkSt) : (setLink f s).pwr = s.pwr := rfl
@[simp] theorem setLink_pads (s : State) (f : LinkSt → LinkSt) : (setLink f s).pads = s.pads := rfl
@[simp] theorem setLink_day (s : State) (f : LinkSt → LinkSt) : (setLink f s).day = s.day := rfl
@[simp] theorem setLink_desk (s : State) (f : LinkSt → LinkSt) : (setLink f s).desk = s.desk := rfl
@[simp] theorem setLink_dport (s : State) (f : LinkSt → LinkSt) : (setLink f s).dport = s.dport := rfl
@[simp] theorem setLink_cport (s : State) (f : LinkSt → LinkSt) : (setLink f s).cport = s.cport := rfl
@[simp] theorem setLink_chute (s : State) (f : LinkSt → LinkSt) : (setLink f s).chute = s.chute := rfl
@[simp] theorem setLink_tickets (s : State) (f : LinkSt → LinkSt) : (setLink f s).tickets = s.tickets := rfl
@[simp] theorem setLink_events (s : State) (f : LinkSt → LinkSt) : (setLink f s).events = s.events := rfl
@[simp] theorem setLink_orders (s : State) (f : LinkSt → LinkSt) : (setLink f s).orders = s.orders := rfl
@[simp] theorem setLink_store (s : State) (f : LinkSt → LinkSt) : (setLink f s).store = s.store := rfl
@[simp] theorem setLink_porter (s : State) (f : LinkSt → LinkSt) : (setLink f s).porter = s.porter := rfl
@[simp] theorem setLink_collate (s : State) (f : LinkSt → LinkSt) : (setLink f s).collate = s.collate := rfl
@[simp] theorem setLink_radio (s : State) (f : LinkSt → LinkSt) : (setLink f s).radio = s.radio := rfl
@[simp] theorem setLink_modem (s : State) (f : LinkSt → LinkSt) : (setLink f s).modem = s.modem := rfl
@[simp] theorem setLink_census (s : State) (f : LinkSt → LinkSt) : (setLink f s).census = s.census := rfl
@[simp] theorem setLink_frame (s : State) (f : LinkSt → LinkSt) : (setLink f s).frame = s.frame := rfl
@[simp] theorem setLink_ledger (s : State) (f : LinkSt → LinkSt) : (setLink f s).ledger = s.ledger := rfl
@[simp] theorem setLink_trim (s : State) (f : LinkSt → LinkSt) : (setLink f s).trim = s.trim := rfl
@[simp] theorem setLink_noise (s : State) (f : LinkSt → LinkSt) : (setLink f s).noise = s.noise := rfl
@[simp] theorem setLink_vault (s : State) (f : LinkSt → LinkSt) : (setLink f s).vault = s.vault := rfl
@[simp] theorem setLink_ssw (s : State) (f : LinkSt → LinkSt) : (setLink f s).ssw = s.ssw := rfl
@[simp] theorem setLink_tamper (s : State) (f : LinkSt → LinkSt) : (setLink f s).tamper = s.tamper := rfl
@[simp] theorem setLink_gpio (s : State) (f : LinkSt → LinkSt) : (setLink f s).gpio = s.gpio := rfl
@[simp] theorem setLink_rows (s : State) (f : LinkSt → LinkSt) : (setLink f s).rows = s.rows := rfl
@[simp] theorem setLink_ed (s : State) (f : LinkSt → LinkSt) : (setLink f s).ed = s.ed := rfl
@[simp] theorem setLink_drawn (s : State) (f : LinkSt → LinkSt) : (setLink f s).drawn = s.drawn := rfl
@[simp] theorem setLink_pending (s : State) (f : LinkSt → LinkSt) : (setLink f s).pending = s.pending := rfl

/-! ## An alarm is set -/

@[simp] theorem State.setAlarm_part (s : State) (a : Nat) (x : Alarm) : (s.setAlarm a x).part = s.part := rfl
@[simp] theorem State.setAlarm_cfg (s : State) (a : Nat) (x : Alarm) : (s.setAlarm a x).cfg = s.cfg := rfl
@[simp] theorem State.setAlarm_sys (s : State) (a : Nat) (x : Alarm) : (s.setAlarm a x).sys = s.sys := rfl
@[simp] theorem State.setAlarm_pwr (s : State) (a : Nat) (x : Alarm) : (s.setAlarm a x).pwr = s.pwr := rfl
@[simp] theorem State.setAlarm_pads (s : State) (a : Nat) (x : Alarm) : (s.setAlarm a x).pads = s.pads := rfl
@[simp] theorem State.setAlarm_desk (s : State) (a : Nat) (x : Alarm) : (s.setAlarm a x).desk = s.desk := rfl
@[simp] theorem State.setAlarm_dport (s : State) (a : Nat) (x : Alarm) : (s.setAlarm a x).dport = s.dport := rfl
@[simp] theorem State.setAlarm_cport (s : State) (a : Nat) (x : Alarm) : (s.setAlarm a x).cport = s.cport := rfl
@[simp] theorem State.setAlarm_chute (s : State) (a : Nat) (x : Alarm) : (s.setAlarm a x).chute = s.chute := rfl
@[simp] theorem State.setAlarm_tickets (s : State) (a : Nat) (x : Alarm) : (s.setAlarm a x).tickets = s.tickets := rfl
@[simp] theorem State.setAlarm_events (s : State) (a : Nat) (x : Alarm) : (s.setAlarm a x).events = s.events := rfl
@[simp] theorem State.setAlarm_orders (s : State) (a : Nat) (x : Alarm) : (s.setAlarm a x).orders = s.orders := rfl
@[simp] theorem State.setAlarm_store (s : State) (a : Nat) (x : Alarm) : (s.setAlarm a x).store = s.store := rfl
@[simp] theorem State.setAlarm_porter (s : State) (a : Nat) (x : Alarm) : (s.setAlarm a x).porter = s.porter := rfl
@[simp] theorem State.setAlarm_collate (s : State) (a : Nat) (x : Alarm) : (s.setAlarm a x).collate = s.collate := rfl
@[simp] theorem State.setAlarm_radio (s : State) (a : Nat) (x : Alarm) : (s.setAlarm a x).radio = s.radio := rfl
@[simp] theorem State.setAlarm_modem (s : State) (a : Nat) (x : Alarm) : (s.setAlarm a x).modem = s.modem := rfl
@[simp] theorem State.setAlarm_census (s : State) (a : Nat) (x : Alarm) : (s.setAlarm a x).census = s.census := rfl
@[simp] theorem State.setAlarm_frame (s : State) (a : Nat) (x : Alarm) : (s.setAlarm a x).frame = s.frame := rfl
@[simp] theorem State.setAlarm_link (s : State) (a : Nat) (x : Alarm) : (s.setAlarm a x).link = s.link := rfl
@[simp] theorem State.setAlarm_ledger (s : State) (a : Nat) (x : Alarm) : (s.setAlarm a x).ledger = s.ledger := rfl
@[simp] theorem State.setAlarm_trim (s : State) (a : Nat) (x : Alarm) : (s.setAlarm a x).trim = s.trim := rfl
@[simp] theorem State.setAlarm_noise (s : State) (a : Nat) (x : Alarm) : (s.setAlarm a x).noise = s.noise := rfl
@[simp] theorem State.setAlarm_vault (s : State) (a : Nat) (x : Alarm) : (s.setAlarm a x).vault = s.vault := rfl
@[simp] theorem State.setAlarm_ssw (s : State) (a : Nat) (x : Alarm) : (s.setAlarm a x).ssw = s.ssw := rfl
@[simp] theorem State.setAlarm_tamper (s : State) (a : Nat) (x : Alarm) : (s.setAlarm a x).tamper = s.tamper := rfl
@[simp] theorem State.setAlarm_gpio (s : State) (a : Nat) (x : Alarm) : (s.setAlarm a x).gpio = s.gpio := rfl
@[simp] theorem State.setAlarm_rows (s : State) (a : Nat) (x : Alarm) : (s.setAlarm a x).rows = s.rows := rfl
@[simp] theorem State.setAlarm_ed (s : State) (a : Nat) (x : Alarm) : (s.setAlarm a x).ed = s.ed := rfl
@[simp] theorem State.setAlarm_drawn (s : State) (a : Nat) (x : Alarm) : (s.setAlarm a x).drawn = s.drawn := rfl
@[simp] theorem State.setAlarm_pending (s : State) (a : Nat) (x : Alarm) : (s.setAlarm a x).pending = s.pending := rfl

/-! ## A Collator is changed -/

@[simp] theorem State.setCol_part (s : State) (n : Nat) (c : Collator) : (s.setCol n c).part = s.part := rfl
@[simp] theorem State.setCol_cfg (s : State) (n : Nat) (c : Collator) : (s.setCol n c).cfg = s.cfg := rfl
@[simp] theorem State.setCol_sys (s : State) (n : Nat) (c : Collator) : (s.setCol n c).sys = s.sys := rfl
@[simp] theorem State.setCol_pwr (s : State) (n : Nat) (c : Collator) : (s.setCol n c).pwr = s.pwr := rfl
@[simp] theorem State.setCol_pads (s : State) (n : Nat) (c : Collator) : (s.setCol n c).pads = s.pads := rfl
@[simp] theorem State.setCol_day (s : State) (n : Nat) (c : Collator) : (s.setCol n c).day = s.day := rfl
@[simp] theorem State.setCol_desk (s : State) (n : Nat) (c : Collator) : (s.setCol n c).desk = s.desk := rfl
@[simp] theorem State.setCol_dport (s : State) (n : Nat) (c : Collator) : (s.setCol n c).dport = s.dport := rfl
@[simp] theorem State.setCol_cport (s : State) (n : Nat) (c : Collator) : (s.setCol n c).cport = s.cport := rfl
@[simp] theorem State.setCol_chute (s : State) (n : Nat) (c : Collator) : (s.setCol n c).chute = s.chute := rfl
@[simp] theorem State.setCol_tickets (s : State) (n : Nat) (c : Collator) : (s.setCol n c).tickets = s.tickets := rfl
@[simp] theorem State.setCol_events (s : State) (n : Nat) (c : Collator) : (s.setCol n c).events = s.events := rfl
@[simp] theorem State.setCol_orders (s : State) (n : Nat) (c : Collator) : (s.setCol n c).orders = s.orders := rfl
@[simp] theorem State.setCol_store (s : State) (n : Nat) (c : Collator) : (s.setCol n c).store = s.store := rfl
@[simp] theorem State.setCol_porter (s : State) (n : Nat) (c : Collator) : (s.setCol n c).porter = s.porter := rfl
@[simp] theorem State.setCol_radio (s : State) (n : Nat) (c : Collator) : (s.setCol n c).radio = s.radio := rfl
@[simp] theorem State.setCol_modem (s : State) (n : Nat) (c : Collator) : (s.setCol n c).modem = s.modem := rfl
@[simp] theorem State.setCol_census (s : State) (n : Nat) (c : Collator) : (s.setCol n c).census = s.census := rfl
@[simp] theorem State.setCol_frame (s : State) (n : Nat) (c : Collator) : (s.setCol n c).frame = s.frame := rfl
@[simp] theorem State.setCol_link (s : State) (n : Nat) (c : Collator) : (s.setCol n c).link = s.link := rfl
@[simp] theorem State.setCol_ledger (s : State) (n : Nat) (c : Collator) : (s.setCol n c).ledger = s.ledger := rfl
@[simp] theorem State.setCol_trim (s : State) (n : Nat) (c : Collator) : (s.setCol n c).trim = s.trim := rfl
@[simp] theorem State.setCol_noise (s : State) (n : Nat) (c : Collator) : (s.setCol n c).noise = s.noise := rfl
@[simp] theorem State.setCol_vault (s : State) (n : Nat) (c : Collator) : (s.setCol n c).vault = s.vault := rfl
@[simp] theorem State.setCol_ssw (s : State) (n : Nat) (c : Collator) : (s.setCol n c).ssw = s.ssw := rfl
@[simp] theorem State.setCol_tamper (s : State) (n : Nat) (c : Collator) : (s.setCol n c).tamper = s.tamper := rfl
@[simp] theorem State.setCol_gpio (s : State) (n : Nat) (c : Collator) : (s.setCol n c).gpio = s.gpio := rfl
@[simp] theorem State.setCol_rows (s : State) (n : Nat) (c : Collator) : (s.setCol n c).rows = s.rows := rfl
@[simp] theorem State.setCol_ed (s : State) (n : Nat) (c : Collator) : (s.setCol n c).ed = s.ed := rfl
@[simp] theorem State.setCol_drawn (s : State) (n : Nat) (c : Collator) : (s.setCol n c).drawn = s.drawn := rfl
@[simp] theorem State.setCol_pending (s : State) (n : Nat) (c : Collator) : (s.setCol n c).pending = s.pending := rfl

/-! ## A channel of the Porter is changed -/

@[simp] theorem State.setChan_part (s : State) (n : Nat) (c : Chan) : (s.setChan n c).part = s.part := rfl
@[simp] theorem State.setChan_cfg (s : State) (n : Nat) (c : Chan) : (s.setChan n c).cfg = s.cfg := rfl
@[simp] theorem State.setChan_sys (s : State) (n : Nat) (c : Chan) : (s.setChan n c).sys = s.sys := rfl
@[simp] theorem State.setChan_pwr (s : State) (n : Nat) (c : Chan) : (s.setChan n c).pwr = s.pwr := rfl
@[simp] theorem State.setChan_pads (s : State) (n : Nat) (c : Chan) : (s.setChan n c).pads = s.pads := rfl
@[simp] theorem State.setChan_day (s : State) (n : Nat) (c : Chan) : (s.setChan n c).day = s.day := rfl
@[simp] theorem State.setChan_desk (s : State) (n : Nat) (c : Chan) : (s.setChan n c).desk = s.desk := rfl
@[simp] theorem State.setChan_dport (s : State) (n : Nat) (c : Chan) : (s.setChan n c).dport = s.dport := rfl
@[simp] theorem State.setChan_cport (s : State) (n : Nat) (c : Chan) : (s.setChan n c).cport = s.cport := rfl
@[simp] theorem State.setChan_chute (s : State) (n : Nat) (c : Chan) : (s.setChan n c).chute = s.chute := rfl
@[simp] theorem State.setChan_tickets (s : State) (n : Nat) (c : Chan) : (s.setChan n c).tickets = s.tickets := rfl
@[simp] theorem State.setChan_events (s : State) (n : Nat) (c : Chan) : (s.setChan n c).events = s.events := rfl
@[simp] theorem State.setChan_orders (s : State) (n : Nat) (c : Chan) : (s.setChan n c).orders = s.orders := rfl
@[simp] theorem State.setChan_store (s : State) (n : Nat) (c : Chan) : (s.setChan n c).store = s.store := rfl
@[simp] theorem State.setChan_collate (s : State) (n : Nat) (c : Chan) : (s.setChan n c).collate = s.collate := rfl
@[simp] theorem State.setChan_radio (s : State) (n : Nat) (c : Chan) : (s.setChan n c).radio = s.radio := rfl
@[simp] theorem State.setChan_modem (s : State) (n : Nat) (c : Chan) : (s.setChan n c).modem = s.modem := rfl
@[simp] theorem State.setChan_census (s : State) (n : Nat) (c : Chan) : (s.setChan n c).census = s.census := rfl
@[simp] theorem State.setChan_frame (s : State) (n : Nat) (c : Chan) : (s.setChan n c).frame = s.frame := rfl
@[simp] theorem State.setChan_link (s : State) (n : Nat) (c : Chan) : (s.setChan n c).link = s.link := rfl
@[simp] theorem State.setChan_ledger (s : State) (n : Nat) (c : Chan) : (s.setChan n c).ledger = s.ledger := rfl
@[simp] theorem State.setChan_trim (s : State) (n : Nat) (c : Chan) : (s.setChan n c).trim = s.trim := rfl
@[simp] theorem State.setChan_noise (s : State) (n : Nat) (c : Chan) : (s.setChan n c).noise = s.noise := rfl
@[simp] theorem State.setChan_vault (s : State) (n : Nat) (c : Chan) : (s.setChan n c).vault = s.vault := rfl
@[simp] theorem State.setChan_ssw (s : State) (n : Nat) (c : Chan) : (s.setChan n c).ssw = s.ssw := rfl
@[simp] theorem State.setChan_tamper (s : State) (n : Nat) (c : Chan) : (s.setChan n c).tamper = s.tamper := rfl
@[simp] theorem State.setChan_gpio (s : State) (n : Nat) (c : Chan) : (s.setChan n c).gpio = s.gpio := rfl
@[simp] theorem State.setChan_rows (s : State) (n : Nat) (c : Chan) : (s.setChan n c).rows = s.rows := rfl
@[simp] theorem State.setChan_ed (s : State) (n : Nat) (c : Chan) : (s.setChan n c).ed = s.ed := rfl
@[simp] theorem State.setChan_drawn (s : State) (n : Nat) (c : Chan) : (s.setChan n c).drawn = s.drawn := rfl
@[simp] theorem State.setChan_pending (s : State) (n : Nat) (c : Chan) : (s.setChan n c).pending = s.pending := rfl

/-! ## The trim run is changed -/

@[simp] theorem State.setRun_part (s : State) (f : TrimRun → TrimRun) : (s.setRun f).part = s.part := rfl
@[simp] theorem State.setRun_cfg (s : State) (f : TrimRun → TrimRun) : (s.setRun f).cfg = s.cfg := rfl
@[simp] theorem State.setRun_sys (s : State) (f : TrimRun → TrimRun) : (s.setRun f).sys = s.sys := rfl
@[simp] theorem State.setRun_pwr (s : State) (f : TrimRun → TrimRun) : (s.setRun f).pwr = s.pwr := rfl
@[simp] theorem State.setRun_pads (s : State) (f : TrimRun → TrimRun) : (s.setRun f).pads = s.pads := rfl
@[simp] theorem State.setRun_day (s : State) (f : TrimRun → TrimRun) : (s.setRun f).day = s.day := rfl
@[simp] theorem State.setRun_desk (s : State) (f : TrimRun → TrimRun) : (s.setRun f).desk = s.desk := rfl
@[simp] theorem State.setRun_dport (s : State) (f : TrimRun → TrimRun) : (s.setRun f).dport = s.dport := rfl
@[simp] theorem State.setRun_cport (s : State) (f : TrimRun → TrimRun) : (s.setRun f).cport = s.cport := rfl
@[simp] theorem State.setRun_chute (s : State) (f : TrimRun → TrimRun) : (s.setRun f).chute = s.chute := rfl
@[simp] theorem State.setRun_tickets (s : State) (f : TrimRun → TrimRun) : (s.setRun f).tickets = s.tickets := rfl
@[simp] theorem State.setRun_events (s : State) (f : TrimRun → TrimRun) : (s.setRun f).events = s.events := rfl
@[simp] theorem State.setRun_orders (s : State) (f : TrimRun → TrimRun) : (s.setRun f).orders = s.orders := rfl
@[simp] theorem State.setRun_store (s : State) (f : TrimRun → TrimRun) : (s.setRun f).store = s.store := rfl
@[simp] theorem State.setRun_porter (s : State) (f : TrimRun → TrimRun) : (s.setRun f).porter = s.porter := rfl
@[simp] theorem State.setRun_collate (s : State) (f : TrimRun → TrimRun) : (s.setRun f).collate = s.collate := rfl
@[simp] theorem State.setRun_radio (s : State) (f : TrimRun → TrimRun) : (s.setRun f).radio = s.radio := rfl
@[simp] theorem State.setRun_modem (s : State) (f : TrimRun → TrimRun) : (s.setRun f).modem = s.modem := rfl
@[simp] theorem State.setRun_census (s : State) (f : TrimRun → TrimRun) : (s.setRun f).census = s.census := rfl
@[simp] theorem State.setRun_frame (s : State) (f : TrimRun → TrimRun) : (s.setRun f).frame = s.frame := rfl
@[simp] theorem State.setRun_link (s : State) (f : TrimRun → TrimRun) : (s.setRun f).link = s.link := rfl
@[simp] theorem State.setRun_ledger (s : State) (f : TrimRun → TrimRun) : (s.setRun f).ledger = s.ledger := rfl
@[simp] theorem State.setRun_noise (s : State) (f : TrimRun → TrimRun) : (s.setRun f).noise = s.noise := rfl
@[simp] theorem State.setRun_vault (s : State) (f : TrimRun → TrimRun) : (s.setRun f).vault = s.vault := rfl
@[simp] theorem State.setRun_ssw (s : State) (f : TrimRun → TrimRun) : (s.setRun f).ssw = s.ssw := rfl
@[simp] theorem State.setRun_tamper (s : State) (f : TrimRun → TrimRun) : (s.setRun f).tamper = s.tamper := rfl
@[simp] theorem State.setRun_gpio (s : State) (f : TrimRun → TrimRun) : (s.setRun f).gpio = s.gpio := rfl
@[simp] theorem State.setRun_rows (s : State) (f : TrimRun → TrimRun) : (s.setRun f).rows = s.rows := rfl
@[simp] theorem State.setRun_ed (s : State) (f : TrimRun → TrimRun) : (s.setRun f).ed = s.ed := rfl
@[simp] theorem State.setRun_drawn (s : State) (f : TrimRun → TrimRun) : (s.setRun f).drawn = s.drawn := rfl
@[simp] theorem State.setRun_pending (s : State) (f : TrimRun → TrimRun) : (s.setRun f).pending = s.pending := rfl

/-! ## The draft is replaced -/

@[simp] theorem State.putDraft_part (s : State) (d : List String) : (s.putDraft d).part = s.part := rfl
@[simp] theorem State.putDraft_cfg (s : State) (d : List String) : (s.putDraft d).cfg = s.cfg := rfl
@[simp] theorem State.putDraft_sys (s : State) (d : List String) : (s.putDraft d).sys = s.sys := rfl
@[simp] theorem State.putDraft_pwr (s : State) (d : List String) : (s.putDraft d).pwr = s.pwr := rfl
@[simp] theorem State.putDraft_pads (s : State) (d : List String) : (s.putDraft d).pads = s.pads := rfl
@[simp] theorem State.putDraft_day (s : State) (d : List String) : (s.putDraft d).day = s.day := rfl
@[simp] theorem State.putDraft_desk (s : State) (d : List String) : (s.putDraft d).desk = s.desk := rfl
@[simp] theorem State.putDraft_dport (s : State) (d : List String) : (s.putDraft d).dport = s.dport := rfl
@[simp] theorem State.putDraft_cport (s : State) (d : List String) : (s.putDraft d).cport = s.cport := rfl
@[simp] theorem State.putDraft_chute (s : State) (d : List String) : (s.putDraft d).chute = s.chute := rfl
@[simp] theorem State.putDraft_tickets (s : State) (d : List String) : (s.putDraft d).tickets = s.tickets := rfl
@[simp] theorem State.putDraft_events (s : State) (d : List String) : (s.putDraft d).events = s.events := rfl
@[simp] theorem State.putDraft_store (s : State) (d : List String) : (s.putDraft d).store = s.store := rfl
@[simp] theorem State.putDraft_porter (s : State) (d : List String) : (s.putDraft d).porter = s.porter := rfl
@[simp] theorem State.putDraft_collate (s : State) (d : List String) : (s.putDraft d).collate = s.collate := rfl
@[simp] theorem State.putDraft_radio (s : State) (d : List String) : (s.putDraft d).radio = s.radio := rfl
@[simp] theorem State.putDraft_modem (s : State) (d : List String) : (s.putDraft d).modem = s.modem := rfl
@[simp] theorem State.putDraft_census (s : State) (d : List String) : (s.putDraft d).census = s.census := rfl
@[simp] theorem State.putDraft_frame (s : State) (d : List String) : (s.putDraft d).frame = s.frame := rfl
@[simp] theorem State.putDraft_link (s : State) (d : List String) : (s.putDraft d).link = s.link := rfl
@[simp] theorem State.putDraft_ledger (s : State) (d : List String) : (s.putDraft d).ledger = s.ledger := rfl
@[simp] theorem State.putDraft_trim (s : State) (d : List String) : (s.putDraft d).trim = s.trim := rfl
@[simp] theorem State.putDraft_noise (s : State) (d : List String) : (s.putDraft d).noise = s.noise := rfl
@[simp] theorem State.putDraft_vault (s : State) (d : List String) : (s.putDraft d).vault = s.vault := rfl
@[simp] theorem State.putDraft_ssw (s : State) (d : List String) : (s.putDraft d).ssw = s.ssw := rfl
@[simp] theorem State.putDraft_tamper (s : State) (d : List String) : (s.putDraft d).tamper = s.tamper := rfl
@[simp] theorem State.putDraft_gpio (s : State) (d : List String) : (s.putDraft d).gpio = s.gpio := rfl
@[simp] theorem State.putDraft_rows (s : State) (d : List String) : (s.putDraft d).rows = s.rows := rfl
@[simp] theorem State.putDraft_ed (s : State) (d : List String) : (s.putDraft d).ed = s.ed := rfl
@[simp] theorem State.putDraft_drawn (s : State) (d : List String) : (s.putDraft d).drawn = s.drawn := rfl
@[simp] theorem State.putDraft_pending (s : State) (d : List String) : (s.putDraft d).pending = s.pending := rfl

/-! ## A condition ends -/

@[simp] theorem State.condOff_part (s : State) (n : Nat) : (s.condOff n).part = s.part := rfl
@[simp] theorem State.condOff_cfg (s : State) (n : Nat) : (s.condOff n).cfg = s.cfg := rfl
@[simp] theorem State.condOff_sys (s : State) (n : Nat) : (s.condOff n).sys = s.sys := rfl
@[simp] theorem State.condOff_pwr (s : State) (n : Nat) : (s.condOff n).pwr = s.pwr := rfl
@[simp] theorem State.condOff_pads (s : State) (n : Nat) : (s.condOff n).pads = s.pads := rfl
@[simp] theorem State.condOff_day (s : State) (n : Nat) : (s.condOff n).day = s.day := rfl
@[simp] theorem State.condOff_desk (s : State) (n : Nat) : (s.condOff n).desk = s.desk := rfl
@[simp] theorem State.condOff_dport (s : State) (n : Nat) : (s.condOff n).dport = s.dport := rfl
@[simp] theorem State.condOff_cport (s : State) (n : Nat) : (s.condOff n).cport = s.cport := rfl
@[simp] theorem State.condOff_chute (s : State) (n : Nat) : (s.condOff n).chute = s.chute := rfl
@[simp] theorem State.condOff_tickets (s : State) (n : Nat) : (s.condOff n).tickets = s.tickets := rfl
@[simp] theorem State.condOff_orders (s : State) (n : Nat) : (s.condOff n).orders = s.orders := rfl
@[simp] theorem State.condOff_store (s : State) (n : Nat) : (s.condOff n).store = s.store := rfl
@[simp] theorem State.condOff_porter (s : State) (n : Nat) : (s.condOff n).porter = s.porter := rfl
@[simp] theorem State.condOff_collate (s : State) (n : Nat) : (s.condOff n).collate = s.collate := rfl
@[simp] theorem State.condOff_radio (s : State) (n : Nat) : (s.condOff n).radio = s.radio := rfl
@[simp] theorem State.condOff_modem (s : State) (n : Nat) : (s.condOff n).modem = s.modem := rfl
@[simp] theorem State.condOff_census (s : State) (n : Nat) : (s.condOff n).census = s.census := rfl
@[simp] theorem State.condOff_frame (s : State) (n : Nat) : (s.condOff n).frame = s.frame := rfl
@[simp] theorem State.condOff_link (s : State) (n : Nat) : (s.condOff n).link = s.link := rfl
@[simp] theorem State.condOff_ledger (s : State) (n : Nat) : (s.condOff n).ledger = s.ledger := rfl
@[simp] theorem State.condOff_trim (s : State) (n : Nat) : (s.condOff n).trim = s.trim := rfl
@[simp] theorem State.condOff_noise (s : State) (n : Nat) : (s.condOff n).noise = s.noise := rfl
@[simp] theorem State.condOff_vault (s : State) (n : Nat) : (s.condOff n).vault = s.vault := rfl
@[simp] theorem State.condOff_ssw (s : State) (n : Nat) : (s.condOff n).ssw = s.ssw := rfl
@[simp] theorem State.condOff_tamper (s : State) (n : Nat) : (s.condOff n).tamper = s.tamper := rfl
@[simp] theorem State.condOff_gpio (s : State) (n : Nat) : (s.condOff n).gpio = s.gpio := rfl
@[simp] theorem State.condOff_rows (s : State) (n : Nat) : (s.condOff n).rows = s.rows := rfl
@[simp] theorem State.condOff_ed (s : State) (n : Nat) : (s.condOff n).ed = s.ed := rfl
@[simp] theorem State.condOff_drawn (s : State) (n : Nat) : (s.condOff n).drawn = s.drawn := rfl
@[simp] theorem State.condOff_pending (s : State) (n : Nat) : (s.condOff n).pending = s.pending := rfl

/-! ## The Reading Room is written -/

@[simp] theorem State.carrelWrite_part (s : State) (a : Nat) (o : List Byte) : (s.carrelWrite a o).part = s.part := rfl
@[simp] theorem State.carrelWrite_cfg (s : State) (a : Nat) (o : List Byte) : (s.carrelWrite a o).cfg = s.cfg := rfl
@[simp] theorem State.carrelWrite_sys (s : State) (a : Nat) (o : List Byte) : (s.carrelWrite a o).sys = s.sys := rfl
@[simp] theorem State.carrelWrite_pwr (s : State) (a : Nat) (o : List Byte) : (s.carrelWrite a o).pwr = s.pwr := rfl
@[simp] theorem State.carrelWrite_pads (s : State) (a : Nat) (o : List Byte) : (s.carrelWrite a o).pads = s.pads := rfl
@[simp] theorem State.carrelWrite_day (s : State) (a : Nat) (o : List Byte) : (s.carrelWrite a o).day = s.day := rfl
@[simp] theorem State.carrelWrite_desk (s : State) (a : Nat) (o : List Byte) : (s.carrelWrite a o).desk = s.desk := rfl
@[simp] theorem State.carrelWrite_dport (s : State) (a : Nat) (o : List Byte) : (s.carrelWrite a o).dport = s.dport :=
    rfl
@[simp] theorem State.carrelWrite_cport (s : State) (a : Nat) (o : List Byte) : (s.carrelWrite a o).cport = s.cport :=
    rfl
@[simp] theorem State.carrelWrite_chute (s : State) (a : Nat) (o : List Byte) : (s.carrelWrite a o).chute = s.chute :=
    rfl
@[simp] theorem State.carrelWrite_tickets (s : State) (a : Nat) (o : List Byte) : (s.carrelWrite a o).tickets = s.tickets :=
    rfl
@[simp] theorem State.carrelWrite_events (s : State) (a : Nat) (o : List Byte) : (s.carrelWrite a o).events = s.events :=
    rfl
@[simp] theorem State.carrelWrite_orders (s : State) (a : Nat) (o : List Byte) : (s.carrelWrite a o).orders = s.orders :=
    rfl
@[simp] theorem State.carrelWrite_porter (s : State) (a : Nat) (o : List Byte) : (s.carrelWrite a o).porter = s.porter :=
    rfl
@[simp] theorem State.carrelWrite_collate (s : State) (a : Nat) (o : List Byte) : (s.carrelWrite a o).collate = s.collate :=
    rfl
@[simp] theorem State.carrelWrite_radio (s : State) (a : Nat) (o : List Byte) : (s.carrelWrite a o).radio = s.radio :=
    rfl
@[simp] theorem State.carrelWrite_modem (s : State) (a : Nat) (o : List Byte) : (s.carrelWrite a o).modem = s.modem :=
    rfl
@[simp] theorem State.carrelWrite_census (s : State) (a : Nat) (o : List Byte) : (s.carrelWrite a o).census = s.census :=
    rfl
@[simp] theorem State.carrelWrite_frame (s : State) (a : Nat) (o : List Byte) : (s.carrelWrite a o).frame = s.frame :=
    rfl
@[simp] theorem State.carrelWrite_link (s : State) (a : Nat) (o : List Byte) : (s.carrelWrite a o).link = s.link := rfl
@[simp] theorem State.carrelWrite_ledger (s : State) (a : Nat) (o : List Byte) : (s.carrelWrite a o).ledger = s.ledger :=
    rfl
@[simp] theorem State.carrelWrite_trim (s : State) (a : Nat) (o : List Byte) : (s.carrelWrite a o).trim = s.trim := rfl
@[simp] theorem State.carrelWrite_noise (s : State) (a : Nat) (o : List Byte) : (s.carrelWrite a o).noise = s.noise :=
    rfl
@[simp] theorem State.carrelWrite_vault (s : State) (a : Nat) (o : List Byte) : (s.carrelWrite a o).vault = s.vault :=
    rfl
@[simp] theorem State.carrelWrite_ssw (s : State) (a : Nat) (o : List Byte) : (s.carrelWrite a o).ssw = s.ssw := rfl
@[simp] theorem State.carrelWrite_tamper (s : State) (a : Nat) (o : List Byte) : (s.carrelWrite a o).tamper = s.tamper :=
    rfl
@[simp] theorem State.carrelWrite_gpio (s : State) (a : Nat) (o : List Byte) : (s.carrelWrite a o).gpio = s.gpio := rfl
@[simp] theorem State.carrelWrite_rows (s : State) (a : Nat) (o : List Byte) : (s.carrelWrite a o).rows = s.rows := rfl
@[simp] theorem State.carrelWrite_ed (s : State) (a : Nat) (o : List Byte) : (s.carrelWrite a o).ed = s.ed := rfl
@[simp] theorem State.carrelWrite_drawn (s : State) (a : Nat) (o : List Byte) : (s.carrelWrite a o).drawn = s.drawn :=
    rfl
@[simp] theorem State.carrelWrite_pending (s : State) (a : Nat) (o : List Byte) : (s.carrelWrite a o).pending = s.pending :=
    rfl

/-! ## Pads are released -/

@[simp] theorem State.release_part (s : State) (m : Word) : (s.release m).part = s.part := rfl
@[simp] theorem State.release_cfg (s : State) (m : Word) : (s.release m).cfg = s.cfg := rfl
@[simp] theorem State.release_sys (s : State) (m : Word) : (s.release m).sys = s.sys := rfl
@[simp] theorem State.release_pwr (s : State) (m : Word) : (s.release m).pwr = s.pwr := rfl
@[simp] theorem State.release_day (s : State) (m : Word) : (s.release m).day = s.day := rfl
@[simp] theorem State.release_desk (s : State) (m : Word) : (s.release m).desk = s.desk := rfl
@[simp] theorem State.release_dport (s : State) (m : Word) : (s.release m).dport = s.dport := rfl
@[simp] theorem State.release_cport (s : State) (m : Word) : (s.release m).cport = s.cport := rfl
@[simp] theorem State.release_chute (s : State) (m : Word) : (s.release m).chute = s.chute := rfl
@[simp] theorem State.release_tickets (s : State) (m : Word) : (s.release m).tickets = s.tickets := rfl
@[simp] theorem State.release_events (s : State) (m : Word) : (s.release m).events = s.events := rfl
@[simp] theorem State.release_orders (s : State) (m : Word) : (s.release m).orders = s.orders := rfl
@[simp] theorem State.release_store (s : State) (m : Word) : (s.release m).store = s.store := rfl
@[simp] theorem State.release_porter (s : State) (m : Word) : (s.release m).porter = s.porter := rfl
@[simp] theorem State.release_collate (s : State) (m : Word) : (s.release m).collate = s.collate := rfl
@[simp] theorem State.release_radio (s : State) (m : Word) : (s.release m).radio = s.radio := rfl
@[simp] theorem State.release_modem (s : State) (m : Word) : (s.release m).modem = s.modem := rfl
@[simp] theorem State.release_census (s : State) (m : Word) : (s.release m).census = s.census := rfl
@[simp] theorem State.release_frame (s : State) (m : Word) : (s.release m).frame = s.frame := rfl
@[simp] theorem State.release_link (s : State) (m : Word) : (s.release m).link = s.link := rfl
@[simp] theorem State.release_ledger (s : State) (m : Word) : (s.release m).ledger = s.ledger := rfl
@[simp] theorem State.release_trim (s : State) (m : Word) : (s.release m).trim = s.trim := rfl
@[simp] theorem State.release_noise (s : State) (m : Word) : (s.release m).noise = s.noise := rfl
@[simp] theorem State.release_vault (s : State) (m : Word) : (s.release m).vault = s.vault := rfl
@[simp] theorem State.release_ssw (s : State) (m : Word) : (s.release m).ssw = s.ssw := rfl
@[simp] theorem State.release_tamper (s : State) (m : Word) : (s.release m).tamper = s.tamper := rfl
@[simp] theorem State.release_gpio (s : State) (m : Word) : (s.release m).gpio = s.gpio := rfl
@[simp] theorem State.release_rows (s : State) (m : Word) : (s.release m).rows = s.rows := rfl
@[simp] theorem State.release_ed (s : State) (m : Word) : (s.release m).ed = s.ed := rfl
@[simp] theorem State.release_drawn (s : State) (m : Word) : (s.release m).drawn = s.drawn := rfl
@[simp] theorem State.release_pending (s : State) (m : Word) : (s.release m).pending = s.pending := rfl

/-! ## A schedule is armed -/

@[simp] theorem State.scheduleOrder_part (s : State) (k v : Nat) : (s.scheduleOrder k v).part = s.part := rfl
@[simp] theorem State.scheduleOrder_cfg (s : State) (k v : Nat) : (s.scheduleOrder k v).cfg = s.cfg := rfl
@[simp] theorem State.scheduleOrder_sys (s : State) (k v : Nat) : (s.scheduleOrder k v).sys = s.sys := rfl
@[simp] theorem State.scheduleOrder_pwr (s : State) (k v : Nat) : (s.scheduleOrder k v).pwr = s.pwr := rfl
@[simp] theorem State.scheduleOrder_pads (s : State) (k v : Nat) : (s.scheduleOrder k v).pads = s.pads := rfl
@[simp] theorem State.scheduleOrder_day (s : State) (k v : Nat) : (s.scheduleOrder k v).day = s.day := rfl
@[simp] theorem State.scheduleOrder_desk (s : State) (k v : Nat) : (s.scheduleOrder k v).desk = s.desk := rfl
@[simp] theorem State.scheduleOrder_dport (s : State) (k v : Nat) : (s.scheduleOrder k v).dport = s.dport := rfl
@[simp] theorem State.scheduleOrder_cport (s : State) (k v : Nat) : (s.scheduleOrder k v).cport = s.cport := rfl
@[simp] theorem State.scheduleOrder_chute (s : State) (k v : Nat) : (s.scheduleOrder k v).chute = s.chute := rfl
@[simp] theorem State.scheduleOrder_tickets (s : State) (k v : Nat) : (s.scheduleOrder k v).tickets = s.tickets := rfl
@[simp] theorem State.scheduleOrder_events (s : State) (k v : Nat) : (s.scheduleOrder k v).events = s.events := rfl
@[simp] theorem State.scheduleOrder_store (s : State) (k v : Nat) : (s.scheduleOrder k v).store = s.store := rfl
@[simp] theorem State.scheduleOrder_porter (s : State) (k v : Nat) : (s.scheduleOrder k v).porter = s.porter := rfl
@[simp] theorem State.scheduleOrder_collate (s : State) (k v : Nat) : (s.scheduleOrder k v).collate = s.collate := rfl
@[simp] theorem State.scheduleOrder_radio (s : State) (k v : Nat) : (s.scheduleOrder k v).radio = s.radio := rfl
@[simp] theorem State.scheduleOrder_modem (s : State) (k v : Nat) : (s.scheduleOrder k v).modem = s.modem := rfl
@[simp] theorem State.scheduleOrder_census (s : State) (k v : Nat) : (s.scheduleOrder k v).census = s.census := rfl
@[simp] theorem State.scheduleOrder_frame (s : State) (k v : Nat) : (s.scheduleOrder k v).frame = s.frame := rfl
@[simp] theorem State.scheduleOrder_link (s : State) (k v : Nat) : (s.scheduleOrder k v).link = s.link := rfl
@[simp] theorem State.scheduleOrder_ledger (s : State) (k v : Nat) : (s.scheduleOrder k v).ledger = s.ledger := rfl
@[simp] theorem State.scheduleOrder_trim (s : State) (k v : Nat) : (s.scheduleOrder k v).trim = s.trim := rfl
@[simp] theorem State.scheduleOrder_noise (s : State) (k v : Nat) : (s.scheduleOrder k v).noise = s.noise := rfl
@[simp] theorem State.scheduleOrder_vault (s : State) (k v : Nat) : (s.scheduleOrder k v).vault = s.vault := rfl
@[simp] theorem State.scheduleOrder_ssw (s : State) (k v : Nat) : (s.scheduleOrder k v).ssw = s.ssw := rfl
@[simp] theorem State.scheduleOrder_tamper (s : State) (k v : Nat) : (s.scheduleOrder k v).tamper = s.tamper := rfl
@[simp] theorem State.scheduleOrder_gpio (s : State) (k v : Nat) : (s.scheduleOrder k v).gpio = s.gpio := rfl
@[simp] theorem State.scheduleOrder_rows (s : State) (k v : Nat) : (s.scheduleOrder k v).rows = s.rows := rfl
@[simp] theorem State.scheduleOrder_ed (s : State) (k v : Nat) : (s.scheduleOrder k v).ed = s.ed := rfl
@[simp] theorem State.scheduleOrder_drawn (s : State) (k v : Nat) : (s.scheduleOrder k v).drawn = s.drawn := rfl
@[simp] theorem State.scheduleOrder_pending (s : State) (k v : Nat) : (s.scheduleOrder k v).pending = s.pending := rfl

/-! ## Key slots are emptied -/

@[simp] theorem State.eraseSlots_part (s : State) (ks : List Nat) : (s.eraseSlots ks).part = s.part := rfl
@[simp] theorem State.eraseSlots_cfg (s : State) (ks : List Nat) : (s.eraseSlots ks).cfg = s.cfg := rfl
@[simp] theorem State.eraseSlots_sys (s : State) (ks : List Nat) : (s.eraseSlots ks).sys = s.sys := rfl
@[simp] theorem State.eraseSlots_pwr (s : State) (ks : List Nat) : (s.eraseSlots ks).pwr = s.pwr := rfl
@[simp] theorem State.eraseSlots_pads (s : State) (ks : List Nat) : (s.eraseSlots ks).pads = s.pads := rfl
@[simp] theorem State.eraseSlots_day (s : State) (ks : List Nat) : (s.eraseSlots ks).day = s.day := rfl
@[simp] theorem State.eraseSlots_desk (s : State) (ks : List Nat) : (s.eraseSlots ks).desk = s.desk := rfl
@[simp] theorem State.eraseSlots_dport (s : State) (ks : List Nat) : (s.eraseSlots ks).dport = s.dport := rfl
@[simp] theorem State.eraseSlots_cport (s : State) (ks : List Nat) : (s.eraseSlots ks).cport = s.cport := rfl
@[simp] theorem State.eraseSlots_chute (s : State) (ks : List Nat) : (s.eraseSlots ks).chute = s.chute := rfl
@[simp] theorem State.eraseSlots_tickets (s : State) (ks : List Nat) : (s.eraseSlots ks).tickets = s.tickets := rfl
@[simp] theorem State.eraseSlots_events (s : State) (ks : List Nat) : (s.eraseSlots ks).events = s.events := rfl
@[simp] theorem State.eraseSlots_orders (s : State) (ks : List Nat) : (s.eraseSlots ks).orders = s.orders := rfl
@[simp] theorem State.eraseSlots_store (s : State) (ks : List Nat) : (s.eraseSlots ks).store = s.store := rfl
@[simp] theorem State.eraseSlots_porter (s : State) (ks : List Nat) : (s.eraseSlots ks).porter = s.porter := rfl
@[simp] theorem State.eraseSlots_collate (s : State) (ks : List Nat) : (s.eraseSlots ks).collate = s.collate := rfl
@[simp] theorem State.eraseSlots_radio (s : State) (ks : List Nat) : (s.eraseSlots ks).radio = s.radio := rfl
@[simp] theorem State.eraseSlots_modem (s : State) (ks : List Nat) : (s.eraseSlots ks).modem = s.modem := rfl
@[simp] theorem State.eraseSlots_census (s : State) (ks : List Nat) : (s.eraseSlots ks).census = s.census := rfl
@[simp] theorem State.eraseSlots_frame (s : State) (ks : List Nat) : (s.eraseSlots ks).frame = s.frame := rfl
@[simp] theorem State.eraseSlots_link (s : State) (ks : List Nat) : (s.eraseSlots ks).link = s.link := rfl
@[simp] theorem State.eraseSlots_ledger (s : State) (ks : List Nat) : (s.eraseSlots ks).ledger = s.ledger := rfl
@[simp] theorem State.eraseSlots_trim (s : State) (ks : List Nat) : (s.eraseSlots ks).trim = s.trim := rfl
@[simp] theorem State.eraseSlots_noise (s : State) (ks : List Nat) : (s.eraseSlots ks).noise = s.noise := rfl
@[simp] theorem State.eraseSlots_ssw (s : State) (ks : List Nat) : (s.eraseSlots ks).ssw = s.ssw := rfl
@[simp] theorem State.eraseSlots_tamper (s : State) (ks : List Nat) : (s.eraseSlots ks).tamper = s.tamper := rfl
@[simp] theorem State.eraseSlots_gpio (s : State) (ks : List Nat) : (s.eraseSlots ks).gpio = s.gpio := rfl
@[simp] theorem State.eraseSlots_rows (s : State) (ks : List Nat) : (s.eraseSlots ks).rows = s.rows := rfl
@[simp] theorem State.eraseSlots_ed (s : State) (ks : List Nat) : (s.eraseSlots ks).ed = s.ed := rfl
@[simp] theorem State.eraseSlots_drawn (s : State) (ks : List Nat) : (s.eraseSlots ks).drawn = s.drawn := rfl
@[simp] theorem State.eraseSlots_pending (s : State) (ks : List Nat) : (s.eraseSlots ks).pending = s.pending := rfl

/-! ## A port is changed -/

@[simp] theorem State.setPort_part (s : State) (p : Port) (x : PortSt) : (s.setPort p x).part = s.part :=
    by cases p <;> rfl
@[simp] theorem State.setPort_cfg (s : State) (p : Port) (x : PortSt) : (s.setPort p x).cfg = s.cfg :=
    by cases p <;> rfl
@[simp] theorem State.setPort_sys (s : State) (p : Port) (x : PortSt) : (s.setPort p x).sys = s.sys :=
    by cases p <;> rfl
@[simp] theorem State.setPort_pwr (s : State) (p : Port) (x : PortSt) : (s.setPort p x).pwr = s.pwr :=
    by cases p <;> rfl
@[simp] theorem State.setPort_pads (s : State) (p : Port) (x : PortSt) : (s.setPort p x).pads = s.pads :=
    by cases p <;> rfl
@[simp] theorem State.setPort_day (s : State) (p : Port) (x : PortSt) : (s.setPort p x).day = s.day :=
    by cases p <;> rfl
@[simp] theorem State.setPort_desk (s : State) (p : Port) (x : PortSt) : (s.setPort p x).desk = s.desk :=
    by cases p <;> rfl
@[simp] theorem State.setPort_chute (s : State) (p : Port) (x : PortSt) : (s.setPort p x).chute = s.chute :=
    by cases p <;> rfl
@[simp] theorem State.setPort_events (s : State) (p : Port) (x : PortSt) : (s.setPort p x).events = s.events :=
    by cases p <;> rfl
@[simp] theorem State.setPort_orders (s : State) (p : Port) (x : PortSt) : (s.setPort p x).orders = s.orders :=
    by cases p <;> rfl
@[simp] theorem State.setPort_store (s : State) (p : Port) (x : PortSt) : (s.setPort p x).store = s.store :=
    by cases p <;> rfl
@[simp] theorem State.setPort_porter (s : State) (p : Port) (x : PortSt) : (s.setPort p x).porter = s.porter :=
    by cases p <;> rfl
@[simp] theorem State.setPort_collate (s : State) (p : Port) (x : PortSt) : (s.setPort p x).collate = s.collate :=
    by cases p <;> rfl
@[simp] theorem State.setPort_radio (s : State) (p : Port) (x : PortSt) : (s.setPort p x).radio = s.radio :=
    by cases p <;> rfl
@[simp] theorem State.setPort_modem (s : State) (p : Port) (x : PortSt) : (s.setPort p x).modem = s.modem :=
    by cases p <;> rfl
@[simp] theorem State.setPort_census (s : State) (p : Port) (x : PortSt) : (s.setPort p x).census = s.census :=
    by cases p <;> rfl
@[simp] theorem State.setPort_frame (s : State) (p : Port) (x : PortSt) : (s.setPort p x).frame = s.frame :=
    by cases p <;> rfl
@[simp] theorem State.setPort_link (s : State) (p : Port) (x : PortSt) : (s.setPort p x).link = s.link :=
    by cases p <;> rfl
@[simp] theorem State.setPort_ledger (s : State) (p : Port) (x : PortSt) : (s.setPort p x).ledger = s.ledger :=
    by cases p <;> rfl
@[simp] theorem State.setPort_trim (s : State) (p : Port) (x : PortSt) : (s.setPort p x).trim = s.trim :=
    by cases p <;> rfl
@[simp] theorem State.setPort_noise (s : State) (p : Port) (x : PortSt) : (s.setPort p x).noise = s.noise :=
    by cases p <;> rfl
@[simp] theorem State.setPort_vault (s : State) (p : Port) (x : PortSt) : (s.setPort p x).vault = s.vault :=
    by cases p <;> rfl
@[simp] theorem State.setPort_ssw (s : State) (p : Port) (x : PortSt) : (s.setPort p x).ssw = s.ssw :=
    by cases p <;> rfl
@[simp] theorem State.setPort_tamper (s : State) (p : Port) (x : PortSt) : (s.setPort p x).tamper = s.tamper :=
    by cases p <;> rfl
@[simp] theorem State.setPort_gpio (s : State) (p : Port) (x : PortSt) : (s.setPort p x).gpio = s.gpio :=
    by cases p <;> rfl
@[simp] theorem State.setPort_rows (s : State) (p : Port) (x : PortSt) : (s.setPort p x).rows = s.rows :=
    by cases p <;> rfl
@[simp] theorem State.setPort_ed (s : State) (p : Port) (x : PortSt) : (s.setPort p x).ed = s.ed := by cases p <;> rfl
@[simp] theorem State.setPort_drawn (s : State) (p : Port) (x : PortSt) : (s.setPort p x).drawn = s.drawn :=
    by cases p <;> rfl
@[simp] theorem State.setPort_pending (s : State) (p : Port) (x : PortSt) : (s.setPort p x).pending = s.pending :=
    by cases p <;> rfl

/-! ## Readings after an update -/

@[simp] theorem vget_vset_same {α : Type} {n : Nat} (v : Vector α n) (i : Nat) (x d : α) (h : i < n) :
    vget (vset v i x) i d = x := by simp [vget, vset, h]

@[simp] theorem vget_vset_other {α : Type} {n : Nat} (v : Vector α n) (i j : Nat) (x d : α) (h : j ≠ i) :
    vget (vset v i x) j d = vget v j d := by
  simp [vget, vset, Ne.symm h]

theorem State.alarm_setAlarm_same (s : State) (a : Nat) (x : Alarm) (h : a < 4) : (s.setAlarm a x).alarm a = x :=
  vget_vset_same _ _ _ _ h

theorem State.alarm_setAlarm_other (s : State) (a b : Nat) (x : Alarm) (h : b ≠ a) : (s.setAlarm a x).alarm b = s.alarm b :=
  vget_vset_other _ _ _ _ _ h

theorem State.col_setCol_same (s : State) (n : Nat) (c : Collator) (h : n < 4) : (s.setCol n c).col n = c :=
  vget_vset_same _ _ _ _ h

theorem State.col_setCol_other (s : State) (n m : Nat) (c : Collator) (h : m ≠ n) : (s.setCol n c).col m = s.col m :=
  vget_vset_other _ _ _ _ _ h

theorem State.chan_setChan_same (s : State) (n : Nat) (c : Chan) (h : n < 4) : (s.setChan n c).chan n = c :=
  vget_vset_same _ _ _ _ h

theorem State.chan_setChan_other (s : State) (n m : Nat) (c : Chan) (h : m ≠ n) : (s.setChan n c).chan m = s.chan m :=
  vget_vset_other _ _ _ _ _ h

/-- The unit's own edition counts one. -/
theorem State.edition_bump_same (s : State) (u : EdUnit) : (s.bump u).edition u = s.edition u + 1 :=
  vget_vset_same _ _ _ _ (by cases u <;> decide)

/-- Every other edition stays. -/
theorem State.edition_bump_other (s : State) (u x : EdUnit) (h : x ≠ u) : (s.bump u).edition x = s.edition x :=
  vget_vset_other _ _ _ _ _ (by cases u <;> cases x <;> first | exact absurd rfl h | decide)

/-! ## The end of a cycle -/

@[simp] theorem State.settled_part (t s : State) : (t.settled s).part = t.part := rfl
@[simp] theorem State.settled_cfg (t s : State) : (t.settled s).cfg = t.cfg := rfl
@[simp] theorem State.settled_record (t s : State) : (t.settled s).record = t.record := rfl
@[simp] theorem State.settled_sys (t s : State) : (t.settled s).sys = t.sys := rfl
@[simp] theorem State.settled_pwr (t s : State) : (t.settled s).pwr = t.pwr := rfl
@[simp] theorem State.settled_pads (t s : State) : (t.settled s).pads = t.pads := rfl
@[simp] theorem State.settled_day (t s : State) : (t.settled s).day = t.day := rfl
@[simp] theorem State.settled_desk (t s : State) : (t.settled s).desk = t.desk := rfl
@[simp] theorem State.settled_chute (t s : State) : (t.settled s).chute = t.chute := rfl
@[simp] theorem State.settled_events (t s : State) : (t.settled s).events = t.events := rfl
@[simp] theorem State.settled_orders (t s : State) : (t.settled s).orders = t.orders := rfl
@[simp] theorem State.settled_store (t s : State) : (t.settled s).store = t.store := rfl
@[simp] theorem State.settled_porter (t s : State) : (t.settled s).porter = t.porter := rfl
@[simp] theorem State.settled_collate (t s : State) : (t.settled s).collate = t.collate := rfl
@[simp] theorem State.settled_radio (t s : State) : (t.settled s).radio = t.radio := rfl
@[simp] theorem State.settled_modem (t s : State) : (t.settled s).modem = t.modem := rfl
@[simp] theorem State.settled_census (t s : State) : (t.settled s).census = t.census := rfl
@[simp] theorem State.settled_frame (t s : State) : (t.settled s).frame = t.frame := rfl
@[simp] theorem State.settled_link (t s : State) : (t.settled s).link = t.link := rfl
@[simp] theorem State.settled_ledger (t s : State) : (t.settled s).ledger = t.ledger := rfl
@[simp] theorem State.settled_trim (t s : State) : (t.settled s).trim = t.trim := rfl
@[simp] theorem State.settled_noise (t s : State) : (t.settled s).noise = t.noise := rfl
@[simp] theorem State.settled_vault (t s : State) : (t.settled s).vault = t.vault := rfl
@[simp] theorem State.settled_ssw (t s : State) : (t.settled s).ssw = t.ssw := rfl
@[simp] theorem State.settled_tamper (t s : State) : (t.settled s).tamper = t.tamper := rfl
@[simp] theorem State.settled_gpio (t s : State) : (t.settled s).gpio = t.gpio := rfl
@[simp] theorem State.settled_rows (t s : State) : (t.settled s).rows = t.rows := rfl
@[simp] theorem State.settled_drawn (t s : State) : (t.settled s).drawn = t.drawn := rfl
@[simp] theorem State.settled_pending (t s : State) : (t.settled s).pending = t.pending := rfl

/-- A cycle that queues no line and counts no edition is settled as it stands. -/
theorem State.settled_of_same {s t : State} (h1 : t.dport.out = s.dport.out) (h2 : t.cport.out = s.cport.out)
    (h3 : t.ed = s.ed) : t.settled s = t := by
  have e (l : List OutLine) : t.inOrder l l = l := by simp [State.inOrder]
  have e1 : t.inOrder s.dport.out t.dport.out = t.dport.out := by rw [h1]; exact e _
  have e2 : t.inOrder s.cport.out t.cport.out = t.cport.out := by rw [h2]; exact e _
  have e3 : Vector.ofFn (fun i : Fin _ => if vget t.ed i.val 0 = vget s.ed i.val 0 then vget t.ed i.val 0
      else vget s.ed i.val 0 + 1) = t.ed := by
    rw [h3]; ext i hi; simp [vget]
  unfold State.settled
  rw [e1, e2, e3]

end Sys2Proof.Machine
end

