-- ==== Sys2Proof/Laws/Steps.lean ====
section
/-! SUPPORT. Every command answers a next state, in which the part, the queue and the canonical form of the stores are
as before: one lemma for each meaning. -/
namespace Sys2Proof.Machine

open Sys2Proof

set_option maxRecDepth 4000
set_option linter.all false

/-- The outcome is a next state, with the part, the queue and canonical stores kept. -/
def Runs (s : State) (o : Host.Outcome State Fault Refusal) : Prop := ∃ t, o = .next t ∧ Keeps s t

theorem Runs.next {s t : State} (h : Keeps s t) : Runs s (.next t) := ⟨t, rfl, h⟩

theorem runLine_runs (f : Form) (l : Line) (s : State) (ers : List Er) (act : State → State) (h : ∀ s, Keeps s (act s)) :
    Runs s (runLine f l s ers act) := by
  unfold runLine
  split
  · split
    · exact .next (.of_eq rfl rfl rfl)
    · split
      · exact .next (Fixed.keeps (by simp [Fixed]))
      · exact .next ((State.took_fixed s l.origin).keeps.trans (h _))
  · exact .next (.refl s)

theorem runTicketMk_runs (f : Form) (q : Queue) (b : Option Nat) (l : Line) (s : State) (ers stateErs : List Er)
    (mk : State → State × TicketOp) (post : Nat → State → State) (hm : ∀ s, Keeps s (mk s).1)
    (hp : ∀ n s, Keeps s (post n s)) : Runs s (runTicketMk f q b l s ers stateErs mk post) := by
  unfold runTicketMk
  refine runLine_runs _ _ _ _ _ (fun s => ?_)
  simp only []
  have h1 := fun a => (hm s).trans (State.issue_fixed (mk s).1 a).keeps
  split
  · exact (h1 _).trans ((hp _ _).trans ((State.tk_fixed _ _ _).keeps.trans (State.poolLow_fixed _ _).keeps))
  · exact h1 _

theorem runTicket_runs (f : Form) (q : Queue) (l : Line) (s : State) (ers stateErs : List Er) (op : TicketOp) :
    Runs s (runTicket f q l s ers stateErs op) :=
  runTicketMk_runs _ _ _ _ _ _ _ _ _ (fun s => .refl s) (fun _ s => .refl s)

theorem execSlewTick_runs (s : State) : Runs s (execSlewTick s) := by
  unfold execSlewTick
  (repeat' split) <;> exact ⟨_, rfl, Fixed.keeps (by simp [Fixed])⟩

theorem execDay_runs (l : Line) (s : State) : Runs s (execDay l s) := by
  exact runLine_runs _ _ _ _ _ (fun s => Fixed.keeps (by simp [Fixed]))

theorem execDayStatus_runs (l : Line) (s : State) : Runs s (execDayStatus l s) := by
  exact runLine_runs _ _ _ _ _ (fun s => Fixed.keeps (by simp [Fixed]))

theorem execDaySlew_runs (l : Line) (s : State) : Runs s (execDaySlew l s) := by
  unfold execDaySlew
  refine runLine_runs _ _ _ _ _ (fun s => Fixed.keeps ?_)
  (repeat' split) <;> simp [Fixed]

theorem execKeeper_runs (temp : Int) (l : Line) (s : State) : Runs s (execKeeper temp l s) := by
  exact runLine_runs _ _ _ _ _ (fun s => Fixed.keeps (by simp [Fixed]))

theorem execKeeperTable_runs (l : Line) (s : State) : Runs s (execKeeperTable l s) := by
  exact runLine_runs _ _ _ _ _ (fun s => Fixed.keeps (by simp [Fixed]))

theorem execKeeperForget_runs (temp : Int) (l : Line) (s : State) : Runs s (execKeeperForget temp l s) := by
  exact runLine_runs _ _ _ _ _ (fun s => Fixed.keeps (by simp [Fixed]))

theorem execKeeperRef_runs (temp : Int) (l : Line) (s : State) : Runs s (execKeeperRef temp l s) := by
  exact runLine_runs _ _ _ _ _ (fun s => Fixed.keeps (by simp [Fixed]))

theorem execKeeperRunning_runs (s : State) : Runs s (execKeeperRunning s) := by
  unfold execKeeperRunning
  (repeat' split) <;> exact ⟨_, rfl, Fixed.keeps (by simp [Fixed])⟩

theorem execKeeperPeriodFault_runs (s : State) : Runs s (execKeeperPeriodFault s) := by
  unfold execKeeperPeriodFault
  (repeat' split) <;> exact ⟨_, rfl, Fixed.keeps (by simp [Fixed])⟩

theorem execKeeperEdgeTimeout_runs (s : State) : Runs s (execKeeperEdgeTimeout s) := by
  unfold execKeeperEdgeTimeout
  (repeat' split) <;> exact ⟨_, rfl, Fixed.keeps (by simp [Fixed])⟩

theorem execKeeperEdge_runs (period : Nat) (s : State) : Runs s (execKeeperEdge period s) := by
  unfold execKeeperEdge
  (repeat' split) <;> exact ⟨_, rfl, Fixed.keeps (by simp [Fixed])⟩

theorem execDriftWindowClose_runs (temp : Int) (ticks : Nat) (s : State) :
    Runs s (execDriftWindowClose temp ticks s) := by
  unfold execDriftWindowClose
  simp only []
  (repeat' split) <;> exact ⟨_, rfl, Fixed.keeps (by simp_all [Fixed])⟩

theorem execAlarmReport_runs (l : Line) (s : State) : Runs s (execAlarmReport l s) := by
  unfold execAlarmReport
  refine runLine_runs _ _ _ _ _ (fun s => Fixed.keeps ?_)
  (repeat' split) <;> simp [Fixed]

theorem execAlarmArm_runs (l : Line) (s : State) : Runs s (execAlarmArm l s) := by
  unfold execAlarmArm
  refine runLine_runs _ _ _ _ _ (fun s => Fixed.keeps ?_)
  (repeat' split) <;> simp [Fixed]

theorem execAlarmOff_runs (l : Line) (s : State) : Runs s (execAlarmOff l s) := by
  unfold execAlarmOff
  refine runLine_runs _ _ _ _ _ (fun s => Fixed.keeps ?_)
  (repeat' split) <;> simp [Fixed]

theorem execIntervalBoundary_runs (s : State) : Runs s (execIntervalBoundary s) := by
  unfold execIntervalBoundary
  (repeat' split) <;> exact ⟨_, rfl, Fixed.keeps (by simp [Fixed])⟩

theorem execLedger_runs (l : Line) (s : State) : Runs s (execLedger l s) := by
  unfold execLedger
  refine runLine_runs _ _ _ _ _ (fun s => Fixed.keeps ?_)
  (repeat' split) <;> simp [Fixed]

theorem execTariffReport_runs (l : Line) (s : State) : Runs s (execTariffReport l s) := by
  unfold execTariffReport
  refine runLine_runs _ _ _ _ _ (fun s => Fixed.keeps ?_)
  (repeat' split) <;> simp [Fixed]

theorem execTariffSet_runs (l : Line) (s : State) : Runs s (execTariffSet l s) := by
  unfold execTariffSet
  refine runLine_runs _ _ _ _ _ (fun s => Fixed.keeps ?_)
  (repeat' split) <;> simp [Fixed]

theorem execTariffClear_runs (l : Line) (s : State) : Runs s (execTariffClear l s) := by
  unfold execTariffClear
  refine runLine_runs _ _ _ _ _ (fun s => Fixed.keeps ?_)
  (repeat' split) <;> simp [Fixed]

theorem execTariffSched_runs (l : Line) (s : State) : Runs s (execTariffSched l s) := by
  unfold execTariffSched
  refine runLine_runs _ _ _ _ _ (fun s => Fixed.keeps ?_)
  simp only []
  (repeat' split) <;> simp_all [Fixed]

theorem execTariffUnsched_runs (l : Line) (s : State) : Runs s (execTariffUnsched l s) := by
  unfold execTariffUnsched
  refine runLine_runs _ _ _ _ _ (fun s => Fixed.keeps ?_)
  (repeat' split) <;> simp [Fixed]

theorem execPwr_runs (l : Line) (s : State) : Runs s (execPwr l s) := by
  exact runLine_runs _ _ _ _ _ (fun s => Fixed.keeps (by simp [Fixed]))

theorem execPwrMeasure_runs (l : Line) (s : State) : Runs s (execPwrMeasure l s) := by
  exact runTicket_runs _ _ _ _ _ _ _

theorem execMeasurementDone_runs (vbat : Nat) (vddio : Nat) (vddpa : Nat) (s : State) :
    Runs s (execMeasurementDone vbat vddio vddpa s) := by
  unfold execMeasurementDone
  (repeat' split) <;> exact ⟨_, rfl, Fixed.keeps (by simp [Fixed])⟩

theorem execBandReport_runs (l : Line) (s : State) : Runs s (execBandReport l s) := by
  unfold execBandReport
  refine runLine_runs _ _ _ _ _ (fun s => Fixed.keeps ?_)
  (repeat' split) <;> simp [Fixed]

theorem execBandSet_runs (l : Line) (s : State) : Runs s (execBandSet l s) := by
  unfold execBandSet
  refine runLine_runs _ _ _ _ _ (fun s => Fixed.keeps ?_)
  (repeat' split) <;> simp [Fixed]

theorem execBandClear_runs (l : Line) (s : State) : Runs s (execBandClear l s) := by
  unfold execBandClear
  refine runLine_runs _ _ _ _ _ (fun s => Fixed.keeps ?_)
  (repeat' split) <;> simp [Fixed]

theorem execChan_runs (l : Line) (s : State) : Runs s (execChan l s) := by
  unfold execChan
  refine runLine_runs _ _ _ _ _ (fun s => Fixed.keeps ?_)
  (repeat' split) <;> simp [Fixed]

theorem execTxSettings_runs (l : Line) (s : State) : Runs s (execTxSettings l s) := by
  unfold execTxSettings
  refine runLine_runs _ _ _ _ _ (fun s => Fixed.keeps ?_)
  (repeat' split) <;> simp [Fixed]

theorem execRxStatus_runs (l : Line) (s : State) : Runs s (execRxStatus l s) := by
  exact runLine_runs _ _ _ _ _ (fun s => Fixed.keeps (by simp [Fixed]))

theorem execTxCw_runs (l : Line) (s : State) : Runs s (execTxCw l s) := by
  exact runTicket_runs _ _ _ _ _ _ _

theorem execRx_runs (l : Line) (s : State) : Runs s (execRx l s) := by
  exact runTicket_runs _ _ _ _ _ _ _

theorem execProfile_runs (l : Line) (s : State) : Runs s (execProfile l s) := by
  unfold execProfile
  refine runLine_runs _ _ _ _ _ (fun s => Fixed.keeps ?_)
  (repeat' split) <;> simp [Fixed]

theorem censusLine_runs (st : Option Bool) (pos : List (String × Kind)) (l : Line) (s : State) :
    Runs s (censusLine st pos l s) := by
  unfold censusLine
  refine runLine_runs _ _ _ _ _ (fun s => Fixed.keeps ?_)
  simp [Fixed]

theorem execCensusSettings_runs (l : Line) (s : State) : Runs s (execCensusSettings l s) := censusLine_runs _ _ _ _

theorem execCensusWatch_runs (l : Line) (s : State) : Runs s (execCensusWatch l s) := censusLine_runs _ _ _ _

theorem execCensusOff_runs (l : Line) (s : State) : Runs s (execCensusOff l s) := censusLine_runs _ _ _ _

theorem execCensusLevels_runs (l : Line) (s : State) : Runs s (execCensusLevels l s) := by
  exact runLine_runs _ _ _ _ _ (fun s => Fixed.keeps (by simp [Fixed]))

theorem execCensusScan_runs (l : Line) (s : State) : Runs s (execCensusScan l s) := by
  exact runTicket_runs _ _ _ _ _ _ _

theorem execCcaSettings_runs (l : Line) (s : State) : Runs s (execCcaSettings l s) := by
  exact runLine_runs _ _ _ _ _ (fun s => Fixed.keeps (by simp [Fixed]))

theorem execCcaCheck_runs (l : Line) (s : State) : Runs s (execCcaCheck l s) := by
  exact runTicket_runs _ _ _ _ _ _ _

theorem execVault_runs (l : Line) (s : State) : Runs s (execVault l s) := by
  exact runLine_runs _ _ _ _ _ (fun s => Fixed.keeps (by simp [Fixed]))

theorem execVaultLoad_runs (l : Line) (s : State) : Runs s (execVaultLoad l s) := by
  exact runTicket_runs _ _ _ _ _ _ _

theorem execVaultLoadDone_runs (s : State) : Runs s (execVaultLoadDone s) := by
  unfold execVaultLoadDone
  split
  · exact .next (.refl s)
  · split
    · split
      · exact .next (.refl s)
      · split
        · exact .next (Fixed.keeps (by simp [Fixed]))
        · refine .next (Keeps.trans (Fixed.keeps (by simp [Fixed])) (State.rowWrites_fixed _ _ _ ?_).keeps)
          unfold State.keyRow State.fcRowWhat
          split
          · rfl
          · split <;> rfl
    · exact .next (.refl s)

theorem execVaultErase_runs (l : Line) (s : State) : Runs s (execVaultErase l s) := by
  exact runTicket_runs _ _ _ _ _ _ _

theorem execVaultFlags_runs (l : Line) (s : State) : Runs s (execVaultFlags l s) := by
  unfold execVaultFlags
  refine runLine_runs _ _ _ _ _ (fun s => Fixed.keeps ?_)
  (repeat' split) <;> simp [Fixed]

theorem execVaultSeal_runs (l : Line) (s : State) : Runs s (execVaultSeal l s) := by
  exact runLine_runs _ _ _ _ _ (fun s => Fixed.keeps (by simp [Fixed]))

theorem execVaultRand_runs (l : Line) (s : State) : Runs s (execVaultRand l s) := by
  exact runTicket_runs _ _ _ _ _ _ _

theorem execVaultRandDone_runs (s : State) : Runs s (execVaultRandDone s) := by
  unfold execVaultRandDone
  (repeat' split) <;> exact ⟨_, rfl, Fixed.keeps (by simp [Fixed])⟩

theorem execVaultCcm_runs (l : Line) (s : State) : Runs s (execVaultCcm l s) := by
  exact runTicket_runs _ _ _ _ _ _ _

theorem execVaultCcmDone_runs (s : State) : Runs s (execVaultCcmDone s) := by
  unfold execVaultCcmDone
  (repeat' split) <;> exact ⟨_, rfl, Fixed.keeps (by simp [Fixed])⟩

theorem execFrameSettings_runs (l : Line) (s : State) : Runs s (execFrameSettings l s) := by
  exact runLine_runs _ _ _ _ _ (fun s => Fixed.keeps (by simp [Fixed]))

theorem execFrameSend_runs (l : Line) (s : State) : Runs s (execFrameSend l s) := by
  unfold execFrameSend
  refine runLine_runs _ _ _ _ _ (fun s => Fixed.keeps ?_)
  simp only []
  (repeat' split) <;> simp_all [Fixed]

theorem execFrameRead_runs (l : Line) (s : State) : Runs s (execFrameRead l s) := by
  unfold execFrameRead
  refine runLine_runs _ _ _ _ _ (fun s => Fixed.keeps ?_)
  simp only []
  (repeat' split) <;> simp_all [Fixed]

theorem execFrameFree_runs (l : Line) (s : State) : Runs s (execFrameFree l s) := by
  unfold execFrameFree
  refine runLine_runs _ _ _ _ _ (fun s => Fixed.keeps ?_)
  (repeat' split) <;> simp [Fixed]

theorem execFilter_runs (l : Line) (s : State) : Runs s (execFilter l s) := by
  exact runLine_runs _ _ _ _ _ (fun s => Fixed.keeps (by simp [Fixed]))

theorem execTrimPassEnd_runs (sel : List Int) (stats : List Int) (s : State) :
    Runs s (execTrimPassEnd sel stats s) := by
  unfold execTrimPassEnd
  (repeat' split) <;> exact ⟨_, rfl, Fixed.keeps (by simp [Fixed])⟩

theorem execTrimItemEnd_runs (sel : List Int) (stats : List Int) (s : State) :
    Runs s (execTrimItemEnd sel stats s) := by
  unfold execTrimItemEnd
  simp only []
  (repeat' split) <;> exact ⟨_, rfl, Fixed.keeps (by simp_all [Fixed])⟩

theorem execCensuseqTimeout_runs (s : State) : Runs s (execCensuseqTimeout s) := by
  unfold execCensuseqTimeout
  (repeat' split) <;> exact ⟨_, rfl, Fixed.keeps (by simp [Fixed])⟩

theorem execTrimRun_runs (l : Line) (s : State) : Runs s (execTrimRun l s) := by
  exact runTicket_runs _ _ _ _ _ _ _

theorem execTrimStatus_runs (l : Line) (s : State) : Runs s (execTrimStatus l s) := by
  exact runLine_runs _ _ _ _ _ (fun s => Fixed.keeps (by simp [Fixed]))

theorem execTrimRestore_runs (l : Line) (s : State) : Runs s (execTrimRestore l s) := by
  unfold execTrimRestore
  refine runLine_runs _ _ _ _ _ (fun s => Fixed.keeps ?_)
  (repeat' split) <;> simp [Fixed]

theorem execSynthLock_runs (s : State) : Runs s (execSynthLock s) := by
  unfold execSynthLock
  (repeat' split) <;> exact ⟨_, rfl, Fixed.keeps (by simp [Fixed])⟩

theorem execLockTimeout_runs (s : State) : Runs s (execLockTimeout s) := by
  unfold execLockTimeout
  (repeat' split) <;> exact ⟨_, rfl, Fixed.keeps (by simp [Fixed])⟩

theorem execLockLost_runs (s : State) : Runs s (execLockLost s) := by
  unfold execLockLost
  (repeat' split) <;> exact ⟨_, rfl, Fixed.keeps (by simp [Fixed])⟩

theorem execKeyingLead_runs (pa : Bool) (s : State) : Runs s (execKeyingLead pa s) := by
  unfold execKeyingLead
  (repeat' split) <;> exact ⟨_, rfl, Fixed.keeps (by simp [Fixed])⟩

theorem execKeying_runs (s : State) : Runs s (execKeying s) := by
  unfold execKeying
  (repeat' split) <;> exact ⟨_, rfl, Fixed.keeps (by simp [Fixed])⟩

theorem execRampUpEnd_runs (s : State) : Runs s (execRampUpEnd s) := by
  unfold execRampUpEnd
  (repeat' split) <;> exact ⟨_, rfl, Fixed.keeps (by simp [Fixed])⟩

theorem execTxSymbolsEnd_runs (s : State) : Runs s (execTxSymbolsEnd s) := by
  unfold execTxSymbolsEnd
  (repeat' split) <;> exact ⟨_, rfl, Fixed.keeps (by simp [Fixed])⟩

theorem execRampDownEnd_runs (s : State) : Runs s (execRampDownEnd s) := by
  unfold execRampDownEnd
  (repeat' split) <;> exact ⟨_, rfl, Fixed.keeps (by simp [Fixed])⟩

theorem execAntennaLagEnd_runs (s : State) : Runs s (execAntennaLagEnd s) := by
  unfold execAntennaLagEnd
  (repeat' split) <;> exact ⟨_, rfl, Fixed.keeps (by simp [Fixed])⟩

theorem execAckTurnaround_runs (s : State) : Runs s (execAckTurnaround s) := by
  unfold execAckTurnaround
  (repeat' split) <;> exact ⟨_, rfl, Fixed.keeps (by simp [Fixed])⟩

theorem execHeldFrameTurnaround_runs (s : State) : Runs s (execHeldFrameTurnaround s) := by
  unfold execHeldFrameTurnaround
  (repeat' split) <;> exact ⟨_, rfl, Fixed.keeps (by simp [Fixed])⟩

theorem execCcaListenEnd_runs (s : State) : Runs s (execCcaListenEnd s) := by
  unfold execCcaListenEnd
  (repeat' split) <;> exact ⟨_, rfl, Fixed.keeps (by simp [Fixed])⟩

theorem execAgcUpdate_runs (gain : Nat) (lna : Nat) (s : State) : Runs s (execAgcUpdate gain lna s) := by
  unfold execAgcUpdate
  (repeat' split) <;> exact ⟨_, rfl, Fixed.keeps (by simp [Fixed])⟩

theorem execRssiUpdate_runs (rssi : Int) (s : State) : Runs s (execRssiUpdate rssi s) := by
  unfold execRssiUpdate
  simp only []
  (repeat' split) <;> exact ⟨_, rfl, Fixed.keeps (by simp_all [Fixed])⟩

theorem execAfcLimit_runs (offset : Int) (s : State) : Runs s (execAfcLimit offset s) := by
  unfold execAfcLimit
  (repeat' split) <;> exact ⟨_, rfl, Fixed.keeps (by simp [Fixed])⟩

theorem execRxDurationEnd_runs (s : State) : Runs s (execRxDurationEnd s) := by
  unfold execRxDurationEnd
  (repeat' split) <;> exact ⟨_, rfl, Fixed.keeps (by simp [Fixed])⟩

theorem execCensusScanEnd_runs (s : State) : Runs s (execCensusScanEnd s) := by
  unfold execCensusScanEnd
  (repeat' split) <;> exact ⟨_, rfl, Fixed.keeps (by simp [Fixed])⟩

theorem execCensusWindowClose_runs (readings : List Int) (s : State) : Runs s (execCensusWindowClose readings s) := by
  unfold execCensusWindowClose
  simp only []
  (repeat' split) <;> exact ⟨_, rfl, Fixed.keeps (by simp_all [Fixed])⟩

theorem execPreambleDetected_runs (chan : Nat) (s : State) : Runs s (execPreambleDetected chan s) := by
  unfold execPreambleDetected
  (repeat' split) <;> exact ⟨_, rfl, Fixed.keeps (by simp [Fixed])⟩

theorem execHandoverHoldEnd_runs (s : State) : Runs s (execHandoverHoldEnd s) := by
  unfold execHandoverHoldEnd
  (repeat' split) <;> exact ⟨_, rfl, Fixed.keeps (by simp [Fixed])⟩

theorem execBackoffEnd_runs (s : State) : Runs s (execBackoffEnd s) := by
  unfold execBackoffEnd
  (repeat' split) <;> exact ⟨_, rfl, Fixed.keeps (by simp [Fixed])⟩

theorem execAckWaitTimeout_runs (s : State) : Runs s (execAckWaitTimeout s) := by
  unfold execAckWaitTimeout
  (repeat' split) <;> exact ⟨_, rfl, Fixed.keeps (by simp [Fixed])⟩

theorem execAssocResponseWaitEnd_runs (s : State) : Runs s (execAssocResponseWaitEnd s) := by
  unfold execAssocResponseWaitEnd
  (repeat' split) <;> exact ⟨_, rfl, Fixed.keeps (by simp [Fixed])⟩

theorem execPollWindowEnd_runs (s : State) : Runs s (execPollWindowEnd s) := by
  unfold execPollWindowEnd
  (repeat' split) <;> exact ⟨_, rfl, Fixed.keeps (by simp [Fixed])⟩

theorem execExchangeLapse_runs (s : State) : Runs s (execExchangeLapse s) := by
  unfold execExchangeLapse
  (repeat' split) <;> exact ⟨_, rfl, Fixed.keeps (by simp [Fixed])⟩

theorem execPollScheduleDue_runs (s : State) : Runs s (execPollScheduleDue s) := by
  unfold execPollScheduleDue
  (repeat' split) <;> first
    | exact .next (State.dueNow_keeps _)
    | exact .next (.refl s)

theorem execHeldFrameExpiry_runs (s : State) : Runs s (execHeldFrameExpiry s) := by
  unfold execHeldFrameExpiry
  (repeat' split) <;> exact ⟨_, rfl, Fixed.keeps (by simp [Fixed])⟩

theorem execLinkWakeNextSniff_runs (s : State) : Runs s (execLinkWakeNextSniff s) := by
  unfold execLinkWakeNextSniff
  (repeat' split) <;> exact ⟨_, rfl, Fixed.keeps (by simp [Fixed])⟩

theorem execSyncDeclared_runs (bits : BitVec 32) (rssi afc : Int) (sync : Ticks) (s : State) :
    Runs s (execSyncDeclared bits rssi afc sync s) := by
  unfold execSyncDeclared
  (repeat' split) <;> exact ⟨_, rfl, Fixed.keeps (by simp [Fixed])⟩

theorem execDHeaderDecoded_runs (len : Nat) (s : State) : Runs s (execDHeaderDecoded len s) := by
  unfold execDHeaderDecoded
  (repeat' split) <;> exact ⟨_, rfl, Fixed.keeps (by simp [Fixed])⟩

theorem execFrameDecision_runs (x : RxFrame) (s : State) : Runs s (execFrameDecision x s) := by
  unfold execFrameDecision
  (repeat' split) <;> exact ⟨_, rfl, Fixed.keeps (by simp [Fixed])⟩

theorem execEvent_runs (l : Line) (s : State) : Runs s (execEvent l s) := by
  unfold execEvent
  refine runLine_runs _ _ _ _ _ (fun s => Fixed.keeps ?_)
  (repeat' split) <;> simp [Fixed]

theorem execEventClear_runs (l : Line) (s : State) : Runs s (execEventClear l s) := by
  unfold execEventClear
  refine runLine_runs _ _ _ _ _ (fun s => Fixed.keeps ?_)
  (repeat' split) <;> simp [Fixed]

theorem execEventMask_runs (l : Line) (s : State) : Runs s (execEventMask l s) := by
  unfold execEventMask
  refine runLine_runs _ _ _ _ _ (fun s => Fixed.keeps ?_)
  (repeat' split) <;> simp [Fixed]

theorem execEventRaise_runs (l : Line) (s : State) : Runs s (execEventRaise l s) := by
  unfold execEventRaise
  refine runLine_runs _ _ _ _ _ (fun s => Fixed.keeps ?_)
  (repeat' split) <;> simp [Fixed]

theorem execEventAttn_runs (l : Line) (s : State) : Runs s (execEventAttn l s) := by
  exact runLine_runs _ _ _ _ _ (fun s => Fixed.keeps (by simp [Fixed]))

theorem execEventSave_runs (l : Line) (s : State) : Runs s (execEventSave l s) := by
  exact runTicket_runs _ _ _ _ _ _ _

theorem execDeferredEvent_runs (s : State) : Runs s (execDeferredEvent s) := by
  unfold execDeferredEvent
  (repeat' split) <;> exact ⟨_, rfl, Fixed.keeps (by simp [Fixed])⟩

theorem execAttnMinWidthEnd_runs (s : State) : Runs s (execAttnMinWidthEnd s) := by
  unfold execAttnMinWidthEnd
  (repeat' split) <;> exact ⟨_, rfl, Fixed.keeps (by simp [Fixed])⟩

theorem execOrderScheduleDue_runs (k : Fin 32) (s : State) : Runs s (execOrderScheduleDue k s) := by
  unfold execOrderScheduleDue
  (repeat' split) <;> first
    | exact .next (State.dueNow_keeps _)
    | exact .next (.refl s)

theorem execOrderList_runs (l : Line) (s : State) : Runs s (execOrderList l s) := by
  exact runLine_runs _ _ _ _ _ (fun s => Fixed.keeps (by simp [Fixed]))

theorem execOrderShow_runs (l : Line) (s : State) : Runs s (execOrderShow l s) := by
  unfold execOrderShow
  refine runLine_runs _ _ _ _ _ (fun s => Fixed.keeps ?_)
  (repeat' split) <;> simp [Fixed]

theorem execOrderDraft_runs (l : Line) (s : State) : Runs s (execOrderDraft l s) := by
  unfold execOrderDraft
  refine runLine_runs _ _ _ _ _ (fun s => Fixed.keeps ?_)
  (repeat' split) <;> simp [Fixed]

theorem execOrderLine_runs (l : Line) (s : State) : Runs s (execOrderLine l s) := by
  unfold execOrderLine
  refine runLine_runs _ _ _ _ _ (fun s => Fixed.keeps ?_)
  (repeat' split) <;> simp [Fixed]

theorem execOrderSet_runs (l : Line) (s : State) : Runs s (execOrderSet l s) := by
  exact runTicket_runs _ _ _ _ _ _ _

theorem execOrderErase_runs (l : Line) (s : State) : Runs s (execOrderErase l s) := by
  exact runTicket_runs _ _ _ _ _ _ _

theorem execOrderRun_runs (l : Line) (s : State) : Runs s (execOrderRun l s) := by
  exact runTicket_runs _ _ _ _ _ _ _

theorem execWait_runs (l : Line) (s : State) : Runs s (execWait l s) := by
  exact runLine_runs _ _ _ _ _ (fun s => Fixed.keeps (by simp [Fixed]))

theorem execWaitClear_runs (l : Line) (s : State) : Runs s (execWaitClear l s) := by
  unfold execWaitClear
  refine runLine_runs _ _ _ _ _ (fun s => Fixed.keeps ?_)
  (repeat' split) <;> simp [Fixed]

theorem execWaitExpiry_runs (s : State) : Runs s (execWaitExpiry s) := by
  unfold execWaitExpiry
  (repeat' split) <;> exact ⟨_, rfl, Fixed.keeps (by simp [Fixed])⟩

theorem execRecordRead_runs (l : Line) (s : State) : Runs s (execRecordRead l s) := by
  unfold execRecordRead
  refine runLine_runs _ _ _ _ _ (fun s => Fixed.keeps ?_)
  (repeat' split) <;> simp [Fixed]

theorem execRecordWrite_runs (l : Line) (s : State) : Runs s (execRecordWrite l s) := by
  exact runTicket_runs _ _ _ _ _ _ _

theorem execCarrel_runs (l : Line) (s : State) : Runs s (execCarrel l s) := by
  exact runLine_runs _ _ _ _ _ (fun s => Fixed.keeps (by simp [Fixed]))

theorem execCarrelRead_runs (l : Line) (s : State) : Runs s (execCarrelRead l s) := by
  unfold execCarrelRead
  refine runLine_runs _ _ _ _ _ (fun s => Fixed.keeps ?_)
  (repeat' split) <;> simp [Fixed]

theorem execCarrelWrite_runs (l : Line) (s : State) : Runs s (execCarrelWrite l s) := by
  unfold execCarrelWrite
  refine runLine_runs _ _ _ _ _ (fun s => ?_)
  refine Keeps.trans ?_ (State.okAccess_fixed _ _ _ _).keeps
  exact (State.touchSpan_fixed _ _ _).keeps.trans (State.carrelWrite_keeps _ _ _)

theorem execArrayPowerUpEnd_runs (s : State) : Runs s (execArrayPowerUpEnd s) := by
  unfold execArrayPowerUpEnd
  (repeat' split) <;> exact ⟨_, rfl, Fixed.keeps (by simp [Fixed])⟩

theorem execStacksPowerDown_runs (s : State) : Runs s (execStacksPowerDown s) := by
  unfold execStacksPowerDown
  (repeat' split) <;> exact ⟨_, rfl, Fixed.keeps (by simp [Fixed])⟩

theorem execStacks_runs (l : Line) (s : State) : Runs s (execStacks l s) := by
  exact runLine_runs _ _ _ _ _ (fun s => Fixed.keeps (by simp [Fixed]))

theorem execStacksPart_runs (l : Line) (s : State) : Runs s (execStacksPart l s) := by
  exact runTicket_runs _ _ _ _ _ _ _

theorem execStacksRead_runs (l : Line) (s : State) : Runs s (execStacksRead l s) := by
  unfold execStacksRead
  refine runLine_runs _ _ _ _ _ (fun s => Fixed.keeps ?_)
  (repeat' split) <;> simp [Fixed]

theorem execStacksWrite_runs (l : Line) (s : State) : Runs s (execStacksWrite l s) := by
  exact runTicket_runs _ _ _ _ _ _ _

theorem execArch_runs (l : Line) (s : State) : Runs s (execArch l s) := by
  exact runLine_runs _ _ _ _ _ (fun s => Fixed.keeps (by simp [Fixed]))

theorem execArchAdd_runs (l : Line) (s : State) : Runs s (execArchAdd l s) := by
  exact runTicket_runs _ _ _ _ _ _ _

theorem execArchRead_runs (l : Line) (s : State) : Runs s (execArchRead l s) := by
  unfold execArchRead
  refine runLine_runs _ _ _ _ _ (fun s => Fixed.keeps ?_)
  simp only []
  (repeat' split) <;> simp_all [Fixed]

theorem execArchFind_runs (l : Line) (s : State) : Runs s (execArchFind l s) := by
  exact runTicket_runs _ _ _ _ _ _ _

theorem execArchFindDone_runs (s : State) : Runs s (execArchFindDone s) := by
  unfold execArchFindDone
  split
  · split
    · extract_lets ns o s1
      have h : Keeps s s1 := by
        simp only [s1]
        split
        · split
          · exact .refl s
          · exact (State.touchSpan_fixed _ _ _).keeps.trans (State.carrelWrite_keeps _ _ _)
        · exact .refl s
      exact .next (h.trans (Fixed.keeps (by simp [Fixed])))
    · exact .next (.refl s)
  · exact .next (.refl s)

theorem execArchMark_runs (l : Line) (s : State) : Runs s (execArchMark l s) := by
  exact runTicket_runs _ _ _ _ _ _ _

theorem execArchDrop_runs (l : Line) (s : State) : Runs s (execArchDrop l s) := by
  exact runTicket_runs _ _ _ _ _ _ _

theorem execRecordRowWriteDone_runs (s : State) : Runs s (execRecordRowWriteDone s) := by
  unfold execRecordRowWriteDone
  have h := State.rowDone_keeps s
  simp only []
  (repeat' split) <;> first
    | exact .next (.refl s)
    | exact .next h
    | exact .next (h.trans (Fixed.keeps (by simp [Fixed])))

theorem execCollate_runs (l : Line) (s : State) : Runs s (execCollate l s) := by
  unfold execCollate
  refine runLine_runs _ _ _ _ _ (fun s => Fixed.keeps ?_)
  (repeat' split) <;> simp [Fixed]

theorem execCollateOpen_runs (l : Line) (s : State) : Runs s (execCollateOpen l s) := by
  unfold execCollateOpen
  refine runLine_runs _ _ _ _ _ (fun s => Fixed.keeps ?_)
  (repeat' split) <;> simp [Fixed]

theorem execCollateFeed_runs (l : Line) (s : State) : Runs s (execCollateFeed l s) := by
  exact runTicket_runs _ _ _ _ _ _ _

theorem execCollateFeedDone_runs (q : Fin 4) (s : State) : Runs s (execCollateFeedDone q s) := by
  unfold execCollateFeedDone
  (repeat' split) <;> exact ⟨_, rfl, Fixed.keeps (by simp [Fixed])⟩

theorem execCollateClose_runs (l : Line) (s : State) : Runs s (execCollateClose l s) := by
  exact runTicket_runs _ _ _ _ _ _ _

theorem execCollateCloseCycle_runs (q : Fin 4) (s : State) : Runs s (execCollateCloseCycle q s) := by
  unfold execCollateCloseCycle
  (repeat' split) <;> exact ⟨_, rfl, Fixed.keeps (by simp [Fixed])⟩

theorem execPorterSlipFetch_runs (q : Fin 4) (s : State) : Runs s (execPorterSlipFetch q s) := by
  unfold execPorterSlipFetch
  simp only []
  (repeat' split) <;> exact ⟨_, rfl, Fixed.keeps (by simp_all [Fixed])⟩

theorem execPorterElement_runs (q : Fin 4) (s : State) : Runs s (execPorterElement q s) := by
  unfold execPorterElement
  extract_lets n
  split
  · exact .next (.refl s)
  · rename_i sl x src dst list _
    split
    · exact .next (.refl s)
    · have h := State.power_fixed s list
      have h2 := h.trans (State.power_fixed (s.power list).1 [s.target src false, s.target dst true])
      simp only []
      split
      · exact .next h.keeps
      · split
        · exact .next (h.keeps.trans (Fixed.keeps (by simp [Fixed])))
        · split
          · exact .next h2.keeps
          · exact .next ((h2.keeps.trans (State.moveElement_keeps _ _ _ _ _ _)).trans (.of_eq rfl rfl rfl))

theorem execPorter_runs (l : Line) (s : State) : Runs s (execPorter l s) := by
  unfold execPorter
  refine runLine_runs _ _ _ _ _ (fun s => Fixed.keeps ?_)
  (repeat' split) <;> simp [Fixed]

theorem execPorterGo_runs (l : Line) (s : State) : Runs s (execPorterGo l s) := by
  exact runTicket_runs _ _ _ _ _ _ _

theorem execSlip_runs (l : Line) (s : State) : Runs s (execSlip l s) := by
  unfold execSlip
  refine runLine_runs _ _ _ _ _ (fun s => Fixed.keeps ?_)
  (repeat' split) <;> simp [Fixed]

theorem execSlipWrite_runs (l : Line) (s : State) : Runs s (execSlipWrite l s) := by
  unfold execSlipWrite
  refine runLine_runs _ _ _ _ _ (fun s => ?_)
  refine Keeps.trans ?_ (State.okAccess_fixed _ _ _ _).keeps
  exact (State.touch_fixed _ _).keeps.trans (State.carrelWrite_keeps _ _ _)

theorem execPins_runs (l : Line) (s : State) : Runs s (execPins l s) := by
  unfold execPins
  refine runLine_runs _ _ _ _ _ (fun s => Fixed.keeps ?_)
  (repeat' split) <;> simp [Fixed]

theorem execGpio_runs (l : Line) (s : State) : Runs s (execGpio l s) := by
  unfold execGpio
  refine runLine_runs _ _ _ _ _ (fun s => Fixed.keeps ?_)
  (repeat' split) <;> simp [Fixed]

theorem execGpioEdge_runs (n : Fin 8) (level : Bool) (s : State) : Runs s (execGpioEdge n level s) := by
  unfold execGpioEdge
  simp only []
  (repeat' split) <;> exact ⟨_, rfl, Fixed.keeps (by simp_all [Fixed])⟩

theorem execSsw_runs (l : Line) (s : State) : Runs s (execSsw l s) := by
  exact runLine_runs _ _ _ _ _ (fun s => Fixed.keeps (by simp [Fixed]))

theorem execSswOn_runs (l : Line) (s : State) : Runs s (execSswOn l s) := by
  exact runTicket_runs _ _ _ _ _ _ _

theorem execSswOff_runs (l : Line) (s : State) : Runs s (execSswOff l s) := by
  exact runTicket_runs _ _ _ _ _ _ _

theorem execSswClear_runs (l : Line) (s : State) : Runs s (execSswClear l s) := by
  exact runLine_runs _ _ _ _ _ (fun s => Fixed.keeps (by simp [Fixed]))

theorem execSswRampEnd_runs (s : State) : Runs s (execSswRampEnd s) := by
  unfold execSswRampEnd
  (repeat' split) <;> exact ⟨_, rfl, Fixed.keeps (by simp [Fixed])⟩

theorem execSswCheck_runs (sswOut : Nat) (sswIn : Nat) (s : State) : Runs s (execSswCheck sswOut sswIn s) := by
  unfold execSswCheck
  (repeat' split) <;> exact ⟨_, rfl, Fixed.keeps (by simp [Fixed])⟩

theorem execSswLimitTimeout_runs (sswIn : Nat) (s : State) : Runs s (execSswLimitTimeout sswIn s) := by
  unfold execSswLimitTimeout
  (repeat' split) <;> exact ⟨_, rfl, Fixed.keeps (by simp [Fixed])⟩

theorem execSswThermal_runs (s : State) : Runs s (execSswThermal s) := by
  unfold execSswThermal
  (repeat' split) <;> exact ⟨_, rfl, Fixed.keeps (by simp [Fixed])⟩

theorem execSswDormantOverload_runs (s : State) : Runs s (execSswDormantOverload s) := by
  unfold execSswDormantOverload
  (repeat' split) <;> exact ⟨_, rfl, Fixed.keeps (by simp [Fixed])⟩

theorem execSswCurrentLimit_runs (active : Bool) (s : State) : Runs s (execSswCurrentLimit active s) := by
  unfold execSswCurrentLimit
  (repeat' split) <;> exact ⟨_, rfl, Fixed.keeps (by simp [Fixed])⟩

theorem execSswHotChange_runs (hot : Bool) (s : State) : Runs s (execSswHotChange hot s) := by
  unfold execSswHotChange
  (repeat' split) <;> exact ⟨_, rfl, Fixed.keeps (by simp [Fixed])⟩

theorem execErasureDone_runs (s : State) : Runs s (execErasureDone s) := by
  unfold execErasureDone
  (repeat' split) <;> exact ⟨_, rfl, Fixed.keeps (by simp [Fixed])⟩

theorem execTamper_runs (l : Line) (s : State) : Runs s (execTamper l s) := by
  exact runLine_runs _ _ _ _ _ (fun s => Fixed.keeps (by simp [Fixed]))

theorem execTamperSettings_runs (l : Line) (s : State) : Runs s (execTamperSettings l s) := by
  unfold execTamperSettings
  refine runLine_runs _ _ _ _ _ (fun s => Fixed.keeps ?_)
  (repeat' split) <;> simp [Fixed]

theorem execTamperClear_runs (l : Line) (s : State) : Runs s (execTamperClear l s) := by
  exact runLine_runs _ _ _ _ _ (fun s => Fixed.keeps (by simp [Fixed]))

theorem execTamperLog_runs (l : Line) (s : State) : Runs s (execTamperLog l s) := by
  exact runLine_runs _ _ _ _ _ (fun s => Fixed.keeps (by simp [Fixed]))

theorem execTicket_runs (l : Line) (s : State) : Runs s (execTicket l s) := by
  unfold execTicket
  refine runLine_runs _ _ _ _ _ (fun s => Fixed.keeps ?_)
  (repeat' split) <;> simp [Fixed]

theorem execRet_runs (l : Line) (s : State) : Runs s (execRet l s) := by
  unfold execRet
  refine runLine_runs _ _ _ _ _ (fun s => Fixed.keeps ?_)
  (repeat' split) <;> simp [Fixed]

theorem execRetAll_runs (l : Line) (s : State) : Runs s (execRetAll l s) := by
  unfold execRetAll
  refine runLine_runs _ _ _ _ _ (fun s => Fixed.keeps ?_)
  (repeat' split) <;> simp [Fixed]

theorem execEdition_runs (l : Line) (s : State) : Runs s (execEdition l s) := by
  unfold execEdition
  refine runLine_runs _ _ _ _ _ (fun s => Fixed.keeps ?_)
  (repeat' split) <;> simp [Fixed]

theorem execNoise_runs (l : Line) (s : State) : Runs s (execNoise l s) := by
  exact runLine_runs _ _ _ _ _ (fun s => Fixed.keeps (by simp [Fixed]))

theorem execNoiseRawOn_runs (l : Line) (s : State) : Runs s (execNoiseRawOn l s) := by
  exact runLine_runs _ _ _ _ _ (fun s => Fixed.keeps (by simp [Fixed]))

theorem execNoiseRawOff_runs (l : Line) (s : State) : Runs s (execNoiseRawOff l s) := by
  exact runTicket_runs _ _ _ _ _ _ _

theorem execNoiseRawCapture_runs (l : Line) (s : State) : Runs s (execNoiseRawCapture l s) := by
  exact runTicket_runs _ _ _ _ _ _ _

theorem execRawCaptureDone_runs (s : State) : Runs s (execRawCaptureDone s) := by
  unfold execRawCaptureDone
  (repeat' split) <;> exact ⟨_, rfl, Fixed.keeps (by simp [Fixed])⟩

theorem execNoiseStartupTestEnd_runs (passed : Bool) (aptFailed : Bool) (s : State) :
    Runs s (execNoiseStartupTestEnd passed aptFailed s) := by
  unfold execNoiseStartupTestEnd
  (repeat' split) <;> exact ⟨_, rfl, Fixed.keeps (by simp [Fixed])⟩

theorem execNoiseHealthFail_runs (apt : Bool) (s : State) : Runs s (execNoiseHealthFail apt s) := by
  unfold execNoiseHealthFail
  (repeat' split) <;> exact ⟨_, rfl, Fixed.keeps (by simp [Fixed])⟩

theorem execGradeBRefillDone_runs (s : State) : Runs s (execGradeBRefillDone s) := by
  unfold execGradeBRefillDone
  (repeat' split) <;> exact ⟨_, rfl, Fixed.keeps (by simp [Fixed])⟩

theorem execSeedBlockDone_runs (s : State) : Runs s (execSeedBlockDone s) := by
  unfold execSeedBlockDone
  (repeat' split) <;> exact ⟨_, rfl, Fixed.keeps (by simp [Fixed])⟩

theorem execDrbgReseedDone_runs (s : State) : Runs s (execDrbgReseedDone s) := by
  unfold execDrbgReseedDone
  (repeat' split) <;> exact ⟨_, rfl, Fixed.keeps (by simp [Fixed])⟩

theorem execLinkSettings_runs (l : Line) (s : State) : Runs s (execLinkSettings l s) := by
  unfold execLinkSettings
  refine runLine_runs _ _ _ _ _ (fun s => Fixed.keeps ?_)
  (repeat' split) <;> simp [Fixed]

theorem execLinkAssoc_runs (l : Line) (s : State) : Runs s (execLinkAssoc l s) := by
  exact runTicket_runs _ _ _ _ _ _ _

theorem execLinkAssocLocal_runs (l : Line) (s : State) : Runs s (execLinkAssocLocal l s) := by
  unfold execLinkAssocLocal
  refine runLine_runs _ _ _ _ _ (fun s => Fixed.keeps ?_)
  (repeat' split) <;> simp [Fixed]

theorem execLinkLeave_runs (l : Line) (s : State) : Runs s (execLinkLeave l s) := by
  exact runTicket_runs _ _ _ _ _ _ _

theorem execLinkPoll_runs (l : Line) (s : State) : Runs s (execLinkPoll l s) := by
  exact runTicket_runs _ _ _ _ _ _ _

theorem execLinkSched_runs (l : Line) (s : State) : Runs s (execLinkSched l s) := by
  unfold execLinkSched
  refine runLine_runs _ _ _ _ _ (fun s => Fixed.keeps ?_)
  (repeat' split) <;> simp [Fixed]

theorem execLinkWake_runs (l : Line) (s : State) : Runs s (execLinkWake l s) := by
  unfold execLinkWake
  refine runLine_runs _ _ _ _ _ (fun s => Fixed.keeps ?_)
  simp only []
  (repeat' split) <;> simp_all [Fixed]

theorem execCat_runs (l : Line) (s : State) : Runs s (execCat l s) := by
  exact runLine_runs _ _ _ _ _ (fun s => Fixed.keeps (by simp [Fixed]))

theorem execCatPool_runs (l : Line) (s : State) : Runs s (execCatPool l s) := by
  unfold execCatPool
  refine runLine_runs _ _ _ _ _ (fun s => Fixed.keeps ?_)
  (repeat' split) <;> simp [Fixed]

theorem execCatAdd_runs (l : Line) (s : State) : Runs s (execCatAdd l s) := by
  unfold execCatAdd
  refine runLine_runs _ _ _ _ _ (fun s => Fixed.keeps ?_)
  (repeat' split) <;> simp [Fixed]

theorem execCatSet_runs (l : Line) (s : State) : Runs s (execCatSet l s) := by
  unfold execCatSet
  refine runLine_runs _ _ _ _ _ (fun s => Fixed.keeps ?_)
  (repeat' split) <;> simp [Fixed]

theorem execCatRemove_runs (l : Line) (s : State) : Runs s (execCatRemove l s) := by
  unfold execCatRemove
  refine runLine_runs _ _ _ _ _ (fun s => Fixed.keeps ?_)
  (repeat' split) <;> simp [Fixed]

theorem execCatQueue_runs (l : Line) (s : State) : Runs s (execCatQueue l s) := by
  unfold execCatQueue
  refine runLine_runs _ _ _ _ _ (fun s => Fixed.keeps ?_)
  (repeat' split) <;> simp [Fixed]

theorem execTicketHead_runs (q : Queue) (s : State) : Runs s (execTicketHead q s) := by
  unfold execTicketHead
  (repeat' split) <;> first
    | exact .next (State.tryStart_keeps _ _)
    | exact .next (Fixed.keeps (by simp [Fixed]))

theorem execTicketTimedStart_runs (q : Queue) (s : State) : Runs s (execTicketTimedStart q s) := by
  unfold execTicketTimedStart
  (repeat' split) <;> first
    | exact .next (State.dueNow_keeps _)
    | exact .next (.refl s)

theorem execTicketOverdue_runs (n : Nat) (s : State) : Runs s (execTicketOverdue n s) := by
  unfold execTicketOverdue
  (repeat' split) <;> exact ⟨_, rfl, Fixed.keeps (by simp [Fixed])⟩

theorem execCancel_runs (l : Line) (s : State) : Runs s (execCancel l s) := by
  unfold execCancel
  refine runLine_runs _ _ _ _ _ (fun s => Fixed.keeps ?_)
  (repeat' split) <;> simp [Fixed]

theorem execCancelAll_runs (l : Line) (s : State) : Runs s (execCancelAll l s) := by
  exact runLine_runs _ _ _ _ _ (fun s => Fixed.keeps (by simp [Fixed]))

theorem execDaySet_runs (l : Line) (s : State) : Runs s (execDaySet l s) := by
  unfold execDaySet
  refine runLine_runs _ _ _ _ _ (fun s => Fixed.keeps ?_)
  (repeat' split) <;> simp [Fixed]

theorem execAlarmFire_runs (a : Fin 4) (s : State) : Runs s (execAlarmFire a s) := by
  unfold execAlarmFire
  (repeat' split) <;> first
    | exact .next (State.dueNow_keeps _)
    | exact .next (.refl s)

theorem execPowerOn_runs (s : State) : Runs s (execPowerOn s) := by
  unfold execPowerOn
  (repeat' split) <;> exact ⟨_, rfl, Fixed.keeps (by simp [Fixed])⟩

theorem execPor_runs (s : State) : Runs s (execPor s) :=
  .next ((State.takeReset_keeps s .por 0 .por).trans (.of_eq rfl rfl rfl))

theorem execBorRun_runs (s : State) : Runs s (execBorRun s) := by
  unfold execBorRun
  (repeat' split) <;> first
    | exact .next (State.takeReset_keeps _ _ _ _)
    | exact .next (.refl s)

theorem execBorRelease_runs (s : State) : Runs s (execBorRelease s) := by
  unfold execBorRelease
  (repeat' split) <;> exact ⟨_, rfl, Fixed.keeps (by simp [Fixed])⟩

theorem execBorDormant_runs (s : State) : Runs s (execBorDormant s) := by
  unfold execBorDormant
  (repeat' split) <;> first
    | exact .next (State.takeReset_keeps _ _ _ _)
    | exact .next (.refl s)

theorem execNrstReset_runs (s : State) : Runs s (execNrstReset s) := by
  have h : Keeps s { s with pads := { s.pads with nrst := false } } := .of_eq rfl rfl rfl
  unfold execNrstReset
  simp only []
  split
  · exact .next (h.trans (State.takeReset_keeps _ _ _ _))
  · exact .next h

theorem execNrstRelease_runs (s : State) : Runs s (execNrstRelease s) := by
  unfold execNrstRelease
  (repeat' split) <;> exact ⟨_, rfl, Fixed.keeps (by simp [Fixed])⟩

theorem execTestModeEntry_runs (s : State) : Runs s (execTestModeEntry s) := by
  unfold execTestModeEntry
  (repeat' split) <;> exact ⟨_, rfl, Fixed.keeps (by simp [Fixed])⟩

theorem execVddioLoss_runs (s : State) : Runs s (execVddioLoss s) := by
  unfold execVddioLoss
  (repeat' split) <;> exact ⟨_, rfl, Fixed.keeps (by simp [Fixed])⟩

theorem execVddioRestore_runs (s : State) : Runs s (execVddioRestore s) := by
  unfold execVddioRestore
  (repeat' split) <;> exact ⟨_, rfl, Fixed.keeps (by simp [Fixed])⟩

theorem execCommandReset_runs (s : State) : Runs s (execCommandReset s) := by
  unfold execCommandReset
  (repeat' split) <;> first
    | exact .next (.refl s)
    | exact .next (State.takeReset_keeps _ _ _ _)
    | (refine .next ?_; split <;> first | exact State.takeReset_keeps _ _ _ _ | exact .refl s)

theorem execDormant_runs (l : Line) (s : State) : Runs s (execDormant l s) := by
  exact runLine_runs _ _ _ _ _ (fun s => Fixed.keeps (by simp [Fixed]))

theorem execDormantAttempt_runs (temp : Int) (s : State) : Runs s (execDormantAttempt temp s) := by
  unfold execDormantAttempt
  (repeat' split) <;> exact ⟨_, rfl, Fixed.keeps (by simp [Fixed])⟩

theorem execAutoDormant_runs (temp : Int) (s : State) : Runs s (execAutoDormant temp s) := by
  unfold execAutoDormant
  (repeat' split) <;> exact ⟨_, rfl, Fixed.keeps (by simp_all [Fixed])⟩

theorem execEntryPadLatch_runs (lag : Nat) (s : State) : Runs s (execEntryPadLatch lag s) := by
  unfold execEntryPadLatch
  (repeat' split) <;> exact ⟨_, rfl, Fixed.keeps (by simp [Fixed])⟩

theorem execEntryComplete_runs (s : State) : Runs s (execEntryComplete s) := by
  unfold execEntryComplete
  split
  · exact .next ((State.flushRows_keeps s).trans (Fixed.keeps (by simp [Fixed])))
  · exact .next (.refl s)

theorem execEntryWatchdog_runs (s : State) : Runs s (execEntryWatchdog s) := by
  unfold execEntryWatchdog
  (repeat' split) <;> first
    | exact .next (State.takeReset_keeps _ _ _ _)
    | exact .next (.refl s)

theorem execWakeSourceRegistered_runs (src : WakeSource) (level : Bool) (s : State) :
    Runs s (execWakeSourceRegistered src level s) := .next (State.wakeSource_keeps _ _ _)

theorem execQuietWakeOrigin_runs (s : State) : Runs s (execQuietWakeOrigin s) := by
  unfold execQuietWakeOrigin
  (repeat' split) <;> exact ⟨_, rfl, Fixed.keeps (by simp [Fixed])⟩

theorem execWakeRegRdy_runs (ready released : Bool) (s : State) : Runs s (execWakeRegRdy ready released s) := by
  unfold execWakeRegRdy
  (repeat' split) <;> first
    | exact .next (State.resetCore_keeps _ _ _ _ _)
    | exact .next (State.wakeLateReset_keeps _ _)
    | exact .next (.of_eq rfl rfl rfl)

theorem execWakeOscRdy_runs (ready : Bool) (s : State) : Runs s (execWakeOscRdy ready s) := by
  unfold execWakeOscRdy
  (repeat' split) <;> first
    | exact .next (State.wakeLateReset_keeps _ _)
    | exact .next (.of_eq rfl rfl rfl)

theorem execWakeResumeEdge_runs (keeper : Nat) (s : State) : Runs s (execWakeResumeEdge keeper s) := by
  unfold execWakeResumeEdge
  (repeat' split) <;> exact ⟨_, rfl, Fixed.keeps (by simp [Fixed])⟩

theorem execWakeLogicRdy_runs (temp : Int) (memory logic : Bool) (s : State) :
    Runs s (execWakeLogicRdy temp memory logic s) := by
  unfold execWakeLogicRdy
  have h := (State.resumeDay_fixed s temp).keeps
  split
  · split
    · exact .next (State.wakeLateReset_keeps _ _)
    · split
      · exact .next (State.wakeLateReset_keeps _ _)
      · split
        · exact .next (h.trans (State.logicActions_keeps _))
        · dsimp only
          split
          · exact .next (h.trans (State.beginSniff_fixed _).keeps)
          · exact .next (h.trans (State.quietFull_keeps _ _))
  · exact .next (.refl s)

theorem execWakeReadyLine_runs (s : State) : Runs s (execWakeReadyLine s) := by
  unfold execWakeReadyLine
  (repeat' split) <;> exact ⟨_, rfl, Fixed.keeps (by simp [Fixed])⟩

theorem execSniffEnd_runs (s : State) : Runs s (execSniffEnd s) := by
  unfold execSniffEnd
  (repeat' split) <;> exact ⟨_, rfl, Fixed.keeps (by simp [Fixed])⟩

theorem execWakePatternDetected_runs (chan : Nat) (rx : WakeRx) (s : State) :
    Runs s (execWakePatternDetected chan rx s) := by
  have h2 : Fixed s (s.wakeSeen.handOver chan true) := by simp [Fixed]
  have h1 : Fixed s s.wakeSeen := by simp [Fixed]
  unfold execWakePatternDetected
  simp only []
  split
  · exact .next (.refl s)
  · split
    · split
      · exact .next ((h2.keeps.trans (State.quietFull_keeps _ _)).trans (State.fire_fixed _ _ _).keeps)
      · exact .next (h2.keeps.trans (State.fire_fixed _ _ _).keeps)
    · split
      · exact .next ((h1.keeps.trans (State.quietFull_keeps _ _)).trans (State.fire_fixed _ _ _).keeps)
      · exact .next (.refl s)

theorem execWakeInEdge_runs (level : Bool) (s : State) : Runs s (execWakeInEdge level s) := by
  have h : Keeps s { s with pads := { s.pads with wakeIn := level } } := .of_eq rfl rfl rfl
  unfold execWakeInEdge
  simp only []
  (repeat' split) <;> first
    | exact .next (.refl s)
    | exact .next h
    | exact .next (h.trans (State.wakeSource_keeps _ _ _))
    | exact .next (h.trans (Fixed.keeps (by simp [Fixed])))

theorem execTamperSample_runs (level : Bool) (s : State) : Runs s (execTamperSample level s) :=
  .next (State.tamperWakes_keeps _ _ (fun _ => State.tamperSampled_fixed _ _))

theorem execTamperContinuous_runs (level : Bool) (s : State) : Runs s (execTamperContinuous level s) :=
  .next (State.tamperWakes_keeps _ _ (fun _ => State.tamperEdge_fixed _ _))

theorem execVbatDip_runs (s : State) : Runs s (execVbatDip s) :=
  .next (State.tamperWakes_keeps _ _ (fun _ => State.tamperDip_fixed _))

theorem execDorm_runs (l : Line) (s : State) : Runs s (execDorm l s) := by
  unfold execDorm
  refine runLine_runs _ _ _ _ _ (fun s => Fixed.keeps ?_)
  (repeat' split) <;> simp [Fixed]

theorem execPadsRelease_runs (l : Line) (s : State) : Runs s (execPadsRelease l s) := by
  exact runLine_runs _ _ _ _ _ (fun s => Fixed.keeps (by simp [Fixed]))

theorem execBlockTimeout_runs (p : Port) (s : State) : Runs s (execBlockTimeout p s) := by
  unfold execBlockTimeout
  (repeat' split) <;> exact ⟨_, rfl, Fixed.keeps (by simp [Fixed])⟩

theorem execDeskOctet_runs (b : Byte) (stopLow : Bool) (s0 : State) : Runs s0 (execDeskOctet b stopLow s0) := by
  unfold execDeskOctet
  simp only []
  (repeat' split) <;> exact ⟨_, rfl, Fixed.keeps (by simp_all [Fixed])⟩

theorem execDeskBreak_runs (s : State) : Runs s (execDeskBreak s) := by
  unfold execDeskBreak
  (repeat' split) <;> exact ⟨_, rfl, Fixed.keeps (by simp [Fixed])⟩

theorem execAutobaudCharacter_runs (startTicks : Nat) (lowTicks : Nat) (s : State) :
    Runs s (execAutobaudCharacter startTicks lowTicks s) := by
  unfold execAutobaudCharacter
  (repeat' split) <;> exact ⟨_, rfl, Fixed.keeps (by simp [Fixed])⟩

theorem execDeskTxOctetEnd_runs (s : State) : Runs s (execDeskTxOctetEnd s) := by
  unfold execDeskTxOctetEnd
  (repeat' split) <;> exact ⟨_, rfl, Fixed.keeps (by simp [Fixed])⟩

theorem execLineSent_runs (p : Port) (s : State) : Runs s (execLineSent p s) := by
  unfold execLineSent
  (repeat' split) <;> exact ⟨_, rfl, Fixed.keeps (by simp_all [Fixed])⟩

theorem execChuteCsFall_runs (mode3 : Bool) (s : State) : Runs s (execChuteCsFall mode3 s) := by
  unfold execChuteCsFall
  (repeat' split) <;> exact ⟨_, rfl, Fixed.keeps (by simp [Fixed])⟩

theorem execChuteOctet_runs (b : Option Byte) (s : State) : Runs s (execChuteOctet b s) := by
  unfold execChuteOctet
  (repeat' split) <;> exact ⟨_, rfl, Fixed.keeps (by simp [Fixed])⟩

theorem execChuteCsRise_runs (s : State) : Runs s (execChuteCsRise s) := by
  unfold execChuteCsRise
  simp only []
  (repeat' split) <;> exact ⟨_, rfl, Fixed.keeps (by simp [Fixed])⟩

theorem execChuteReplyTimeout_runs (s : State) : Runs s (execChuteReplyTimeout s) := by
  unfold execChuteReplyTimeout
  (repeat' split) <;> first
    | exact .next (State.takeReset_keeps _ _ _ _)
    | exact .next (.of_eq rfl rfl rfl)

theorem execMode_runs (l : Line) (s : State) : Runs s (execMode l s) := by
  unfold execMode
  refine runLine_runs _ _ _ _ _ (fun s => Fixed.keeps ?_)
  (repeat' split) <;> simp [Fixed]

theorem execDesk_runs (l : Line) (s : State) : Runs s (execDesk l s) := by
  unfold execDesk
  refine runLine_runs _ _ _ _ _ (fun s => Fixed.keeps ?_)
  (repeat' split) <;> simp [Fixed]

theorem execId_runs (l : Line) (s : State) : Runs s (execId l s) := by
  exact runLine_runs _ _ _ _ _ (fun s => Fixed.keeps (by simp [Fixed]))

theorem execIdAll_runs (l : Line) (s : State) : Runs s (execIdAll l s) := by
  exact runLine_runs _ _ _ _ _ (fun s => Fixed.keeps (by simp [Fixed]))

theorem execStat_runs (l : Line) (s : State) : Runs s (execStat l s) := by
  exact runLine_runs _ _ _ _ _ (fun s => Fixed.keeps (by simp [Fixed]))

theorem execReset_runs (l : Line) (s : State) : Runs s (execReset l s) := by
  unfold execReset
  refine runLine_runs _ _ _ _ _ (fun s => ?_)
  split
  · exact State.takeReset_keeps _ _ _ _
  · exact Fixed.keeps (by simp [Fixed])

theorem execRd_runs (l : Line) (s : State) : Runs s (execRd l s) := by
  unfold execRd
  refine runLine_runs _ _ _ _ _ (fun s => Fixed.keeps ?_)
  (repeat' split) <;> simp [Fixed]

theorem execGet_runs (l : Line) (s : State) : Runs s (execGet l s) := by
  unfold execGet
  refine runLine_runs _ _ _ _ _ (fun s => Fixed.keeps ?_)
  (repeat' split) <;> simp [Fixed]

theorem setFields_quiet (l : Line) : ∀ x ∈ setFields l, x.reg.Quiet := by
  intro x hx
  unfold setFields at hx
  obtain ⟨a, _, ha⟩ := List.mem_filterMap.1 hx
  split at ha
  · rename_i r f v h1 _
    simp only [Option.some.injEq] at ha
    subst ha
    unfold setTarget at h1
    dsimp only at h1
    split at h1
    · simp at h1
    · rename_i r' hr
      obtain ⟨f', _, hf⟩ := Option.map_eq_some_iff.1 h1
      simp only [Prod.mk.injEq] at hf
      exact hf.1 ▸ regNamed_quiet hr
  · simp at ha

theorem State.writeOf_quiet {s : State} {f : WriteForm} {l : Line} {r : Reg} {v : Word} (h : s.writeOf f l = some (r, v)) :
    r.Quiet := by
  unfold State.writeOf at h
  cases f
  · obtain ⟨r', hr, he⟩ := Option.map_eq_some_iff.1 h
    simp only [Prod.mk.injEq] at he
    exact he.1 ▸ regAt_quiet hr
  · dsimp only at h
    split at h
    · simp at h
    · rename_i x xs hx
      simp only [Option.some.injEq, Prod.mk.injEq] at h
      exact h.1 ▸ setFields_quiet l x (by simp [hx])

theorem execWrite_runs (f : WriteForm) (l : Line) (s : State) : Runs s (execWrite f l s) := by
  unfold execWrite
  refine runLine_runs _ _ _ _ _ (fun s => ?_)
  split
  · exact Fixed.keeps (by simp [Fixed])
  · rename_i r v h
    refine Keeps.trans ((State.writeOf_quiet h).write v s).keeps ?_
    (repeat' split) <;> exact Fixed.keeps (by simp [Fixed])

theorem execWriteIn_runs (c : WriteClass) (f : WriteForm) (l : Line) (s : State) : Runs s (execWriteIn c f l s) := by
  unfold execWriteIn
  split
  · exact execWrite_runs _ _ _
  · exact .next (.refl s)

theorem execRegisterWrite_runs (f : WriteForm) (l : Line) (s : State) : Runs s (execRegisterWrite f l s) :=
  execWriteIn_runs _ f l s

theorem execCounterWrite_runs (f : WriteForm) (l : Line) (s : State) : Runs s (execCounterWrite f l s) :=
  execWriteIn_runs _ f l s

theorem execEventsPendWrite_runs (f : WriteForm) (l : Line) (s : State) : Runs s (execEventsPendWrite f l s) :=
  execWriteIn_runs _ f l s

theorem execSysAlertClear_runs (f : WriteForm) (l : Line) (s : State) : Runs s (execSysAlertClear f l s) :=
  execWriteIn_runs _ f l s

theorem execCarrelLostClear_runs (f : WriteForm) (l : Line) (s : State) : Runs s (execCarrelLostClear f l s) :=
  execWriteIn_runs _ f l s

theorem execOrdersDamagedClear_runs (f : WriteForm) (l : Line) (s : State) : Runs s (execOrdersDamagedClear f l s) :=
  execWriteIn_runs _ f l s

theorem execDeskConfigWrite_runs (f : WriteForm) (l : Line) (s : State) : Runs s (execDeskConfigWrite f l s) :=
  execWriteIn_runs _ f l s

theorem execChuteConfigWrite_runs (f : WriteForm) (l : Line) (s : State) : Runs s (execChuteConfigWrite f l s) :=
  execWriteIn_runs _ f l s

theorem execDormConfigWrite_runs (f : WriteForm) (l : Line) (s : State) : Runs s (execDormConfigWrite f l s) :=
  execWriteIn_runs _ f l s

theorem execSysPadDriveWrite_runs (f : WriteForm) (l : Line) (s : State) : Runs s (execSysPadDriveWrite f l s) :=
  execWriteIn_runs _ f l s

theorem execPwrVbatWarnWrite_runs (f : WriteForm) (l : Line) (s : State) : Runs s (execPwrVbatWarnWrite f l s) :=
  execWriteIn_runs _ f l s

theorem execRadioChanWrite_runs (f : WriteForm) (l : Line) (s : State) : Runs s (execRadioChanWrite f l s) :=
  execWriteIn_runs _ f l s

theorem execRadioTxConfigWrite_runs (f : WriteForm) (l : Line) (s : State) : Runs s (execRadioTxConfigWrite f l s) :=
  execWriteIn_runs _ f l s

theorem execRadioPlanWrite_runs (f : WriteForm) (l : Line) (s : State) : Runs s (execRadioPlanWrite f l s) :=
  execWriteIn_runs _ f l s

theorem execModemConfigWrite_runs (f : WriteForm) (l : Line) (s : State) : Runs s (execModemConfigWrite f l s) :=
  execWriteIn_runs _ f l s

theorem execCensusConfigWrite_runs (f : WriteForm) (l : Line) (s : State) : Runs s (execCensusConfigWrite f l s) :=
  execWriteIn_runs _ f l s

theorem execFrameConfigWrite_runs (f : WriteForm) (l : Line) (s : State) : Runs s (execFrameConfigWrite f l s) :=
  execWriteIn_runs _ f l s

theorem execFrameFilterWrite_runs (f : WriteForm) (l : Line) (s : State) : Runs s (execFrameFilterWrite f l s) :=
  execWriteIn_runs _ f l s

theorem execLinkConfigWrite_runs (f : WriteForm) (l : Line) (s : State) : Runs s (execLinkConfigWrite f l s) :=
  execWriteIn_runs _ f l s

theorem execTicketsConfigWrite_runs (f : WriteForm) (l : Line) (s : State) : Runs s (execTicketsConfigWrite f l s) :=
  execWriteIn_runs _ f l s

theorem execEventsMaskWrite_runs (f : WriteForm) (l : Line) (s : State) : Runs s (execEventsMaskWrite f l s) :=
  execWriteIn_runs _ f l s

theorem execEventsAttnConfigWrite_runs (f : WriteForm) (l : Line) (s : State) : Runs s (execEventsAttnConfigWrite f l s) :=
  execWriteIn_runs _ f l s

theorem execVaultConfigWrite_runs (f : WriteForm) (l : Line) (s : State) : Runs s (execVaultConfigWrite f l s) :=
  execWriteIn_runs _ f l s

theorem execVaultFcWrite_runs (f : WriteForm) (l : Line) (s : State) : Runs s (execVaultFcWrite f l s) :=
  execWriteIn_runs _ f l s

theorem execCollateFeedWrite_runs (f : WriteForm) (l : Line) (s : State) : Runs s (execCollateFeedWrite f l s) :=
  execWriteIn_runs _ f l s

theorem execCollateCompareWrite_runs (f : WriteForm) (l : Line) (s : State) : Runs s (execCollateCompareWrite f l s) :=
  execWriteIn_runs _ f l s

theorem execGpioOutWrite_runs (f : WriteForm) (l : Line) (s : State) : Runs s (execGpioOutWrite f l s) :=
  execWriteIn_runs _ f l s

theorem execGpioConfigWrite_runs (f : WriteForm) (l : Line) (s : State) : Runs s (execGpioConfigWrite f l s) :=
  execWriteIn_runs _ f l s

theorem execTamperConfigWrite_runs (f : WriteForm) (l : Line) (s : State) : Runs s (execTamperConfigWrite f l s) :=
  execWriteIn_runs _ f l s

theorem execPowerStageEnd_runs (temp : Int) (keeper : Nat) (ticks : Nat) (s : State) :
    Runs s (execPowerStageEnd temp keeper ticks s) := by
  unfold execPowerStageEnd
  (repeat' split) <;> exact ⟨_, rfl, Fixed.keeps (by simp [Fixed])⟩

theorem execOscillatorRestart_runs (s : State) : Runs s (execOscillatorRestart s) := by
  unfold execOscillatorRestart
  (repeat' split) <;> exact ⟨_, rfl, Fixed.keeps (by simp [Fixed])⟩

theorem execBringupRecord_runs (found : RecordFindings) (s : State) : Runs s (execBringupRecord found s) := by
  unfold execBringupRecord
  split
  · extract_lets a0 a1 a2 pw cs a3 a4 a5
    have h0 : Fixed s a0 := by simp [a0, Fixed]
    have h1 : Fixed a0 a1 := by
      simp only [a1]
      split
      · exact State.firstBoot_fixed _
      · exact State.loadRecord_fixed _
    have h2 : Fixed a1 a2 := by simp [a2, Fixed]
    have h3 : Fixed a2 a3 := ⟨rfl, rfl, rfl, rfl, rfl⟩
    have h4 : Fixed a3 a4 := State.poolCheck_fixed _
    have h5 : Fixed a4 a5 := by simp only [a5]; split <;> simp [Fixed]
    have h6 := (((((h0.trans h1).trans h2).trans h3).trans h4).trans h5).keeps.trans (State.loadLatch_fixed a5).keeps
    exact .next ((h6.trans (State.flushRows_keeps _)).trans (State.toStage_fixed _ _).keeps)
  · exact .next (.refl s)

theorem execBringupTrim_runs (s : State) : Runs s (execBringupTrim s) := by
  unfold execBringupTrim
  (repeat' split) <;> exact ⟨_, rfl, Fixed.keeps (by simp [Fixed])⟩

theorem execBringupLedger_runs (s : State) : Runs s (execBringupLedger s) := by
  unfold execBringupLedger
  split
  · refine .next (Keeps.trans ?_ (State.toStage_fixed _ _).keeps)
    refine Keeps.trans ?_ (State.flushRows_keeps _)
    refine Fixed.keeps ?_
    simp [Fixed]
  · exact .next (.refl s)

theorem execBringupVault_runs (testPassed : Bool) (s : State) : Runs s (execBringupVault testPassed s) := by
  unfold execBringupVault
  split
  · refine .next (Keeps.trans ?_ (State.toStage_fixed _ _).keeps)
    refine Keeps.trans ?_ (State.flushRows_keeps _)
    refine Fixed.keeps ?_
    simp [Fixed]
  · exact .next (.refl s)

theorem execBringupOrders_runs (damaged : Word) (s : State) : Runs s (execBringupOrders damaged s) := by
  unfold execBringupOrders
  (repeat' split) <;> exact ⟨_, rfl, Fixed.keeps (by simp [Fixed])⟩

theorem execBringupReady_runs (s : State) : Runs s (execBringupReady s) := by
  unfold execBringupReady
  (repeat' split) <;> exact ⟨_, rfl, Fixed.keeps (by simp [Fixed])⟩

theorem execSeqWatchdog_runs (s : State) : Runs s (execSeqWatchdog s) := by
  unfold execSeqWatchdog
  split
  · exact .next (State.takeReset_keeps _ _ _ _)
  · exact .next (.refl s)

theorem execHelp_runs (l : Line) (s : State) : Runs s (execHelp l s) := by
  unfold execHelp
  refine runLine_runs _ _ _ _ _ (fun s => Fixed.keeps ?_)
  (repeat' split) <;> simp [Fixed]

theorem execOrderLimitExpiry_runs (s : State) : Runs s (execOrderLimitExpiry s) := by
  unfold execOrderLimitExpiry
  (repeat' split) <;> exact ⟨_, rfl, Fixed.keeps (by simp [Fixed])⟩

theorem execOrderStop_runs (l : Line) (s : State) : Runs s (execOrderStop l s) := by
  unfold execOrderStop
  refine runLine_runs _ _ _ _ _ (fun s => Fixed.keeps ?_)
  (repeat' split) <;> simp [Fixed]

theorem execSkip_runs (l : Line) (s : State) : Runs s (execSkip l s) := by
  unfold execSkip
  refine runLine_runs _ _ _ _ _ (fun s => Fixed.keeps ?_)
  (repeat' split) <;> simp [Fixed]

theorem execLineError_runs (p : Port) (text : List Byte) (lost : LostMarks) (s : State) :
    Runs s (execLineError p text lost s) := by
  unfold execLineError
  (repeat' split) <;> exact ⟨_, rfl, Fixed.keeps (by simp [Fixed])⟩

theorem execOrderStore_runs (l : Line) (s : State) : Runs s (execOrderStore l s) := by
  exact runTicket_runs _ _ _ _ _ _ _

/-! ## The lines of a standing order -/

theorem writeRow_runs (f : WriteForm) (l : Line) (s : State) : Runs s (writeRow f l s) := by
  unfold writeRow
  generalize (lineAddr f l).map writeClass = c
  cases c with
  | none => exact execWriteIn_runs _ _ _ _
  | some c => cases c <;> exact execWriteIn_runs _ _ _ _

theorem orderStoreWith_runs (lines : List String) (found : List Er) (l : Line) (s : State) :
    Runs s (orderStoreWith lines found l s) := runTicket_runs _ _ _ _ _ _ _

/-- Every meaning in a table of lines keeps. -/
abbrev LineAct.Runs (a : LineAct) : Prop := ∀ l s, Sys2Proof.Machine.Runs s (a l s)

theorem LineAct.Runs.ite (c : Line → Bool) {a b : LineAct} (ha : LineAct.Runs a) (hb : LineAct.Runs b) :
    LineAct.Runs (fun l => if c l = true then a l else b l) := by
  intro l s
  by_cases h : c l = true
  · simpa [h] using ha l s
  · simpa [h] using hb l s

theorem nounRows_runs (t : Int) : ∀ r ∈ nounRows t, LineAct.Runs r.2.2 := by
  unfold nounRows
  simp only [List.flatten_cons, List.flatten_nil, List.forall_mem_append, List.forall_mem_cons, List.not_mem_nil,
    false_imp_iff, implies_true, and_true]
  exact ⟨⟨execAlarmOff_runs, execArchRead_runs, execArchAdd_runs, execArchFind_runs, execArchMark_runs,
     execArchDrop_runs, execBandClear_runs, execCancelAll_runs, execCarrelRead_runs, execCarrelWrite_runs,
     execCatPool_runs, execCatAdd_runs, execCatSet_runs, execCatRemove_runs, execCatQueue_runs,
     execCcaCheck_runs, execCensusWatch_runs, execCensusOff_runs, execCensusLevels_runs, execCensusScan_runs⟩,
    ⟨execCollateOpen_runs, execCollateFeed_runs, execCollateClose_runs, execDayStatus_runs, execDaySet_runs,
     execDaySlew_runs, execEventClear_runs, execEventMask_runs, execEventRaise_runs, execEventAttn_runs,
     execEventSave_runs, execFrameSend_runs, execFrameRead_runs, execFrameFree_runs, execIdAll_runs,
     execKeeperTable_runs, execKeeperForget_runs t⟩,
    ⟨.ite _ execLinkAssocLocal_runs execLinkAssoc_runs, execLinkLeave_runs, execLinkPoll_runs,
     execLinkSched_runs, execLinkWake_runs, execOrderList_runs, execOrderDraft_runs, execOrderLine_runs,
     orderStoreWith_runs [] [], execOrderSet_runs, execOrderErase_runs, execOrderRun_runs, execOrderStop_runs,
     execPadsRelease_runs, execPorterGo_runs, execPwrMeasure_runs, execRecordRead_runs, execRecordWrite_runs,
     execRxStatus_runs⟩,
    ⟨execSswOn_runs, execSswOff_runs, execSswClear_runs, execStacksPart_runs, execStacksRead_runs,
     execStacksWrite_runs, execTamperClear_runs, execTamperLog_runs, execTariffClear_runs, execTariffSched_runs,
     execTariffUnsched_runs, execTrimRun_runs, execTrimRestore_runs, execTxCw_runs, execVaultLoad_runs,
     execVaultErase_runs, execVaultFlags_runs, execVaultSeal_runs, execVaultRand_runs, execVaultCcm_runs,
     execWaitClear_runs⟩⟩

theorem plainRows_runs (t : Int) : ∀ r ∈ plainRows t, LineAct.Runs r.2 := by
  unfold plainRows
  simp only [List.flatten_cons, List.flatten_nil, List.forall_mem_append, List.forall_mem_cons, List.not_mem_nil,
    false_imp_iff, implies_true, and_true]
  exact ⟨⟨.ite _ execAlarmArm_runs execAlarmReport_runs, execArch_runs, .ite _ execBandSet_runs execBandReport_runs,
     execCancel_runs, execCarrel_runs, execCat_runs, execCcaSettings_runs, execCensusSettings_runs,
     execChan_runs, execCollate_runs, execDay_runs, execDesk_runs, execDorm_runs, execDormant_runs,
     execEdition_runs, execEvent_runs, execFilter_runs, execFrameSettings_runs⟩,
    ⟨execGet_runs, execGpio_runs, execHelp_runs, execId_runs, .ite _ (execKeeperRef_runs t) (execKeeper_runs t),
     execLedger_runs, execLinkSettings_runs, execMode_runs, execNoise_runs, execOrderShow_runs, execPins_runs,
     execPorter_runs, execProfile_runs, execPwr_runs, execRd_runs, execReset_runs,
     .ite _ execRetAll_runs execRet_runs, execRx_runs, writeRow_runs .set, execSkip_runs⟩,
    ⟨.ite _ execSlip_runs execSlipWrite_runs, execSsw_runs, execStacks_runs, execStat_runs,
     .ite _ execTamper_runs execTamperSettings_runs, .ite _ execTariffSet_runs execTariffReport_runs,
     execTicket_runs, execTrimStatus_runs, execTxSettings_runs, execVault_runs, execWait_runs,
     writeRow_runs .wr⟩⟩

theorem rowOf_runs {t : Int} {v : Verb} {l : Line} {a : State → Host.Outcome State Fault Refusal}
    (h : rowOf t v l = .ok a) (s : State) : Runs s (a s) := by
  have hn : ∀ x f, ((nounRows t).find? (fun r => r.1 == v.name && r.2.1 == x)).map (fun r => r.2.2) = some f →
      LineAct.Runs f := by
    intro x f hf
    obtain ⟨r, hr, he⟩ := Option.map_eq_some_iff.1 hf
    exact he ▸ nounRows_runs t r (List.mem_of_find?_eq_some hr)
  have hp : ∀ f, (plainRows t).lookup v.name = some f → LineAct.Runs f := by
    intro f hf
    obtain ⟨l1, l2, hr, _⟩ := List.lookup_eq_some_iff.1 hf
    exact plainRows_runs t (v.name, f) (by rw [hr]; simp)
  have hplain : ∀ e : Er, (match (plainRows t).lookup v.name with
      | some f => Except.ok (f l)
      | none => Except.error e) = .ok a → Runs s (a s) := by
    intro e he
    split at he
    · rename_i f hf
      simp only [Except.ok.injEq] at he
      exact he ▸ hp f hf l s
    · simp at he
  unfold rowOf at h
  extract_lets word noun plain at h
  split at h
  · (repeat' split at h) <;> simp only [Except.ok.injEq, reduceCtorEq] at h
    · exact h ▸ execNoiseRawOn_runs _ s
    · exact h ▸ execNoiseRawOff_runs _ s
    · exact h ▸ execNoiseRawCapture_runs _ s
  · split at h
    · rename_i f hf
      simp only [Except.ok.injEq] at h
      obtain ⟨x, _, hx⟩ := Option.bind_eq_some_iff.1 hf
      exact h ▸ hn x f hx _ s
    · split at h
      · split at h
        · split at h
          · rename_i f hf
            simp only [Except.ok.injEq] at h
            exact h ▸ hn _ f hf _ s
          · exact hplain _ h
        · exact hplain _ h
      · exact hplain _ h

theorem State.takeOrderLine_keeps (s : State) (t : Int) (r : Run) (x : String) : Keeps s (s.takeOrderLine t r x) := by
  unfold State.takeOrderLine
  extract_lets r1 o s1
  have h1 : Keeps s s1 := .of_eq rfl rfl rfl
  refine h1.trans ?_
  split
  · exact (State.orderLineDone_fixed _ _ _).keeps
  · exact (State.orderLineDone_fixed _ _ _).keeps
  · split
    · exact (State.orderLineDone_fixed _ _ _).keeps
    · rename_i a ha
      have hr : Runs s1 (a s1) := by
        unfold State.rowFor at ha
        split at ha
        · simp at ha
        · split at ha
          · rename_i h
            simp only [Except.ok.injEq] at ha
            exact ha ▸ rowOf_runs h s1
          · simp at ha
      obtain ⟨t', ht, hk⟩ := hr
      rw [ht]
      exact hk.trans (State.afterLine_fixed _).keeps

theorem execOrderLineTake_runs (temp : Int) (s : State) : Runs s (execOrderLineTake temp s) := by
  unfold execOrderLineTake
  (repeat' split) <;> first
    | exact .next (State.takeOrderLine_keeps _ _ _ _)
    | exact .next (Fixed.keeps (by simp [Fixed]))

end Sys2Proof.Machine
end

