-- ==== Sys2Proof/Tests/Slice0.lean ====
section
/-! SUPPORT. Tests: ill-formed commands that WellFormed refuses, states and operands that meet the hypotheses of each
statement, and one step of each family. -/
namespace Sys2Proof.Tests

open Sys2Proof Sys2Proof.Machine

set_option maxRecDepth 20000
set_option linter.unusedVariables false

/-! ## Helpers -/

/-- A part in Run at READY. -/
def up : State :=
  let s := State.reset
  { s with
    sys := { s.sys with stage := .ready, hold := .none, oscOn := true }
    pwr := { s.pwr with state := .run, vddioOk := true }
    dport := { s.dport with announced := true }
    orders := { s.orders with loaded := true } }

/-- A line of the Desk. -/
def ln (pos : List Arg) (named : List (String × Arg)) : Line :=
  { origin := .port .desk, tag := none, pos := pos, named := named, block := .absent }

/-- Whether a line is accepted: it is taken, runs, and gives no error. -/
def accepts (s : State) (f : Form) (l : Line) (es : List Er) : Bool :=
  s.listens l.origin && s.orders.checking.isNone && (s.formErs f l).isEmpty && es.isEmpty

/-- What `accepts` decides is acceptance. -/
theorem test_accepts_means (s : State) (f : Form) (l : Line) (es : List Er) (h : accepts s f l es = true) :
    s.Accepts f l es := by
  simp only [accepts, Bool.and_eq_true, Option.isNone_iff_eq_none, List.isEmpty_iff] at h
  exact ⟨h.1.1.1, h.1.1.2, h.1.2, h.2⟩

/-! ## States -/

def anOrder : OrderSlot :=
  { enabled := true, cont := false, retries := 0, trigger := .none, limitMs := 0, name := "A", lines := ["STAT", "STAT"] }

/-- Slot 31 holds an order. -/
def ordered : State :=
  let o := up.orders
  { up with orders := { o with slots := vset o.slots 31 (some anOrder) } }

def aRun : Run := { k := 31, slot := anOrder, ready := 0 }

/-- Order 31 runs. -/
def running : State := { ordered with orders := { ordered.orders with run := some aRun } }

/-- Event 100 is pending beside it. -/
def runningP : State := { running with events := { running.events with pend := (1 : BitVec 128) <<< 100 } }

/-- Order 31 is pending, behind none. -/
def pendingOrder : State := { ordered with orders := { ordered.orders with pending := [{ k := 31 }] } }

/-- The state with one ticket. -/
def withTicket (s : State) (t : Ticket) : State := { s with tickets := { s.tickets with pool := [t], last := some t.n } }

def aTicket : Ticket := { n := 511, queue := .pwr, owner := .host .desk, op := .pwrMeasure }
def queued : State := withTicket up aTicket
/-- A Desk that holds its returns. -/
def holding : State := { up with cfg := { up.cfg with desk := { up.cfg.desk with desk := 0xC7 } } }
def doneTicket : Ticket := { aTicket with st := .held, result := some .done }
def complete : State := withTicket holding doneTicket
def eraseTicket : Ticket := { n := 511, st := .running, queue := .stacks, owner := .order 31, op := .orderErase 3 }
def aRunT : Run := { aRun with await := .ticket 511 }
def runningT : State :=
  let s := withTicket running eraseTicket
  { s with orders := { s.orders with run := some aRunT } }

/-- A parent. -/
def par : State := { up with cfg := { up.cfg with link := { up.cfg.link with config := 0x000E4533 } } }

def aKid : CatEntry := { idx := 0, short := 5, valid := true, listed := true, eui := 7 }

/-- A parent with one child. -/
def kid : State := { par with link := { par.link with st := .parent, cat := [aKid] } }
/-- A parent with one child that sniffs. -/
def kidSniff : State :=
  { kid with link := { kid.link with cat := [{ aKid with sniffEvery := 60 }] } }

/-- An End. -/
def kin : State := { up with cfg := { up.cfg with link := { up.cfg.link with config := 0x000D4533 } } }
/-- An End that is associated. -/
def assoc1 : State :=
  { kin with link := { kin.link with st := .associated, assoc := some { pan := 1, parent := 0, eui := 3, own := 2 } } }

def keeping : State := { up with day := { up.day with keeperOk := true } }

def anEntry : RxEntry :=
  { id := 0, fmt := .s, flags := 0, octets := [1#8, 2#8], lqi := 0, sync := 0, rssi := 0, afc := 0, plan := 0, chan := 0, snr := 0,
    serr := 0 }
/-- One frame in the RX ring. -/
def framed1 : State := { up with frame := { up.frame with rx := [anEntry] } }

def aPart : Part19 := { kib := 8, pmax := 240, refuse := false }
/-- The Stacks are partitioned. -/
def parted : State := { up with store := { up.store with part := some aPart } }
/-- The archive holds accession 1. -/
def archived : State := { parted with store := { parted.store with next := 2, shelf := [(8464, 1), (8465, 0), (8466, 0), (8467, 0), (8479, 0xC5)] } }

/-- A change of tariff is pending, without and with its ticket. -/
def pended : State := { up with ledger := { up.ledger with pend := some (0, 100) } }
def schedTicket : Ticket := { n := 511, queue := .ledger, owner := .host .desk, startAt := some 100, op := .tariffSched 0 100 }
def pendedT : State :=
  { withTicket up schedTicket with ledger := { up.ledger with pend := some (0, 100), pendTicket := some 511 } }
/-- Tariff 1 is defined. -/
def tariffed : State :=
  { up with ledger := { up.ledger with tariffs := vset up.ledger.tariffs 1 (some ⟨100, 3600⟩) } }

def rawState : State := { up with noise := { up.noise with st := .raw } }
/-- The Vault holds its key-encryption key and a key in slot 7, and the noise source is ready. -/
def keyed : State :=
  { up with
    vault := { up.vault with slots := vset (vset up.vault.slots 0 (some 1)) 7 (some 2) }
    noise := { up.noise with st := .ready, drbg := some {} } }

def sealable : State := { up with vault := { up.vault with slots := vset (vset up.vault.slots 0 (some 1)) 1 (some 2) } }

def sswOnSt : State := { up with ssw := { up.ssw with st := .on } }

/-- Collator 3 is open. -/
def colOpen : State :=
  { up with collate := { up.collate with cols := vset up.collate.cols 3 { isOpen := true, opened := true } } }

/-- A draft of one line. -/
def drafted : State := { up with orders := { up.orders with draft := ["STAT"] } }

/-- A format S frame as it is received: a PHR that tells its length, a 2-octet check sequence and no whitening, then the
frame with its check sequence (14_frames R366). -/
def sealed (o : List Byte) : List Byte := [16#8, BitVec.ofNat 8 (o.length + 2)] ++ o ++ fcsOf false o

def aLine : OutLine := { kind := .reply true, toks := [w "OK"] }

/-- A framed Desk. -/
def framedUp : State := { up with cfg := { up.cfg with desk := { up.cfg.desk with desk := 0xA7 } } }

/-- A ticket on PWR that waits for ticket 7, which stands before it. -/
def behind (st : TState) (r : Option Result) : State :=
  let t := up.tickets
  { up with tickets := { t with
    pool := [{ aTicket with n := 7, queue := .radio, st := st, result := r }, { aTicket with after := some 7 }] } }

/-- Order 31 is loaded and alarm 3 is due to start it. -/
def alarmed : State :=
  { ordered with day := { ordered.day with alarms := vset ordered.day.alarms 3 { st := .armed, order := some 31 } } }

/-- A pool with no free number. -/
def fullPool : State :=
  { kin with
    link := { kin.link with nextPoll := some 0 }
    tickets := { kin.tickets with pool := (List.range 512).map (fun i => { aTicket with n := i }) } }

/-- A carrel with power. -/
def poweredUp : State := { up with pwr := { up.pwr with powered := 0xFF } }

def aSlip : Slip :=
  { next := 0, last := true, src := 0x20000, dst := 0x3FFFC, size := 4, shelf := false, walkDst := false, other := 4, c0 := 1,
    s0 := 4 }

def pRun : PRun := { ticket := 511, max := 1, at_ := 0x18000, fifo := false, input := none }

/-- A call slip stands at 0x18000. -/
def slipped : State := poweredUp.carrelWrite 0x18000 aSlip.bytes

/-- Octets that make no call slip stand at 0x18000. -/
def badSlip : State := poweredUp.carrelWrite 0x18000 (List.replicate 32 0xFF#8)

/-- Channel 3 of the Porter. -/
def withChan (s : State) (c : Chan) : State := s.setChan 3 c

def isReady (s : State) (a : Nat) : Bool := s.pwr.powered.getLsbD (a / 0x8000) && !s.stalled (a / 0x8000)

def colReady : State := { slipped with collate := colOpen.collate }
def colFull : State := colReady.setCol 3 { colReady.col 3 with stages := [8, 8] }

def isBad : Lexed → Bool | .bad _ _ => true | _ => false
def isGood : Lexed → Bool | .good _ => true | _ => false
def isEmptyLine : Lexed → Bool | .empty => true | _ => false
def isFrame : Machine.Parsed → Bool | .frame _ => true | _ => false
def isAckFrame : Machine.Parsed → Bool | .ack _ => true | _ => false

def regOr (a : Nat) : Reg := (regAt a).getD (roReg 0 "" [] (fun _ => 0))
def lexedErr : Lexed → Er | .bad _ e => e | _ => ⟨"", []⟩
def lexedGood : Lexed → LexLine | .good x => x | _ => { tag := none, verb := "" }
def frameOf : Machine.Parsed → Rcv | .frame r => r | _ => { fmt := .s, ring := [] }

/-- What a line's row answers meets p. -/
def saidOf (a : Except Er (State → Host.Outcome State Fault Refusal)) (s : State) (p : State → Bool) : Bool :=
  match a with
  | .ok f => (match f s with | .next u => p u | _ => false)
  | _ => false

/-! ## Ill-formed commands, one for each check of WellFormed -/

theorem test_wf_good : (Instr.stat (ln [] [])).wf = true ∧ (Instr.frameRead { ln [] [] with tag := some "a1" }).wf = true ∧
    (Instr.catSet (ln [.int 5] [("sniff_every", .int 60)])).wf = true := by decide

theorem test_wf_word : wordOk "" = false ∧ wordOk "pwr" = false ∧ wordOk "1A" = false ∧ wordOk "A-" = false ∧
    wordOk (String.ofList (List.replicate 64 'A')) = false := by decide

theorem test_wf_key : keyOk "" = false ∧ keyOk "Save" = false ∧ keyOk "_a" = false := by decide

theorem test_wf_tag : tagOk "" = false ∧ tagOk "a_1" = false ∧ tagOk "a12345678" = false := by decide

theorem test_wf_operand : ([.word "a", .int (10 ^ 20), .int (-(10 ^ 20)), .dec 1 1, .dec (-5) 0, .dec (-5) 7, .time (10 ^ 20) true,
    .guard "ssw" 1, .guard "SSW" (10 ^ 20), .str "\n", .str (String.ofList (List.replicate 65 'a')), .octets [], .block 0,
    .block 4097, .list ["SENT"], .list ["SENT", "acked"]] : List Arg).all (fun a => !a.wf) = true := by decide

theorem test_wf_named : namedWf ("Save", .word "YES") = false ∧ namedWf ("save", .word "yes") = false ∧
    namedWf ("name", .word "") = false ∧ namedWf ("name", .word "a-b") = false ∧ namedWf ("name", .word "a_b") = true := by decide

theorem test_wf_block : (Instr.orderStore (ln [.int 0, .block 2] [])).wf = false ∧
    (Instr.orderStore { ln [.int 0, .block 2] [] with block := .sent (blockWire [1#8]) }).wf = false ∧
    (Instr.orderStore { ln [.int 0] [] with block := .sent [] }).wf = false ∧
    (Instr.orderStore { ln [.int 0, .block 1] [] with block := .sent (blockWire [1#8]) }).wf = true := by decide

theorem test_wf_line : (Instr.stat { ln [] [] with origin := .order 32 }).wf = false ∧
    (Instr.stat { ln [] [] with origin := .order 0, tag := some "a" }).wf = false ∧
    (Instr.stat { ln [.block 1] [] with origin := .order 0 }).wf = false ∧
    (Instr.stat { ln [] [] with tag := some "" }).wf = false ∧ (Instr.stat (ln [.word "a"] [])).wf = false ∧
    (Instr.stat (ln [.list ["A", "B"]] [])).wf = false ∧
    (Instr.stat (ln [] [("n", .int 1), ("n", .int 2)])).wf = false := by decide

theorem test_wf_frame : ({ octets := List.replicate 2050 0, rssi := 0, snr := 0 } : RxFrame).wf = false ∧
    ({ octets := [], rssi := 32768, snr := 0 } : RxFrame).wf = false ∧
    ({ octets := [], rssi := 0, snr := -32768 } : RxFrame).wf = false := by decide

theorem test_wf_event : ([.measurementDone 65536 0 0, .measurementDone 0 65536 0, .measurementDone 0 0 65536,
    .powerStageEnd 0 (2 ^ 48) 0, .wakeResumeEdge (2 ^ 48),
    .bringupRecord { copyA := [(.config, 16)], copyB := [] }, .bringupRecord { copyA := [], copyB := [(.orders, 0)] }, .sswCheck 65536 0, .sswCheck 0 65536,
    .sswLimitTimeout 65536, .rssiUpdate 32768, .syncDeclared 0 32768 0 0, .syncDeclared 0 0 32768 0,
    .frameDecision { octets := [], rssi := 32768, snr := 0 }, .wakePatternDetected 0 ⟨32768, 0⟩, .entryPadLatch 385,
    .censusWindowClose [0], .censusWindowClose (List.replicate 16 32768), .ticketOverdue 512,
    .lineError .desk (List.replicate 513 0) ⟨false, false, false⟩] : List Instr).all (fun c => !c.wf) = true := by decide

/-! ## The tables and worked examples of the spec -/

/-- The state after a command. -/
def after (c : Instr) (s : State) : State := match exec c s with | .next t => t | _ => s

/-- What the Desk has queued after a command, as it is sent. -/
def replies (c : Instr) (s : State) : List String := (after c s).dport.out.map OutLine.text

/-- "123456789". -/
def nine : List Byte := (List.range' 0x31 9).map (BitVec.ofNat 8)

/-- 20_collators Table 20.1: the check values. -/
theorem test_check_values : (List.range 6).map (fun k => crcOf (crcSet k) nine) =
    [0xF4, 0x29B1, 0x2189, 0xC2B7, 0xCBF43926, 0xE3069283] := by decide

/-- FIPS 197 C.1 and RFC 3394 4.1: the cipher and the key wrap that the Vault uses. -/
theorem test_aes : natN (aesEnc (octN 16 0x000102030405060708090a0b0c0d0e0f) (octN 16 0x00112233445566778899aabbccddeeff)) =
      0x69c4e0d86a7b0430d8cdb78070b4c55a ∧
    natN (keyWrap (octN 16 0x000102030405060708090A0B0C0D0E0F) (octN 16 0x00112233445566778899AABBCCDDEEFF)) =
      0x1FA68B0A8112B447AEF34BD8FB5A7B829D3E862371D2CFE5 := by decide

/-- 11_radio, "At the Desk": 869 500 000 Hz is word 0x016A_4AAB, which gives 869 500 012 Hz. -/
theorem test_synthesizer : synthWord 869500000 = 0x016A4AAB ∧ synthFreq 0x016A4AAB = 869500012 := by decide

theorem test_tx : replies (.txSettings (ln [] [("level", .int 14)])) up =
    ["OK TX port=AUTO level=14 ramp=40 pa_en=OFF pa_lead=10 ed=1"] := by decide

/-- 12_modem, "At the Desk". -/
theorem test_profile : replies (.profile (ln [] [])) up =
    ["OK PROFILE N2 rate=2400 sym=8000 preamble=8 whiten=ON s_err=1 m_err=1 d_err=3 wake_err=3 ed=0"] := by decide

/-- 16_ledger, "At the Desk". -/
theorem test_tariff : replies (.tariffSet (ln [.int 1] [("budget", .int 10), ("interval", .int 600)])) up =
      ["OK TARIFF 1 budget=10 interval=600 ticks=11520000 valid=YES ed=1"] ∧
    replies (.tariffSet (ln [.int 1] [("budget", .int 20)])) { tariffed with ledger := { tariffed.ledger with pend := some (1, 100) } } =
      ["ER STATE LEDGER CHANGEPENDING"] := by decide

/-- 20_collators, "At the Desk": the nine octets through Collator 0. -/
theorem test_collator :
    let s := after (.collateOpen (ln [.int 0] [("set", .word "C16K")])) up
    let t := after (.collateFeedDone 0) (after (.ticketHead (.collate 0)) (after (.collateFeed (ln [.int 0, .octets nine] [])) s))
    let u := after (.collateCloseCycle 0) (after (.ticketHead (.collate 0))
      (after (.collateClose (ln [.int 0] [("expect", .int 0x2189)])) t))
    u.dport.out.map OutLine.text = ["OK COLLATE OPEN 0 set=C16K expect=NONE ed=1", "TK 0", "DN 0 DONE n=9 count=9 ed=1", "TK 1",
      "DN 1 DONE result=0x2189 match=YES count=9 ed=2"] := by decide

/-- 07_events, "At the Desk". -/
theorem test_event_raise : replies (.eventRaise (ln [.int 116] [])) up = ["OK EVENT RAISE 116", "!EV 116 EV_SIGNAL_1 by=HOST"] := by
  decide

/-- 04_desk, "At the Desk". -/
theorem test_unknown_verb :
    replies (.lineError .desk ("PWRS".toList.map (fun c => BitVec.ofNat 8 c.toNat)) ⟨false, false, false⟩) up =
      ["ER UNKNOWN PWRS"] := by decide

/-- 05_register_file, "At the Desk": counters written and read back. -/
theorem test_counter_write :
    let s := { up with desk := { up.desk with framing := ⟨3, true⟩ } }
    replies (.rd (ln [.int 0x2410] [])) s = ["OK RD 0x2410 0x0000_0003"] ∧
    (after (.counterWrite .wr (ln [.int 0x2410, .int 0] [])) s).desk.framing = ⟨0, false⟩ := by decide

/-- 10_daybook, the worked example: M = 384 371 in bin 6 with confidence 9 makes its error 1013. -/
theorem test_drift_sample :
    let d := { up.day with keeperOk := true, window := true, windowOk := true, tempWake := 86, bins := vset up.day.bins 6 { e := 1010, conf := 9 } }
    let t := after (.driftWindowClose 86 384371) { up with day := d }
    (t.bin 6).e = 1013 ∧ (t.bin 6).conf = 10 ∧ t.day.samples.val = 1 := by decide

/-- 22_ssw_tamper_gpio R563: the switch is on where the output has reached 90 % of the input. -/
theorem test_ssw_check :
    let s := { up with ssw := { up.ssw with st := .ramp, ramped := true } }
    (after (.sswCheck 2700 3000) s).ssw.st = .on ∧ (after (.sswCheck 2699 3000) s).ssw.st = .fault := by decide

/-- Bring-up ends with +READY BOOT (08_bringup R217). -/
theorem test_ready :
    let s := { up with sys := { up.sys with stage := .orders } }
    (after .bringupReady s).dport.out.map OutLine.text = ["+READY BOOT cause=POR"] := by decide

/-- A line with an error is refused with it, and does nothing else. -/
theorem test_refused :
    firstEr (up.formErs { noun := true, boot := true } (ln [.int 1] [])) = some ⟨"SYNTAX", ["EXTRA"]⟩ ∧
    after (.id (ln [.int 1] [])) up =
      (up.took (.port .desk)).refuse (ln [.int 1] []) ⟨"SYNTAX", ["EXTRA"]⟩ := by decide

/-- No word spells a command. -/
theorem test_words : decodeTableWord 16 0 = none ∧ up.withFetchWord 16 0 = up := by decide

/-- A step runs the command at the front; with none waiting a cycle passes. -/
theorem test_step :
    (match step { up with pending := [.vddioLoss, .slewTick] } with
      | .next t => t.pending == [.slewTick] && !t.pwr.vddioOk
      | _ => false) = true ∧
    (match step up with | .next t => t.day.now == 1 | _ => false) = true := by decide

/-! ## A line of each form that is accepted -/

/-- A state and a line for each form of `Obligations.SystemReportsAnswer`. -/
theorem test_accepts_system_reports_answer : ([
   (let s := up
      let l := ln [] []
      accepts s { pos := [("verb", .name)], order := false } l (match l.posWord? 0, (l.posWord? 0).bind verbNamed with | some x, none => [⟨"UNKNOWN", [x]⟩] | _, _ => [])),
   (let s := up
      let l := ln [] []
      accepts s { noun := true, boot := true } l []),
   (let s := up
      let l := ln [] []
      accepts s { boot := true } l []),
   (let s := up
      let l := ln [] []
      accepts s { boot := true } l []),
   (let s := up
      let l := ln [.word "DESK_TX"] []
      accepts s { pos := [("name", .name)] } l (match l.posWord? 0 with
        | none => []
        | some x => (match padNamed x with | none => [erRange "name"] | some p => s.padErs p))),
   (let s := up
      let l := ln [.int 511] []
      accepts s { pos := posN } l []),
   (let s := up
      let l := ln [.word "PWR"] []
      accepts s { pos := [("unit", .any)] } l (match l.at? 0 with
        | some (.word x) => (match edUnitOf x with | none => [⟨"UNKNOWN", [x]⟩] | some u => s.unitAbsent u)
        | some _ => [erRange "unit"]
        | none => [])),
   (let s := up
      let l := ln [.int 127] []
      accepts s { pos := [("event", .any)] } l (s.eventErs "event" (l.at? 0))),
   (let s := up
      let l := ln [] []
      accepts s { noun := true } l []),
   (let s := up
      let l := ln [] []
      accepts s {} l []),
   (let s := up
      let l := ln [.int 3] []
      accepts s { pos := [("a", .int 0 3)], keys := alarmKeys } l (erIf (!l.named.isEmpty) erMissing))
   ] : List Bool).all (fun b => b) = true := by decide

/-- A state and a line for each form of `Obligations.RegisterReadsAnswer`. -/
theorem test_accepts_register_reads_answer : ([
   (let s := up
      let l := ln [.int 0x27FC] []
      accepts s { minPos := 1, pos := [("address", .int 0 0x27FF)], keys := [("n", .int 1 16)] } l (addrErs ((l.posNat? 0).getD 0) ++
        (if (addrErs ((l.posNat? 0).getD 0)).isEmpty then
        ((rdAddrs ((l.posNat? 0).getD 0) (min ((l.nat? "n").getD 1) 128)).filter
        (fun x => x / 0x200 == (l.posNat? 0).getD 0 / 0x200)).flatMap s.addrAbsent ++
        erIf (decide (((l.posNat? 0).getD 0 + 4 * ((l.nat? "n").getD 1 - 1)) / 0x200 ≠ (l.posNat? 0).getD 0 / 0x200) ||
        ((l.posNat? 0).getD 0 == 0x0404 && decide (2 ≤ (l.nat? "n").getD 1))) (erRange "n")
        else []))),
   (let s := up
      let l := ln [.word "PWR_STATUS"] []
      accepts s { minPos := 1, pos := [("register", .name)] } l (match l.at? 0 with
        | none => []
        | some (.word _) => s.getErs ((l.posWord? 0).getD "")
        | some _ => [erRange "register"])),
   (let s := up
      let l := ln [] []
      accepts s {} l [] && decide (l.pos = [] ∧ l.named = []))
   ] : List Bool).all (fun b => b) = true := by decide

/-- A state and a line for each form of `Obligations.UnitReportsAnswer`. -/
theorem test_accepts_unit_reports_answer : ([
   (let s := up
      let l := ln [] []
      accepts s {} l []),
   (let s := up
      let l := ln [] []
      accepts s { feat := some .census } l []),
   (let s := par
      let l := ln [] []
      accepts s { feat := some .parent, pos := catPos } l (s.needRole 2 ++ s.late (erIf (!l.pos.isEmpty && (s.lineEntry l).isNone) (erRange "short")))),
   (let s := up
      let l := ln [.int 7] []
      accepts s { order := false, pos := tariffPos, keys := tariffKeys } l (erIf (!l.named.isEmpty) erMissing)),
   (let s := up
      let l := ln [] []
      accepts s { noun := true } l []),
   (let s := up
      let l := ln [] []
      accepts s { noun := true } l []),
   (let s := up
      let l := ln [] []
      accepts s { noun := true, feat := some .vault } l [])
   ] : List Bool).all (fun b => b) = true := by decide

/-- A state and a line for each form of `Obligations.StoreReportsAnswer`. -/
theorem test_accepts_store_reports_answer : ([
   (let s := up
      let l := ln [.int 8191] [("n", .int 1)]
      accepts s { minPos := 1, pos := [("off", .int 0 8191)], keys := readKeys } l (spanErs ((l.posNat? 0).getD 0) (count16 l) 8192 "n")),
   (let s := up
      let l := ln [] []
      accepts s { noun := true } l []),
   (let s := up
      let l := ln [] []
      accepts s { noun := true, feat := some .stacks } l []),
   (let s := up
      let l := ln [] []
      accepts s { noun := true, feat := some .stacks } l []),
   (let s := up
      let l := ln [.int 3] []
      accepts s { pos := chanPos } l (s.chanAbsent ((l.posNat? 0).getD 0))),
   (let s := up
      let l := ln [.int 3] []
      accepts s { pos := colPos } l (s.colAbsent ((l.posNat? 0).getD 0))),
   (let s := up
      let l := ln [] []
      accepts s {} l []),
   (let s := ordered
      let l := ln [.int 31] []
      let x := anOrder
      accepts s { minPos := 1, pos := orderPos } l (s.emptyErs l) && decide (s.slot (lineOrder l) = some x)),
   (let s := up
      let l := ln [.int 30] []
      (firstEr (s.formErs ({ minPos := 1, pos := orderPos } : Form) l ++ (s.emptyErs l))).isSome && decide (s.slot (lineOrder l) = none)),
   (let s := up
      let l := ln [] []
      accepts s { noun := true } l []),
   (let s := up
      let l := ln [] [("n", .int 32)]
      accepts s { keys := [("n", .int 1 32)] } l [])
   ] : List Bool).all (fun b => b) = true := by decide

/-- A state and a line for each form of `Obligations.RadioSettingsTakeEffect`. -/
theorem test_accepts_radio_settings_take_effect : ([
   (let s := up
      let l := ln [.int 15] [("plan", .int 0)]
      let c := (l.posNat? 0).getD s.opChan
      accepts s { pos := [("c", .any)], keys := [("plan", .any), saveKey] } l (erIf (l.pos.isEmpty && l.sets) erMissing ++
        (match l.at? 0 with
        | some (.int v) => erIf (decide (v < 0)) (erRange "c")
        | some _ => [erRange "c"]
        | none => []) ++
        (if l.pos.isEmpty then [] else
        (match l.arg "plan" with
        | some (.int v) => erIf (!inRange 0 3 v) (erRange "plan")
        | some _ => [erRange "plan"]
        | none => []) ++
        s.late (match s.planAt (s.linePlan l) with
        | none => [erRange "plan"]
        | some x => erIf (!decide (c < x.count)) (erRange "c"))))),
   (let s := up
      let l := ln [] [("mode", .word "BOTH"), ("listen", .int 65535), ("thr", .dec (-405) 1)]
      let mode := match l.word? "mode" with | some x => ccaModes.idxOf x | none => s.ccaMode
      let listen := (l.nat? "listen").getD (fld s.cfg.radio.ccaConfig 31 16)
      accepts s { noun := true, keys := [("mode", .word ccaModes), ("thr", .half (-260) (-80)), ("listen", .int 500 65535), saveKey] } l []),
   (let s := up
      let l := ln [] [("level", .int 22), ("port", .word "HP")]
      let c := s.cfg.radio.txConfig
      let hp := match l.word? "port" with | some x => x == "HP" | none => bit c 12
      let level := (l.int? "level").getD s.txLevel
      let ramp := match l.nat? "ramp" with | some v => rampUs.idxOf v | none => fld c 10 8
      accepts s { noun := true, keys := [("port", .word ["AUTO", "HP"]), ("level", .any), ("ramp", .oneOf [10, 20, 40, 80, 160]), ("pa_en", .word ["ON", "OFF"]), ("pa_lead", .int 0 255), saveKey] } l ((if l.has "port" || l.has "level" then
        (match l.arg "level" with
        | none => []
        | some (.int _) => []
        | some _ => [erRange "level"]) ++
        (if l.has "port" && l.has "level" then s.levelErs hp level "level"
        else erIf (l.word? "port" == some "HP" && !s.has .paHp) (erAbsent .paHp) ++
        (if l.has "level" then erIf (decide (14 < level) && !s.has .paHp) (erAbsent .paHp) ++
        erIf (!inRange (-10) 22 level) (erRange "level") else []) ++ s.late (s.levelErs hp level "level"))
        else []) ++ erIf (l.sets && decide (s.radio.st = .transmit)) (erState "RADIO" "TRANSMIT"))),
   (let s := up
      let l := ln [.word "N9"] [("preamble", .int 64)]
      let named := (l.posWord? 0).bind (fun x => profiles.find? (fun p => p.name == x))
      accepts s { pos := [("profile", .name)], keys := [("preamble", .int 4 64), ("whiten", .word ["ON", "OFF"]), ("s_err", .int 0 3), ("m_err", .int 0 3), ("d_err", .int 0 7), ("wake_err", .int 0 7), saveKey] } l (erIf (!l.pos.isEmpty && named.isNone) (erRange "profile") ++
        (if l.has "d_err" || (match named with | some p => decide (6 ≤ p.code) | none => false) then s.needs .deep
        else []) ++
        erIf ((l.sets || !l.pos.isEmpty) && decide (s.radio.st ≠ .idle)) (erState "MODEM" s.radio.st.name))),
   (let s := up
      let l := ln [] [("fcs", .int 4)]
      let auto := (l.on? "auto").getD s.autoAck
      let wait := (l.nat? "wait").getD (fld s.cfg.frame.config 31 16)
      accepts s { noun := true, keys := [("fcs", .oneOf [2, 4]), ("ack", .word ["IMM", "ENH"]), ("auto", .word ["ON", "OFF"]), ("wait", .int 500 20000), saveKey] } l (if l.sets then s.frameStateErs else [])),
   (let s := up
      let l := ln [] [("pan", .int 65535)]
      accepts s { noun := true, keys := [("pan", .int 0 65535), ("short", .int 0 65535), ("promisc", .word ["ON", "OFF"]), ("m_accept", .word ["ALL", "NONE"]), saveKey] } l (if l.has "pan" || l.has "short" then s.addrStateErs else []))
   ] : List Bool).all (fun b => b) = true := by decide

/-- A state and a line for each form of `Obligations.SystemSettingsTakeEffect`. -/
theorem test_accepts_system_settings_take_effect : ([
   (let s := up
      let l := ln [] [("retain", .int 255), ("wake_in", .word "BOTH")]
      let on : Kind := .word ["ON", "OFF"]
      accepts s { noun := true, keys := [("auto", on), ("idle", .int 0 65535), ("retain", .int 0 255), ("desk_wake", on), ("chute_wake", on), ("wake_in", .word wakeInWords), saveKey] } l (erIf (match l.int? "retain" with | some v => v % 2 == 0 | none => false) (erRange "retain") ++
        (if l.on? "chute_wake" == some true then s.needs .chute else []) ++ (if l.sets then s.late s.entryErs else []))),
   (let s := up
      let l := ln [] [("min", .int 255), ("drive", .word "PP")]
      accepts s { order := false, keys := [("drive", .word ["OD", "PP"]), ("min", .int 0 255)] } l []),
   (let s := up
      let l := ln [] [("low", .int 100)]
      accepts s { noun := true, keys := [("low", .int 0 100), saveKey] } l (erIf (l.has "low" && (match l.origin with | .order _ => true | .port _ => false)) ⟨"DENIED", ["ORDER"]⟩)),
   (let s := up
      let l := ln [] [("soft", .int 4)]
      accepts s { noun := true, feat := some .ssw, keys := [("soft", .any), saveKey] } l ((match l.arg "soft" with | some a => erIf (softOf a).isNone (erRange "soft") | none => []) ++
        erIf (l.sets && decide (s.ssw.st = .ramp)) (erState "SSW" "RAMP"))),
   (let s := up
      let l := ln [.int (-2147483648)] []
      let r := s.day.slew + (l.posInt? 0).getD 0
      accepts s { minPos := 1, pos := [("slew", .int (-(2 ^ 31)) (2 ^ 31 - 1))] } l (erIf (!inRange (-(2 ^ 31)) (2 ^ 31 - 1) r) (erRange "slew")))
   ] : List Bool).all (fun b => b) = true := by decide

/-- A state and a line for each form of `Obligations.BandAndCensusSettingsTakeEffect`. -/
theorem test_accepts_band_and_census_settings_take_effect : ([
   (let s := up
      let l := ln [] [("baud", .int 115200)]
      accepts s { noun := true, order := false, keys := [("baud", .oneOf (deskRates.map Int.ofNat)), saveKey] } l []),
   (let s := up
      let l := ln [.int 127] [("attn", .int 1)]
      let n := 127
      accepts s { minPos := 1, pos := [("event", .any)], keys := [("attn", .int 0 1), ("line", .int 0 1), ("wake", .int 0 1)] } l (s.eventErs "event" (l.at? 0) ++ erIf l.named.isEmpty erMissing) && decide ((l.at? 0).bind eventOf = some n)),
   (let s := up
      let l := ln [.int 3] []
      accepts s { order := false, pos := bandPos, keys := bandKeys } l (erIf (l.named.any (fun a => a.1 != "save")) erMissing)),
   (let s := up
      let l := ln [.int 3] [("base", .int 868000000), ("spacing", .int 25), ("count", .int 16)]
      let p := (l.posNat? 0).getD 4
      let new := linePlanNew (s.planAt p) l
      let full := decide (3 < p) || (s.planAt p).isSome || (l.has "base" && l.has "spacing" && l.has "count")
      accepts s { order := false, minPos := 1, pos := bandPos, keys := bandKeys } l (erIf (!full) erMissing ++ erIf (full && !new.fits) (erRange "base") ++ s.planStateErs p)),
   (let s := up
      let l := ln [.int 3] []
      let p := (l.posNat? 0).getD 4
      accepts s { order := false, minPos := 1, pos := bandPos, keys := bandKeys } l (erIf (!l.named.isEmpty) erExtra ++ s.planStateErs p)),
   (let s := up
      let l := ln [] [("hold", .int 10000)]
      let p := (l.nat? "plan").getD s.spanPlan
      let b := (l.nat? "base").getD s.spanBase
      let moved := p != s.spanPlan || b != s.spanBase
      let es (on : Bool) := s.late (if moved || (on && !s.watching) then s.spanErs p b "plan" "base" else []) ++
        erIf (s.watching && moved) (erState "CENSUS" "WATCH")
      accepts s { noun := true, feat := some .census, keys := censusKeys } l (es s.watching)),
   (let s := up
      let l := ln [] []
      let p := (l.nat? "plan").getD s.spanPlan
      let b := (l.nat? "base").getD s.spanBase
      let moved := p != s.spanPlan || b != s.spanBase
      let es (on : Bool) := s.late (if moved || (on && !s.watching) then s.spanErs p b "plan" "base" else []) ++
        erIf (s.watching && moved) (erState "CENSUS" "WATCH")
      accepts s { feat := some .census, keys := censusKeys } l (es true)),
   (let s := up
      let l := ln [] []
      let p := (l.nat? "plan").getD s.spanPlan
      let b := (l.nat? "base").getD s.spanBase
      let moved := p != s.spanPlan || b != s.spanBase
      let es (on : Bool) := s.late (if moved || (on && !s.watching) then s.spanErs p b "plan" "base" else []) ++
        erIf (s.watching && moved) (erState "CENSUS" "WATCH")
      accepts s { feat := some .census, keys := censusKeys } l (es false))
   ] : List Bool).all (fun b => b) = true := by decide

/-- A state and a line for each form of `Obligations.LinkAndPinSettingsTakeEffect`. -/
theorem test_accepts_link_and_pin_settings_take_effect : ([
   (let s := up
      let l := ln [] [("min_be", .int 3), ("max_be", .int 3)]
      let minBe := (l.nat? "min_be").getD s.linkMinBe
      let maxBe := (l.nat? "max_be").getD s.linkMaxBe
      let role := match l.word? "role" with | some x => roleNames.idxOf x | none => s.role
      accepts s { noun := true, keys := linkKeys } l ((if l.has "min_be" && l.has "max_be" then id else s.late)
        (erIf (decide (maxBe < minBe)) (erRange (if l.has "min_be" then "min_be" else "max_be"))) ++
        (if l.has "role" then s.roleErs role else []))),
   (let s := kin
      let l := ln [] [("poll_every", .int 60), ("poll_phase", .int 59)]
      let c := s.cfg.link
      let pe := (l.nat? "poll_every").getD c.pollEvery.toNat
      let pp := (l.nat? "poll_phase").getD c.pollPhase.toNat
      let se := (l.nat? "sniff_every").getD c.sniffEvery.toNat
      let sp := (l.nat? "sniff_phase").getD c.sniffPhase.toNat
      let k : Kind := .int 0 4294967295
      accepts s { keys := [("poll_every", k), ("poll_phase", k), ("sniff_every", k), ("sniff_phase", k), saveKey] } l ((if l.has "poll_every" && l.has "poll_phase" then id else s.late) (phaseErs pe pp "poll_phase") ++
        (if l.has "sniff_every" && l.has "sniff_phase" then id else s.late) (phaseErs se sp "sniff_phase") ++ s.needRole 1)),
   (let s := par
      let l := ln [] [("lo", .int 1), ("hi", .int 65000)]
      let lo := (l.nat? "lo").getD s.poolLo
      let hi := (l.nat? "hi").getD s.poolHi
      accepts s { feat := some .parent, order := false, keys := [("lo", .int 0 65535), ("hi", .int 0 65535), (admitKey, .word admitNames), ("exch", .int 5 1000), ("indirect", .int 1 65535)] } l ((if l.has "lo" || l.has "hi" then s.poolErs lo hi "pool" else []) ++ s.needRole 2)),
   (let s := up
      let l := ln [] [("mode", .word "SAMPLED")]
      let c := s.cfg.pins.tamper
      let onOffKey : Kind := .word ["ON", "OFF"]
      let mode := match l.word? "mode" with | some x => modeNames.idxOf x | none => fld c 1 0
      accepts s { noun := true, order := false, keys := [("mode", .word modeNames), ("polarity", .word ["HIGH", "LOW"]), ("dip", onOffKey), ("lockout", onOffKey), saveKey] } l ((if l.has "lockout" then s.needs .vault else []) ++ (if l.sets then s.tamperLatchedErs else []))),
   (let s := up
      let l := ln [.int 7] [("fn", .word "OUT")]
      let n := (l.posNat? 0).getD 0
      let v := lineGpio l (s.gpioCfg n)
      accepts s { pos := [("n", .int 0 7)], keys := [("fn", .word fnNames), ("src", .any), ("invert", .word ["YES", "NO"]), ("pull", .word pullNames), ("edge", .word edgeNames), ("level", .word ["H", "L"]), saveKey] } l (erIf (l.pos.isEmpty && l.sets) erMissing ++ erIf (l.word? "fn" == some "EVENT" && !l.has "src") erMissing ++
        (match l.arg "src" with
        | none => []
        | some a => (match eventOf a with | none => [erRange "src"] | some e => s.srcErs e)) ++
        s.late (erIf (l.has "level" && fld v 2 0 != 1 && fld v 2 0 != 5) (erRange "level")) ++
        erIf (l.has "level" && fld v 2 0 == 5 && (match l.origin with | .port _ => true | .order _ => false))
        ⟨"DENIED", ["ORDERONLY"]⟩)),
   (let s := up
      let l := ln [.int 7] [("erase", .word "ON")]
      let k := (l.posNat? 0).getD 0
      let on := (l.on? "erase").getD true
      accepts s { feat := some .vault, order := false, minPos := 1, pos := [("s", .int 0 7)], keys := [("erase", .word ["ON", "OFF"])] } l (erIf (!l.has "erase") erMissing ++ s.tamperErs ++
        erIf (s.vault.sealed && !on && s.vault.eraseMask.getLsbD k) ⟨"LOCKED", ["FLAGS"]⟩))
   ] : List Bool).all (fun b => b) = true := by decide

/-- A state and a line for each form of `Obligations.ControlLinesTakeEffect`. -/
theorem test_accepts_control_lines_take_effect : ([
   (let s := up
      let l := ln [] []
      accepts s {} l []),
   (let s := keeping
      let l := ln [] []
      accepts s {} l (s.late (erIf (!s.day.keeperOk) (erState "PWR" "NOKEEPER") ++
        erIf (decide (s.pwr.state ≠ .run)) (erState "PWR" "ENTRY")))),
   (let s := up
      let l := ln [] []
      accepts s {} l []),
   (let s := up
      let l := ln [.int 3] [("at", .time 5 false)]
      let a := 3
      let v := 5
      accepts s { minPos := 1, pos := [("a", .int 0 3)], keys := alarmKeys } l (erIf (!l.has "at") erMissing ++
        (match (l.arg "at").bind (s.timeOf l) with
        | some t => erIf (decide (2 ^ 64 ≤ t)) (erRange "at")
        | none => [])) && decide (l.posNat? 0 = some a) && decide ((l.arg "at").bind (s.timeOf l) = some v)),
   (let s := up
      let l := ln [.int 3] []
      let a := 3
      accepts s { minPos := 1, pos := [("a", .int 0 3)], keys := alarmKeys } l (erIf (!l.named.isEmpty && !l.has "at") erMissing ++ erIf (!l.named.isEmpty) erExtra) && decide (l.posNat? 0 = some a)),
   (let s := up
      let l := ln [] []
      accepts s { noun := true } l []),
   (let s := up
      let l := ln [] []
      accepts s { keys := [refKey], order := !l.has "ref" } l []),
   (let s := up
      let l := ln [] [("bin", .int 15)]
      accepts s { order := false, keys := [("bin", .int 0 15), refKey] } l []),
   (let s := up
      let l := ln [] []
      accepts s { noun := true, order := false, keys := [refKey] } l [])
   ] : List Bool).all (fun b => b) = true := by decide

/-- A state and a line for each form of `Obligations.MemoryLinesTakeEffect`. -/
theorem test_accepts_memory_lines_take_effect : ([
   (let s := framed1
      let l := ln [.int 0] []
      accepts s { minPos := 1, pos := [("id", .intOr 0 65535 ["ALL"])] } l (s.late (erIf (!(l.at? 0 == some (.word "ALL")) && (s.frame.rx.head?).map (·.id) != l.posNat? 0) (erRange "id")))),
   (let s := up
      let l := ln [] []
      accepts s {} l [] && decide (s.frame.rx = [])),
   (let s := framed1
      let l := ln [] []
      let e := anEntry
      let rest := ([] : List RxEntry)
      accepts s {} l [] && decide (s.frame.rx = e :: rest)),
   (let s := up
      let l := ln [.int 0x18000] [("n", .int 16)]
      let a := (l.posNat? 0).getD 0
      let k := count16 l
      accepts s { minPos := 1, pos := [("addr", .int 0 (2 ^ 32 - 1))], keys := readKeys } l (carrelErs a k "addr")),
   (let s := up
      let l := ln [.int 0x3FFFF, .octets [0xAB#8]] []
      let a := (l.posNat? 0).getD 0
      let o := storeData l 1
      accepts s { minPos := 2, pos := [("addr", .int 0 (2 ^ 32 - 1)), ("payload", .any)] } l (dataErs l 1 ++ carrelErs a o.length "addr")),
   (let s := parted
      let l := ln [.int 0x100000] []
      let a := (l.posNat? 0).getD 0
      let k := count16 l
      accepts s { feat := some .stacks, minPos := 1, pos := [("off", .int 0 (2 ^ 32 - 1))], keys := readKeys } l (erIf (decide (a < archBase)) ⟨"DENIED", ["PROTECTED"]⟩ ++ spanErs a k s.stacksSize "off")),
   (let s := archived
      let l := ln [.int 1] []
      let a := (l.posNat? 0).getD 0
      let p := aPart
      accepts s { feat := some .stacks, minPos := 1, pos := [("n", .int 0 (2 ^ 32 - 1))] } l (s.late (erIf (!s.present p a) (erRange "n")) ++ s.partErs) && decide (s.store.part = some p)),
   (let s := up
      let l := ln [.int 0x18000] []
      let a := (l.posNat? 0).getD 0
      accepts s { minPos := 1, pos := [("addr", .int 0 (2 ^ 32 - 1))] } l (slipErs a)),
   (let s := up
      let l := ln [.int 0x3FFE0] [("src", .int 0x18000), ("dst", .int 0x20000), ("size", .int 4), ("c0", .int 1)]
      let a := (l.posNat? 0).getD 0
      let count : Kind := .int 1 65535
      accepts s { minPos := 1, pos := [("addr", .int 0 (2 ^ 32 - 1))], keys := [("src", addrKind), ("dst", addrKind), ("size", .oneOf [1, 2, 4]), ("walk", .word ["SRC", "DST"]), ("other", stepKind), ("next", .intOr 0 (2 ^ 32 - 1) ["END"]), ("c0", count), ("s0", stepKind), ("c1", count), ("s1", stepKind), ("c2", count), ("s2", stepKind), ("list", addrKind), ("n", count), ("scale", count)] } l (slipErs a ++ erIf (!(l.has "src" && l.has "dst" && l.has "size")) erMissing ++
        erIf (decide ((l.nat? "next").getD 0 % 32 ≠ 0)) (erRange "next")))
   ] : List Bool).all (fun b => b) = true := by decide

/-- A state and a line for each form of `Obligations.EditingLinesTakeEffect`. -/
theorem test_accepts_editing_lines_take_effect : ([
   (let s := up
      let l := ln [.int 3] [("set", .word "C8"), ("expect", .int 255)]
      let n := (l.posNat? 0).getD 0
      let k := setCode ((l.word? "set").getD "C8")
      let e := l.nat? "expect"
      accepts s { minPos := 1, pos := [("n", .int 0 3)], keys := [("set", .word setNames), ("expect", .int 0 (2 ^ 32 - 1))] } l ((if n = 2 ∨ n = 3 then s.needs .collate4 else []) ++ erIf (!l.has "set") erMissing ++
        erIf (decide (2 ^ (crcSet k).width ≤ e.getD 0)) (erRange "expect") ++
        erIf (s.col n).isOpen (erState "COLLATE" "OPEN"))),
   (let s := up
      let l := ln [.word "ALL"] []
      let items := s.lineItems l
      let stops := items.any (fun i => i != TrimItem.censuseq)
      accepts s { order := false, minPos := 1, pos := [("item", .name)], keys := [("band", .word bandWords)] } l (s.itemErs l ++ erIf (l.has "band" && items != [.iqbal]) (erRange "band") ++
        erIf s.trim.run.isSome (erState "TRIM" "RUNNING") ++
        erIf (stops && decide (s.radio.st = .receive)) (erState "TRIM" "RXBUSY") ++
        erIf (stops && decide (s.radio.st = .transmit)) (erState "RADIO" "TRANSMIT"))),
   (let s := up
      let l := ln [.int 7] [("budget", .int 10000), ("interval", .int 3600)]
      let i := (l.posNat? 0).getD 8
      let keys : List (String × Kind) := [("budget", .int 1 10000), ("interval", .oneOf intervals)]
      let edit : List Er := erIf (decide (s.ledger.active = i)) ⟨"DENIED", ["ACTIVE"]⟩ ++
        erIf (decide (s.ledger.pend.map (·.1) = some i)) (erState "LEDGER" "CHANGEPENDING")
      accepts s { order := false, minPos := 1, pos := [("t", .int 0 7)], keys := keys } l (erIf ((s.tariff i).isNone && !(l.has "budget" && l.has "interval")) erMissing ++ edit)),
   (let s := up
      let l := ln [.int 7] []
      let i := (l.posNat? 0).getD 8
      let keys : List (String × Kind) := [("budget", .int 1 10000), ("interval", .oneOf intervals)]
      let edit : List Er := erIf (decide (s.ledger.active = i)) ⟨"DENIED", ["ACTIVE"]⟩ ++
        erIf (decide (s.ledger.pend.map (·.1) = some i)) (erState "LEDGER" "CHANGEPENDING")
      accepts s { order := false, minPos := 1, pos := [("t", .int 0 7)], keys := keys } l (erIf (!l.named.isEmpty) erExtra ++ edit)),
   (let s := par
      let l := ln [] [("eui", .int 18446744073709551615), ("short", .int 0xFFFD)]
      let eui : BitVec 64 := BitVec.ofNat 64 ((l.nat? "eui").getD 0)
      let old := s.link.cat.find? (fun e => decide (e.eui = eui))
      let gone : Bool := match old with | some e => e.replaceable | none => false
      accepts s { feat := some .parent, order := false, keys := [("eui", .int 0 (2 ^ 64 - 1)), ("short", .int 0 0xFFFD)] ++ sniffKeys } l (erIf (!l.has "eui") erMissing ++ erIf (old.isSome && !gone) (erRange "eui") ++
        (match l.nat? "short" with | some a => erIf (s.shortHeld a) (erRange "short") | none => []) ++
        entrySniffErs l noEntry ++ s.needRole 2 ++ erIf (decide (256 ≤ s.link.cat.length) && !gone) ⟨"FULL", ["CATALOGUE"]⟩)),
   (let s := kid
      let l := ln [.int 5] []
      let e := aKid
      accepts s { feat := some .parent, minPos := 1, pos := [("short", .int 0 65535)], keys := sniffKeys } l (s.late (erIf (!l.pos.isEmpty && (s.lineEntry l).isNone) (erRange "short")) ++
        (if l.has "sniff_every" && l.has "sniff_phase" then id else s.late) (entrySniffErs l e) ++ s.needRole 2) && decide (e = (s.lineEntry l).getD noEntry)),
   (let s := kid
      let l := ln [.int 5, .octets [1#8]] []
      let e := aKid
      accepts s { feat := some .parent, minPos := 1, pos := [("short", .int 0 65535), ("payload", .any)], keys := secKeys } l (s.late (erIf (!l.pos.isEmpty && !e.valid) (erRange "short")) ++ payloadErs l 1 ++ s.queueKeyErs (s.childFrame l e 1) ++
        s.childErs l (s.childFrame l e 1) ++ s.needRole 2 ++
        erIf (decide (16 ≤ (s.heldFor e.idx).length)) ⟨"FULL", ["QUEUE"]⟩) && decide (e = (s.lineEntry l).getD noEntry)),
   (let s := up
      let l := ln [.int 31, .word "EMPTY"] []
      accepts s { order := false, minPos := 1, pos := [("k", .int 0 31), ("draft", .any)] } l ((match l.at? 1 with
        | none => []
        | some (.word x) => erIf (x != "EMPTY") ⟨"UNKNOWN", [x]⟩
        | some _ => [erExtra]) ++ (if (l.at? 1).isSome then [] else s.emptyErs l))),
   (let s := up
      let l := ln [.int 0, .str "STAT"] []
      let i := lineOrder l
      let text : Option String := match l.at? 1 with | some (.str x) => some x | _ => none
      let d := s.orders.draft
      let new : List String := match text with
        | none => d.take i ++ d.drop (i + 1)
        | some x => d.take i ++ [x] ++ d.drop (i + 1)
      accepts s { order := false, minPos := 2, pos := [("i", .int 0 16), ("text", .any)] } l ((match l.at? 1 with
        | some (.word x) => erIf (x != "DELETE") ⟨"UNKNOWN", [x]⟩
        | some (.str _) => []
        | some _ => [erRange "text"]
        | none => []) ++
        erIf (decide (d.length < i) || (text.isNone && decide (i = d.length))) (erRange "i") ++
        erIf (decide (16 < new.length) || decide (448 < textOctets new)) ⟨"FULL", ["ORDER"]⟩)),
   (let s := up
      let l := ln [] []
      accepts s { feat := some .ssw } l (erIf (decide (s.ssw.st = .ramp)) (erState "SSW" "RAMP") ++
        erIf (decide (s.ssw.st = .fault) && s.ssw.cause == 3 && s.ssw.hot) (erState "SSW" "FAULT"))),
   (let s := up
      let l := ln [] []
      accepts s { order := false } l (erIf s.tamper.level ⟨"DENIED", ["ACTIVE"]⟩ ++ erIf s.tamperBusy ⟨"TAMPER-BUSY", []⟩))
   ] : List Bool).all (fun b => b) = true := by decide

/-- A state and a line for each form of `Obligations.QueueAndEventLinesTakeEffect`. -/
theorem test_accepts_queue_and_event_lines_take_effect : ([
   (let s := up
      let l := ln [.int 127] []
      let all : Bool := (l.at? 0) == some (.word "ALL")
      accepts s { minPos := 1, pos := [("event", .any)] } l (if all then [] else s.eventErs "event" (l.at? 0)) && decide ((all || ((l.at? 0).bind eventOf).isSome) = true)),
   (let s := up
      let l := ln [.int 119] []
      let n := ((l.at? 0).bind eventOf).getD 0
      accepts s { minPos := 1, pos := [("event", .any)] } l ((match l.at? 0 with
        | some (.word x) => erIf (eventOf (.word x)).isNone ⟨"UNKNOWN", [x]⟩
        | _ => []) ++ erIf (decide (n < 115) || decide (119 < n)) (erRange "event"))),
   (let s := up
      let l := ln [.word "FRAMED"] []
      let p := Port.desk
      let m : Bool := match l.posWord? 0 with | some x => x == "FRAMED" | none => s.framed p
      let h := (l.on? "hold").getD (s.holdOn p)
      accepts s { order := false, pos := [("mode", .any)], keys := [("hold", .word ["ON", "OFF"]), saveKey] } l ((match l.at? 0 with
        | some (.word x) => erIf (!(["TYPED", "FRAMED"].contains x)) ⟨"UNKNOWN", [x]⟩ ++
        erIf (decide (p = .chute) && x == "TYPED") (erRange "TYPED")
        | some _ => [erExtra]
        | none => []) ++ erIf (!m && h && decide (p = .desk)) (erRange "hold")) && decide (l.origin = .port p)),
   (let s := queued
      let l := ln [.int 511] []
      let x := aTicket
      accepts s { minPos := 1, pos := [("n", .int 0 511)] } l (s.cancelErs l) && decide ((l.posNat? 0).bind s.ticket? = some x) && decide (x.n = (l.posNat? 0).getD 0)),
   (let s := up
      let l := ln [] []
      accepts s {} l []),
   (let s := complete
      let l := ln [.int 511] []
      let n := 511
      let x := doneTicket
      accepts s { order := false, minPos := 1, pos := [("n", .int 0 511)] } l (s.noHold l.origin ++ s.retErs l.origin n) && decide (l.posNat? 0 = some n) && decide (s.ticket? n = some x)),
   (let s := holding
      let l := ln [] []
      let p := Port.desk
      accepts s { noun := true, order := false } l (erIf (!s.holdOn p) (erState (portName p) "NOHOLD")) && decide (l.origin = .port p))
   ] : List Bool).all (fun b => b) = true := by decide

/-- A state and a line for each form of `Obligations.UnitLinesTakeEffect`. -/
theorem test_accepts_unit_lines_take_effect : ([
   (let s := up
      let l := ln [.time 5 false] []
      let v := 5
      accepts s { minPos := 1, pos := [("value", .time)] } l (erIf (decide (2 ^ 64 ≤ v)) (erRange "value") ++ erIf (decide (s.radio.st ≠ .idle)) (erState "DAYBOOK" "RADIO") ++
        erIf (s.tickets.pool.any (·.scheduled)) (erState "DAYBOOK" "SCHEDULED")) && decide ((l.at? 0).bind (s.timeOf l) = some v)),
   (let s := kin
      let l := ln [] [("pan", .int 65535), ("short", .int 65533), ("parent", .int 65535), ("parent_eui", .int 3)]
      let own := (l.nat? "short").getD 0
      accepts s { order := false, keys := assocKeys } l (erIf (!(l.has "pan" && l.has "parent" && l.has "parent_eui" && l.has "short")) erMissing ++
        erIf (l.has "chan" || l.has "plan") erExtra ++
        erIf (decide (65535 < (l.nat? "parent").getD 0)) (erRange "parent") ++
        erIf (decide (0xFFFE ≤ own)) (erRange "short") ++ s.needRole 1 ++
        erIf (decide (s.link.st ≠ .unassoc)) (erState "LINK" s.link.st.name))),
   (let s := up
      let l := ln [] []
      accepts s { order := false } l [] && decide (s.ledger.pend = none)),
   (let s := pended
      let l := ln [] []
      let i := 0
      let b := 100
      accepts s { order := false } l [] && decide (s.ledger.pend = some (i, b)) && decide (s.ledger.pendTicket = none)),
   (let s := pendedT
      let l := ln [] []
      let i := 0
      let b := 100
      let n := 511
      let x := schedTicket
      accepts s { order := false } l [] && decide (s.ledger.pend = some (i, b)) && decide (s.ledger.pendTicket = some n) && decide (s.ticket? n = some x) && decide (x.live = true)),
   (let s := rawState
      let l := ln [] []
      accepts s { order := false } l (s.noiseErs [.startup, .failed]) && decide (s.noise.st = .raw)),
   (let s := keyed
      let l := ln [] []
      accepts s { order := false } l (s.noiseErs [.startup, .failed]) && decide (s.noise.st ≠ .raw))
   ] : List Bool).all (fun b => b) = true := by decide

/-- A state and a line for each form of `Obligations.OrderLinesTakeEffect`. -/
theorem test_accepts_order_lines_take_effect : ([
   (let s := pendingOrder
      let l := ln [.word "ALL"] []
      let all : Bool := l.posWord? 0 == some "ALL"
      let k := lineOrder l
      let f : Form := { order := false, minPos := 1, pos := [("k", if all then .word ["ALL"] else .int 0 31)] }
      let es := if all then [] else s.emptyErs l
      accepts s f l es && decide (s.orders.run = none ∧ s.orders.pending.all (fun p => p.runTicket.isNone) = true ∧ (all || s.orders.pending.any (fun p => p.k == k)) = true)),
   (let s := ordered
      let l := ln [.int 31] []
      let all : Bool := l.posWord? 0 == some "ALL"
      let k := lineOrder l
      let f : Form := { order := false, minPos := 1, pos := [("k", if all then .word ["ALL"] else .int 0 31)] }
      let es := if all then [] else s.emptyErs l
      accepts s f l es && decide (all = false ∧ s.orders.run.map (·.k) ≠ some k ∧ s.orders.pending.any (fun p => p.k == k) = false)),
   (let s := running
      let l := ln [.int 31] []
      let all : Bool := l.posWord? 0 == some "ALL"
      let k := lineOrder l
      let f : Form := { order := false, minPos := 1, pos := [("k", if all then .word ["ALL"] else .int 0 31)] }
      let es := if all then [] else s.emptyErs l
      let r := aRun
      accepts s f l es && decide (all = false ∧ s.orders.run = some r ∧ r.k = k ∧ r.await = .next)),
   (let s := runningT
      let l := ln [.int 31] []
      let all : Bool := l.posWord? 0 == some "ALL"
      let k := lineOrder l
      let f : Form := { order := false, minPos := 1, pos := [("k", if all then .word ["ALL"] else .int 0 31)] }
      let es := if all then [] else s.emptyErs l
      let r := aRunT
      let n := 511
      let x := eraseTicket
      accepts s f l es && decide (all = false) && decide (s.orders.run = some r) && decide (r.k = k) && decide (r.await = .ticket n) && decide (s.ticket? n = some x) && decide (x.live = true) && decide (x.unstarted = false) && decide (s.interruptible x = false)),
   (let s := running
      let l := { ln [.int 600000] [] with origin := .order 31 }
      let k := 31
      accepts s { port := false, minPos := 1, pos := [("ms", .int 1 600000)] } l [] && decide (l.origin = .order k)),
   (let s := runningP
      let l := { ln [.int 100] [("max", .int 600000)] with origin := .order 31 }
      let k := 31
      let n := 100
      accepts s { port := false, minPos := 1, pos := [("event", .any)], keys := [("max", .int 1 600000)] } l (s.eventErs "event" (l.at? 0)) && decide (l.origin = .order k) && decide ((l.at? 0).bind eventOf = some n) && decide (s.events.pend.getLsbD n = true)),
   (let s := running
      let l := { ln [.int 1] [] with origin := .order 31 }
      let k := 31
      let r := aRun
      let n := (l.posNat? 0).getD 0
      accepts s { port := false, minPos := 1, pos := [("n", .int 1 15)], keys := [("pin", .any), ("level", .word ["H", "L"]), ("pending", .any), ("unit", .any), ("state", .any), ("last", .word ["DONE", "NOTDONE"])] } l (s.skipErs l ++ erIf (!l.pos.isEmpty && decide (r.slot.lines.length ≤ r.line + n)) (erRange "n")) && decide (l.origin = .order k) && decide (s.orders.run = some r) && decide (r.stopping = none)),
   (let s := kid
      let l := ln [.int 5] []
      let e := aKid
      let es := s.late (erIf (!l.pos.isEmpty && (s.lineEntry l).isNone) (erRange "short")) ++ s.needRole 2
      let f : Form :=
        {
        feat := some .parent, order := false, minPos := 1, pos := [("short", .int 0 65535)]
        keys := [("notify", .word ["YES", "NO"])]
        }
      accepts s f l (es ++ erIf (decide (s.txFree < ringSize (s.noticeFrame e).ringOctets)) ⟨"FULL", ["TXRING"]⟩) && decide ((s.lineEntry l).getD noEntry = e) && decide (l.word? "notify" ≠ some "NO")),
   (let s := kid
      let l := ln [.int 5] [("notify", .word "NO")]
      let e := aKid
      let es := s.late (erIf (!l.pos.isEmpty && (s.lineEntry l).isNone) (erRange "short")) ++ s.needRole 2
      let f : Form :=
        {
        feat := some .parent, order := false, minPos := 1, pos := [("short", .int 0 65535)]
        keys := [("notify", .word ["YES", "NO"])]
        }
      accepts s f l es && decide ((s.lineEntry l).getD noEntry = e) && decide (l.word? "notify" = some "NO"))
   ] : List Bool).all (fun b => b) = true := by decide

/-- A state and a line for each form of `Obligations.RadioLinesIssueTickets`. -/
theorem test_accepts_radio_lines_issue_tickets : ([
   (let s := up
      let l := ln [] []
      accepts s { ({} : Form) with ticketed := true } l ([] ++ (if l.has "after" then [] else []) ++ erIf (s.noTicketFor (ownerOf l.origin)) ⟨"NOTICKET", []⟩)),
   (let s := up
      let l := ln [] []
      accepts s { ({} : Form) with ticketed := true } l ([] ++ (if l.has "after" then [] else []) ++ erIf (s.noTicketFor (ownerOf l.origin)) ⟨"NOTICKET", []⟩)),
   (let s := up
      let l := ln [] [("dur", .int 1000)]
      accepts s { ({ order := false, keys := [("dur", .int 1 10000)] } : Form) with ticketed := true } l ((erIf (!l.has "dur") erMissing) ++ (if l.has "after" then [] else []) ++ erIf (s.noTicketFor (ownerOf l.origin)) ⟨"NOTICKET", []⟩)),
   (let s := up
      let l := ln [] []
      accepts s { ({ noun := true, keys := [("dur", .intOr 1 4294967 ["CONT"]), ("chan", .any), ("plan", .any)] } : Form) with ticketed := true } l ((s.chanErs l "c") ++ (if l.has "after" then [] else (erIf s.trimStops (erState "RADIO" "TRIM"))) ++ erIf (s.noTicketFor (ownerOf l.origin)) ⟨"NOTICKET", []⟩)),
   (let s := up
      let l := ln [] []
      accepts s { ({ keys := [("chan", .any), ("plan", .any)] } : Form) with ticketed := true } l ((s.chanErs l "c") ++ (if l.has "after" then [] else []) ++ erIf (s.noTicketFor (ownerOf l.origin)) ⟨"NOTICKET", []⟩)),
   (let s := up
      let l := ln [] [("dur", .int 600000)]
      accepts s { ({ feat := some .census, keys := [("dur", .int 1 600000)] } : Form) with ticketed := true } l ((erIf (!l.has "dur") erMissing) ++ (if l.has "after" then [] else []) ++ erIf (s.noTicketFor (ownerOf l.origin)) ⟨"NOTICKET", []⟩)),
   (let s := kin
      let l := ln [] [("pan", .int 65535), ("parent", .int 65535)]
      accepts s { ({ order := false, keys := [("pan", .int 0 65535), ("parent", .int 0 (2 ^ 64 - 1)), ("chan", .any), ("plan", .any), ("parent_eui", .int 0 (2 ^ 64 - 1)), ("short", .int 0 65535)] } : Form) with ticketed := true } l ((erIf (!(l.has "pan" && l.has "parent")) erMissing ++ erIf (l.has "parent_eui" || l.has "short") erExtra ++
        s.chanErs l "c" ++ s.needRole 1 ++ erIf (decide (6 ≤ s.profile.code)) ⟨"DENIED", ["PROFILE"]⟩) ++ (if l.has "after" then [] else (erIf (decide (s.link.st ≠ .unassoc)) (erState "LINK" s.link.st.name))) ++ erIf (s.noTicketFor (ownerOf l.origin)) ⟨"NOTICKET", []⟩)),
   (let s := assoc1
      let l := ln [] []
      accepts s { ({ keys := [("notify", .word ["YES", "NO"])] } : Form) with ticketed := true } l ([] ++ (if l.has "after" then [] else s.needAssoc) ++ erIf (s.noTicketFor (ownerOf l.origin)) ⟨"NOTICKET", []⟩)),
   (let s := assoc1
      let l := ln [] []
      accepts s { ({ keys := [("repoll", .int 0 7)] } : Form) with ticketed := true } l ([] ++ (if l.has "after" then [] else s.needAssoc) ++ erIf (s.noTicketFor (ownerOf l.origin)) ⟨"NOTICKET", []⟩)),
   (let s := up
      let l := ln [.word "ALL"] []
      let items := s.lineItems l
      accepts s { ({ minPos := 1, pos := [("item", .name)], keys := [("chan", .any), ("plan", .any)] } : Form) with ticketed := true } l ((s.itemErs l ++ (if items == [.censuseq] then
        erIf (l.has "chan") (erRange "chan") ++ erIf (l.has "plan") (erRange "plan")
        else s.chanErs l "chan")) ++ (if l.has "after" then [] else (match s.trimForbids items with | some x => [erState x.1 x.2] | none => [])) ++ erIf (s.noTicketFor (ownerOf l.origin)) ⟨"NOTICKET", []⟩))
   ] : List Bool).all (fun b => b) = true := by decide

/-- A state and a line for each form of `Obligations.VaultLinesIssueTickets`. -/
theorem test_accepts_vault_lines_issue_tickets : ([
   (let s := rawState
      let l := ln [] []
      accepts s { ({ order := false } : Form) with ticketed := true } l (s.rawErs ++ (if l.has "after" then [] else []) ++ erIf (s.noTicketFor (ownerOf l.origin)) ⟨"NOTICKET", []⟩)),
   (let s := rawState
      let l := ln [] [("n", .int 4096)]
      accepts s { ({ order := false, keys := [("n", .int 1 4096)] } : Form) with ticketed := true } l ((erIf (!l.has "n") erMissing ++ s.rawErs) ++ (if l.has "after" then [] else []) ++ erIf (s.noTicketFor (ownerOf l.origin)) ⟨"NOTICKET", []⟩)),
   (let s := keyed
      let l := ln [.int 7] [("key", .octets (List.replicate 16 1#8))]
      let k := (l.posNat? 0).getD 0
      let plain := l.has "key"
      accepts s { ({ feat := some .vault, order := false, minPos := 1, pos := [("s", .int 0 7)], keys := [("key", .any), ("wrapped", .any)] } : Form) with ticketed := true } l ((erIf (!plain && !l.has "wrapped") erMissing ++ erIf (plain && l.has "wrapped") erExtra ++
        sizedErs "key" 16 (l.arg "key") ++ sizedErs "wrapped" 24 (l.arg "wrapped") ++
        erIf (k == 0) ⟨"DENIED", ["KEK"]⟩ ++ erIf (s.slotKey 0).isNone ⟨"DENIED", ["NOKEK"]⟩ ++
        erIf (plain && s.vault.sealed) ⟨"LOCKED", ["PROVISIONING"]⟩ ++ s.tamperErs) ++ (if l.has "after" then [] else (s.noiseErs [.raw, .failed])) ++ erIf (s.noTicketFor (ownerOf l.origin)) ⟨"NOTICKET", []⟩)),
   (let s := keyed
      let l := ln [.word "ALL"] []
      let all := l.at? 0 == some (.word "ALL")
      let k := (l.posNat? 0).getD 0
      accepts s { ({ feat := some .vault, order := false, minPos := 1, pos := [("s", .intOr 0 7 ["ALL"])] } : Form) with ticketed := true } l ((erIf (!all && k == 0) ⟨"DENIED", ["KEK"]⟩ ++ s.busyErs) ++ (if l.has "after" then [] else []) ++ erIf (s.noTicketFor (ownerOf l.origin)) ⟨"NOTICKET", []⟩)),
   (let s := keyed
      let l := ln [] [("n", .int 64)]
      accepts s { ({ feat := some .vault, keys := [("n", .int 1 64)] } : Form) with ticketed := true } l ((erIf (!l.has "n") erMissing ++ s.tamperErs) ++ (if l.has "after" then [] else (s.noiseErs [.startup, .raw, .failed])) ++ erIf (s.noTicketFor (ownerOf l.origin)) ⟨"NOTICKET", []⟩)),
   (let s := keyed
      let l := ln [.word "ENC", .octets [1#8]] [("slot", .int 7), ("level", .int 5), ("nonce", .octets (List.replicate 13 0#8))]
      let dec := l.posWord? 0 == some "DEC"
      let slot := (l.nat? "slot").getD 2
      let level := (l.nat? "level").getD 5
      let pay := l.at? 1
      accepts s { ({ feat := some .vault, minPos := 2, pos := [("mode", .word ["ENC", "DEC"]), ("payload", .any)], keys := [("slot", .int 2 7), ("level", .oneOf ccmLevels), ("nonce", .any), ("adata", .any)] } : Form) with ticketed := true } l ((erIf (!(l.has "slot" && l.has "level" && l.has "nonce")) erMissing ++
        s.late (erIf (l.has "slot" && (s.slotKey slot).isNone) (erRange "slot")) ++ sizedErs "nonce" 13 (l.arg "nonce") ++
        erIf (l.has "adata" && (!(isData (l.arg "adata")) || decide (64 < argLen (l.arg "adata")))) (erRange "adata") ++
        erIf (pay.isSome && (!isData pay || decide (1024 < argLen pay) || (dec && decide (argLen pay < micLen level))))
        (erRange "payload") ++ s.tamperErs) ++ (if l.has "after" then [] else []) ++ erIf (s.noTicketFor (ownerOf l.origin)) ⟨"NOTICKET", []⟩)),
   (let s := up
      let l := ln [] []
      accepts s { ({ feat := some .ssw } : Form) with ticketed := true } l ([] ++ (if l.has "after" then [] else s.sswOnErs) ++ erIf (s.noTicketFor (ownerOf l.origin)) ⟨"NOTICKET", []⟩)),
   (let s := sswOnSt
      let l := ln [] []
      accepts s { ({ feat := some .ssw } : Form) with ticketed := true } l ([] ++ (if l.has "after" then [] else s.sswOffErs) ++ erIf (s.noTicketFor (ownerOf l.origin)) ⟨"NOTICKET", []⟩))
   ] : List Bool).all (fun b => b) = true := by decide

/-- A state and a line for each form of `Obligations.StoreLinesIssueTickets`. -/
theorem test_accepts_store_lines_issue_tickets : ([
   (let s := up
      let l := ln [.int 8191, .octets [1#8]] []
      let a := (l.posNat? 0).getD 0
      let o := storeData l 1
      accepts s { ({ minPos := 2, pos := [("off", .int 0 8191), ("payload", .any)] } : Form) with ticketed := true } l ((dataErs l 1 ++ spanErs a o.length 8192 "payload") ++ (if l.has "after" then [] else []) ++ erIf (s.noTicketFor (ownerOf l.origin)) ⟨"NOTICKET", []⟩)),
   (let s := parted
      let l := ln [.int 0x100000, .octets [1#8]] []
      let a := (l.posNat? 0).getD 0
      let o := storeData l 1
      accepts s { ({ feat := some .stacks, order := false, minPos := 2, pos := [("off", .int 0 (2 ^ 32 - 1)), ("payload", .any)] } : Form) with ticketed := true } l ((dataErs l 1 ++ erIf (decide (a < s.freeBase)) ⟨"DENIED", ["PROTECTED"]⟩ ++ spanErs a o.length s.stacksSize "off") ++ (if l.has "after" then [] else []) ++ erIf (s.noTicketFor (ownerOf l.origin)) ⟨"NOTICKET", []⟩)),
   (let s := up
      let l := ln [] [("archive", .int 8), ("pmax", .int 240), ("policy", .word "WRAP")]
      let k := (l.nat? "archive").getD 0
      accepts s { ({ feat := some .stacks, order := false, keys := [("archive", .int 8 2040), ("pmax", .int 1 240), ("policy", .word ["WRAP", "REFUSE"])] } : Form) with ticketed := true } l ((erIf (!(l.has "archive" && l.has "pmax" && l.has "policy")) erMissing ++
        erIf (decide (k % 8 ≠ 0) || decide (s.stacksSize < (k + 8) * 1024)) (erRange "archive")) ++ (if l.has "after" then [] else s.porterErs) ++ erIf (s.noTicketFor (ownerOf l.origin)) ⟨"NOTICKET", []⟩)),
   (let s := parted
      let l := ln [.octets [1#8]] [("kind", .int 255)]
      let pmax := match s.store.part with | some p => p.pmax | none => 240
      let o := storeData l 0
      accepts s { ({ feat := some .stacks, pos := [("payload", .any)], keys := [("kind", .int 0 255), ("from", .int 0 (2 ^ 32 - 1)), ("n", .int 1 4096)] } : Form) with ticketed := true } l (((match lineSource l with
        | some (a, n) => erIf (l.at? 0).isSome erExtra ++ erIf (!l.has "n") erMissing ++ carrelErs a n "from" ++
        s.late (erIf (decide (pmax < n)) (erRange "n"))
        | none => erIf (l.has "n") erExtra ++ dataErs l 0 ++
        erIf ((l.at? 0).isSome && decide (o.length = 0)) (erRange "payload") ++
        s.late (erIf (decide (pmax < o.length)) (erRange "payload"))) ++
        erIf (s.archFull && (s.store.part.map (·.refuse)).getD false) ⟨"FULL", ["ARCHIVE"]⟩) ++ (if l.has "after" then [] else s.partErs) ++ erIf (s.noTicketFor (ownerOf l.origin)) ⟨"NOTICKET", []⟩)),
   (let s := parted
      let l := ln [] []
      let most := (l.nat? "max").getD 4096
      let cap := match s.store.part with | some p => p.capacity | none => 4096
      accepts s { ({ feat := some .stacks, keys := [("from", .int 0 (2 ^ 32 - 1)), ("to", .int 0 (2 ^ 32 - 1)), ("since", .time), ("until", .time), ("kind", .int 0 255), ("unsent", .word ["YES"]), ("unacked", .word ["YES"]), ("max", .int 1 4096), ("list", .int 0 (2 ^ 32 - 1))] } : Form) with ticketed := true } l ((match l.nat? "list" with
        | some a => listErs a 1 ++ s.late (listErs a (min most cap))
        | none => []) ++ (if l.has "after" then [] else s.partErs) ++ erIf (s.noTicketFor (ownerOf l.origin)) ⟨"NOTICKET", []⟩)),
   (let s := parted
      let l := ln [] [("from", .int 0), ("to", .int 0), ("set", .word "SENT")]
      let range : Option (Nat × Nat) := match l.nat? "from", l.nat? "to" with | some a, some b => some (a, b) | _, _ => none
      let list : Option (Nat × Nat) := (l.nat? "list").map (fun a => (a, (l.nat? "n").getD 1))
      accepts s { ({ feat := some .stacks, keys := [("from", .int 0 (2 ^ 32 - 1)), ("to", .int 0 (2 ^ 32 - 1)), ("list", .int 0 (2 ^ 32 - 1)), ("n", .int 1 65535), ("set", .words ["SENT", "ACKED"]), ("clear", .words ["SENT", "ACKED"])] } : Form) with ticketed := true } l ((match list with
        | some (a, n) => erIf (l.has "from" || l.has "to") erExtra ++ erIf (!l.has "n") erMissing ++ listErs a n
        | none => erIf range.isNone erMissing ++ erIf (l.has "n") erExtra) ++ (if l.has "after" then [] else s.partErs) ++ erIf (s.noTicketFor (ownerOf l.origin)) ⟨"NOTICKET", []⟩)),
   (let s := parted
      let l := ln [] [("up", .int 0)]
      accepts s { ({ feat := some .stacks, keys := [("up", .int 0 (2 ^ 32 - 1))] } : Form) with ticketed := true } l ((erIf (!l.has "up") erMissing) ++ (if l.has "after" then [] else s.partErs) ++ erIf (s.noTicketFor (ownerOf l.origin)) ⟨"NOTICKET", []⟩)),
   (let s := up
      let l := ln [.int 3] [("slip", .int 0x3FFE0)]
      let n := (l.posNat? 0).getD 0
      let a := (l.nat? "slip").getD 0x18000
      accepts s { ({ minPos := 1, pos := [("ch", .int 0 3), ("block", .any)], keys := [("slip", .int 0 (2 ^ 32 - 1)), ("max", .int 1 65535)] } : Form) with ticketed := true } l ((s.chanAbsent n ++ erIf (!l.has "slip") erMissing ++
        (match l.at? 1 with
        | none => []
        | some (.block k) => erIf (decide (4096 < k)) (erRange "block")
        | some _ => [erRange "block"]) ++
        erIf (!inCarrels a 32 || decide (a % 32 ≠ 0)) (erRange "slip")) ++ (if l.has "after" then [] else []) ++ erIf (s.noTicketFor (ownerOf l.origin)) ⟨"NOTICKET", []⟩)),
   (let s := colOpen
      let l := ln [.int 3, .octets [1#8]] []
      let n := (l.posNat? 0).getD 0
      accepts s { ({ minPos := 1, pos := [("n", .int 0 3), ("payload", .any)], keys := [("from", .int 0 (2 ^ 32 - 1)), ("n", .int 1 4096)] } : Form) with ticketed := true } l ((s.colAbsent n ++
        (match lineSource l with
        | some (a, k) => erIf (l.at? 1).isSome erExtra ++ erIf (!l.has "n") erMissing ++ carrelErs a k "from"
        | none => erIf (l.has "n") erExtra ++ dataErs l 1 ++
        erIf ((l.at? 1).isSome && decide ((storeData l 1).length = 0)) (erRange "n"))) ++ (if l.has "after" then [] else (s.closedErs n)) ++ erIf (s.noTicketFor (ownerOf l.origin)) ⟨"NOTICKET", []⟩)),
   (let s := colOpen
      let l := ln [.int 3] []
      let n := (l.posNat? 0).getD 0
      accepts s { ({ minPos := 1, pos := [("n", .int 0 3)], keys := [("expect", .intOr 0 (2 ^ 32 - 1) ["NONE"])] } : Form) with ticketed := true } l ((s.colAbsent n ++
        s.late (erIf ((s.col n).isOpen && decide (2 ^ (s.col n).width ≤ (l.nat? "expect").getD 0)) (erRange "expect"))) ++ (if l.has "after" then [] else (s.closedErs n)) ++ erIf (s.noTicketFor (ownerOf l.origin)) ⟨"NOTICKET", []⟩))
   ] : List Bool).all (fun b => b) = true := by decide

/-- A state and a line for each form of `Obligations.OrderLinesIssueTickets`. -/
theorem test_accepts_order_lines_issue_tickets : ([
   (let s := drafted
      let l := ln [.int 31] [("name", .word "a")]
      let k := lineOrder l
      let lines : List String := match l.blockGot with
        | .good o => blockLines o
        | .absent => s.orders.draft
        | _ => []
      let x := lineStore l lines
      let known : Bool := match l.blockGot with | .good _ => true | .absent => true | _ => false
      let found := if known && s.orders.checking.isNone then s.orderLinesErs k lines else []
      accepts s { ({ order := false, minPos := 1, pos := [("k", .int 0 31), ("block", .data 4096)], keys := settingKeys ++ [("name", .any)] } : Form) with ticketed := true } l ((nameErs l ++ (match l.at? 1 with | some (.octets _) => [erExtra] | _ => []) ++ s.settingErs l { x with trigger := .none } ++
        erIf (decide (16 < lines.length) || decide (448 < textOctets lines)) ⟨"FULL", ["ORDER"]⟩ ++ found) ++ (if l.has "after" then [] else (s.orderBusyErs k)) ++ erIf (s.noTicketFor (ownerOf l.origin)) ⟨"NOTICKET", []⟩)),
   (let s := ordered
      let l := ln [.int 31] [("enable", .word "YES")]
      let k := lineOrder l
      accepts s { ({ order := false, minPos := 1, pos := [("k", .int 0 31)], keys := settingKeys ++ [("trigger", .word ["NONE"])] } : Form) with ticketed := true } l ((s.emptyErs l ++ s.settingErs l ((s.slot k).getD emptySlot)) ++ (if l.has "after" then [] else []) ++ erIf (s.noTicketFor (ownerOf l.origin)) ⟨"NOTICKET", []⟩)),
   (let s := ordered
      let l := ln [.int 31] []
      let k := lineOrder l
      accepts s { ({ order := false, minPos := 1, pos := [("k", .int 0 31)] } : Form) with ticketed := true } l ((s.emptyErs l) ++ (if l.has "after" then [] else (s.orderBusyErs k)) ++ erIf (s.noTicketFor (ownerOf l.origin)) ⟨"NOTICKET", []⟩)),
   (let s := ordered
      let l := ln [.int 31] []
      let k := lineOrder l
      accepts s { ({ order := false, minPos := 1, pos := [("k", .int 0 31)] } : Form) with ticketed := true } l ((s.emptyErs l) ++ (if l.has "after" then [] else []) ++ erIf (s.noTicketFor (ownerOf l.origin)) ⟨"NOTICKET", []⟩))
   ] : List Bool).all (fun b => b) = true := by decide

/-- A state and a line for each form of `Obligations.BuildingLinesIssueTickets`. -/
theorem test_accepts_building_lines_issue_tickets : ([
   (let s := assoc1
      let l := ln [.octets [1#8]] [("fmt", .word "S"), ("dst", .int 0)]
      let fmt := fmtOf ((l.word? "fmt").getD "S")
      let f := s.sendFrame l
      let es := (if fmt = .d then s.needs .deep else []) ++ erIf (!l.has "fmt") erMissing ++
        erIf (fmt != .m && !l.has "dst") erMissing ++ payloadErs l 0 ++
        s.late (erIf (!s.profile.fmts.contains fmt) (erRange "fmt")) ++
        erIf (fmt == .d && (match f.dst with | .ext _ => true | _ => false)) (erRange "dst") ++
        erIf (fmt != .s && l.has "sec" && f.sec != 0) (erRange "sec") ++ s.secErs l ++ s.chanErs l "c" ++
        (if l.has "data" then s.late (erIf f.tooLong (erRange "payload")) else erIf f.tooLong (erRange "payload")) ++
        s.ringErs l f ++ erIf (s.noTicketFor (ownerOf l.origin)) ⟨"NOTICKET", []⟩
      accepts s { ticketed := true, pos := [("payload", .any)], keys := [("fmt", .word ["S", "M", "D"]), ("dst", .int 0 (2 ^ 64 - 1)), ("pan", .int 0 65535), ("ext", .word ["YES", "NO"]), ("ack", .word ["YES", "NO"]), ("mfmt", .word ["A", "B"]), ("chan", .any), ("plan", .any)] ++ secKeys } l es),
   (let s := kidSniff
      let l := ln [.octets [1#8]] [("dst", .int 5)]
      let e := ((l.nat? "dst").bind s.entryShort).getD noEntry
      let f := s.childFrame l e 0
      accepts s { ticketed := true, feat := some .parent, pos := [("payload", .any)], keys := [("dst", .int 0 65535)] ++ secKeys } l (erIf (!l.has "dst") erMissing ++ payloadErs l 0 ++
        s.late (erIf (l.has "dst" && (!e.valid || e.sniffEvery == 0)) (erRange "dst")) ++ s.childErs l f ++ s.needRole 2 ++
        s.late (erIf (!s.profile.wakes) ⟨"DENIED", ["PROFILE"]⟩) ++ erIf (s.noTicketFor (ownerOf l.origin)) ⟨"NOTICKET", []⟩)),
   (let s := tariffed
      let l := ln [.int 1] [("at", .time 100 false)]
      let i := (l.posNat? 0).getD 8
      let b := s.effective i (((l.arg "at").bind (s.timeOf l)).getD 0)
      accepts s { ticketed := true, order := false, minPos := 1, pos := [("t", .int 0 7)], keys := [("at", .time)] } l (erIf (!l.has "at") erMissing ++ erIf ((s.tariff i).isNone || decide (s.ledger.active = i)) (erRange "t") ++
        erIf (decide (2 ^ 64 ≤ b)) (erRange "at") ++
        (if l.has "after" then [] else erIf s.ledger.pend.isSome (erState "LEDGER" "CHANGEPENDING")) ++
        erIf (s.noTicketFor (ownerOf l.origin)) ⟨"NOTICKET", []⟩))
   ] : List Bool).all (fun b => b) = true := by decide

/-! ## The hypotheses of the other statements -/

/-- `Obligations.RegisterWritesTakeEffect`: for each kind of register, a WR of the value that reads there is the line of one
row of writes and is accepted, and so is a SET. -/
theorem test_witness_register_writes : ([0x0614, 0x0214, 0x2210, 0x0004, 0x1804, 0x1E10, 0x2400, 0x2440, 0x0284, 0x0048, 0x0210,
    0x0604, 0x060C, 0x0640, 0x0804, 0x0A04, 0x0C04, 0x0C08, 0x0E04, 0x2604, 0x2220, 0x2204, 0x1604, 0x1788, 0x1D00, 0x1D10,
    0x2084, 0x20A0, 0x2044] : List Nat).all (fun (a : Nat) =>
      let l := ln [.int a, .int (colOpen.readAt a).toNat] []
      (writeRows .wr l).any (fun x => decide (lineClass .wr l = x.2)) && accepts colOpen (writeForm .wr l) l (colOpen.writeErs .wr l)) = true ∧
    (let l := ln [] [("pwr_vbat_warn.warn_mv", .int 3000)]
     (writeRows .set l).any (fun x => decide (lineClass .set l = x.2)) && accepts colOpen (writeForm .set l) l (colOpen.writeErs .set l)) = true := by
  decide

/-- `Obligations.IdleStepPassesOneCycle`: with and without a running clock. -/
theorem test_witness_clock : (up.pending = [] ∧ up.clocked = true) ∧ State.reset.pending = [] ∧ State.reset.clocked = false := by
  decide

/-- `Obligations.UnitLinesTakeEffect`: a VAULT SEAL is accepted with the last 16 bits of the part's EUI-64. -/
theorem test_accepts_vault_seal :
    let l := ln [] [("confirm", .int (up.eui.toNat % 65536 : Nat))]
    sealable.Accepts { feat := some .vault, order := false, keys := [("confirm", .int 0 65535)] } l (erIf (!l.has "confirm") erMissing ++
        erIf (l.has "confirm" && l.nat? "confirm" != some (sealable.eui.toNat % 65536)) (erRange "confirm") ++
        erIf (sealable.slotKey 0).isNone ⟨"DENIED", ["NOKEK"]⟩ ++ erIf (sealable.slotKey 1).isNone ⟨"DENIED", ["NOTRANSPORT"]⟩ ++
        sealable.tamperErs ++ erIf sealable.vault.sealed (erState "VAULT" "SEALED")) := by
  have h : up.eui.toNat % 65536 < 65536 := Nat.mod_lt _ (by decide)
  generalize hx : up.eui.toNat % 65536 = x at h
  have he : sealable.eui.toNat % 65536 = x := hx
  have hi : inRange 0 65535 (x : Int) = true := by simp [inRange]; omega
  refine ⟨rfl, rfl, ?_, ?_⟩
  · have : Kind.admits (.int 0 65535) (.int (x : Int)) = true := hi
    simp [State.formErs, Line.blockGot, ln, erIf, List.lookup, this, Line.at?, show sealable.sys.stage = .ready from rfl,
      show sealable.needs .vault = [] by decide]
  · rw [he]
    simp [ln, erIf, Line.has, Line.nat?, Line.int?, Line.arg, argInt, show sealable.slotKey 0 = some 1 by decide,
      show sealable.slotKey 1 = some 2 by decide, show sealable.tamperErs = [] by decide, show sealable.vault.sealed = false from rfl]

/-- States and operands that meet the hypotheses of each clause of `Obligations.StepRunsFrontCommand`. -/
theorem test_witness_step_runs_front_command : ([
   (let s : State := { up with pending := [.slewTick] }; let c : Instr := Instr.slewTick;
     let rest : List Instr := ([] : List Instr); decide (s.pending = c :: rest))
   ] : List Bool).all (fun b => b) = true := by decide

/-- States and operands that meet the hypotheses of each clause of `Obligations.IdleStepPassesOneCycle`. -/
theorem test_witness_idle_step_passes_one_cycle : ([
   (let s : State := up; decide (s.pending = []))
   ] : List Bool).all (fun b => b) = true := by decide

/-- States and operands that meet the hypotheses of each clause of `Obligations.StoresStayCanonical`. -/
theorem test_witness_stores_stay_canonical : ([
   (let s := slipped; decide (s.memWf = true) && decide ((match step s with | .next _ => true | _ => false) = true))
   ] : List Bool).all (fun b => b) = true := by decide

/-- States and operands that meet the hypotheses of each clause of `Obligations.NoLineActsUnheard`. -/
theorem test_witness_no_line_acts_unheard : ([
   (let s : State := State.reset; let c : Instr := Instr.stat (ln [] []); let l : Line := ln [] [];
     decide (c.line? = some l) && decide (s.listens l.origin = false))
   ] : List Bool).all (fun b => b) = true := by decide

/-- States and operands that meet the hypotheses of each clause of `Obligations.ReservedAddressesTakeNothing`. -/
theorem test_witness_reserved_addresses_take_nothing : ([
   (let l : Line := ln [.int 0x27FC] []; let s : State := up; let a : Nat := 0x27FC; decide (a % 4 = 0)
     && decide (a < 0x2800) && decide (regAt a = none) && decide (s.addrAbsent a = [])
     && decide (s.orders.checking = none) && decide (l.posNat? 0 = some a) && decide (l.nat? "n" = none)
     && decide (accepts s { minPos := 1, pos := [("address", .int 0 0x27FF)], keys := [("n", .int 1 16)] } l [])),
   (let l : Line := ln [.int 0x27FC, .int 0] []; let s : State := up; let a : Nat := 0x27FC; let v : Nat := 0;
     let x : Instr × WriteClass := (Instr.registerWrite .wr l, WriteClass.plain); decide (a % 4 = 0)
     && decide (a < 0x2800) && decide (regAt a = none) && decide (s.addrAbsent a = [])
     && decide (s.orders.checking = none) && decide (l.posNat? 0 = some a) && decide (l.posInt? 1 = some (v : Int))
     && decide (v < 2 ^ 32) && decide (x ∈ writeRows .wr l) && decide (lineClass .wr l = x.2)
     && decide (s.listens l.origin = true) && decide (firstEr (s.formErs (writeForm .wr l) l) = none) && decide (v = 0)),
   (let l : Line := ln [.int 0x27FC, .int 0xFFFFFFFF] []; let s : State := up; let a : Nat := 0x27FC;
     let v : Nat := 0xFFFFFFFF; let x : Instr × WriteClass := (Instr.registerWrite .wr l, WriteClass.plain);
     decide (a % 4 = 0) && decide (a < 0x2800) && decide (regAt a = none) && decide (s.addrAbsent a = [])
     && decide (s.orders.checking = none) && decide (l.posNat? 0 = some a) && decide (l.posInt? 1 = some (v : Int))
     && decide (v < 2 ^ 32) && decide (x ∈ writeRows .wr l) && decide (lineClass .wr l = x.2)
     && decide (s.listens l.origin = true) && decide (firstEr (s.formErs (writeForm .wr l) l) = none) && decide (v ≠ 0))
   ] : List Bool).all (fun b => b) = true := by decide

/-- States and operands that meet the hypotheses of each clause of `Obligations.WriteRefusals`. -/
theorem test_witness_write_refusals : ([
   (let l : Line := ln [.int 0x0000, .int 0xFFFFFFFF] []; let s : State := up; let a : Nat := 0;
     let v : Nat := (0xFFFFFFFF : Nat); let r := regOr 0; decide (l.posNat? 0 = some a)
     && decide (l.posInt? 1 = some (v : Int)) && decide (2 ≤ l.pos.length) && decide (v < 2 ^ 32) && decide (a % 4 = 0)
     && decide (a < 0x2800) && decide (s.orders.checking = none) && decide (s.addrAbsent a = [])
     && decide ((regAt a).isSome) && decide (r.readOnly = true)),
   (let l : Line := ln [.int 4, .int 0xFFFFFFFF] []; let s : State := up; let a : Nat := 4;
     let v : Nat := (0xFFFFFFFF : Nat); let r := regOr 4; decide (l.posNat? 0 = some a)
     && decide (l.posInt? 1 = some (v : Int)) && decide (2 ≤ l.pos.length) && decide (v < 2 ^ 32) && decide (a % 4 = 0)
     && decide (a < 0x2800) && decide (s.orders.checking = none) && decide (s.addrAbsent a = [])
     && decide ((regAt a).isSome) && decide (BitVec.ofNat 32 v &&& ~~~(r.mask (fun _ => true)) ≠ 0)),
   (let l : Line := ln [.int 0x0000, .int 0xFFFFFFFF] []; let s : State := up; let a : Nat := 0;
     let v : Nat := (0xFFFFFFFF : Nat); decide (l.posNat? 0 = some a) && decide (l.posInt? 1 = some (v : Int))
     && decide (2 ≤ l.pos.length) && decide (v < 2 ^ 32) && decide (a % 4 = 0) && decide (a < 0x2800)
     && decide (s.orders.checking = none) && decide (s.addrAbsent a = []) && decide ((regAt a).isSome))
   ] : List Bool).all (fun b => b) = true := by decide

/-- States and operands that meet the hypotheses of each clause of `Obligations.CounterWriteSetsValue`. -/
theorem test_witness_counter_write_sets_value : ([
   (let r := regOr 0x0214; decide (r.counter = true))
   ] : List Bool).all (fun b => b) = true := by decide

/-- States and operands that meet the hypotheses of each clause of `Obligations.WriteOneClears`. -/
theorem test_witness_write_one_clears : ([
   (decide ((regAt 0x0004).isSome)),
   (let i := 15; decide ((regAt 0x1804).isSome) && decide (i < 16)),
   (decide ((regAt 0x1E10).isSome)),
   (let s : State := up; let i := 31; decide ((regAt 0x2210).isSome) && decide (s.orders.run = none) && decide (i < 32))
   ] : List Bool).all (fun b => b) = true := by decide

/-- States and operands that meet the hypotheses of each clause of `Obligations.ResetsLeaveTableState`. -/
theorem test_witness_resets_leave_table_state : ([
   (let s : State := { State.reset with pads := { State.reset.pads with testEn := false } }; decide (s.pads.testEn = false)),
   (let s : State := up; decide (s.borWatched = true) && decide (s.holding = false)),
   (let s : State := { up with sys := { up.sys with hold := .nrst } }; decide (s.borWatched = true) && decide (s.holding = true)),
   (let s : State := { up with pwr := { up.pwr with state := .dormant } }; decide (s.borWatched = false)),
   (let s : State := { up with pwr := { up.pwr with state := .dormant } }; decide (s.resettable = true) && decide (s.dregLowMode = true) && decide (s.sys.hold = .none)),
   (let s : State := { up with sys := { up.sys with hold := .nrst, dregLow := true } }; decide (s.resettable = true) && decide (s.dregLowMode = true) && decide (s.sys.hold = .nrst)),
   (let s : State := up; decide (s.dregLowMode = false)),
   (let s : State := up; decide (s.resettable = true) && decide (s.holding = false)),
   (let s : State := { up with sys := { up.sys with hold := .borRun, cause := .borRun } }; decide (s.resettable = true) && decide (s.holding = true)),
   (let s : State := { up with sys := { up.sys with hold := .nrst, cause := .wakeLate } }; decide (s.resettable = true) && decide (s.holding = true) && decide (s.sys.cause.rank < Cause.pin.rank)),
   (let s : State := State.reset; decide (s.resettable = false)),
   (let s : State := { up with sys := { up.sys with stage := .vault } }; decide (s.booting = true) && decide (s.sys.stage ≠ .power)),
   (let s : State := up; decide (s.booting = false)),
   (let s : State := { up with pwr := { up.pwr with state := .entry true false } }; let r := true; let q := false; decide (s.pwr.state = .entry r q) && decide (s.holding = false)),
   (let s : State := { up with sys := { up.sys with pendingReset := some (.port .desk) } }; decide (s.sys.pendingReset = some (.port .desk)) && decide (s.resettable = true) && decide (s.holding = false) && decide (s.dport.out = [])),
   (let s : State := { up with sys := { up.sys with pendingReset := some (.order 3) } }; decide (s.sys.pendingReset = some (.order 3)) && decide (s.resettable = true) && decide (s.holding = false)),
   (let s : State := { up with sys := { up.sys with pendingReset := some (.port .chute), resetReplyRead := true } };
     decide (s.sys.pendingReset = some (.port .chute)) && decide (s.resettable = true) && decide (s.holding = false) && decide (s.sys.resetReplyRead = true) && decide (s.pads.chuteCs = true)),
   (let s : State := { up with sys := { up.sys with pendingReset := some (.port .chute) }, day := { up.day with cyc := 100 * tickMs } };
     decide (s.sys.pendingReset = some (.port .chute)) && decide (s.sys.replySince + 100 * tickMs ≤ s.day.cyc) && decide (s.resettable = true) && decide (s.holding = false)),
   (let s : State := up; decide (s.day.cyc < s.sys.replySince + 100 * tickMs))
   ] : List Bool).all (fun b => b) = true := by decide

/-- States and operands that meet the hypotheses of each clause of `Obligations.SupplyEventsTakeEffect`. -/
theorem test_witness_supply_events_take_effect : ([
   (let s : State := { State.reset with pads := { State.reset.pads with testEn := true } }; decide (s.sys.hold = .por) && decide (s.pads.testEn = true)),
   (let s : State := State.reset; decide (s.sys.hold = .por) && decide (s.pads.testEn = false) && decide (s.pads.nrst = true)),
   (let s : State := { State.reset with pads := { State.reset.pads with nrst := false } };
     decide (s.sys.hold = .por) && decide (s.pads.testEn = false) && decide (s.pads.nrst = false)),
   (let s : State := up; decide (s.sys.hold ≠ .por) && decide (s.sys.hold ≠ .borRun) && decide (s.sys.hold ≠ .nrst)),
   (let s : State := { up with sys := { up.sys with hold := .borRun } }; decide (s.sys.hold = .borRun)),
   (let s : State := { up with sys := { up.sys with hold := .nrst } }; decide (s.sys.hold = .nrst)),
   (let s : State := { up with pwr := { up.pwr with state := .dormant } }; decide (s.pwr.state = .dormant)),
   (let s : State := up; decide (s.pwr.vddioOk = true)),
   (let s : State := { up with pwr := { up.pwr with vddioOk := false } }; decide (s.pwr.vddioOk = false))
   ] : List Bool).all (fun b => b) = true := by decide

/-- States and operands that meet the hypotheses of each clause of `Obligations.BringupPassesStages`. -/
theorem test_witness_bringup_passes_stages : ([
   (let s : State := { up with sys := { up.sys with stage := .power } }; decide (s.inStage .power = true) && decide (s.sys.continuous = false)),
   (let s : State := { up with sys := { up.sys with stage := .record } }; decide (s.inStage .record = true) && decide (s.day.keeperOk = false) && decide (s.eventPresent 20 = true)),
   (let s : State := { up with sys := { up.sys with stage := .record } }; decide (s.inStage .record = true) && decide (s.blank = true)),
   (let s : State := { up with sys := { up.sys with stage := .trim } }; decide (s.inStage .trim = true)),
   (let s : State := { up with sys := { up.sys with stage := .ledger, alert := 8#8 } }; decide (s.inStage .ledger = true) && decide (s.sys.alert.getLsbD 3 = true)),
   (let s : State := { up with sys := { up.sys with stage := .ledger } }; decide (s.inStage .ledger = true) && decide (s.sys.alert.getLsbD 3 = false)),
   (let s : State := { up with sys := { up.sys with stage := .vault } }; decide (s.inStage .vault = true) && decide (s.tamper.resp = none) && decide (s.has .vault = true) && decide (s.eventPresent 80 = true)),
   (let s : State := { up with sys := { up.sys with stage := .orders }, orders := { up.orders with loaded := false } };
     decide (s.inStage .orders = true) && decide (s.orders.loaded = false) && (List.range 2).all (fun k => (1#32).getLsbD k == decide (k = 0))),
   (let s : State := { up with sys := { up.sys with stage := .orders } }; decide (s.inStage .orders = true) && decide (s.orders.loaded = true))
   ] : List Bool).all (fun b => b) = true := by decide

/-- States and operands that meet the hypotheses of each clause of `Obligations.DeskOctetsTakeEffect`. -/
theorem test_witness_desk_octets_take_effect : ([
   (let s : State := { up with pwr := { up.pwr with state := .wake 3 false } }; decide (s.pwr.vddioOk = true) && decide (s.pwr.state = .wake 3 false)),
   (let s : State := { up with pwr := { up.pwr with state := .dormant } }; decide (s.portHears .desk = false) && decide (s.pwr.state ≠ .wake 3 false)),
   (let s : State := up; let b : Byte := 65#8; decide (s.portHears .desk = true) && decide (s.pwr.state ≠ .wake 3 false) && decide (s.dport.overruns b = false)),
   (let s : State := { up with dport := { up.dport with fifo := List.replicate 512 65#8 } }; let b : Byte := 65#8;
     decide (s.portHears .desk = true) && decide (s.pwr.state ≠ .wake 3 false) && decide (s.dport.overruns b = true) && decide (s.quiet = false)),
   (let s : State := up; decide (s.portHears .desk = true) && decide (s.pwr.state ≠ .wake 3 false) && decide (s.dport.block = none)),
   (let s : State := { up with dport := { up.dport with block := some ⟨4, []⟩, lines := [{ text := [], lost := ⟨false, false, false⟩ }] } };
     decide (s.portHears .desk = true) && decide (s.pwr.state ≠ .wake 3 false) && decide (s.dport.block = some ⟨4, []⟩) && decide (s.dport.lines ≠ [])),
   (let s : State := up; decide (s.pwr.vddioOk = true) && decide (s.dport.announced = true) && decide (s.pwr.state ≠ .dormant) && decide (s.sys.testMode = false) && decide (s.dport.block = none)),
   (let s : State := up; decide (s.desk.breakArmed = false)),
   (let s : State := { up with desk := { up.desk with breakArmed := true } }; let n : Nat := 1000; let m : Nat := 3600; let r := 4;
     decide (s.desk.breakArmed = true) && decide (s.pwr.vddioOk = true) && decide (rateOfStart n = some r) && decide (36 * n ≤ 10 * m) && decide (10 * m ≤ 44 * n)),
   (let s : State := { up with desk := { up.desk with breakArmed := true } }; let n : Nat := 0; decide (s.desk.breakArmed = true) && decide (s.pwr.vddioOk = true) && decide (rateOfStart n = none)),
   (let s : State := { up with desk := { up.desk with breakArmed := true } }; let n : Nat := 1000; let m : Nat := 3599; decide (s.desk.breakArmed = true) && decide (s.pwr.vddioOk = true) && decide (10 * m < 36 * n)),
   (let s : State := { up with pwr := { up.pwr with vddioOk := false } }; decide (s.pwr.vddioOk = false)),
   (let s : State := { up with dport := { up.dport with sending := some [65#8] } };
     decide (s.pwr.vddioOk = true) && decide (s.desk.rateAtOctet = false) && decide (s.pwr.attemptBy ≠ some (.port .desk)) && decide (s.dport.sending = some [65#8])),
   (let s : State := { up with dport := { up.dport with echo := [65#8] } };
     decide (s.pwr.vddioOk = true) && decide (s.desk.rateAtOctet = false) && decide (s.pwr.attemptBy ≠ some (.port .desk)) && decide (s.dport.sending = none) && decide (s.dport.echo ≠ [])),
   (let s : State := { up with desk := { up.desk with rateAtOctet := true, ratePending := some 4 } }; let r := 4;
     decide (s.pwr.vddioOk = true) && decide (s.desk.rateAtOctet = true) && decide (s.desk.ratePending = some r))
   ] : List Bool).all (fun b => b) = true := by decide

/-- States and operands that meet the hypotheses of each clause of `Obligations.PortEventsTakeEffect`. -/
theorem test_witness_port_events_take_effect : ([
   (let s : State := up; decide (s.has .chute = true)),
   (let s : State := { up with part := .vg42 }; decide (s.has .chute = false)),
   (let s : State := { up with chute := { up.chute with active := true, octets := 0, discard := false }, cport := { up.cport with announced := true } };
     decide (s.has .chute = true) && decide (s.chute.active = true)),
   (let s : State := up; decide (s.chute.active = false)),
   (let s : State := { up with chute := { up.chute with active := true, octets := 1, discard := false }, cport := { up.cport with announced := true } };
     decide (s.chute.active = true) && decide (s.chute.octets < 2)),
   (let s : State := { up with chute := { up.chute with active := true, octets := 2, discard := true }, cport := { up.cport with announced := true } };
     decide (s.chute.active = true) && decide (2 ≤ s.chute.octets) && decide (s.chute.discard = true)),
   (let s : State := { up with chute := { up.chute with active := true, octets := 2, discard := false }, cport := { up.cport with announced := true } };
     decide (s.chute.active = true) && decide (2 ≤ s.chute.octets) && decide (s.chute.discard = false) && decide (s.cport.block = none) && decide (s.cport.out = [])),
   (let s : State := { up with chute := { up.chute with active := true, octets := 2, discard := false }, pads := { up.pads with chuteCs := false }, cport := { up.cport with announced := true, out := [aLine] } }; let x := aLine;
     decide (s.chute.active = true) && decide (2 ≤ s.chute.octets) && decide (s.chute.discard = false) && decide (s.cport.block = none) && decide (s.sdoDriven = true) && decide (s.cport.out = [x]) && decide (x.due ≤ s.day.cyc) && decide (s.maySend .chute x = false) && decide (s.outCount .chute ≠ 0)),
   (let s : State := { up with chute := { up.chute with active := true, octets := 2, discard := false }, cport := { up.cport with announced := true } }; let b : Byte := 65#8;
     decide (s.chute.active = true) && decide (2 ≤ s.chute.octets) && decide (s.chute.discard = false) && decide (s.cport.block = none) && decide (s.portHears .chute = true) && decide (s.cport.out = []) && decide (b ≠ 0xFF) && decide (s.cport.overruns b = false)),
   (let s : State := up; let p : Port := .desk; decide ((s.port p).block = none) && decide ((s.port p).out = [])),
   (let s : State := { up with dport := { up.dport with block := some ⟨4, []⟩, lines := [{ text := [], lost := ⟨false, false, false⟩ }] } }; let p : Port := .desk;
     decide ((s.port p).block = some ⟨4, []⟩) && decide ((s.port p).lines ≠ [])),
   (let s : State := { up with pwr := { up.pwr with state := .dormant } }; let p : Port := .desk; decide (s.listens (.port p) = false)),
   (let s : State := up; let p : Port := .desk; let text : List Byte := charOctets ['#']; let lost : LostMarks := ⟨false, false, false⟩;
     decide (s.listens (.port p) = true) && decide (isBad (lexLine (s.lineMode p) text lost))),
   (let s : State := up; let p : Port := .desk; let text : List Byte := charOctets "XYZZY".toList; let lost : LostMarks := ⟨false, false, false⟩;
     let x := lexedGood (lexLine (s.lineMode p) text lost); decide (s.listens (.port p) = true) &&
     decide (isGood (lexLine (s.lineMode p) text lost)) && decide (verbNamed x.verb = none)),
   (let s : State := framedUp; let p : Port := .desk; let text : List Byte := []; let lost : LostMarks := ⟨false, false, false⟩;
     decide (s.listens (.port p) = true) && decide (s.framed p = true) && decide (isEmptyLine (lexLine (s.lineMode p) text lost))),
   (let s : State := { up with dport := { up.dport with out := [aLine] }, pwr := { up.pwr with vddioOk := false } };
     let p : Port := .desk; let x := aLine; decide ((s.port p).out = [x]) && decide (s.maySend p x = false)),
   (let s : State := { up with dport := { up.dport with out := [aLine], sending := some [] } };
     let p : Port := .desk; let x := aLine; decide ((s.port p).out = [x]) && decide (s.maySend p x = true))
   ] : List Bool).all (fun b => b) = true := by decide

/-- States and operands that meet the hypotheses of each clause of `Obligations.MeasurementsTakeEffect`. -/
theorem test_witness_measurements_take_effect : ([
   (let s : State := up; decide (s.pwr.measBusy = false)),
   (let s : State := { up with pwr := { up.pwr with measBusy := true, measHp := true } }; let vbat : Nat := 1800; let vddpa : Nat := 3299;
     decide (s.pwr.measBusy = true) && decide (1800 ≤ vbat) && decide (vbat < fld s.cfg.sys.vbatWarn 15 0) && decide (s.pwr.measHp = true) && decide (vddpa < 3300) && decide (s.quiet = false)),
   (let x : Ticket := { aTicket with st := .running }; let s : State := withTicket { up with pwr := { up.pwr with measBusy := true } } x;
     decide (s.pwr.measBusy = true) && decide (s.running .pwr = some x) && decide (x.live = true) && decide (s.ticket? x.n = some x))
   ] : List Bool).all (fun b => b) = true := by decide

/-- States and operands that meet the hypotheses of each clause of `Obligations.QueueHeadsAdvance`. -/
theorem test_witness_queue_heads_advance : ([
   (let s : State := up; let q : Queue := Queue.pwr; decide (s.head q = none)),
   (let s : State := up; let q : Queue := Queue.pwr; decide (s.head q = none)),
   (let s : State := withTicket ({ up with pwr := { up.pwr with state := .dormant } }) aTicket;
     let q : Queue := Queue.pwr; let x : Ticket := aTicket; decide (s.head q = some x) && decide (s.awake = false)),
   (let s : State := withTicket ({ up with pwr := { up.pwr with state := .dormant } }) aTicket;
     let q : Queue := Queue.pwr; let x : Ticket := aTicket; decide (s.head q = some x) && decide (s.awake = false)),
   (let s : State := withTicket (up) ({ n := 511, queue := .pwr, owner := .host .desk, op := .pwrMeasure, st := .running } : Ticket);
     let q : Queue := Queue.pwr;
     let x : Ticket := ({ n := 511, queue := .pwr, owner := .host .desk, op := .pwrMeasure, st := .running } : Ticket);
     decide (s.head q = some x) && decide (x.unstarted = false)),
   (let s : State := withTicket (up) ({ n := 511, queue := .pwr, owner := .host .desk, op := .pwrMeasure, startAt := some 9, st := .waiting, timed := true } : Ticket);
     let q : Queue := Queue.pwr;
     let x : Ticket := ({ n := 511, queue := .pwr, owner := .host .desk, op := .pwrMeasure, startAt := some 9, st := .waiting, timed := true } : Ticket);
     decide (s.head q = some x) && decide (x.timed = true)),
   (let s : State := withTicket (up) ({ n := 511, queue := .pwr, owner := .host .desk, op := .pwrMeasure, due := some 0 } : Ticket);
     let q : Queue := Queue.pwr;
     let x : Ticket := ({ n := 511, queue := .pwr, owner := .host .desk, op := .pwrMeasure, due := some 0 } : Ticket);
     decide (s.head q = some x) && decide (s.awake = true) && decide (x.unstarted = true)
     && decide (s.ticket? x.n = some x) && decide (s.isOverdue x = true)),
   (let s : State := behind (.running) (none); let q : Queue := Queue.pwr;
     let x : Ticket := ({ n := 511, queue := .pwr, owner := .host .desk, op := .pwrMeasure, after := some 7 } : Ticket);
     let m := 7; decide (s.head q = some x) && decide (s.awake = true) && decide (x.unstarted = true)
     && decide (s.ticket? x.n = some x) && decide (s.isOverdue x = false) && decide (x.after = some m)
     && decide (s.awaited x m = none)),
   (let s : State := behind (.complete) (some .fail); let q : Queue := Queue.pwr;
     let x : Ticket := ({ n := 511, queue := .pwr, owner := .host .desk, op := .pwrMeasure, after := some 7 } : Ticket);
     let m := 7; let r := some Result.fail; decide (s.head q = some x) && decide (s.awake = true)
     && decide (x.unstarted = true) && decide (s.ticket? x.n = some x) && decide (s.isOverdue x = false)
     && decide (x.after = some m) && decide (s.awaited x m = some r) && decide (r ≠ some .done)),
   (let s : State := withTicket (up) ({ n := 511, queue := .pwr, owner := .host .desk, op := .pwrMeasure, guard := some (.pwr, 65535) } : Ticket);
     let q : Queue := Queue.pwr;
     let x : Ticket := ({ n := 511, queue := .pwr, owner := .host .desk, op := .pwrMeasure, guard := some (.pwr, 65535) } : Ticket);
     let u := EdUnit.pwr; let e := 65535; decide (s.head q = some x) && decide (s.awake = true)
     && decide (x.unstarted = true) && decide (s.ticket? x.n = some x) && decide (s.isOverdue x = false)
     && decide (x.after = none) && decide (x.guard = some (u, e)) && decide ((s.edition u).toNat ≠ e)),
   (let s : State := withTicket (up) ({ n := 511, queue := .noise, owner := .host .desk, op := .rawOff } : Ticket);
     let q : Queue := Queue.noise;
     let x : Ticket := ({ n := 511, queue := .noise, owner := .host .desk, op := .rawOff } : Ticket); let u := "NOISE";
     let y := "STARTUP"; decide (s.head q = some x) && decide (s.awake = true) && decide (x.unstarted = true)
     && decide (s.ticket? x.n = some x) && decide (s.isOverdue x = false) && decide (x.after = none)
     && decide (x.guard = none) && decide (s.startForbid x.op = some (u, y))),
   (let s : State := withTicket (up) ({ n := 511, queue := .pwr, owner := .host .desk, op := .pwrMeasure, startAt := some 9 } : Ticket);
     let q : Queue := Queue.pwr;
     let x : Ticket := ({ n := 511, queue := .pwr, owner := .host .desk, op := .pwrMeasure, startAt := some 9 } : Ticket);
     decide (s.head q = some x) && decide (s.awake = true) && decide (x.unstarted = true)
     && decide (s.ticket? x.n = some x) && decide (s.isOverdue x = false) && decide (x.after = none)
     && decide (x.guard = none) && decide (s.startForbid x.op = none) && decide (x.timed = false) && decide (x.startAt = some 9 ∧ (s.headed x).now < 9)),
   (let s : State := queued; let q : Queue := Queue.pwr; let x : Ticket := aTicket; decide (s.head q = some x)
     && decide (s.awake = true) && decide (x.unstarted = true) && decide (s.ticket? x.n = some x)
     && decide (s.isOverdue x = false) && decide (x.after = none) && decide (x.guard = none)
     && decide (s.startForbid x.op = none) && decide (x.startAt = none) && decide (x.timed = false)),
   (let s : State := withTicket ({ up with day := { up.day with now := 5 } }) ({ n := 511, queue := .ledger, owner := .host .desk, op := .tariffSched 0 5, startAt := some 5, st := .waiting, timed := true } : Ticket);
     let q : Queue := Queue.ledger;
     let x : Ticket := ({ n := 511, queue := .ledger, owner := .host .desk, op := .tariffSched 0 5, startAt := some 5, st := .waiting, timed := true } : Ticket);
     let v := 5; decide (s.head q = some x) && decide (s.awake = true) && decide (s.timedDue x = true)
     && decide (x.startAt = some v) && decide (v ≤ (s.headed x).now) && decide (s.isOverdue x = false) && decide (x.guard = none)
     && decide (s.dueList = [(v, 3, x.n)]) && decide (s.ticket? x.n = some x)
     && decide (s.startForbid x.op = none)),
   (let s : State := queued; let q : Queue := Queue.pwr; let x : Ticket := aTicket; decide (s.head q = some x)
     && decide (s.timedDue x = false)),
   (let s : State := up; let x : Ticket := aTicket; decide (s.ticket? x.n = none)),
   (let s : State := withTicket (up) ({ n := 511, queue := .pwr, owner := .host .desk, op := .pwrMeasure, due := some 0 } : Ticket);
     let x : Ticket := ({ n := 511, queue := .pwr, owner := .host .desk, op := .pwrMeasure, due := some 0 } : Ticket);
     decide (s.ticket? x.n = some x) && decide (s.awake = true) && decide (s.isOverdue x = true)),
   (let s : State := queued; let x : Ticket := aTicket; decide (s.ticket? x.n = some x) && decide (s.isOverdue x = false))
   ] : List Bool).all (fun b => b) = true := by decide

/-- States and operands that meet the hypotheses of each clause of `Obligations.EventLinesTakeEffect`. -/
theorem test_witness_event_lines_take_effect : ([
   (let s : State := up; decide (s.events.deferred = [])),
   (let s : State := { up with events := { up.events with deferred := [.chuteOut] } }; let ds := ([] : List Deferred);
     decide (s.events.deferred = .chuteOut :: ds)),
   (let s : State := { up with events := { up.events with deferred := [.lineDropped .desk 100] } }; let p := Port.desk;
     let n := 100; let ds := ([] : List Deferred); decide (s.events.deferred = .lineDropped p n :: ds))
   ] : List Bool).all (fun b => b) = true := by decide

/-- States and operands that meet the hypotheses of each clause of `Obligations.EntryPassesToDormant`. -/
theorem test_witness_entry_passes_to_dormant : ([
   (let s : State := up;
     let due := s.inRun && decide (s.pwr.state = .entryWait) && !s.pwr.measBusy && (s.pwr.attemptDue || (s.pwr.armed && s.orders.run.isNone));
     decide (due = false)),
   (let s : State := { keyed with pwr := { keyed.pwr with state := .entryWait, attemptDue := true } };
     let due := s.inRun && decide (s.pwr.state = .entryWait) && !s.pwr.measBusy && (s.pwr.attemptDue || (s.pwr.armed && s.orders.run.isNone));
     decide (due = true) && decide (s.refusers.any id = false)),
   (let s : State := { up with pwr := { up.pwr with state := .entryWait, attemptDue := true }, radio := { up.radio with st := .receive }, ssw := { up.ssw with st := .ramp } };
     let due := s.inRun && decide (s.pwr.state = .entryWait) && !s.pwr.measBusy && (s.pwr.attemptDue || (s.pwr.armed && s.orders.run.isNone));
     decide (due = true) && decide (s.refusers.any id = true)),
   (let s : State := { keyed with day := { keyed.day with keeperOk := true, cyc := 10 ^ 9 * tickMs }, cfg := { keyed.cfg with sys := { up.cfg.sys with dorm := 0x1B1 } } };
     decide (s.inRun = true) && decide (s.pwr.state = .run) && decide (bit s.cfg.sys.dorm 0 = true)
     && decide (s.day.keeperOk = true) && decide (s.pwr.measBusy = false) && decide (s.refusers.any id = false)
     && decide (s.tickets.pool = []) && decide (s.pwr.idleSince + fld s.cfg.sys.dorm 31 16 * tickMs ≤ s.day.cyc)),
   (let s : State := up;
     decide (s.inRun = false ∨ bit s.cfg.sys.dorm 0 = false ∨ s.refusers.any id = true ∨ s.day.cyc < s.pwr.idleSince + fld s.cfg.sys.dorm 31 16 * tickMs)),
   (let s : State := { up with pwr := { up.pwr with state := .entry false true } };
     decide (s.pwr.state = .entry false true)),
   (let s : State := { up with pwr := { up.pwr with state := .entry false false } };
     decide (s.pwr.state = .entry false false)),
   (let s : State := { up with pwr := { up.pwr with state := .entry true false } }; let q : Bool := false;
     decide (s.pwr.state = .entry true q)),
   (let s : State := up; decide (s.pwr.state = .run)),
   (let s : State := up; decide (s.pwr.state = .run))
   ] : List Bool).all (fun b => b) = true := by decide

/-- States and operands that meet the hypotheses of each clause of `Obligations.WakesPassToRun`. -/
theorem test_witness_wakes_pass_to_run : ([
   (let s : State := { up with pwr := { up.pwr with state := .dormant } }; let src : WakeSource := WakeSource.radio;
     let level : Bool := false; decide (src ≠ .wakeIn) && decide (s.sourceOn src level = false)),
   (let s : State := { up with pwr := { up.pwr with state := .dormant } }; let src : WakeSource := WakeSource.deskRx;
     let level : Bool := false; decide (src ≠ .wakeIn) && decide (s.sourceOn src level = true)
     && decide (s.pwr.state = .dormant)),
   (let s : State := { up with pwr := { up.pwr with state := .entry false false } };
     let src : WakeSource := WakeSource.deskRx; let level : Bool := false; decide (src ≠ .wakeIn)
     && decide (s.sourceOn src level = true)
     && decide (s.pwr.state = .entry true false ∨ s.pwr.state = .entry false false)),
   (let s : State := { up with pwr := { up.pwr with state := .wake 2 false } }; let src : WakeSource := WakeSource.deskRx;
     let level : Bool := false; let n := 2; decide (src ≠ .wakeIn) && decide (s.sourceOn src level = true)
     && decide (s.pwr.state = .wake n false) && decide (n ≠ 3)),
   (let s : State := { kin with pwr := { kin.pwr with state := .dormant }, cfg := { kin.cfg with link := { kin.cfg.link with sniffEvery := 60000 } }, day := { kin.day with lastUpdate := some 0 } };
     decide (s.pwr.state = .dormant) && decide (s.nextListen.isSome = true)),
   (let s : State := up; decide (s.pwr.state ≠ .dormant)),
   (let s : State := { up with pwr := { up.pwr with state := .wake 0 false } }; let q : Bool := false;
     decide (s.pwr.state = .wake 0 q)),
   (let s : State := { up with pwr := { up.pwr with state := .wake 0 false } }; let q : Bool := false;
     decide (s.pwr.state = .wake 0 q) && decide (s.holding = false)),
   (let s : State := { up with pwr := { up.pwr with state := .wake 0 false } }; let q : Bool := false;
     decide (s.pwr.state = .wake 0 q) && decide (s.holding = false)),
   (let s : State := { up with pwr := { up.pwr with state := .wake 1 false } }; let q : Bool := false;
     decide (s.pwr.state = .wake 1 q)),
   (let s : State := { up with pwr := { up.pwr with state := .wake 1 false } }; let q : Bool := false;
     decide (s.pwr.state = .wake 1 q) && decide (s.holding = false)),
   (let s : State := { up with pwr := { up.pwr with state := .wake 2 false } }; let q : Bool := false;
     decide (s.pwr.state = .wake 2 q) && decide (s.pwr.resumed = false)),
   (let s : State := { up with pwr := { up.pwr with state := .wake 2 false } }; let q : Bool := false;
     decide (s.pwr.state = .wake 2 q) && decide (s.holding = false)),
   (let s : State := { up with pwr := { up.pwr with state := .wake 2 false } }; let q : Bool := false;
     decide (s.pwr.state = .wake 2 q) && decide (s.holding = false)),
   (let s : State := { up with pwr := { up.pwr with state := .wake 2 false } }; decide (s.pwr.state = .wake 2 false)),
   (let s : State := { up with pwr := { up.pwr with state := .wake 2 true } }; let temp : Int := (100 : Int);
     decide (s.pwr.state = .wake 2 true) && decide ((s.resumeDay temp).dueList = [])),
   (let s : State := { up with pwr := { up.pwr with state := .wake 3 false } }; decide (s.pwr.state = .wake 3 false)
     && decide (s.portPresent .desk = true)),
   (let s : State := up; decide (s.pwr.state ≠ .wake 3 false)),
   (let s : State := { up with pwr := { up.pwr with state := .wake 3 true }, radio := { up.radio with sniff := some {} } };
     decide (s.radio.sniff.isSome = true)),
   (let s : State := up; decide (s.radio.sniff = none))
   ] : List Bool).all (fun b => b) = true := by decide

/-- States and operands that meet the hypotheses of each clause of `Obligations.DaybookEventsTakeEffect`. -/
theorem test_witness_daybook_events_take_effect : ([
   (let s : State := State.reset; decide (s.sys.hold = .por)),
   (let s : State := { up with pwr := { up.pwr with state := .dormant } }; decide (s.sys.hold ≠ .por)
     && decide (s.counting = false)),
   (let s : State := up; decide (s.sys.hold ≠ .por) && decide (s.counting = true) && decide (s.inBoot = false)),
   (let s : State := { up with sys := { up.sys with stage := .record } }; decide (s.sys.hold ≠ .por) && decide (s.counting = true)
     && decide (s.inBoot = true)),
   (let s : State := up; decide (s.day.slew = 0 ∨ s.awake = false)),
   (let s : State := { up with day := { up.day with slew := -1, cyc := 1 } }; decide (s.day.slew ≠ 0) && decide (s.awake = true)
     && decide (s.day.cyc % 1024 ≠ 0)),
   (let s : State := { up with day := { up.day with slew := -1, cyc := 2048 } }; decide (s.day.slew ≠ 0) && decide (s.awake = true)
     && decide (s.day.cyc % 1024 = 0)),
   (let s : State := up; decide (s.day.keeperOk = true ∨ s.day.goodPeriods < 256)),
   (let s : State := { up with day := { up.day with goodPeriods := 256 } }; decide (s.day.keeperOk = false)
     && decide (256 ≤ s.day.goodPeriods)),
   (let s : State := { up with pwr := { up.pwr with state := .dormant } }; decide (s.keeperWatched = false)),
   (let s : State := { up with pwr := { up.pwr with state := .dormant } }; decide (s.keeperWatched = false)),
   (let s : State := up; decide (s.keeperWatched = true)),
   (let s : State := up; decide ((s.day.window && s.inRun) = false)),
   (let s : State := { up with day := { up.day with window := true, keeperOk := true, tempWake := 100 } };
     let temp : Int := (104 : Int); decide ((s.day.window && s.inRun) = true)
     && decide (s.day.keeperOk = false ∨ 4 ≤ (temp - s.day.tempWake).natAbs)),
   (let s : State := { up with day := { up.day with window := true, windowOk := true, keeperOk := true, tempWake := 100 } };
     let ticks : Nat := 384375; let temp : Int := (100 : Int);
     let v := roundAway (100000000 * (384375 - (ticks : Int))) (max ticks 1 : Nat);
     let b := binOf ((temp + s.day.tempWake) / 2); decide ((s.day.window && s.inRun) = true)
     && decide (s.day.keeperOk = true) && decide (s.day.windowOk = true) && decide ((temp - s.day.tempWake).natAbs < 4) && decide (-32768 ≤ v)
     && decide (v ≤ 32767) && decide ((s.bin b).conf = 0)),
   (let s : State := up; let a : Fin 4 := (3 : Fin 4); decide ((s.awake && s.alarmDue a.val) = false)),
   (let s : State := alarmed; let a : Fin 4 := (3 : Fin 4); decide ((s.awake && s.alarmDue a.val) = true)
     && decide (s.dueList = [((s.alarm a.val).at_.toNat, 0, a.val)]) && decide ((s.alarm a.val).every = 0)),
   (let s : State := { up with day := { up.day with alarms := vset up.day.alarms 3 { st := .armed } } }; let a : Fin 4 := (3 : Fin 4);
     decide ((s.awake && s.alarmDue a.val) = true)
     && decide (s.dueList = [((s.alarm a.val).at_.toNat, 0, a.val)]) && decide ((s.alarm a.val).order = none))
   ] : List Bool).all (fun b => b) = true := by decide

/-- States and operands that meet the hypotheses of each clause of `Obligations.TransmissionsPassTheirPhases`. -/
theorem test_witness_transmissions_pass_their_phases : ([
   (let s : State := up; decide ((s.onAir && s.radio.tuning) = false)),
   (let s : State := up; decide ((s.onAir && s.radio.tuning) = false)),
   (let s : State := { up with radio := { up.radio with tx := some ({ kind := .frame, plan := 0, chan := 0, air := 1 } : Tx), st := .transmit, locked := true, tuning := true } };
     let x : Tx := ({ kind := .frame, plan := 0, chan := 0, air := 1 } : Tx); decide ((s.onAir && s.radio.tuning) = true)
     && decide (s.radio.tx = some x)),
   (let s : State := { up with radio := { up.radio with tuning := true } }; decide ((s.onAir && s.radio.tuning) = true)
     && decide (s.radio.tx = none)),
   (let s : State := { up with radio := { up.radio with tuning := true } }; decide ((s.onAir && s.radio.tuning) = true)),
   (let s : State := { up with radio := { up.radio with locked := true, st := .listen } }; decide (s.onAir = true)
     && decide (s.radio.locked = true) && decide (s.radio.st ≠ .idle)),
   (let s : State := up; decide (s.radio.locked = false)),
   (let s : State := up; decide (s.radio.tx = none)),
   (let s : State := { up with radio := { up.radio with tx := some ({ kind := .frame, plan := 0, chan := 0, air := 1, phase := .lead } : Tx), st := .transmit, locked := true }, cfg := { up.cfg with radio := { up.cfg.radio with txConfig := 0x200A } } };
     let x : Tx := ({ kind := .frame, plan := 0, chan := 0, air := 1, phase := .lead } : Tx); decide (s.radio.tx = some x)
     && decide (x.phase = .lead) && decide (bit s.cfg.radio.txConfig 13 = true)),
   (let s : State := { up with radio := { up.radio with tx := some ({ kind := .frame, plan := 0, chan := 0, air := 1, phase := .lead } : Tx), st := .transmit, locked := true } };
     let x : Tx := ({ kind := .frame, plan := 0, chan := 0, air := 1, phase := .lead } : Tx); decide (s.radio.tx = some x)
     && decide (x.phase = .lead) && decide (bit s.cfg.radio.txConfig 13 = false)),
   (let s : State := { up with radio := { up.radio with tx := some ({ kind := .frame, plan := 0, chan := 0, air := 1, phase := .lead } : Tx), st := .transmit, locked := true } };
     let x : Tx := ({ kind := .frame, plan := 0, chan := 0, air := 1, phase := .lead } : Tx); decide (s.radio.tx = some x)
     && decide (x.phase = .lead)),
   (let s : State := { up with radio := { up.radio with tx := some ({ kind := .frame, plan := 0, chan := 0, air := 1, phase := .lead, turn := true } : Tx), st := .transmit, locked := true } };
     let x : Tx := ({ kind := .frame, plan := 0, chan := 0, air := 1, phase := .lead, turn := true } : Tx);
     decide (s.radio.tx = some x) && decide (x.phase = .lead) && decide (x.turn = true ∨ s.keyWaits = true)),
   (let s : State := { up with radio := { up.radio with tx := some ({ kind := .frame, plan := 0, chan := 0, air := 1, phase := .lead } : Tx), st := .transmit, locked := true } };
     let x : Tx := ({ kind := .frame, plan := 0, chan := 0, air := 1, phase := .lead } : Tx); let c := Instr.keying;
     decide (s.radio.tx = some x) && decide (x.phase = .lead) && decide (s.keyWaits = false)
     && decide (c = .keying ∧ x.turn = false)),
   (let s : State := { up with radio := { up.radio with tx := some ({ kind := .held 3, plan := 0, chan := 0, air := 1, phase := .lead, turn := true } : Tx), st := .transmit, locked := true } };
     let x : Tx := ({ kind := .held 3, plan := 0, chan := 0, air := 1, phase := .lead, turn := true } : Tx);
     decide (s.radio.tx = some x) && decide (x.phase = .lead) && decide (s.journalBusy = false) && decide (x.kind = .held 3)),
   (let s : State := { up with radio := { up.radio with tx := some ({ kind := .ack true, plan := 0, chan := 0, air := 1, phase := .lead, turn := true } : Tx), st := .transmit, locked := true } };
     let x : Tx := ({ kind := .ack true, plan := 0, chan := 0, air := 1, phase := .lead, turn := true } : Tx);
     decide (s.radio.tx = some x) && decide (x.phase = .lead) && decide (s.journalBusy = false) && decide (x.kind = .ack true)),
   ([TxPhase.rampUp, .symbols, .rampDown].all fun ph =>
     let x : Tx := { kind := .frame, plan := 0, chan := 0, air := 1, phase := ph };
     let s : State := { up with radio := { up.radio with tx := some x, st := .transmit, locked := true } };
     decide (s.onAir = true) && decide (s.radio.locked = true) && decide (s.radio.st ≠ .idle) && decide (s.radio.tx = some x)
     && decide (x.phase = .rampUp ∨ x.phase = .symbols ∨ x.phase = .rampDown)),
   (let s : State := { up with radio := { up.radio with tx := some ({ kind := .frame, plan := 0, chan := 0, air := 1, phase := .rampUp } : Tx), st := .transmit, locked := true } };
     let x : Tx := ({ kind := .frame, plan := 0, chan := 0, air := 1, phase := .rampUp } : Tx);
     decide (s.radio.tx = some x) && decide (x.phase = .rampUp)),
   (let s : State := { up with radio := { up.radio with tx := some ({ kind := .frame, plan := 0, chan := 0, air := 1, phase := .symbols } : Tx), st := .transmit, locked := true } };
     let x : Tx := ({ kind := .frame, plan := 0, chan := 0, air := 1, phase := .symbols } : Tx);
     decide (s.radio.tx = some x) && decide (x.phase = .symbols)),
   (let s : State := withTicket ({ up with radio := { up.radio with tx := some ({ kind := .cw, plan := 0, chan := 0, air := 1, phase := .rampDown } : Tx), st := .transmit, locked := true }, link := { up.link with op := some ({ ticket := 511, kind := .cw } : LinkOp) } }) ({ n := 511, queue := .radio, owner := .host .desk, op := .txCw 1, st := .running } : Ticket);
     let x : Tx := ({ kind := .cw, plan := 0, chan := 0, air := 1, phase := .rampDown } : Tx);
     let o := ({ ticket := 511, kind := .cw } : LinkOp);
     let y := ({ n := 511, queue := .radio, owner := .host .desk, op := .txCw 1, st := .running } : Ticket);
     decide (s.radio.tx = some x) && decide (x.phase = .rampDown) && decide (x.kind = .cw) && decide (x.cut = false)
     && decide (s.link.op = some o) && decide (s.ticket? o.ticket = some y) && decide (y.n = o.ticket)
     && decide (y.live = true) && decide (o.kind = .cw)),
   (let s : State := { up with radio := { up.radio with tx := some ({ kind := .frame, plan := 0, chan := 0, air := 1, phase := .lead } : Tx), st := .transmit, locked := true } };
     let x : Tx := ({ kind := .frame, plan := 0, chan := 0, air := 1, phase := .lead } : Tx); decide (s.radio.tx = some x)
     && decide (x.phase ≠ .rampDown)),
   (let s : State := up; decide (s.radio.antLag = false)),
   (let s : State := { up with radio := { up.radio with antLag := true } }; decide (s.radio.antLag = true)
     && decide (s.radio.st ≠ .transmit))
   ] : List Bool).all (fun b => b) = true := by decide

/-- States and operands that meet the hypotheses of each clause of `Obligations.ReceiverEventsTakeEffect`. -/
theorem test_witness_receiver_events_take_effect : ([
   (let s : State := up; decide ((s.receiving && decide (s.radio.st = .listen)) = false)),
   (let s : State := up; decide ((s.receiving && decide (s.radio.st = .listen)) = false)),
   (let s : State := up; decide ((s.receiving && decide (s.radio.st = .listen)) = false)),
   (let s : State := up; decide ((s.receiving && decide (s.radio.st = .listen)) = false)),
   (let s : State := { up with radio := { up.radio with st := .listen, locked := true } };
     decide ((s.receiving && decide (s.radio.st = .listen)) = true)),
   (let s : State := { up with radio := { up.radio with st := .listen, locked := true } };
     let offset : Int := (-3000 : Int); decide ((s.receiving && decide (s.radio.st = .listen)) = true)
     && decide (s.radio.afcOnce = false) && decide (3000 ≤ offset.natAbs)),
   (let s : State := { up with radio := { up.radio with st := .listen, locked := true } };
     let offset : Int := (2999 : Int); decide ((s.receiving && decide (s.radio.st = .listen)) = true)
     && decide (s.radio.afcOnce = true ∨ offset.natAbs < 3000)),
   (let s : State := { up with radio := { up.radio with st := .listen, locked := true }, cfg := { up.cfg with radio := { up.cfg.radio with ccaConfig := 0x13880000 } } };
     let chan : Nat := 0; decide ((s.receiving && decide (s.radio.st = .listen)) = true) && decide (chan = s.radio.chan)
     && decide (s.ccaMode = 0)),
   (let s : State := { up with radio := { up.radio with st := .listen, locked := true } }; let chan : Nat := 1;
     decide ((s.receiving && decide (s.radio.st = .listen)) = true) && decide (chan ≠ s.radio.chan)
     && decide ((s.inRun && s.searches chan && s.census.hop) = false)),
   (let s : State := { up with radio := { up.radio with st := .listen, locked := true, spanTuned := true, chan := 1 }, cfg := { up.cfg with census := { up.cfg.census with config := 0x80010000 }, radio := { up.cfg.radio with chan := 0 } }, census := { up.census with hop := true } };
     let chan : Nat := 15; decide ((s.receiving && decide (s.radio.st = .listen)) = true) && decide (chan ≠ s.radio.chan)
     && decide (s.inRun = true) && decide (s.searches chan = true) && decide (s.census.hop = true) && decide (s.ccaNow = .none)
     && decide (s.radio.ownSeen = none) && decide (s.radio.handed = none)),
   (let s : State := { up with radio := { up.radio with st := .listen, locked := true } }; let chan : Nat := 0;
     decide ((s.receiving && decide (s.radio.st = .listen)) = true) && decide (s.profile.wakes = true)
     && decide (s.wakeMatch (BitVec.ofNat 32 wakeWord) = true) && decide (chan = s.radio.chan ∨ s.searches chan = true)
     && decide (s.quiet = false)),
   (let s : State := { up with radio := { up.radio with st := .listen, locked := true, sniff := some {} }, pwr := { up.pwr with state := .wake 3 true } };
     let chan : Nat := 0; decide ((s.receiving && decide (s.radio.st = .listen)) = true) && decide (s.profile.wakes = true)
     && decide (s.wakeMatch ((BitVec.ofNat 32 wakeWord).rotateLeft 5) = true) && decide (chan = s.radio.chan)
     && decide (s.radio.sniff.isSome = true)),
   (let s : State := { up with pwr := { up.pwr with state := .entry false true } };
     decide ((s.receiving && decide (s.radio.st = .listen)) = false) && decide (s.returning = true) && decide (s.profile.wakes = true)
     && decide (s.wakeMatch (BitVec.ofNat 32 wakeWord) = true)),
   (let s : State := up; decide ((s.receiving && decide (s.radio.st = .listen)) = false) && decide (s.returning = false)),
   (let s : State := up; decide (s.wakeMatch 0#32 = false)),
   (let s : State := up; decide (s.receiving = false) && decide ((s.inRun && decide (s.radio.st = .trim)) = false)),
   (let s : State := { up with radio := { up.radio with st := .listen, locked := true } }; decide (s.receiving = true)
     && decide (s.ccaNow = .none) && decide (s.holder = none)),
   (let s : State := { up with radio := { up.radio with st := .trim } }; decide (s.inRun = true)
     && decide (s.radio.st = .trim) && decide (s.trim.run = none)),
   (let s : State := up; decide (s.listenerOf .rx = none)),
   (let s : State := withTicket ({ up with radio := { up.radio with st := .listen, locked := true, listeners := [({ kind := .rx, ticket := 511, plan := 0, chan := 0, endAt := some 0 } : Listener)] } }) ({ n := 511, queue := .radio, owner := .host .desk, op := .rx (some 1) 0 0, st := .running } : Ticket);
     let x : Listener := ({ kind := .rx, ticket := 511, plan := 0, chan := 0, endAt := some 0 } : Listener);
     let y : Ticket := ({ n := 511, queue := .radio, owner := .host .desk, op := .rx (some 1) 0 0, st := .running } : Ticket);
     decide (s.listenerOf .rx = some x) && decide (s.inRun = true) && decide (s.durationOver x = true)
     && decide (s.radio.rx = none) && decide (s.ticket? x.ticket = some y) && decide (y.n = x.ticket)
     && decide (y.live = true)),
   (let s : State := up; decide (s.listenerOf .scan = none)),
   (let s : State := withTicket ({ up with radio := { up.radio with st := .listen, locked := true, listeners := [({ kind := .scan, ticket := 511, plan := 0, chan := 0, endAt := some 0 } : Listener)] } }) ({ n := 511, queue := .radio, owner := .host .desk, op := .censusScan 1, st := .running } : Ticket);
     let x : Listener := ({ kind := .scan, ticket := 511, plan := 0, chan := 0, endAt := some 0 } : Listener);
     let y : Ticket := ({ n := 511, queue := .radio, owner := .host .desk, op := .censusScan 1, st := .running } : Ticket);
     decide (s.listenerOf .scan = some x) && decide (s.inRun = true) && decide (s.durationOver x = true) && decide (s.radio.rx = none)
     && decide (s.ticket? x.ticket = some y) && decide (y.n = x.ticket) && decide (y.live = true)),
   ([ListenKind.rx, .scan].all fun k =>
     let x : Listener := { kind := k, ticket := 511, plan := 0, chan := 0, endAt := some 10 };
     let s : State := { up with radio := { up.radio with st := .listen, locked := true, listeners := [x] } };
     decide (s.listenerOf k = some x) && decide (s.durationOver x = false)),
   (let s : State := up; decide (s.receiving = false)),
   (let s : State := { up with radio := { up.radio with st := .listen, locked := true, spanTuned := true }, cfg := { up.cfg with census := { up.cfg.census with config := 0x80010000 }, radio := { up.cfg.radio with chan := 0 } }, census := { up.census with held := false } };
     let readings : List Int := (List.replicate 16 (-100) : List Int); decide (s.receiving = true)
     && decide (s.measuring = true) && decide (readings.length = 16) && decide (s.census.stale = false)
     && decide (s.radio.sniff = none)),
   (let s : State := up; decide (s.inRun = false ∨ s.ccaNow = .none)),
   (let s : State := { up with radio := { up.radio with st := .listen, locked := true }, link := { up.link with op := some ({ ticket := 511, kind := .send, phase := .cca, cca := { since := some 0 } } : LinkOp) } };
     let o := ({ ticket := 511, kind := .send, phase := .cca, cca := { since := some 0 } } : LinkOp); let c := 0;
     decide (s.inRun = true) && decide (s.ccaNow = .op o c)),
   (let s : State := withTicket ({ up with radio := { up.radio with st := .listen, locked := true, listeners := [({ kind := .check, ticket := 511, plan := 0, chan := 0, cca := { since := some 0 } } : Listener)] } }) ({ n := 511, queue := .radio, owner := .host .desk, op := .ccaCheck 0 0, st := .running } : Ticket);
     let x : Listener := ({ kind := .check, ticket := 511, plan := 0, chan := 0, cca := { since := some 0 } } : Listener);
     let y : Ticket := ({ n := 511, queue := .radio, owner := .host .desk, op := .ccaCheck 0 0, st := .running } : Ticket);
     let c := 0; decide (s.inRun = true) && decide (s.ccaNow = .check x c) && decide (s.radio.rx = none)
     && decide (x.kind = .check) && decide (s.ticket? x.ticket = some y) && decide (y.n = x.ticket)
     && decide (y.live = true)),
   (let s : State := up; decide (s.radio.handed = none)),
   (let s : State := { up with radio := { up.radio with st := .listen, locked := true, handed := some ⟨0, false, true, 0, -270⟩ } };
     decide (s.inRun = true) && decide (s.radio.handed.isSome = true) && decide (s.radio.rx = none)
     && decide (s.radio.tx = none))
   ] : List Bool).all (fun b => b) = true := by decide

/-- States and operands that meet the hypotheses of each clause of `Obligations.ReceptionsAreDecided`. -/
theorem test_witness_receptions_are_decided : ([
   (let s : State := { up with radio := { up.radio with st := .listen, locked := true } }; let bits : BitVec 32 := BitVec.ofNat 32 sfdWord;
     decide (s.syncOf bits = some ⟨.s, 0, false⟩) && decide (s.inRun = true) && decide (s.radio.locked = true)
     && decide (s.radio.st = .listen) && decide (s.radio.tx = none) && decide (s.ccaNow = .none) && decide (s.link.op = none)),
   (let s : State := { up with pwr := { up.pwr with state := .dormant } }; decide (s.inRun = false)),
   (let s : State := up; decide (s.radio.rx = none)),
   (let s : State := up; decide (s.radio.rx = none)),
   (let s : State := { up with pwr := { up.pwr with state := .dormant }, radio := { up.radio with rx := some ({ fmt := .s, plan := 0, chan := 0, handed := false } : RxNow) } };
     let n : RxNow := ({ fmt := .s, plan := 0, chan := 0, handed := false } : RxNow); decide (s.radio.rx = some n)
     && decide (s.inRun = false)),
   (let s : State := { up with radio := { up.radio with st := .receive, locked := true, rx := some ({ fmt := .d, plan := 0, chan := 0, handed := false } : RxNow) } };
     let len : Nat := 128; let n : RxNow := ({ fmt := .d, plan := 0, chan := 0, handed := false } : RxNow);
     decide (s.radio.rx = some n) && decide (s.inRun = true) && decide (n.fmt = .d) && decide (127 < len)),
   (let s : State := { up with radio := { up.radio with st := .receive, locked := true, rx := some ({ fmt := .d, plan := 0, chan := 0, handed := false } : RxNow) } };
     let len : Nat := 127; let n : RxNow := ({ fmt := .d, plan := 0, chan := 0, handed := false } : RxNow);
     decide (s.radio.rx = some n) && decide (n.fmt ≠ .d ∨ len ≤ 127)),
   (let s : State := { up with radio := { up.radio with st := .receive, locked := true, rx := some ({ fmt := .d, plan := 0, chan := 0, handed := false } : RxNow) } };
     let x : RxFrame := ({ octets := dewhiten [128#8, 0#8, 0#8], rssi := -100, snr := 0 } : RxFrame);
     let n : RxNow := ({ fmt := .d, plan := 0, chan := 0, handed := false } : RxNow); decide (s.radio.rx = some n)
     && decide (s.inRun = true) && decide (parseFrame x n = .header)),
   (let s : State := { up with radio := { up.radio with st := .receive, locked := true, rx := some ({ fmt := .s, plan := 0, chan := 0, handed := false } : RxNow) } };
     let x : RxFrame := ({ octets := [16#8, 4#8], rssi := -100, snr := 0 } : RxFrame);
     let n : RxNow := ({ fmt := .s, plan := 0, chan := 0, handed := false } : RxNow); decide (s.radio.rx = some n)
     && decide (s.inRun = true) && decide (parseFrame x n = .phr)),
   (let s : State := { up with radio := { up.radio with st := .receive, locked := true, rx := some ({ fmt := .s, plan := 0, chan := 0, handed := false } : RxNow) } };
     let x : RxFrame := ({ octets := (sealed [0x02#8, 0x00#8, 7#8]).dropLast, rssi := -100, snr := 0 } : RxFrame);
     let n : RxNow := ({ fmt := .s, plan := 0, chan := 0, handed := false } : RxNow); decide (s.radio.rx = some n)
     && decide (s.inRun = true) && decide (parseFrame x n = .check)),
   (let s : State := { up with radio := { up.radio with st := .receive, locked := true, rx := some ({ fmt := .s, plan := 0, chan := 0, handed := false } : RxNow) } };
     let x : RxFrame := ({ octets := (sealed [0x03#8, 0x30#8, 7#8, 0#8, 0#8]), rssi := -100, snr := 0 } : RxFrame);
     let n : RxNow := ({ fmt := .s, plan := 0, chan := 0, handed := false } : RxNow); decide (s.radio.rx = some n)
     && decide (s.inRun = true) && decide (parseFrame x n = .unsupported)),
   (let s : State := { up with radio := { up.radio with st := .receive, locked := true, rx := some ({ fmt := .s, plan := 0, chan := 0, handed := false, filter := 5 } : RxNow) } };
     let x : RxFrame := ({ octets := (sealed [0x41#8, 0xA8#8, 7#8, 0xFF#8, 0xFF#8, 1#8, 0#8, 2#8, 0#8]), rssi := -100, snr := 0 } : RxFrame);
     let n : RxNow := ({ fmt := .s, plan := 0, chan := 0, handed := false, filter := 5 } : RxNow);
     let r := (frameOf (parseFrame x n)); decide (s.radio.rx = some n) && decide (s.inRun = true)
     && decide (isFrame (parseFrame x n)) && decide (bit n.filter 16 = false) && decide (s.addrDrop n r = true)),
   (let s : State := { up with radio := { up.radio with st := .receive, locked := true, rx := some ({ fmt := .s, plan := 0, chan := 0, handed := false, filter := 0x2FFFF } : RxNow) } };
     let x : RxFrame := ({ octets := (sealed [0x41#8, 0xA8#8, 7#8, 0xFF#8, 0xFF#8, 1#8, 0#8, 2#8, 0#8]), rssi := -100, snr := 0 } : RxFrame);
     let n : RxNow := ({ fmt := .s, plan := 0, chan := 0, handed := false, filter := 0x2FFFF } : RxNow);
     decide (s.radio.rx = some n) && decide (s.inRun = true) && decide (isFrame (parseFrame x n))),
   (let s : State := { up with radio := { up.radio with st := .receive, locked := true, rx := some ({ fmt := .s, plan := 0, chan := 0, handed := false } : RxNow) } };
     let x : RxFrame := ({ octets := (sealed [0x02#8, 0x00#8, 7#8]), rssi := -100, snr := 0 } : RxFrame);
     let n : RxNow := ({ fmt := .s, plan := 0, chan := 0, handed := false } : RxNow); decide (s.radio.rx = some n)
     && decide (s.inRun = true) && decide (isAckFrame (parseFrame x n)))
   ] : List Bool).all (fun b => b) = true := by decide

/-- States and operands that meet the hypotheses of each clause of `Obligations.LinkEventsTakeEffect`. -/
theorem test_witness_link_events_take_effect : ([
   (let s : State := { up with pwr := { up.pwr with state := .dormant } }; decide (s.inRun = false)),
   (let s : State := withTicket ({ up with link := { up.link with op := some ({ ticket := 511, kind := .send, phase := .ackWait } : LinkOp) }, radio := { up.radio with rx := some ({ fmt := .s, plan := 0, chan := 0, handed := false } : RxNow) } }) ({ n := 511, queue := .link, owner := .host .desk, op := .leave true, st := .running } : Ticket);
     let o : LinkOp := ({ ticket := 511, kind := .send, phase := .ackWait } : LinkOp); decide (s.inRun = true)
     && decide (s.link.op = some o) && decide (o.phase = .ackWait) && decide (s.radio.rx.isSome = true)),
   (let s : State := withTicket ({ up with link := { up.link with op := some ({ ticket := 511, kind := .send, phase := .ackWait, retries := 3 } : LinkOp) } }) ({ n := 511, queue := .link, owner := .host .desk, op := .leave true, st := .running } : Ticket);
     let o : LinkOp := ({ ticket := 511, kind := .send, phase := .ackWait, retries := 3 } : LinkOp);
     let y : Ticket := ({ n := 511, queue := .link, owner := .host .desk, op := .leave true, st := .running } : Ticket);
     decide (s.inRun = true) && decide (s.link.op = some o) && decide (o.phase = .ackWait) && decide (s.radio.rx = none)
     && decide (s.linkRetries ≤ o.retries) && decide (s.ticket? o.ticket = some y) && decide (y.n = o.ticket)
     && decide (y.live = true)),
   (let s : State := withTicket ({ up with link := { up.link with op := some ({ ticket := 511, kind := .wake, phase := .ackWait } : LinkOp) } }) ({ n := 511, queue := .link, owner := .host .desk, op := .leave true, st := .running } : Ticket);
     let o : LinkOp := ({ ticket := 511, kind := .wake, phase := .ackWait } : LinkOp); decide (s.inRun = true)
     && decide (s.link.op = some o) && decide (o.phase = .ackWait) && decide (s.radio.rx = none)
     && decide (o.retries < s.linkRetries) && decide (o.kind = .wake)),
   (let s : State := { up with link := { up.link with exch := some ({ idx := 0, short := 5, pend := false, phase := .ackWait } : Exch) }, radio := { up.radio with rx := some ({ fmt := .s, plan := 0, chan := 0, handed := false } : RxNow) } };
     let x : Exch := ({ idx := 0, short := 5, pend := false, phase := .ackWait } : Exch); decide (s.inRun = true)
     && decide (s.link.op = none) && decide (s.link.exch = some x) && decide (x.phase = .ackWait)
     && decide (s.radio.rx.isSome = true)),
   (let s : State := { up with link := { up.link with exch := some ({ idx := 0, short := 5, pend := false, phase := .ackWait } : Exch) } };
     let x : Exch := ({ idx := 0, short := 5, pend := false, phase := .ackWait } : Exch); decide (s.inRun = true)
     && decide (s.link.op = none) && decide (s.link.exch = some x) && decide (x.phase = .ackWait)
     && decide (s.radio.rx = none)),
   (let s : State := up; decide (s.link.op = none) && decide (s.link.exch = none)),
   (let s : State := withTicket ({ up with link := { up.link with op := some ({ ticket := 511, kind := .send, phase := .backoff 0 } : LinkOp) }, radio := { up.radio with rx := some ({ fmt := .s, plan := 0, chan := 0, handed := false } : RxNow) } }) ({ n := 511, queue := .link, owner := .host .desk, op := .leave true, st := .running } : Ticket);
     let o : LinkOp := ({ ticket := 511, kind := .send, phase := .backoff 0 } : LinkOp); let c := 0;
     decide (s.inRun = true) && decide (s.link.op = some o) && decide (o.phase = .backoff c)
     && decide (s.linkBlocked = true)),
   (let s : State := withTicket ({ up with link := { up.link with op := some ({ ticket := 511, kind := .send, phase := .backoff 0 } : LinkOp) } }) ({ n := 511, queue := .link, owner := .host .desk, op := .leave true, st := .running } : Ticket);
     let o : LinkOp := ({ ticket := 511, kind := .send, phase := .backoff 0 } : LinkOp); let c := 0;
     decide (s.inRun = true) && decide (s.link.op = some o) && decide (o.phase = .backoff c)
     && decide (s.linkBlocked = false)),
   (let s : State := up; decide (s.link.op = none)),
   (let s : State := up; decide (s.link.op = none)),
   (let s : State := up; decide (s.link.op = none)),
   (let s : State := up; decide (s.link.op = none)),
   (let s : State := withTicket ({ up with link := { up.link with op := some ({ ticket := 511, kind := .assocReq, phase := .respWait } : LinkOp) } }) ({ n := 511, queue := .link, owner := .host .desk, op := .leave true, st := .running } : Ticket);
     let o : LinkOp := ({ ticket := 511, kind := .assocReq, phase := .respWait } : LinkOp); decide (s.inRun = true)
     && decide (s.link.op = some o) && decide (o.phase = .respWait)),
   (let s : State := withTicket ({ up with link := { up.link with op := some ({ ticket := 511, kind := .poll, phase := .window false } : LinkOp) }, radio := { up.radio with rx := some ({ fmt := .s, plan := 0, chan := 0, handed := false } : RxNow) } }) ({ n := 511, queue := .link, owner := .host .desk, op := .leave true, st := .running } : Ticket);
     let o : LinkOp := ({ ticket := 511, kind := .poll, phase := .window false } : LinkOp); let b := false;
     decide (s.inRun = true) && decide (s.link.op = some o) && decide (o.phase = .window b)
     && decide (s.radio.rx.isSome = true)),
   (let s : State := withTicket ({ up with link := { up.link with op := some ({ ticket := 511, kind := .assocData, phase := .window false } : LinkOp) } }) ({ n := 511, queue := .link, owner := .host .desk, op := .leave true, st := .running } : Ticket);
     let o : LinkOp := ({ ticket := 511, kind := .assocData, phase := .window false } : LinkOp);
     let y : Ticket := ({ n := 511, queue := .link, owner := .host .desk, op := .leave true, st := .running } : Ticket);
     let b := false; decide (s.inRun = true) && decide (s.link.op = some o) && decide (o.phase = .window b)
     && decide (s.radio.rx = none) && decide (s.radio.tx = none) && decide (s.ticket? o.ticket = some y)
     && decide (y.n = o.ticket) && decide (y.live = true) && decide (o.kind = .assocData)),
   (let s : State := withTicket ({ up with link := { up.link with op := some ({ ticket := 511, kind := .poll, phase := .window false } : LinkOp) } }) ({ n := 511, queue := .link, owner := .host .desk, op := .leave true, st := .running } : Ticket);
     let o : LinkOp := ({ ticket := 511, kind := .poll, phase := .window false } : LinkOp);
     let y : Ticket := ({ n := 511, queue := .link, owner := .host .desk, op := .leave true, st := .running } : Ticket);
     let b := false; decide (s.inRun = true) && decide (s.link.op = some o) && decide (o.phase = .window b)
     && decide (s.radio.rx = none) && decide (s.radio.tx = none) && decide (s.ticket? o.ticket = some y)
     && decide (y.n = o.ticket) && decide (y.live = true) && decide (o.kind = .poll) && decide (o.frames = 0)),
   (let s : State := withTicket ({ up with link := { up.link with op := some ({ ticket := 511, kind := .poll, phase := .window false, frames := 1 } : LinkOp) } }) ({ n := 511, queue := .link, owner := .host .desk, op := .leave true, st := .running } : Ticket);
     let o : LinkOp := ({ ticket := 511, kind := .poll, phase := .window false, frames := 1 } : LinkOp);
     let y : Ticket := ({ n := 511, queue := .link, owner := .host .desk, op := .leave true, st := .running } : Ticket);
     let b := false; decide (s.inRun = true) && decide (s.link.op = some o) && decide (o.phase = .window b)
     && decide (s.radio.rx = none) && decide (s.radio.tx = none) && decide (s.ticket? o.ticket = some y)
     && decide (y.n = o.ticket) && decide (y.live = true) && decide (o.kind = .poll) && decide (o.frames ≠ 0)),
   (let s : State := up; decide (s.link.exch = none)),
   (let s : State := { up with link := { up.link with exch := some ({ idx := 0, short := 5, pend := false, phase := .heldTx } : Exch) } };
     let x : Exch := ({ idx := 0, short := 5, pend := false, phase := .heldTx } : Exch); decide (s.inRun = true)
     && decide (s.link.exch = some x) && decide (s.radio.tx = none) && decide (s.radio.st ≠ .receive)),
   (let s : State := up; decide ((s.awake && s.pollDue) = false)),
   (let s : State := withTicket ({ kin with link := { kin.link with nextPoll := some 0 } }) ({ n := 511, queue := .link, owner := .host .desk, op := .poll 0, st := .running } : Ticket);
     let v := 0; decide (s.awake = true) && decide (s.pollDue = true) && decide (s.link.nextPoll = some v)
     && decide (s.dueList = [(v, 2, 0)]) && decide (s.pollRuns = true)),
   (let s : State := fullPool; let v := 0; decide (s.awake = true) && decide (s.pollDue = true)
     && decide (s.link.nextPoll = some v) && decide (s.dueList = [(v, 2, 0)]) && decide (s.pollRuns = false) && decide (s.noTicketFor .link = true)),
   (let s : State := { kin with link := { kin.link with nextPoll := some 0 } }; let v := 0; decide (s.awake = true)
     && decide (s.pollDue = true) && decide (s.link.nextPoll = some v) && decide (s.dueList = [(v, 2, 0)]) && decide (s.pollRuns = false)
     && decide (s.noTicketFor .link = false)),
   (let s : State := up; decide (s.inRun = true)),
   (let s : State := withTicket ({ up with link := { up.link with op := some ({ ticket := 511, kind := .wake, phase := .wakeWait } : LinkOp) } }) ({ n := 511, queue := .link, owner := .host .desk, op := .leave true, st := .running } : Ticket);
     let o : LinkOp := ({ ticket := 511, kind := .wake, phase := .wakeWait } : LinkOp); decide (s.inRun = true)
     && decide (s.link.op = some o) && decide (o.phase = .wakeWait) && decide (o.kind = .wake))
   ] : List Bool).all (fun b => b) = true := by decide

/-- States and operands that meet the hypotheses of each clause of `Obligations.LedgerAndTrimEventsTakeEffect`. -/
theorem test_witness_ledger_and_trim_events_take_effect : ([
   (let s : State := up; decide ((s.awake && s.boundaryDue) = false)),
   (let s : State := { up with ledger := { up.ledger with isOpen := true }, day := { up.day with now := 0xFFFFFFFFFFFFFFFF } };
     decide (s.awake = true) && decide (s.boundaryDue = true)),
   (let s : State := up; decide (s.trim.run = none)),
   (let s : State := up; decide (s.trim.run = none)),
   (let s : State := up; decide (s.trim.run = none)),
   (let s : State := { up with trim := { up.trim with run := some ({ ticket := 511, item := .filtcap, rest := [], all := false, plan := 0, chan := 0 } : TrimRun) } };
     let sel : List Int := ([63] : List Int); let stats : List Int := ([0] : List Int);
     let x : TrimRun := ({ ticket := 511, item := .filtcap, rest := [], all := false, plan := 0, chan := 0 } : TrimRun);
     decide (s.trim.run = some x) && decide (x.writing = none) && decide (x.second = false)
     && decide (selValid x.item sel stats = true)),
   (let s : State := { up with trim := { up.trim with run := some ({ ticket := 511, item := .filtcap, rest := [], all := false, plan := 0, chan := 0, second := true } : TrimRun) } };
     let x : TrimRun := ({ ticket := 511, item := .filtcap, rest := [], all := false, plan := 0, chan := 0, second := true } : TrimRun);
     decide (s.trim.run = some x) && decide (x.writing = none) && decide (x.second = true)),
   (let s : State := { up with trim := { up.trim with run := some ({ ticket := 511, item := .filtcap, rest := [], all := false, plan := 0, chan := 0 } : TrimRun) } };
     let x : TrimRun := ({ ticket := 511, item := .filtcap, rest := [], all := false, plan := 0, chan := 0 } : TrimRun);
     decide (s.trim.run = some x) && decide (x.writing = none) && decide (x.second = false)),
   (let s : State := { up with trim := { up.trim with run := some ({ ticket := 511, item := .filtcap, rest := [], all := false, plan := 0, chan := 0, second := true, sel1 := [62] } : TrimRun) } };
     let sel : List Int := ([63] : List Int); let stats : List Int := ([0] : List Int);
     let x : TrimRun := ({ ticket := 511, item := .filtcap, rest := [], all := false, plan := 0, chan := 0, second := true, sel1 := [62] } : TrimRun);
     decide (s.trim.run = some x) && decide (x.writing = none) && decide (x.second = true)
     && decide (selValid x.item sel stats = true) && decide (x.dirty1 = false) && decide (x.dirty2 = false)
     && decide (passesAgree x.item x.sel1 x.stat1 sel stats = true)),
   (let s : State := { up with trim := { up.trim with run := some ({ ticket := 511, item := .filtcap, rest := [], all := false, plan := 0, chan := 0, second := true, sel1 := [61] } : TrimRun) } };
     let sel : List Int := ([63] : List Int); let stats : List Int := ([0] : List Int);
     let x : TrimRun := ({ ticket := 511, item := .filtcap, rest := [], all := false, plan := 0, chan := 0, second := true, sel1 := [61] } : TrimRun);
     decide (s.trim.run = some x) && decide (x.writing = none) && decide (x.second = true)
     && decide (selValid x.item sel stats = true)
     && decide (x.dirty1 = true ∨ x.dirty2 = true ∨ passesAgree x.item x.sel1 x.stat1 sel stats = false)),
   (let s : State := withTicket ({ up with trim := { up.trim with run := some ({ ticket := 511, item := .censuseq, rest := [], all := false, plan := 0, chan := 0 } : TrimRun) } }) ({ n := 511, queue := .trim, owner := .host .desk, op := .trimRun [.censuseq] false 0 0, st := .running } : Ticket);
     let x : TrimRun := ({ ticket := 511, item := .censuseq, rest := [], all := false, plan := 0, chan := 0 } : TrimRun);
     let y : Ticket := ({ n := 511, queue := .trim, owner := .host .desk, op := .trimRun [.censuseq] false 0 0, st := .running } : Ticket);
     decide (s.trim.run = some x) && decide (s.ceqRuns = true) && decide (x.all = false) && decide (s.link.op = none)
     && decide (s.ticket? x.ticket = some y) && decide (y.n = x.ticket) && decide (y.live = true))
   ] : List Bool).all (fun b => b) = true := by decide

/-- States and operands that meet the hypotheses of each clause of `Obligations.NoiseAndVaultEventsTakeEffect`. -/
theorem test_witness_noise_and_vault_events_take_effect : ([
   (let s : State := { up with pwr := { up.pwr with state := .dormant } }; decide (s.inRun = false)),
   (let s : State := up; decide (s.inRun = true) && decide (s.noise.st = .startup)),
   (let s : State := up; decide (s.inRun = true) && decide (s.noise.st = .startup)),
   (let s : State := keyed; decide (s.noise.st ≠ .startup)),
   (let s : State := rawState; decide (s.inRun = true) && decide (s.noise.st = .raw)),
   (let s : State := { up with noise := { up.noise with st := .ready, refill := true } }; decide (s.inRun = true)
     && decide (s.sourceRuns = true)),
   (let s : State := { up with noise := { up.noise with st := .ready, refill := true } }; decide (s.inRun = true)
     && decide (s.noise.refill = true) && decide (s.noise.st = .ready) && decide (s.link.op = none)),
   (let s : State := up; decide (s.noise.refill = false)),
   (let s : State := { up with noise := { up.noise with st := .ready, reseeding := true } }; decide (s.inRun = true)
     && decide (s.noise.reseeding = true) && decide (s.noise.seed = none)),
   (let s : State := { up with noise := { up.noise with st := .ready, reseeding := true, seed := some 5, drbg := some {} } };
     decide (s.inRun = true) && decide (s.noise.reseeding = true) && decide (s.noise.seed = some 5) && decide (s.noise.drbg = some {})),
   (let s : State := up; decide (s.noise.reseeding = false)),
   (let s : State := up; decide (s.noise.reseeding = false)),
   (let s : State := up; decide (s.running .noise = none)),
   (let s : State := withTicket (rawState) ({ n := 511, queue := .noise, owner := .host .desk, op := .rawCapture 4096, st := .running } : Ticket);
     let y : Ticket := ({ n := 511, queue := .noise, owner := .host .desk, op := .rawCapture 4096, st := .running } : Ticket);
     let n : Nat := 4096; decide (s.running .noise = some y) && decide (y.op = .rawCapture n)
     && decide (s.noise.st = .raw) && decide (s.ticket? y.n = some y) && decide (y.live = true)),
   (let s : State := up; decide (s.running .vault = none)),
   (let s : State := up; decide (s.running .vault = none)),
   (let s : State := up; decide (s.running .vault = none)),
   (let s : State := withTicket (keyed) ({ n := 511, queue := .vault, owner := .host .desk, op := .vaultRand 64, st := .running } : Ticket);
     let y : Ticket := ({ n := 511, queue := .vault, owner := .host .desk, op := .vaultRand 64, st := .running } : Ticket);
     let n : Nat := 64; decide (s.running .vault = some y) && decide (y.op = .vaultRand n)
     && decide (s.noise.reseeding = false) && decide (s.gradeA = true) && decide (s.noise.drbg = some {})
     && decide (s.ticket? y.n = some y) && decide (y.live = true)),
   (let s : State := withTicket ({ keyed with noise := { keyed.noise with reseeding := true } }) ({ n := 511, queue := .vault, owner := .host .desk, op := .vaultRand 64, st := .running } : Ticket);
     let y : Ticket := ({ n := 511, queue := .vault, owner := .host .desk, op := .vaultRand 64, st := .running } : Ticket);
     decide (s.running .vault = some y) && decide (y.op = .vaultRand 64) && decide (s.noise.reseeding = true)),
   (let s : State := withTicket (keyed) ({ n := 511, queue := .vault, owner := .host .desk, op := .vaultLoad 7 (List.replicate 16 1#8) false, st := .running } : Ticket);
     let y : Ticket := ({ n := 511, queue := .vault, owner := .host .desk, op := .vaultLoad 7 (List.replicate 16 1#8) false, st := .running } : Ticket);
     let k : Nat := 7; let octets : List Byte := (List.replicate 16 1#8 : List Byte); decide (s.running .vault = some y)
     && decide (y.op = .vaultLoad k octets false) && decide (y.fields = []) && decide (k < 8) && decide (2 ≤ k)
     && decide (s.ticket? y.n = some y)),
   (let s : State := withTicket (keyed) ({ n := 511, queue := .vault, owner := .host .desk, op := .vaultLoad 7 (List.replicate 24 1#8) true, st := .running } : Ticket);
     let y : Ticket := ({ n := 511, queue := .vault, owner := .host .desk, op := .vaultLoad 7 (List.replicate 24 1#8) true, st := .running } : Ticket);
     let k : Nat := 7; let octets : List Byte := (List.replicate 24 1#8 : List Byte); decide (s.running .vault = some y)
     && decide (y.op = .vaultLoad k octets true) && decide (y.fields = []) && decide (s.loadedKey octets true = none)
     && decide (s.ticket? y.n = some y) && decide (y.live = true)),
   (let s : State := withTicket (keyed) ({ n := 511, queue := .vault, owner := .host .desk, op := .vaultCcm false 6 5 (List.replicate 13 0#8) [] [1#8] false, st := .running } : Ticket);
     let y : Ticket := ({ n := 511, queue := .vault, owner := .host .desk, op := .vaultCcm false 6 5 (List.replicate 13 0#8) [] [1#8] false, st := .running } : Ticket);
     let nonce : List Byte := (List.replicate 13 0#8 : List Byte); let aad : List Byte := ([] : List Byte);
     let data : List Byte := ([1#8] : List Byte); let blk : Bool := false; let dec := false; let slot := 6;
     let level := 5; decide (s.running .vault = some y) && decide (y.op = .vaultCcm dec slot level nonce aad data blk)
     && decide (s.ticket? y.n = some y) && decide (y.live = true) && decide (s.slotKey slot = none)),
   (let s : State := withTicket (keyed) ({ n := 511, queue := .vault, owner := .host .desk, op := .vaultCcm false 7 5 (List.replicate 13 0#8) [] [1#8] false, st := .running } : Ticket);
     let y : Ticket := ({ n := 511, queue := .vault, owner := .host .desk, op := .vaultCcm false 7 5 (List.replicate 13 0#8) [] [1#8] false, st := .running } : Ticket);
     let nonce : List Byte := (List.replicate 13 0#8 : List Byte); let aad : List Byte := ([] : List Byte);
     let data : List Byte := ([1#8] : List Byte); let blk : Bool := false; let dec := false; let slot := 7;
     let level := 5; let key := (2 : BitVec 128); let o := (ccmEnc (keyN key) (toN nonce) (toN aad) (toN data) level);
     decide (s.running .vault = some y) && decide (y.op = .vaultCcm dec slot level nonce aad data blk)
     && decide (s.ticket? y.n = some y) && decide (y.live = true) && decide (s.slotKey slot = some key)
     && decide ((if dec then ccmDec (keyN key) (toN nonce) (toN aad) (toN data) level else some (ccmEnc (keyN key) (toN nonce) (toN aad) (toN data) level)) = some o)),
   (let s : State := withTicket (keyed) ({ n := 511, queue := .vault, owner := .host .desk, op := .vaultCcm true 7 5 (List.replicate 13 0#8) [] (List.replicate 5 1#8) false, st := .running } : Ticket);
     let y : Ticket := ({ n := 511, queue := .vault, owner := .host .desk, op := .vaultCcm true 7 5 (List.replicate 13 0#8) [] (List.replicate 5 1#8) false, st := .running } : Ticket);
     let nonce : List Byte := (List.replicate 13 0#8 : List Byte); let aad : List Byte := ([] : List Byte);
     let data : List Byte := (List.replicate 5 1#8 : List Byte); let blk : Bool := false; let dec := true; let slot := 7;
     let level := 5; let key := (2 : BitVec 128); decide (s.running .vault = some y)
     && decide (y.op = .vaultCcm dec slot level nonce aad data blk) && decide (s.ticket? y.n = some y)
     && decide (y.live = true) && decide (s.slotKey slot = some key) && decide (dec = true)
     && decide (ccmDec (keyN key) (toN nonce) (toN aad) (toN data) level = none))
   ] : List Bool).all (fun b => b) = true := by decide

/-- States and operands that meet the hypotheses of each clause of `Obligations.StoreEventsTakeEffect`. -/
theorem test_witness_store_events_take_effect : ([
   (let s : State := up; decide (s.rows = [])),
   (let s : State := { up with rows := [({ what := .stacks 0 [] } : RowWrite)], pwr := { up.pwr with stall := [(8, 0)] } };
     let r : RowWrite := ({ what := .stacks 0 [] } : RowWrite); let rs : List RowWrite := ([] : List RowWrite);
     let mine : Bool := match r.what with | .stacks _ _ => false | .cat _ => false | _ => true; decide (s.rows = r :: rs)
     && decide (mine = false) && decide (s.stalled 8 = true)),
   (let s : State := { up with rows := [({ what := .scratch 0 [1#8] } : RowWrite)] };
     let r : RowWrite := ({ what := .scratch 0 [1#8] } : RowWrite); let rs : List RowWrite := ([] : List RowWrite);
     let mine : Bool := match r.what with | .stacks _ _ => false | .cat _ => false | _ => true; decide (s.rows = r :: rs)
     && decide (mine = true ∨ s.stalled 8 = false) && decide (r.last = none)),
   (let s : State := withTicket ({ up with rows := [({ what := .scratch 0 [1#8], last := some 511 } : RowWrite)] }) ({ n := 511, queue := .stacks, owner := .host .desk, op := .eventSave, st := .running } : Ticket);
     let r : RowWrite := ({ what := .scratch 0 [1#8], last := some 511 } : RowWrite); let rs : List RowWrite := ([] : List RowWrite);
     let y : Ticket := ({ n := 511, queue := .stacks, owner := .host .desk, op := .eventSave, st := .running } : Ticket);
     let mine : Bool := match r.what with | .stacks _ _ => false | .cat _ => false | _ => true; decide (s.rows = r :: rs)
     && decide (mine = true ∨ s.stalled 8 = false) && decide (r.last = some y.n) && decide (s.ticket? y.n = some y)
     && decide (y.live = true) && decide (y.op = .eventSave)),
   (let s : State := up; decide (s.stalled 8 = false)),
   (let s : State := { up with pwr := { up.pwr with stall := [(8, 0)] } }; decide (s.stalled 8 = true)),
   (let s : State := up; decide (s.running .stacks = none)),
   (let s : State := withTicket (parted) ({ n := 511, queue := .stacks, owner := .host .desk, op := .archFind none none none none none false false 1 none, st := .running } : Ticket);
     let y : Ticket := ({ n := 511, queue := .stacks, owner := .host .desk, op := .archFind none none none none none false false 1 none, st := .running } : Ticket);
     let p : Part19 := aPart; let fromN : Option Nat := (none : Option Nat); let toN : Option Nat := (none : Option Nat);
     let since : Option Nat := (none : Option Nat); let til : Option Nat := (none : Option Nat);
     let cls : Option Nat := (none : Option Nat); let list : Option Nat := (none : Option Nat); let us : Bool := false;
     let ua : Bool := false; let mx : Nat := 1; decide (s.running .stacks = some y)
     && decide (y.op = .archFind fromN toN since til cls us ua mx list) && decide (s.store.part = some p)
     && decide (s.ticket? y.n = some y) && decide (y.live = true))
   ] : List Bool).all (fun b => b) = true := by decide

/-- States and operands that meet the hypotheses of each clause of `Obligations.PorterMovesElements`. -/
theorem test_witness_porter_moves_elements : ([
   (let s : State := up; let q : Fin 4 := (3 : Fin 4); let c := s.chan q.val; decide (s.inRun = false ∨ c.run = none)),
   (let s : State := up; let q : Fin 4 := (3 : Fin 4); let c := s.chan q.val; decide (s.inRun = false ∨ c.run = none)),
   (let s : State := withChan slipped { run := some ({ ticket := 511, max := 1, at_ := 0x18000, slip := some ({ next := 0x18020, last := true, src := 0x20000, dst := 0x3FFFC, size := 4, shelf := false, walkDst := false, other := 4, c0 := 1, s0 := 4 } : Slip), fifo := false, input := none } : PRun) };
     let q : Fin 4 := (3 : Fin 4);
     let x : PRun := ({ ticket := 511, max := 1, at_ := 0x18000, slip := some ({ next := 0x18020, last := true, src := 0x20000, dst := 0x3FFFC, size := 4, shelf := false, walkDst := false, other := 4, c0 := 1, s0 := 4 } : Slip), fifo := false, input := none } : PRun);
     let c := s.chan q.val; decide (s.inRun = true) && decide (c.run = some x) && decide (x.slip.isSome = true)),
   (let s : State := withChan slipped { run := some ({ ticket := 511, max := 1, at_ := 0x18000, slip := none, fifo := false, input := none } : PRun) };
     let q : Fin 4 := (3 : Fin 4);
     let x : PRun := ({ ticket := 511, max := 1, at_ := 0x18000, slip := none, fifo := false, input := none } : PRun);
     let c := s.chan q.val; decide (s.inRun = true) && decide (c.run = some x) && decide (x.slip = none)),
   (let s : State := withChan slipped { run := some ({ ticket := 511, max := 1, at_ := 0x18000, slip := none, fifo := false, input := none } : PRun), slips := 1 };
     let q : Fin 4 := (3 : Fin 4);
     let x : PRun := ({ ticket := 511, max := 1, at_ := 0x18000, slip := none, fifo := false, input := none } : PRun);
     let c := s.chan q.val; decide (s.inRun = true) && decide (c.run = some x) && decide (x.slip = none)
     && decide (x.max ≤ c.slips)),
   (let s : State := withChan slipped { run := some ({ ticket := 511, max := 1, at_ := 0x10000, slip := none, fifo := false, input := none } : PRun) };
     let q : Fin 4 := (3 : Fin 4);
     let x : PRun := ({ ticket := 511, max := 1, at_ := 0x10000, slip := none, fifo := false, input := none } : PRun);
     let c := s.chan q.val; decide (s.inRun = true) && decide (c.run = some x) && decide (x.slip = none)
     && decide (c.slips < x.max) && decide (inCarrels x.at_ 32 = false)),
   (let s : State := withChan up { run := some ({ ticket := 511, max := 1, at_ := 0x18000, slip := none, fifo := false, input := none } : PRun) };
     let q : Fin 4 := (3 : Fin 4);
     let x : PRun := ({ ticket := 511, max := 1, at_ := 0x18000, slip := none, fifo := false, input := none } : PRun);
     let c := s.chan q.val; decide (s.inRun = true) && decide (c.run = some x) && decide (x.slip = none)
     && decide (c.slips < x.max) && decide (inCarrels x.at_ 32 = true)
     && decide (s.pwr.powered.getLsbD (x.at_ / 0x8000) = false)),
   (let s : State := withChan badSlip { run := some ({ ticket := 511, max := 1, at_ := 0x18000, slip := none, fifo := false, input := none } : PRun) };
     let q : Fin 4 := (3 : Fin 4);
     let x : PRun := ({ ticket := 511, max := 1, at_ := 0x18000, slip := none, fifo := false, input := none } : PRun);
     let c := s.chan q.val; decide (s.inRun = true) && decide (c.run = some x) && decide (x.slip = none)
     && decide (c.slips < x.max) && decide (inCarrels x.at_ 32 = true) && decide (isReady s x.at_)
     && decide (slipBad x.at_ (s.carrelRead x.at_ 32) = true)),
   (let s : State := withChan slipped { run := some ({ ticket := 511, max := 1, at_ := 0x18000, slip := none, fifo := false, input := none } : PRun) };
     let q : Fin 4 := (3 : Fin 4);
     let x : PRun := ({ ticket := 511, max := 1, at_ := 0x18000, slip := none, fifo := false, input := none } : PRun);
     let c := s.chan q.val; decide (s.inRun = true) && decide (c.run = some x) && decide (x.slip = none)
     && decide (c.slips < x.max) && decide (inCarrels x.at_ 32 = true) && decide (isReady s x.at_)
     && decide (slipBad x.at_ (s.carrelRead x.at_ 32) = false)),
   (let s : State := withChan slipped { run := some ({ ticket := 511, max := 1, at_ := 0x18000, slip := some ({ next := 0x18020, last := true, src := 0x20000, dst := 0x17FFC, size := 4, shelf := false, walkDst := false, other := 4, c0 := 1, s0 := 4 } : Slip), fifo := false, input := none, p := 0x17FFC } : PRun) };
     let q : Fin 4 := (3 : Fin 4);
     let x : PRun := ({ ticket := 511, max := 1, at_ := 0x18000, slip := some ({ next := 0x18020, last := true, src := 0x20000, dst := 0x17FFC, size := 4, shelf := false, walkDst := false, other := 4, c0 := 1, s0 := 4 } : Slip), fifo := false, input := none, p := 0x17FFC } : PRun);
     let sl : Slip := ({ next := 0x18020, last := true, src := 0x20000, dst := 0x17FFC, size := 4, shelf := false, walkDst := false, other := 4, c0 := 1, s0 := 4 } : Slip);
     let c := s.chan q.val; let la := sl.list + 2 * x.k1;
     let x1 : PRun := if sl.shelf && decide (x.k0 = 0) then { x with off := leNat (s.carrelRead la 2) } else x;
     let src := if sl.walkDst then x.p else x1.walked sl; let dst := if sl.walkDst then x1.walked sl else x.p;
     decide (s.inRun = true) && decide (c.run = some x) && decide (x.slip = some sl) && decide (sl.shelf = false)
     && decide (s.elementTurn q.val = true) && decide ((s.elementFault src dst sl.size).isSome)),
   (let s : State := withChan slipped { run := some ({ ticket := 511, max := 1, at_ := 0x18000, slip := some ({ next := 0x18020, last := true, src := 0x20000, dst := 0x3FFFC, size := 4, shelf := false, walkDst := false, other := 4, c0 := 2, s0 := 4 } : Slip), fifo := false, input := none, p := 0x3FFFC } : PRun) };
     let q : Fin 4 := (3 : Fin 4);
     let x : PRun := ({ ticket := 511, max := 1, at_ := 0x18000, slip := some ({ next := 0x18020, last := true, src := 0x20000, dst := 0x3FFFC, size := 4, shelf := false, walkDst := false, other := 4, c0 := 2, s0 := 4 } : Slip), fifo := false, input := none, p := 0x3FFFC } : PRun);
     let sl : Slip := ({ next := 0x18020, last := true, src := 0x20000, dst := 0x3FFFC, size := 4, shelf := false, walkDst := false, other := 4, c0 := 2, s0 := 4 } : Slip);
     let c := s.chan q.val; let la := sl.list + 2 * x.k1;
     let x1 : PRun := if sl.shelf && decide (x.k0 = 0) then { x with off := leNat (s.carrelRead la 2) } else x;
     let src := if sl.walkDst then x.p else x1.walked sl; let dst := if sl.walkDst then x1.walked sl else x.p;
     let x2 := ({ x with k0 := 1, p := 0x40000 } : PRun); decide (s.inRun = true) && decide (c.run = some x)
     && decide (x.slip = some sl) && decide (sl.shelf = false) && decide (s.elementTurn q.val = true) && decide (s.elementFault src dst sl.size = none)
     && decide (s.target src false = .carrel (src / 0x8000)) && decide (isReady s src)
     && decide (s.target dst true = .carrel (dst / 0x8000)) && decide (isReady s dst)
     && decide (x1.advance sl = some x2)),
   (let s : State := withChan slipped { run := some ({ ticket := 511, max := 1, at_ := 0x18000, slip := some ({ next := 0x18020, last := false, src := 0x20000, dst := 0x3FFFC, size := 4, shelf := false, walkDst := false, other := 4, c0 := 1, s0 := 4 } : Slip), fifo := false, input := none, p := 0x3FFFC } : PRun) };
     let q : Fin 4 := (3 : Fin 4);
     let x : PRun := ({ ticket := 511, max := 1, at_ := 0x18000, slip := some ({ next := 0x18020, last := false, src := 0x20000, dst := 0x3FFFC, size := 4, shelf := false, walkDst := false, other := 4, c0 := 1, s0 := 4 } : Slip), fifo := false, input := none, p := 0x3FFFC } : PRun);
     let sl : Slip := ({ next := 0x18020, last := false, src := 0x20000, dst := 0x3FFFC, size := 4, shelf := false, walkDst := false, other := 4, c0 := 1, s0 := 4 } : Slip);
     let c := s.chan q.val; let la := sl.list + 2 * x.k1;
     let x1 : PRun := if sl.shelf && decide (x.k0 = 0) then { x with off := leNat (s.carrelRead la 2) } else x;
     let src := if sl.walkDst then x.p else x1.walked sl; let dst := if sl.walkDst then x1.walked sl else x.p;
     decide (s.inRun = true) && decide (c.run = some x) && decide (x.slip = some sl) && decide (sl.shelf = false)
     && decide (s.elementTurn q.val = true) && decide (s.elementFault src dst sl.size = none) && decide (s.target src false = .carrel (src / 0x8000))
     && decide (isReady s src) && decide (s.target dst true = .carrel (dst / 0x8000)) && decide (isReady s dst)
     && decide (x1.advance sl = none) && decide (sl.last = false)),
   (let s : State := withChan slipped { run := some ({ ticket := 511, max := 1, at_ := 0x18000, slip := some ({ next := 0x18020, last := true, src := 0x20000, dst := 0x3FFFC, size := 4, shelf := false, walkDst := false, other := 4, c0 := 1, s0 := 4 } : Slip), fifo := false, input := none, p := 0x3FFFC } : PRun) };
     let q : Fin 4 := (3 : Fin 4);
     let x : PRun := ({ ticket := 511, max := 1, at_ := 0x18000, slip := some ({ next := 0x18020, last := true, src := 0x20000, dst := 0x3FFFC, size := 4, shelf := false, walkDst := false, other := 4, c0 := 1, s0 := 4 } : Slip), fifo := false, input := none, p := 0x3FFFC } : PRun);
     let sl : Slip := ({ next := 0x18020, last := true, src := 0x20000, dst := 0x3FFFC, size := 4, shelf := false, walkDst := false, other := 4, c0 := 1, s0 := 4 } : Slip);
     let c := s.chan q.val; let la := sl.list + 2 * x.k1;
     let x1 : PRun := if sl.shelf && decide (x.k0 = 0) then { x with off := leNat (s.carrelRead la 2) } else x;
     let src := if sl.walkDst then x.p else x1.walked sl; let dst := if sl.walkDst then x1.walked sl else x.p;
     decide (s.inRun = true) && decide (c.run = some x) && decide (x.slip = some sl) && decide (sl.shelf = false)
     && decide (s.elementTurn q.val = true) && decide (s.elementFault src dst sl.size = none) && decide (s.target src false = .carrel (src / 0x8000))
     && decide (isReady s src) && decide (s.target dst true = .carrel (dst / 0x8000)) && decide (isReady s dst)
     && decide (x1.advance sl = none) && decide (sl.last = true)),
   (let s : State := withChan colFull { run := some ({ ticket := 511, max := 1, at_ := 0x18000, slip := some ({ next := 0x18020, last := true, src := 0x20000, dst := 0x00010C00, size := 4, shelf := false, walkDst := false, other := 4, c0 := 1, s0 := 4 } : Slip), fifo := false, input := none, p := 0x30000308 } : PRun) };
     let q : Fin 4 := (3 : Fin 4);
     let x : PRun := ({ ticket := 511, max := 1, at_ := 0x18000, slip := some ({ next := 0x18020, last := true, src := 0x20000, dst := 0x00010C00, size := 4, shelf := false, walkDst := false, other := 4, c0 := 1, s0 := 4 } : Slip), fifo := false, input := none, p := 0x30000308 } : PRun);
     let sl : Slip := ({ next := 0x18020, last := true, src := 0x20000, dst := 0x00010C00, size := 4, shelf := false, walkDst := false, other := 4, c0 := 1, s0 := 4 } : Slip);
     let c := s.chan q.val; let la := sl.list + 2 * x.k1;
     let x1 : PRun := if sl.shelf && decide (x.k0 = 0) then { x with off := leNat (s.carrelRead la 2) } else x;
     let src := if sl.walkDst then x.p else x1.walked sl; let dst := if sl.walkDst then x1.walked sl else x.p; let n := 3;
     let k := 4; decide (s.inRun = true) && decide (c.run = some x) && decide (x.slip = some sl)
     && decide (sl.shelf = false) && decide (s.elementTurn q.val = false)
     && decide (s.target dst true = .port n k) && decide ((s.col n).isOpen = true) && decide ((s.col n).full = true)),
   (let s : State := withChan colReady { run := some ({ ticket := 511, max := 1, at_ := 0x18000, slip := some ({ next := 0x18020, last := true, src := 0x20000, dst := 0x3FFFC, size := 4, shelf := false, walkDst := false, other := 0, c0 := 2, s0 := 4 } : Slip), fifo := false, input := none, p := 0x30000308 } : PRun) };
     let q : Fin 4 := (3 : Fin 4);
     let x : PRun := ({ ticket := 511, max := 1, at_ := 0x18000, slip := some ({ next := 0x18020, last := true, src := 0x20000, dst := 0x3FFFC, size := 4, shelf := false, walkDst := false, other := 0, c0 := 2, s0 := 4 } : Slip), fifo := false, input := none, p := 0x30000308 } : PRun);
     let sl : Slip := ({ next := 0x18020, last := true, src := 0x20000, dst := 0x3FFFC, size := 4, shelf := false, walkDst := false, other := 0, c0 := 2, s0 := 4 } : Slip);
     let c := s.chan q.val; let la := sl.list + 2 * x.k1;
     let x1 : PRun := if sl.shelf && decide (x.k0 = 0) then { x with off := leNat (s.carrelRead la 2) } else x;
     let src := if sl.walkDst then x.p else x1.walked sl; let dst := if sl.walkDst then x1.walked sl else x.p; let n := 3;
     let k := 4; let x2 := ((x.advance sl).getD x); decide (s.inRun = true) && decide (c.run = some x)
     && decide (x.slip = some sl) && decide (sl.shelf = false) && decide (s.elementTurn q.val = true) && decide (s.elementFault src dst sl.size = none)
     && decide (s.target src false = .carrel (src / 0x8000)) && decide (isReady s src)
     && decide (s.target dst true = .port n k) && decide ((s.col n).isOpen = true) && decide ((s.col n).full = false)
     && decide (x1.advance sl = some x2) && decide (n < 4)),
   (let s : State := withChan slipped { run := some ({ ticket := 511, max := 1, at_ := 0x18000, slip := some ({ next := 0x18020, last := true, src := 0x20000, dst := 0x3FFFC, size := 4, shelf := false, walkDst := false, other := 4, c0 := 1, s0 := 4 } : Slip), fifo := false, input := none, p := 0x40000000 } : PRun) };
     let q : Fin 4 := (3 : Fin 4);
     let x : PRun := ({ ticket := 511, max := 1, at_ := 0x18000, slip := some ({ next := 0x18020, last := true, src := 0x20000, dst := 0x3FFFC, size := 4, shelf := false, walkDst := false, other := 4, c0 := 1, s0 := 4 } : Slip), fifo := false, input := none, p := 0x40000000 } : PRun);
     let sl : Slip := ({ next := 0x18020, last := true, src := 0x20000, dst := 0x3FFFC, size := 4, shelf := false, walkDst := false, other := 4, c0 := 1, s0 := 4 } : Slip);
     let c := s.chan q.val; let la := sl.list + 2 * x.k1;
     let x1 : PRun := if sl.shelf && decide (x.k0 = 0) then { x with off := leNat (s.carrelRead la 2) } else x;
     let src := if sl.walkDst then x.p else x1.walked sl; let dst := if sl.walkDst then x1.walked sl else x.p;
     decide (s.inRun = true) && decide (c.run = some x) && decide (x.slip = some sl) && decide (sl.shelf = false)
     && decide (s.elementTurn q.val = true) && decide (s.elementFault src dst sl.size = none) && decide (s.target src false = .carrel (src / 0x8000))
     && decide (isReady s src) && decide (s.target dst true = .fifo) && decide (x.fifo = false)),
   (let sl : Slip := { next := 0x18020, last := true, src := 0x20000, dst := 0x3FFFC, size := 4, shelf := true, walkDst := false, other := 4, c0 := 1, s0 := 4, list := 0x18040, n := 2 };
     let x : PRun := { ticket := 511, max := 1, at_ := 0x18000, slip := some sl, fifo := false, input := none, p := 0x3FFFC };
     let s : State := withChan (slipped.carrelWrite 0x18040 [4#8, 0#8]) { run := some x };
     let q : Fin 4 := (3 : Fin 4); let la := sl.list + 2 * x.k1;
     let x1 : PRun := if sl.shelf && decide (x.k0 = 0) then { x with off := leNat (s.carrelRead la 2) } else x;
     let src := if sl.walkDst then x.p else x1.walked sl; let dst := if sl.walkDst then x1.walked sl else x.p;
     decide (s.inRun = true) && decide ((s.chan q.val).run = some x) && decide (x.slip = some sl) && decide (sl.shelf = true)
     && decide (x.k0 = 0) && decide (isReady s la) && decide (s.elementTurn q.val = true)
     && decide (s.elementFault src dst sl.size = none) && decide (s.target src false = .carrel (src / 0x8000))
     && decide (isReady s src) && decide (s.target dst true = .carrel (dst / 0x8000)) && decide (isReady s dst)
     && decide ((x1.advance sl).isSome = true))
   ] : List Bool).all (fun b => b) = true := by decide

/-- States and operands that meet the hypotheses of each clause of `Obligations.CollatorEventsTakeEffect`. -/
theorem test_witness_collator_events_take_effect : ([
   (let s : State := up; let q : Fin 4 := (3 : Fin 4); decide (s.running (.collate q) = none)),
   (let s : State := up; let q : Fin 4 := (3 : Fin 4); decide (s.running (.collate q) = none)),
   (let s : State := withTicket (colOpen) ({ n := 511, queue := .collate 3, owner := .host .desk, op := .collateFeed 3 [1#8] none, st := .running } : Ticket);
     let q : Fin 4 := (3 : Fin 4);
     let y : Ticket := ({ n := 511, queue := .collate 3, owner := .host .desk, op := .collateFeed 3 [1#8] none, st := .running } : Ticket);
     let data : List Byte := ([1#8] : List Byte); let src : Option (Nat × Nat) := (none : Option (Nat × Nat));
     decide (s.running (.collate q) = some y) && decide (s.ticket? y.n = some y) && decide (y.live = true)
     && decide (y.op = .collateFeed q.val data src)),
   (let s : State := withTicket (colOpen) ({ n := 511, queue := .collate 3, owner := .host .desk, op := .collateFeed 3 [1#8] none, st := .running } : Ticket);
     let q : Fin 4 := (3 : Fin 4);
     let y : Ticket := ({ n := 511, queue := .collate 3, owner := .host .desk, op := .collateFeed 3 [1#8] none, st := .running } : Ticket);
     let data : List Byte := ([1#8] : List Byte); let src : Option (Nat × Nat) := (none : Option (Nat × Nat));
     decide (s.running (.collate q) = some y) && decide (s.ticket? y.n = some y) && decide (y.live = true)
     && decide (y.op = .collateFeed q.val data src)),
   (let s : State := withTicket (colOpen) ({ n := 511, queue := .collate 3, owner := .host .desk, op := .collateClose 3 none, st := .running } : Ticket);
     let q : Fin 4 := (3 : Fin 4);
     let y : Ticket := ({ n := 511, queue := .collate 3, owner := .host .desk, op := .collateClose 3 none, st := .running } : Ticket);
     let e : Option (Option Nat) := (none : Option (Option Nat)); decide (s.running (.collate q) = some y)
     && decide (s.ticket? y.n = some y) && decide (y.live = true) && decide (y.op = .collateClose q.val e)),
   (let s : State := withTicket (colOpen) ({ n := 511, queue := .collate 3, owner := .host .desk, op := .collateClose 3 none, st := .running } : Ticket);
     let q : Fin 4 := (3 : Fin 4);
     let y : Ticket := ({ n := 511, queue := .collate 3, owner := .host .desk, op := .collateClose 3 none, st := .running } : Ticket);
     let e : Option (Option Nat) := (none : Option (Option Nat)); let c := s.col q.val;
     let want : Option Nat := match e with | some x => x | none => if c.check then some c.expect.toNat else none;
     decide (s.running (.collate q) = some y) && decide (s.ticket? y.n = some y) && decide (y.live = true)
     && decide (y.op = .collateClose q.val e) && decide (want = none)),
   (let s : State := withTicket (colOpen) ({ n := 511, queue := .collate 3, owner := .host .desk, op := .collateClose 3 (some (some (crcValue (Collator.crc { set := 0 }) 0))), st := .running } : Ticket);
     let q : Fin 4 := (3 : Fin 4);
     let y : Ticket := ({ n := 511, queue := .collate 3, owner := .host .desk, op := .collateClose 3 (some (some (crcValue (Collator.crc { set := 0 }) 0))), st := .running } : Ticket);
     let e : Option (Option Nat) := (some (some (crcValue (Collator.crc { set := 0 }) 0)) : Option (Option Nat));
     let c := s.col q.val; let v := crcValue c.crc c.reg;
     let want : Option Nat := match e with | some x => x | none => if c.check then some c.expect.toNat else none;
     decide (s.running (.collate q) = some y) && decide (s.ticket? y.n = some y) && decide (y.live = true)
     && decide (y.op = .collateClose q.val e) && decide (want = some v)),
   (let s : State := withTicket (colOpen) ({ n := 511, queue := .collate 3, owner := .host .desk, op := .collateClose 3 (some (some (crcValue (Collator.crc { set := 0 }) 0 + 1))), st := .running } : Ticket);
     let q : Fin 4 := (3 : Fin 4);
     let y : Ticket := ({ n := 511, queue := .collate 3, owner := .host .desk, op := .collateClose 3 (some (some (crcValue (Collator.crc { set := 0 }) 0 + 1))), st := .running } : Ticket);
     let e : Option (Option Nat) := (some (some (crcValue (Collator.crc { set := 0 }) 0 + 1)) : Option (Option Nat));
     let c := s.col q.val; let v := crcValue c.crc c.reg; let x := (crcValue (Collator.crc { set := 0 }) 0 + 1);
     let want : Option Nat := match e with | some x => x | none => if c.check then some c.expect.toNat else none;
     decide (s.running (.collate q) = some y) && decide (s.ticket? y.n = some y) && decide (y.live = true)
     && decide (y.op = .collateClose q.val e) && decide (want = some x) && decide (x ≠ v))
   ] : List Bool).all (fun b => b) = true := by decide

/-- States and operands that meet the hypotheses of each clause of `Obligations.OrderEventsTakeEffect`. -/
theorem test_witness_order_events_take_effect : ([
   (let s : State := running; let k : Fin 32 := (31 : Fin 32); decide (vget s.orders.next k.val none = none)),
   (let s : State := { ordered with orders := { ordered.orders with next := vset ordered.orders.next 31 (some 0) }, pwr := { up.pwr with state := .dormant } };
     let k : Fin 32 := (31 : Fin 32); let at_ : Nat := 0; decide (vget s.orders.next k.val none = some at_)
     && decide (s.awake = false)),
   (let s : State := { ordered with orders := { ordered.orders with next := vset ordered.orders.next 31 (some 0) } };
     let k : Fin 32 := (31 : Fin 32); let at_ : Nat := 0; let x := anOrder;
     decide (vget s.orders.next k.val none = some at_) && decide (s.awake = true) && decide (at_ ≤ s.now)
     && decide (s.dueList = [(at_, 1, k.val)]) && decide (s.slot k.val = some x) && decide (s.orders.run = none) && decide (s.orders.pending = [])),
   (let s : State := { running with orders := { running.orders with next := vset running.orders.next 31 (some 0) } };
     let k : Fin 32 := (31 : Fin 32); let r : Run := aRun; let at_ : Nat := 0;
     decide (vget s.orders.next k.val none = some at_) && decide (s.awake = true) && decide (at_ ≤ s.now)
     && decide (s.dueList = [(at_, 1, k.val)]) && decide (s.orders.run = some r) && decide (r.k = k.val)),
   (let s : State := up; decide (s.orders.run = none)),
   (let s : State := up; decide (s.orders.run = none)),
   (let s : State := up; decide (s.orders.run = none)),
   (let s : State := { ordered with orders := { ordered.orders with run := some ({ k := 31, slot := anOrder, ready := 0, afterReady := true } : Run) } };
     let r : Run := ({ k := 31, slot := anOrder, ready := 0, afterReady := true } : Run); decide (s.orders.run = some r)
     && decide (r.afterReady = true)),
   (let s : State := { ordered with orders := { ordered.orders with run := some ({ k := 31, slot := ({ anOrder with lines := ["PWR MEASURE"] } : OrderSlot), ready := 0 } : Run) } };
     let r : Run := ({ k := 31, slot := ({ anOrder with lines := ["PWR MEASURE"] } : OrderSlot), ready := 0 } : Run);
     let temp : Int := (100 : Int); let text := "PWR MEASURE";
     let r1 : Run := { r with started := some (r.started.getD s.day.cyc) };
     let s1 : State := { s with orders := { s.orders with said := .nothing, run := some r1 } };
     let p := (lexedGood (lexOrder text)); let u := (); let n := 0; decide (s.orders.run = some r)
     && decide (s.inRun = true) && decide (r.await = .next) && decide (r.stopping = none) && decide (r.afterReady = false)
     && decide (r.ready ≤ s.day.cyc) && decide (s.sys.pendingReset = none) && decide (r.slot.lines[r.line]? = some text)
     && decide (isGood (lexOrder text)) && decide ((s1.rowFor temp (.order r.k) .absent p).isOk)
     && decide (saidOf (s1.rowFor temp (.order r.k) .absent p) s1 (fun u => u.orders.run == some r1 && u.sys.pendingReset.isNone))
     && decide (saidOf (s1.rowFor temp (.order r.k) .absent p) s1 (fun u => u.orders.said == .ticket n))
     && decide (true = true) && decide (true = true)),
   (let s : State := running; let r : Run := aRun; let temp : Int := (100 : Int); let text := "STAT";
     let r1 : Run := { r with started := some (r.started.getD s.day.cyc) };
     let s1 : State := { s with orders := { s.orders with said := .nothing, run := some r1 } };
     let p := (lexedGood (lexOrder text)); let u := (); decide (s.orders.run = some r) && decide (s.inRun = true)
     && decide (r.await = .next) && decide (r.stopping = none) && decide (r.afterReady = false)
     && decide (r.ready ≤ s.day.cyc) && decide (s.sys.pendingReset = none) && decide (r.slot.lines[r.line]? = some text)
     && decide (isGood (lexOrder text)) && decide ((s1.rowFor temp (.order r.k) .absent p).isOk)
     && decide (saidOf (s1.rowFor temp (.order r.k) .absent p) s1 (fun u => u.orders.run == some r1 && u.sys.pendingReset.isNone))
     && decide (saidOf (s1.rowFor temp (.order r.k) .absent p) s1 (fun u => u.orders.said == .ok)) && decide (true = true)
     && decide (true = true) && decide (r.line + 1 < r.slot.lines.length)),
   (let s : State := { ordered with orders := { ordered.orders with run := some ({ k := 31, slot := ({ anOrder with lines := ["#", "STAT"], cont := true, retries := 0 } : OrderSlot), ready := 0 } : Run) } };
     let r : Run := ({ k := 31, slot := ({ anOrder with lines := ["#", "STAT"], cont := true, retries := 0 } : OrderSlot), ready := 0 } : Run);
     let text := "#"; decide (s.orders.run = some r) && decide (s.inRun = true) && decide (r.await = .next)
     && decide (r.stopping = none) && decide (r.afterReady = false) && decide (r.ready ≤ s.day.cyc)
     && decide (s.sys.pendingReset = none) && decide (r.slot.lines[r.line]? = some text) && decide (isBad (lexOrder text))
     && decide (r.slot.cont = true) && decide (r.line + 1 < r.slot.lines.length)),
   (let s : State := { ordered with orders := { ordered.orders with run := some ({ k := 31, slot := ({ anOrder with lines := ["#", "STAT"], cont := false, retries := 1 } : OrderSlot), ready := 0 } : Run) } };
     let r : Run := ({ k := 31, slot := ({ anOrder with lines := ["#", "STAT"], cont := false, retries := 1 } : OrderSlot), ready := 0 } : Run);
     let text := "#"; decide (s.orders.run = some r) && decide (s.inRun = true) && decide (r.await = .next)
     && decide (r.stopping = none) && decide (r.afterReady = false) && decide (r.ready ≤ s.day.cyc)
     && decide (s.sys.pendingReset = none) && decide (r.slot.lines[r.line]? = some text) && decide (isBad (lexOrder text))
     && decide (r.slot.cont = false) && decide (r.retriesUsed < r.slot.retries)),
   (let s : State := { ordered with orders := { ordered.orders with run := some ({ k := 31, slot := ({ anOrder with lines := ["#", "STAT"], cont := false, retries := 0 } : OrderSlot), ready := 0 } : Run) } };
     let r : Run := ({ k := 31, slot := ({ anOrder with lines := ["#", "STAT"], cont := false, retries := 0 } : OrderSlot), ready := 0 } : Run);
     let text := "#"; decide (s.orders.run = some r) && decide (s.inRun = true) && decide (r.await = .next)
     && decide (r.stopping = none) && decide (r.afterReady = false) && decide (r.ready ≤ s.day.cyc)
     && decide (s.sys.pendingReset = none) && decide (r.slot.lines[r.line]? = some text) && decide (isBad (lexOrder text))
     && decide (r.slot.cont = false) && decide (r.slot.retries ≤ r.retriesUsed) && decide (r.k < 32)),
   (let s : State := running; let r : Run := aRun; decide (s.orders.run = some r) && decide (r.slot.limitMs = 0)),
   (let s : State := { ordered with orders := { ordered.orders with run := some ({ k := 31, slot := ({ anOrder with limitMs := 1 } : OrderSlot), ready := 0, started := some 0 } : Run) } };
     let r : Run := ({ k := 31, slot := ({ anOrder with limitMs := 1 } : OrderSlot), ready := 0, started := some 0 } : Run);
     let c : Nat := 0; decide (s.orders.run = some r) && decide (r.started = some c)
     && decide (s.day.cyc < c + r.slot.limitMs * tickMs)),
   (let s : State := { ordered with orders := { ordered.orders with run := some ({ k := 31, slot := ({ anOrder with limitMs := 1 } : OrderSlot), ready := 0, started := some 0 } : Run) }, day := { up.day with cyc := tickMs } };
     let r : Run := ({ k := 31, slot := ({ anOrder with limitMs := 1 } : OrderSlot), ready := 0, started := some 0 } : Run);
     let c : Nat := 0; decide (s.orders.run = some r) && decide (s.inRun = true) && decide (0 < r.slot.limitMs)
     && decide (r.started = some c) && decide (r.stopping = none) && decide (r.await = .next) && decide (r.k < 32)
     && decide (c + r.slot.limitMs * tickMs ≤ s.day.cyc)),
   (let s : State := { ordered with orders := { ordered.orders with run := some ({ k := 31, slot := anOrder, ready := 0, await := .waitUntil 1 } : Run) } };
     let r : Run := ({ k := 31, slot := anOrder, ready := 0, await := .waitUntil 1 } : Run); let c : Nat := 1;
     decide (s.orders.run = some r) && decide (r.await = .waitUntil c) && decide (s.day.cyc < c)),
   (let s : State := { ordered with orders := { ordered.orders with run := some ({ k := 31, slot := anOrder, ready := 0, await := .waitUntil 0 } : Run) } };
     let r : Run := ({ k := 31, slot := anOrder, ready := 0, await := .waitUntil 0 } : Run); let c : Nat := 0;
     decide (s.orders.run = some r) && decide (r.await = .waitUntil c) && decide (c ≤ s.day.cyc)
     && decide (r.stopping = none) && decide (r.line + 1 < r.slot.lines.length)),
   (let s : State := { ordered with orders := { ordered.orders with run := some ({ k := 31, slot := anOrder, ready := 0, await := .waitUntil 0, line := 1 } : Run) } };
     let r : Run := ({ k := 31, slot := anOrder, ready := 0, await := .waitUntil 0, line := 1 } : Run); let c : Nat := 0;
     decide (s.orders.run = some r) && decide (r.await = .waitUntil c) && decide (c ≤ s.day.cyc)
     && decide (r.stopping = none) && decide (r.slot.lines.length ≤ r.line + 1) && decide (r.k < 32)),
   (let s : State := running; let r : Run := aRun; decide (s.orders.run = some r) && decide (r.await = .next))
   ] : List Bool).all (fun b => b) = true := by decide

/-- States and operands that meet the hypotheses of each clause of `Obligations.SwitchEventsTakeEffect`. -/
theorem test_witness_switch_events_take_effect : ([
   (let s : State := { up with ssw := { up.ssw with st := .ramp } }; decide (s.ssw.st = .ramp)),
   (let s : State := up; decide (s.ssw.st ≠ .ramp)),
   (let s : State := up; decide (s.ssw.st ≠ .ramp)),
   (let s : State := { up with ssw := { up.ssw with st := .ramp, ramped := true } }; let sswOut : Nat := 1440;
     let sswIn : Nat := 1600; decide (s.ssw.st = .ramp) && decide (s.ssw.ramped = true)
     && decide (9 * sswIn ≤ 10 * sswOut) && decide (1600 ≤ sswIn)),
   (let s : State := { up with ssw := { up.ssw with st := .ramp, ramped := true } }; let sswOut : Nat := 1439;
     let sswIn : Nat := 1600; decide (s.ssw.st = .ramp) && decide (s.ssw.ramped = true)
     && decide (10 * sswOut < 9 * sswIn)),
   (let s : State := { up with ssw := { up.ssw with st := .ramp, limit := true } }; decide (s.ssw.limit = true)
     && decide (s.ssw.st = .ramp) && decide (s.ssw.ramped = false)),
   (let s : State := { up with ssw := { up.ssw with st := .on, limit := true } }; decide (s.ssw.limit = true)
     && decide (s.ssw.st = .on)),
   (let s : State := up; decide (s.ssw.limit = false)),
   (let s : State := { up with pwr := { up.pwr with state := .dormant }, pads := { up.pads with held := 0x800000, heldLevel := 0x800000 } };
     decide (s.sswHeldOn = true)),
   (let s : State := { up with pwr := { up.pwr with state := .dormant }, pads := { up.pads with held := 0x800000, heldLevel := 0x800000 } };
     decide (s.sswHeldOn = true)),
   (let s : State := up; decide (s.sswHeldOn = false)),
   (let s : State := sswOnSt; decide (s.sswHeldOn = false) && decide (s.awake = true) && decide (s.ssw.st = .on)),
   (let s : State := up; decide (s.sswHeldOn = false) && decide (s.ssw.st = .off)),
   (let s : State := sswOnSt; decide (s.ssw.st = .on)),
   (let s : State := up; decide (s.ssw.st = .off)),
   (let s : State := up; decide (s.has .ssw = true)),
   (let s : State := { up with part := .vg42 }; decide (s.has .ssw = false))
   ] : List Bool).all (fun b => b) = true := by decide

/-- States and operands that meet the hypotheses of each clause of `Obligations.TamperEventsTakeEffect`. -/
theorem test_witness_tamper_events_take_effect : ([
   (let s : State := up; decide (s.senses 1 = false)),
   (let s : State := { up with cfg := { up.cfg with pins := { up.cfg.pins with tamper := 1 } } };
     let level : Bool := false; decide (s.senses 1 = true) && decide (s.tampActive level = false)),
   (let s : State := { up with cfg := { up.cfg with pins := { up.cfg.pins with tamper := 1 } } };
     let level : Bool := true; decide (s.senses 1 = true) && decide (s.tampActive level = true)
     && decide (s.tamper.level = false)
     && decide (s.inRun = true ∧ s.tamper.latched = false ∧ s.tamper.owed = none ∧ s.tamper.resp = none ∧ s.running .vault = none)),
   (let s : State := up; decide (s.senses 2 = false)),
   (let s : State := { up with cfg := { up.cfg with pins := { up.cfg.pins with tamper := 2 } } };
     decide (s.senses 2 = true) && decide (s.tamper.seenOnce = false)),
   (let s : State := { up with cfg := { up.cfg with pins := { up.cfg.pins with tamper := 2 } }, tamper := { up.tamper with seenOnce := true } };
     let level : Bool := true; decide (s.senses 2 = true) && decide (s.tampActive level = true)
     && decide (s.tamper.seenOnce = true)
     && decide (s.inRun = true ∧ s.tamper.latched = false ∧ s.tamper.owed = none ∧ s.tamper.resp = none ∧ s.running .vault = none)),
   (let s : State := up; decide (bit s.cfg.pins.tamper 4 = false)),
   (let s : State := { up with cfg := { up.cfg with pins := { up.cfg.pins with tamper := 0x10 } } };
     decide (bit s.cfg.pins.tamper 4 = true)
     && decide (s.inRun = true ∧ s.tamper.latched = false ∧ s.tamper.owed = none ∧ s.tamper.resp = none ∧ s.running .vault = none)),
   (let s : State := up; decide (s.tamper.resp = none)),
   (let s : State := { up with tamper := { up.tamper with resp := some ({ what := { source := 1, ctx := 1, period := 0 }, at_ := 0, erased := 0 } : TamperResp) } };
     let r : TamperResp := ({ what := { source := 1, ctx := 1, period := 0 }, at_ := 0, erased := 0 } : TamperResp);
     decide (s.tamper.resp = some r) && decide (s.tamper.owed = none))
   ] : List Bool).all (fun b => b) = true := by decide

/-- States and operands that meet the hypotheses of each clause of `Obligations.PinEdgesTakeEffect`. -/
theorem test_witness_pin_edges_take_effect : ([
   (let s : State := up; let n : Fin 8 := (7 : Fin 8); let level : Bool := true; let e := fld (s.gpioCfg n.val) 9 8;
     let selected : Bool := if level then decide (e % 2 = 1) else decide (2 ≤ e); decide (selected = false)),
   (let s : State := { up with cfg := { up.cfg with pins := { up.cfg.pins with gpio := vset up.cfg.pins.gpio 7 0x100 } } };
     let n : Fin 8 := (7 : Fin 8); let level : Bool := true; let e := fld (s.gpioCfg n.val) 9 8;
     let selected : Bool := if level then decide (e % 2 = 1) else decide (2 ≤ e); decide (s.awake = true)
     && decide (s.gpioFn n.val = 0) && decide (s.gpio.filt.getLsbD n.val ≠ level) && decide (selected = true)),
   (let s : State := up; let level : Bool := true; decide (s.pads.wakeIn = level)),
   (let s : State := { up with cfg := { up.cfg with sys := { up.cfg.sys with dorm := 0x40 } } };
     let level : Bool := false; decide (s.pads.wakeIn ≠ level) && decide (s.awake = true)
     && decide (s.wakeInOn level = false)),
   (let s : State := up; let level : Bool := false; decide (s.pads.wakeIn ≠ level) && decide (s.awake = true)
     && decide (s.wakeInOn level = true)),
   (let s : State := { up with sys := { up.sys with stage := .vault } }; let level : Bool := false;
     decide (s.pads.wakeIn ≠ level) && decide (s.booting = true) && decide (s.awake = false)
     && decide (s.pwr.wakeInEdge = none)),
   (let s : State := { up with pwr := { up.pwr with state := .dormant } }; let level : Bool := false;
     decide (s.pads.wakeIn ≠ level) && decide (s.booting = false) && decide (s.pwr.state = .dormant)
     && decide (s.wakeInOn level = true) && decide (s.pwr.vddioOk = true) && decide (s.pwr.wakeInEdge = none))
   ] : List Bool).all (fun b => b) = true := by decide

/-- States and operands that meet the hypotheses of each clause of `Obligations.TicketNumbersAscend`. -/
theorem test_witness_ticket_numbers_ascend : ([
   (let s : State := queued; let n := 0; decide (s.tickets.last.all (fun m => decide (m < 512)))
     && decide (s.nextNumber = some n)),
   (let s : State := queued; let n := 0; decide (s.tickets.last.all (fun m => decide (m < 512)))
     && decide (s.nextNumber = some n)),
   (let s : State := ({ up with tickets := { up.tickets with pool := [{ aTicket with n := 4 }, { aTicket with n := 0 }], last := some 3 } });
     let n := 5; let m := 3; let j := 4; decide (s.tickets.last.all (fun m => decide (m < 512)))
     && decide (s.nextNumber = some n) && decide (s.tickets.last = some m) && decide (m < n) && decide (m < j)
     && decide (j < n)),
   (let s : State := { up with tickets := { up.tickets with pool := [{ aTicket with n := 511 }], last := some 510 } };
     let n := 0; let m := 510; let j := 511; decide (s.tickets.last.all (fun m => decide (m < 512)))
     && decide (s.nextNumber = some n) && decide (s.tickets.last = some m) && decide (n ≤ m) && decide (m < j)
     && decide (j < 512)),
   (let s : State := { up with tickets := { up.tickets with pool := [{ aTicket with n := 511 }, { aTicket with n := 0 }], last := some 510 } };
     let n := 1; let m := 510; let j := 0; decide (s.tickets.last.all (fun m => decide (m < 512)))
     && decide (s.nextNumber = some n) && decide (s.tickets.last = some m) && decide (n ≤ m) && decide (j < n)),
   (let s : State := { up with tickets := { up.tickets with pool := [{ aTicket with n := 0 }] } }; let n := 1; let j := 0;
     decide (s.tickets.last.all (fun m => decide (m < 512))) && decide (s.nextNumber = some n)
     && decide (s.tickets.last = none) && decide (j < n)),
   (let s : State := up; decide (s.tickets.last.all (fun m => decide (m < 512))) && decide (s.tickets = {})),
   (let s : State := queued; decide (s.tickets.last.all (fun m => decide (m < 512)))
     && decide (s.tickets.pool.length < 512))
   ] : List Bool).all (fun b => b) = true := by decide

/-- States and operands that meet the hypotheses of each clause of `Obligations.SlipsMoveTheirElements`. -/
theorem test_witness_slips_move_their_elements : ([
   (let x : PRun := pRun;
     let sl : Slip := ({ next := 0x18020, last := true, src := 0x20000, dst := 0x3FFFC, size := 4, shelf := false, walkDst := false, other := 4, c0 := 65535, s0 := 4, c1 := 65535, c2 := 2 } : Slip);
     let i : Nat := 65535 * 65535 * 2 - 1; decide (x.k0 = 0) && decide (x.k1 = 0) && decide (x.k2 = 0)
     && decide (x.p < 2 ^ 32) && decide (0 < sl.c0) && decide (sl.shelf = false) && decide (0 < sl.c1)
     && decide (0 < sl.c2) && decide (i < sl.c0 * sl.c1 * sl.c2)),
   (let x : PRun := pRun;
     let sl : Slip := ({ next := 0x18020, last := true, src := 0x20000, dst := 0x3FFFC, size := 4, shelf := false, walkDst := false, other := 4, c0 := 65535, s0 := 4, c1 := 65535, c2 := 2 } : Slip);
     let i : Nat := 65535 * 65535 * 2; decide (x.k0 = 0) && decide (x.k1 = 0) && decide (x.k2 = 0)
     && decide (x.p < 2 ^ 32) && decide (0 < sl.c0) && decide (sl.shelf = false) && decide (0 < sl.c1)
     && decide (0 < sl.c2) && decide (sl.c0 * sl.c1 * sl.c2 ≤ i)),
   (let x : PRun := pRun;
     let sl : Slip := ({ next := 0x18020, last := true, src := 0x20000, dst := 0x3FFFC, size := 4, shelf := true, walkDst := false, other := 4, c0 := 2, s0 := 4, n := 65535 } : Slip);
     let i : Nat := 65535 * 2 - 1; decide (x.k0 = 0) && decide (x.k1 = 0) && decide (x.k2 = 0) && decide (x.p < 2 ^ 32)
     && decide (0 < sl.c0) && decide (sl.shelf = true) && decide (0 < sl.n) && decide (i < sl.n * sl.c0)),
   (let x : PRun := pRun;
     let sl : Slip := ({ next := 0x18020, last := true, src := 0x20000, dst := 0x3FFFC, size := 4, shelf := true, walkDst := false, other := 4, c0 := 2, s0 := 4, n := 65535 } : Slip);
     let i : Nat := 65535 * 2; decide (x.k0 = 0) && decide (x.k1 = 0) && decide (x.k2 = 0) && decide (x.p < 2 ^ 32)
     && decide (0 < sl.c0) && decide (sl.shelf = true) && decide (0 < sl.n) && decide (sl.n * sl.c0 ≤ i))
   ] : List Bool).all (fun b => b) = true := by decide

/-- States and operands that meet the hypotheses of each clause of `Obligations.CcmOpensExactlyWhatItSeals`. -/
theorem test_witness_ccm_opens_exactly_what_it_seals : ([
   (let key : List Nat := (List.replicate 16 0); let nonce : List Nat := (List.replicate 13 0); decide (key.length = 16)
     && decide (nonce.length = 13))
   ] : List Bool).all (fun b => b) = true := by decide

/-- States and operands that meet the hypotheses of each clause of `Obligations.CarrelsReadBack`. -/
theorem test_witness_carrels_read_back : ([
   (let s : State := slipped; decide (Memory.wf none s.store.carrels = true)),
   (let s : State := slipped; let a : Nat := 0x3FFFF; let b : Nat := 0x3FFFE; let o : List Byte := [1#8];
     decide (Memory.wf none s.store.carrels = true) && decide (b < a ∨ a + o.length ≤ b))
   ] : List Bool).all (fun b => b) = true := by decide

/-- States and operands that meet the hypotheses of each clause of `Obligations.SchedulesTakeLeastTime`. -/
theorem test_witness_schedules_take_least_time : ([
   (let x : OrderSlot := ({ anOrder with trigger := .schedule 2 1 } : OrderSlot); let e : Nat := 2; let p : Nat := 1;
     decide (x.enabled = true) && decide (x.trigger = .schedule e p) && decide (p < e))
   ] : List Bool).all (fun b => b) = true := by decide

/-- States and operands that meet the hypotheses of each clause of `Obligations.CommandTriggersStartAnyOrder`. -/
theorem test_witness_command_triggers_start_any_order : ([
   (let s : State := withTicket (ordered) ({ n := 511, queue := .orders, owner := .host .desk, op := .orderRun 31 } : Ticket);
     let k : Nat := 31; let x : OrderSlot := anOrder;
     let y : Ticket := ({ n := 511, queue := .orders, owner := .host .desk, op := .orderRun 31 } : Ticket);
     decide (s.slot k = some x) && decide (s.orders.run = none) && decide (s.orders.pending = [])
     && decide (s.head .orders = some y) && decide (y.op = .orderRun k) && decide (y.unstarted = true)
     && decide (y.after = none) && decide (y.due = none) && decide (y.guard = none) && decide (y.startAt = none)
     && decide (y.timed = false) && decide (s.awake = true)),
   (let s : State := alarmed; let k : Nat := 31; let x : OrderSlot := anOrder; let a : Fin 4 := (3 : Fin 4);
     decide (s.slot k = some x) && decide (s.orders.run = none) && decide (s.orders.pending = [])
     && decide (s.awake = true) && decide (s.dueList = [((s.alarm a.val).at_.toNat, 0, a.val)])
     && decide (s.alarmDue a.val = true) && decide ((s.alarm a.val).order = some k)),
   (let s : State := { up with orders := { up.orders with slots := vset up.orders.slots 31 (some ({ anOrder with enabled := false, trigger := .event 1 } : OrderSlot)) } };
     let k : Nat := 31; let x : OrderSlot := ({ anOrder with enabled := false, trigger := .event 1 } : OrderSlot);
     decide (s.slot k = some x) && decide (x.enabled = false)),
   (let s : State := { up with orders := { up.orders with slots := vset up.orders.slots 31 (some ({ anOrder with enabled := false, trigger := .event 1 } : OrderSlot)) } };
     let k : Nat := 31; let x : OrderSlot := ({ anOrder with enabled := false, trigger := .event 1 } : OrderSlot);
     let j : Fin 32 := (31 : Fin 32); decide (s.slot k = some x) && decide (x.enabled = false) && decide (j.val = k)),
   (let s : State := { up with orders := { up.orders with slots := vset up.orders.slots 31 (some ({ anOrder with enabled := false, trigger := .event 1 } : OrderSlot)) } };
     let k : Nat := 31; let x : OrderSlot := ({ anOrder with enabled := false, trigger := .event 1 } : OrderSlot);
     decide (s.slot k = some x) && decide (x.enabled = false)
     && decide ((List.range 32).all (fun j => match s.slot j with | some z => !z.enabled | none => true))),
   (let s : State := { up with orders := { up.orders with slots := vset up.orders.slots 31 (some ({ anOrder with enabled := false, trigger := .event 1 } : OrderSlot)), run := some ({ k := 31, slot := ({ anOrder with enabled := false, trigger := .event 1 } : OrderSlot), ready := 0 } : Run) } };
     let k : Nat := 31; let x : OrderSlot := ({ anOrder with enabled := false, trigger := .event 1 } : OrderSlot);
     let n := 1; let fields := ([] : List Tok); decide (s.slot k = some x) && decide (x.enabled = false)
     && decide ((s.fire n fields).orders.run.map (·.k) = some k)),
   (let s : State := { up with orders := { up.orders with slots := vset up.orders.slots 31 (some ({ anOrder with enabled := false, trigger := .event 1 } : OrderSlot)), pending := [{ k := 31 }] } };
     let k : Nat := 31; let x : OrderSlot := ({ anOrder with enabled := false, trigger := .event 1 } : OrderSlot);
     let n := 1; let fields := ([] : List Tok); decide (s.slot k = some x) && decide (x.enabled = false)
     && decide ((s.fire n fields).orders.pending.any (·.k == k) = true))
   ] : List Bool).all (fun b => b) = true := by decide

end Sys2Proof.Tests
end

section
/-! The step on a queue that holds a command. -/

open Sys2Proof Sys2Proof.Machine

/-- Settles O1: of the two arms of the step, the queue's constructor selects the one that runs its front. The queue of
commands is the model's own choice (log entries 8 and 11). -/
theorem stepRunsFrontCommand : Obligations.StepRunsFrontCommand := by
  intro s c rest hpending
  rw [step, hpending]

end

section
/-! Every step goes on: the part and the canonical stores are kept, and the queue loses its front command alone. -/

open Sys2Proof Sys2Proof.Machine

namespace Sys2Proof.Machine

/-- No command stops the part or touches its queue: for each row of the table, the lemma about that row's meaning. -/
theorem exec_runs (c : Instr) (s : State) : Runs s (exec c s) :=
  match c with
  | .powerOn => execPowerOn_runs s
  | .por => execPor_runs s
  | .borRun => execBorRun_runs s
  | .borRelease => execBorRelease_runs s
  | .borDormant => execBorDormant_runs s
  | .nrstReset => execNrstReset_runs s
  | .nrstRelease => execNrstRelease_runs s
  | .testModeEntry => execTestModeEntry_runs s
  | .vddioLoss => execVddioLoss_runs s
  | .vddioRestore => execVddioRestore_runs s
  | .oscillatorRestart => execOscillatorRestart_runs s
  | .powerStageEnd temp keeper ticks => execPowerStageEnd_runs temp keeper ticks s
  | .bringupRecord found => execBringupRecord_runs found s
  | .bringupTrim => execBringupTrim_runs s
  | .bringupLedger => execBringupLedger_runs s
  | .bringupVault testPassed => execBringupVault_runs testPassed s
  | .bringupOrders damaged => execBringupOrders_runs damaged s
  | .bringupReady => execBringupReady_runs s
  | .seqWatchdog => execSeqWatchdog_runs s
  | .deskOctet b stopLow => execDeskOctet_runs b stopLow s
  | .deskBreak => execDeskBreak_runs s
  | .autobaudCharacter startTicks lowTicks => execAutobaudCharacter_runs startTicks lowTicks s
  | .blockTimeout p => execBlockTimeout_runs p s
  | .lineError p text lost => execLineError_runs p text lost s
  | .chuteCsFall mode3 => execChuteCsFall_runs mode3 s
  | .chuteOctet b => execChuteOctet_runs b s
  | .chuteCsRise => execChuteCsRise_runs s
  | .chuteReplyTimeout => execChuteReplyTimeout_runs s
  | .lineSent p => execLineSent_runs p s
  | .commandReset => execCommandReset_runs s
  | .mode l => execMode_runs l s
  | .desk l => execDesk_runs l s
  | .help l => execHelp_runs l s
  | .id l => execId_runs l s
  | .idAll l => execIdAll_runs l s
  | .stat l => execStat_runs l s
  | .reset l => execReset_runs l s
  | .pins l => execPins_runs l s
  | .pwr l => execPwr_runs l s
  | .pwrMeasure l => execPwrMeasure_runs l s
  | .measurementDone vbat vddio vddpa => execMeasurementDone_runs vbat vddio vddpa s
  | .rd l => execRd_runs l s
  | .get l => execGet_runs l s
  | .registerWrite f l => execRegisterWrite_runs f l s
  | .counterWrite f l => execCounterWrite_runs f l s
  | .eventsPendWrite f l => execEventsPendWrite_runs f l s
  | .sysAlertClear f l => execSysAlertClear_runs f l s
  | .carrelLostClear f l => execCarrelLostClear_runs f l s
  | .ordersDamagedClear f l => execOrdersDamagedClear_runs f l s
  | .deskConfigWrite f l => execDeskConfigWrite_runs f l s
  | .chuteConfigWrite f l => execChuteConfigWrite_runs f l s
  | .dormConfigWrite f l => execDormConfigWrite_runs f l s
  | .sysPadDriveWrite f l => execSysPadDriveWrite_runs f l s
  | .pwrVbatWarnWrite f l => execPwrVbatWarnWrite_runs f l s
  | .radioChanWrite f l => execRadioChanWrite_runs f l s
  | .radioTxConfigWrite f l => execRadioTxConfigWrite_runs f l s
  | .radioPlanWrite f l => execRadioPlanWrite_runs f l s
  | .modemConfigWrite f l => execModemConfigWrite_runs f l s
  | .censusConfigWrite f l => execCensusConfigWrite_runs f l s
  | .frameConfigWrite f l => execFrameConfigWrite_runs f l s
  | .frameFilterWrite f l => execFrameFilterWrite_runs f l s
  | .linkConfigWrite f l => execLinkConfigWrite_runs f l s
  | .ticketsConfigWrite f l => execTicketsConfigWrite_runs f l s
  | .eventsMaskWrite f l => execEventsMaskWrite_runs f l s
  | .eventsAttnConfigWrite f l => execEventsAttnConfigWrite_runs f l s
  | .vaultConfigWrite f l => execVaultConfigWrite_runs f l s
  | .vaultFcWrite f l => execVaultFcWrite_runs f l s
  | .collateFeedWrite f l => execCollateFeedWrite_runs f l s
  | .collateCompareWrite f l => execCollateCompareWrite_runs f l s
  | .gpioOutWrite f l => execGpioOutWrite_runs f l s
  | .gpioConfigWrite f l => execGpioConfigWrite_runs f l s
  | .tamperConfigWrite f l => execTamperConfigWrite_runs f l s
  | .ticket l => execTicket_runs l s
  | .cancel l => execCancel_runs l s
  | .cancelAll l => execCancelAll_runs l s
  | .ret l => execRet_runs l s
  | .retAll l => execRetAll_runs l s
  | .edition l => execEdition_runs l s
  | .ticketHead q => execTicketHead_runs q s
  | .ticketTimedStart q => execTicketTimedStart_runs q s
  | .ticketOverdue n => execTicketOverdue_runs n s
  | .event l => execEvent_runs l s
  | .eventClear l => execEventClear_runs l s
  | .eventMask l => execEventMask_runs l s
  | .eventRaise l => execEventRaise_runs l s
  | .eventAttn l => execEventAttn_runs l s
  | .eventSave l => execEventSave_runs l s
  | .deferredEvent => execDeferredEvent_runs s
  | .attnMinWidthEnd => execAttnMinWidthEnd_runs s
  | .dormant l => execDormant_runs l s
  | .dorm l => execDorm_runs l s
  | .padsRelease l => execPadsRelease_runs l s
  | .dormantAttempt temp => execDormantAttempt_runs temp s
  | .autoDormant temp => execAutoDormant_runs temp s
  | .entryPadLatch lag => execEntryPadLatch_runs lag s
  | .entryComplete => execEntryComplete_runs s
  | .entryWatchdog => execEntryWatchdog_runs s
  | .wakeSourceRegistered src level => execWakeSourceRegistered_runs src level s
  | .quietWakeOrigin => execQuietWakeOrigin_runs s
  | .wakeRegRdy ready released => execWakeRegRdy_runs ready released s
  | .wakeOscRdy ready => execWakeOscRdy_runs ready s
  | .wakeResumeEdge keeper => execWakeResumeEdge_runs keeper s
  | .wakeLogicRdy temp memory logic => execWakeLogicRdy_runs temp memory logic s
  | .wakeReadyLine => execWakeReadyLine_runs s
  | .sniffEnd => execSniffEnd_runs s
  | .arrayPowerUpEnd => execArrayPowerUpEnd_runs s
  | .stacksPowerDown => execStacksPowerDown_runs s
  | .day l => execDay_runs l s
  | .dayStatus l => execDayStatus_runs l s
  | .daySet l => execDaySet_runs l s
  | .daySlew l => execDaySlew_runs l s
  | .slewTick => execSlewTick_runs s
  | .keeper temp l => execKeeper_runs temp l s
  | .keeperTable l => execKeeperTable_runs l s
  | .keeperForget temp l => execKeeperForget_runs temp l s
  | .keeperRef temp l => execKeeperRef_runs temp l s
  | .keeperRunning => execKeeperRunning_runs s
  | .keeperPeriodFault => execKeeperPeriodFault_runs s
  | .keeperEdgeTimeout => execKeeperEdgeTimeout_runs s
  | .driftWindowClose temp ticks => execDriftWindowClose_runs temp ticks s
  | .alarmReport l => execAlarmReport_runs l s
  | .alarmArm l => execAlarmArm_runs l s
  | .alarmOff l => execAlarmOff_runs l s
  | .alarmFire a => execAlarmFire_runs a s
  | .bandReport l => execBandReport_runs l s
  | .bandSet l => execBandSet_runs l s
  | .bandClear l => execBandClear_runs l s
  | .chan l => execChan_runs l s
  | .txSettings l => execTxSettings_runs l s
  | .txCw l => execTxCw_runs l s
  | .rx l => execRx_runs l s
  | .rxStatus l => execRxStatus_runs l s
  | .synthLock => execSynthLock_runs s
  | .lockTimeout => execLockTimeout_runs s
  | .lockLost => execLockLost_runs s
  | .keyingLead pa => execKeyingLead_runs pa s
  | .keying => execKeying_runs s
  | .rampUpEnd => execRampUpEnd_runs s
  | .txSymbolsEnd => execTxSymbolsEnd_runs s
  | .rampDownEnd => execRampDownEnd_runs s
  | .antennaLagEnd => execAntennaLagEnd_runs s
  | .agcUpdate gain lna => execAgcUpdate_runs gain lna s
  | .rssiUpdate rssi => execRssiUpdate_runs rssi s
  | .rxDurationEnd => execRxDurationEnd_runs s
  | .profile l => execProfile_runs l s
  | .afcLimit offset => execAfcLimit_runs offset s
  | .preambleDetected chan => execPreambleDetected_runs chan s
  | .syncDeclared bits rssi afc sync => execSyncDeclared_runs bits rssi afc sync s
  | .dHeaderDecoded len => execDHeaderDecoded_runs len s
  | .frameDecision f => execFrameDecision_runs f s
  | .wakePatternDetected chan rx => execWakePatternDetected_runs chan rx s
  | .handoverHoldEnd => execHandoverHoldEnd_runs s
  | .censusSettings l => execCensusSettings_runs l s
  | .censusWatch l => execCensusWatch_runs l s
  | .censusOff l => execCensusOff_runs l s
  | .censusLevels l => execCensusLevels_runs l s
  | .censusScan l => execCensusScan_runs l s
  | .censusScanEnd => execCensusScanEnd_runs s
  | .censusWindowClose readings => execCensusWindowClose_runs readings s
  | .ccaSettings l => execCcaSettings_runs l s
  | .ccaCheck l => execCcaCheck_runs l s
  | .ccaListenEnd => execCcaListenEnd_runs s
  | .frameSettings l => execFrameSettings_runs l s
  | .frameSend l => execFrameSend_runs l s
  | .frameRead l => execFrameRead_runs l s
  | .frameFree l => execFrameFree_runs l s
  | .filter l => execFilter_runs l s
  | .ackTurnaround => execAckTurnaround_runs s
  | .ackWaitTimeout => execAckWaitTimeout_runs s
  | .backoffEnd => execBackoffEnd_runs s
  | .linkSettings l => execLinkSettings_runs l s
  | .linkAssoc l => execLinkAssoc_runs l s
  | .linkAssocLocal l => execLinkAssocLocal_runs l s
  | .linkLeave l => execLinkLeave_runs l s
  | .linkPoll l => execLinkPoll_runs l s
  | .linkSched l => execLinkSched_runs l s
  | .linkWake l => execLinkWake_runs l s
  | .assocResponseWaitEnd => execAssocResponseWaitEnd_runs s
  | .pollWindowEnd => execPollWindowEnd_runs s
  | .heldFrameTurnaround => execHeldFrameTurnaround_runs s
  | .exchangeLapse => execExchangeLapse_runs s
  | .pollScheduleDue => execPollScheduleDue_runs s
  | .heldFrameExpiry => execHeldFrameExpiry_runs s
  | .cat l => execCat_runs l s
  | .catPool l => execCatPool_runs l s
  | .catAdd l => execCatAdd_runs l s
  | .catSet l => execCatSet_runs l s
  | .catRemove l => execCatRemove_runs l s
  | .catQueue l => execCatQueue_runs l s
  | .ledger l => execLedger_runs l s
  | .tariffReport l => execTariffReport_runs l s
  | .tariffSet l => execTariffSet_runs l s
  | .tariffClear l => execTariffClear_runs l s
  | .tariffSched l => execTariffSched_runs l s
  | .tariffUnsched l => execTariffUnsched_runs l s
  | .intervalBoundary => execIntervalBoundary_runs s
  | .trimRun l => execTrimRun_runs l s
  | .trimStatus l => execTrimStatus_runs l s
  | .trimRestore l => execTrimRestore_runs l s
  | .trimPassEnd sel stats => execTrimPassEnd_runs sel stats s
  | .trimItemEnd sel stats => execTrimItemEnd_runs sel stats s
  | .censuseqTimeout => execCensuseqTimeout_runs s
  | .noise l => execNoise_runs l s
  | .noiseRawOn l => execNoiseRawOn_runs l s
  | .noiseRawOff l => execNoiseRawOff_runs l s
  | .noiseRawCapture l => execNoiseRawCapture_runs l s
  | .rawCaptureDone => execRawCaptureDone_runs s
  | .noiseStartupTestEnd passed aptFailed => execNoiseStartupTestEnd_runs passed aptFailed s
  | .noiseHealthFail apt => execNoiseHealthFail_runs apt s
  | .gradeBRefillDone => execGradeBRefillDone_runs s
  | .seedBlockDone => execSeedBlockDone_runs s
  | .drbgReseedDone => execDrbgReseedDone_runs s
  | .vault l => execVault_runs l s
  | .vaultLoad l => execVaultLoad_runs l s
  | .vaultLoadDone => execVaultLoadDone_runs s
  | .vaultErase l => execVaultErase_runs l s
  | .vaultFlags l => execVaultFlags_runs l s
  | .vaultSeal l => execVaultSeal_runs l s
  | .vaultRand l => execVaultRand_runs l s
  | .vaultRandDone => execVaultRandDone_runs s
  | .vaultCcm l => execVaultCcm_runs l s
  | .vaultCcmDone => execVaultCcmDone_runs s
  | .recordRead l => execRecordRead_runs l s
  | .recordWrite l => execRecordWrite_runs l s
  | .recordRowWriteDone => execRecordRowWriteDone_runs s
  | .carrel l => execCarrel_runs l s
  | .carrelRead l => execCarrelRead_runs l s
  | .carrelWrite l => execCarrelWrite_runs l s
  | .stacks l => execStacks_runs l s
  | .stacksPart l => execStacksPart_runs l s
  | .stacksRead l => execStacksRead_runs l s
  | .stacksWrite l => execStacksWrite_runs l s
  | .arch l => execArch_runs l s
  | .archAdd l => execArchAdd_runs l s
  | .archRead l => execArchRead_runs l s
  | .archFind l => execArchFind_runs l s
  | .archMark l => execArchMark_runs l s
  | .archDrop l => execArchDrop_runs l s
  | .porter l => execPorter_runs l s
  | .porterGo l => execPorterGo_runs l s
  | .porterSlipFetch n => execPorterSlipFetch_runs n s
  | .porterElement n => execPorterElement_runs n s
  | .slip l => execSlip_runs l s
  | .slipWrite l => execSlipWrite_runs l s
  | .collate l => execCollate_runs l s
  | .collateOpen l => execCollateOpen_runs l s
  | .collateFeed l => execCollateFeed_runs l s
  | .collateFeedDone n => execCollateFeedDone_runs n s
  | .collateClose l => execCollateClose_runs l s
  | .collateCloseCycle n => execCollateCloseCycle_runs n s
  | .orderList l => execOrderList_runs l s
  | .orderShow l => execOrderShow_runs l s
  | .orderDraft l => execOrderDraft_runs l s
  | .orderLine l => execOrderLine_runs l s
  | .orderStore l => execOrderStore_runs l s
  | .orderSet l => execOrderSet_runs l s
  | .orderErase l => execOrderErase_runs l s
  | .orderRun l => execOrderRun_runs l s
  | .orderStop l => execOrderStop_runs l s
  | .orderScheduleDue k => execOrderScheduleDue_runs k s
  | .orderLineTake temp => execOrderLineTake_runs temp s
  | .orderLimitExpiry => execOrderLimitExpiry_runs s
  | .wait l => execWait_runs l s
  | .waitClear l => execWaitClear_runs l s
  | .waitExpiry => execWaitExpiry_runs s
  | .skip l => execSkip_runs l s
  | .ssw l => execSsw_runs l s
  | .sswOn l => execSswOn_runs l s
  | .sswOff l => execSswOff_runs l s
  | .sswClear l => execSswClear_runs l s
  | .sswRampEnd => execSswRampEnd_runs s
  | .sswCheck sswOut sswIn => execSswCheck_runs sswOut sswIn s
  | .sswLimitTimeout sswIn => execSswLimitTimeout_runs sswIn s
  | .sswThermal => execSswThermal_runs s
  | .sswDormantOverload => execSswDormantOverload_runs s
  | .tamper l => execTamper_runs l s
  | .tamperSettings l => execTamperSettings_runs l s
  | .tamperClear l => execTamperClear_runs l s
  | .tamperLog l => execTamperLog_runs l s
  | .tamperSample level => execTamperSample_runs level s
  | .tamperContinuous level => execTamperContinuous_runs level s
  | .vbatDip => execVbatDip_runs s
  | .erasureDone => execErasureDone_runs s
  | .gpio l => execGpio_runs l s
  | .gpioEdge n level => execGpioEdge_runs n level s
  | .wakeInEdge level => execWakeInEdge_runs level s
  | .keeperEdge period => execKeeperEdge_runs period s
  | .archFindDone => execArchFindDone_runs s
  | .linkWakeNextSniff => execLinkWakeNextSniff_runs s
  | .sswCurrentLimit active => execSswCurrentLimit_runs active s
  | .sswHotChange hot => execSswHotChange_runs hot s
  | .deskTxOctetEnd => execDeskTxOctetEnd_runs s

theorem step_nil {s : State} (h : s.pending = []) : step s = .next s.idleCycle := by
  rw [step, h]

/-- A step keeps the part and the canonical stores, and of the queue all but its front. -/
theorem step_next_keeps (s : State) : ∃ t, step s = .next t ∧ Keeps { s with pending := s.pending.tail } t := by
  cases hq : s.pending with
  | nil =>
    have hs : { s with pending := [] } = s := by rw [← hq]
    exact ⟨s.idleCycle, step_nil hq, by simpa only [List.tail_nil, hs] using s.idleCycle_fixed.keeps⟩
  | cons c rest =>
    rw [stepRunsFrontCommand s c rest hq]
    exact exec_runs c { s with pending := rest }

end Sys2Proof.Machine

/-- Settles O3: on an empty queue the cycle that passes leaves the part and the queue alone, and otherwise the meaning of
the front command does, run on the rest of the queue. -/
theorem everyStepGoesOn : Obligations.EveryStepGoesOn := by
  intro s
  obtain ⟨t, hstep, hpart, hpending, -⟩ := step_next_keeps s
  exact ⟨t, hstep, hpending, hpart⟩

end

section
/-! Reserved addresses of a present block: what RD and WR find there (05_register_file R114, R116). -/

open Sys2Proof Sys2Proof.Machine

namespace Sys2Proof.Machine

/-- Only a line without errors has no first error. -/
theorem firstEr_eq_none_iff {es : List Er} : firstEr es = none ↔ es = [] := by
  cases es with
  | nil => simp [firstEr]
  | cons e es =>
    simp only [firstEr, reduceCtorEq, iff_false]
    cases firstEr es with
    | none => simp
    | some f => simp only []; split <;> simp

/-- A multiple of 4 below the end of the file names a place of it (R114). -/
theorem addrErs_eq_nil {a : Nat} (haligned : a % 4 = 0) (hfile : a < 0x2800) : addrErs a = [] := by
  simp [addrErs, erIf, haligned, hfile]

/-! ## Reading -/

theorem State.readAt_reserved (s : State) {a : Nat} (h : regAt a = none) : s.readAt a = 0 := by
  rw [State.readAt, h]

/-- An RD without n= reads one word, and has no errors of its own at a place of the file whose unit is present. -/
theorem execRd_one {l : Line} {s : State} {a : Nat} (hpos : l.posNat? 0 = some a) (hn : l.nat? "n" = none)
    (haddr : addrErs a = []) (hpresent : s.addrAbsent a = []) :
    execRd l s = runLine { minPos := 1, pos := [("address", .int 0 0x27FF)], keys := [("n", .int 1 16)] } l s [] (fun s =>
      s.okMany l [[w "RD", .w (.hex 4 a), .w (.hex 8 (s.readAt a).toNat)]]) := by
  simp [execRd, hpos, hn, haddr, hpresent, rdAddrs, erIf]

/-- An RD of one word is a report of it. -/
theorem rd_one_reports {l : Line} {s : State} {a : Nat} (hpos : l.posNat? 0 = some a) (hn : l.nat? "n" = none)
    (haddr : addrErs a = []) (hpresent : s.addrAbsent a = []) :
    Reports (.rd l) s { minPos := 1, pos := [("address", .int 0 0x27FF)], keys := [("n", .int 1 16)] } l [] true
      (fun s => [okLine [w "RD", .w (.hex 4 a), .w (.hex 8 (s.readAt a).toNat)]]) :=
  runLine_reports true _ (execRd_one hpos hn haddr hpresent)

/-! ## Writing -/

/-- Each row that writes registers carries the write out for the registers of its own kind. -/
theorem exec_of_mem_writeRows {f : WriteForm} {l : Line} {x : Instr × WriteClass} (h : x ∈ writeRows f l) (s : State) :
    exec x.1 s = execWriteIn x.2 f l s := by
  fin_cases h <;> rfl

/-- The row of the kind that the line names carries the write out. -/
theorem execWriteIn_lineClass (f : WriteForm) (l : Line) (s : State) :
    execWriteIn (lineClass f l) f l s = execWrite f l s :=
  if_pos rfl

/-- A WR to a reserved address writes no register, in any state. -/
theorem State.writeOf_reserved (s : State) {l : Line} {a : Nat} (hpos : l.posNat? 0 = some a) (h : regAt a = none) :
    s.writeOf .wr l = none := by
  simp [State.writeOf, hpos, h]

/-- Where a line writes no register in any state, its errors and its reply are all there is to it. -/
theorem execWrite_of_writeOf_none {f : WriteForm} {l : Line} (h : ∀ t : State, t.writeOf f l = none) (s : State) :
    execWrite f l s = runLine (writeForm f l) l s (s.writeErs f l) (fun s => s.ok l (writeToks f l)) := by
  cases f <;> simp only [execWrite, State.writeErs, h]

theorem lt_length_of_posInt? {l : Line} {i : Nat} {v : Int} (h : l.posInt? i = some v) : i < l.pos.length := by
  obtain ⟨y, hy, -⟩ := Option.bind_eq_some_iff.mp h
  exact (List.getElem?_eq_some_iff.mp hy).1

/-- A WR to a reserved address of a present block has one error of its own: RANGE value, for any word but 0 (R116). -/
theorem State.writeErs_reserved {s : State} {l : Line} {a v : Nat} (hpos : l.posNat? 0 = some a)
    (hval : l.posInt? 1 = some (v : Int)) (hv : v < 2 ^ 32) (haddr : addrErs a = []) (hpresent : s.addrAbsent a = [])
    (h : regAt a = none) : s.writeErs .wr l = erIf (v != 0) (erRange "value") := by
  have hlen : ¬ l.pos.length < 2 := Nat.not_lt.mpr (lt_length_of_posInt? hval)
  have hword : inRange 0 0xFFFFFFFF (v : Int) = true := by
    simp only [inRange, Bool.and_eq_true, decide_eq_true_eq]; omega
  have hzero : ((v : Int) != 0) = (v != 0) := by rw [Bool.eq_iff_iff]; simp
  simp [State.writeErs, State.wrErs, s.writeOf_reserved hpos h, hpos, hval, haddr, hpresent, h, hlen, hword, hzero,
    erIf]

/-- A WR to a reserved address of a present block is answered and changes nothing, or is refused for its value. -/
theorem wr_reserved_answers {l : Line} {s : State} {a v : Nat} {x : Instr × WriteClass} (hpos : l.posNat? 0 = some a)
    (hval : l.posInt? 1 = some (v : Int)) (hv : v < 2 ^ 32) (haddr : addrErs a = []) (hpresent : s.addrAbsent a = [])
    (h : regAt a = none) (hrow : x ∈ writeRows .wr l) (hclass : lineClass .wr l = x.2) :
    AnswersLast x.1 s (writeForm .wr l) l (erIf (v != 0) (erRange "value")) id
      (fun _ => okLine [w "WR", .w (.hex 4 a), .w (.hex 8 v)]) := by
  have htoks : writeToks .wr l = [w "WR", .w (.hex 4 a), .w (.hex 8 v)] := by
    have hword : l.posNat? 1 = some v := by simp [Line.posNat?, hval]
    simp [writeToks, hpos, hword]
  refine runLine_last id (fun _ => _) ?_ (.refl _)
  rw [exec_of_mem_writeRows hrow, ← hclass, execWriteIn_lineClass,
    execWrite_of_writeOf_none (fun t => t.writeOf_reserved hpos h) s,
    State.writeErs_reserved hpos hval hv haddr hpresent h, htoks]
  rfl

end Sys2Proof.Machine

/-- Settles O27: at a reserved address of a present block an RD reports the word 0, and a WR, which names no register
there, has RANGE value as its one error, for any value but 0. -/
theorem reservedAddressesTakeNothing : Obligations.ReservedAddressesTakeNothing := by
  intro l s a v x haligned hfile hreserved hpresent hchecking
  have haddr := addrErs_eq_nil haligned hfile
  refine ⟨fun hpos hn haccepts => ?_, fun hpos hval hv hrow hclass hlistens hform => ?_⟩
  · obtain ⟨⟨hanswers, -⟩, hunchanged⟩ := rd_one_reports hpos hn haddr hpresent
    obtain ⟨t, hexec, hanswered, -⟩ := hanswers haccepts
    simp only [State.readAt_reserved _ hreserved] at hanswered
    exact ⟨t, hexec, hanswered, hunchanged t haccepts hexec⟩
  · obtain ⟨haccepted, hrefused⟩ := wr_reserved_answers hpos hval hv haddr hpresent hreserved hrow hclass
    have hnone := firstEr_eq_none_iff.mp hform
    refine ⟨fun hzero => ?_, fun hnonzero => ?_⟩
    · subst hzero
      obtain ⟨t, hexec, hended, hrest⟩ := haccepted ⟨hlistens, hchecking, hnone, rfl⟩
      exact ⟨t, hexec, hended, hrest.trans (s.took_besideReply l.origin)⟩
    · exact hrefused _ hlistens hchecking (by simp [hnone, erIf, hnonzero, firstEr])

end

section
/-! The number of the next ticket (06_tickets R152): the pool looks upwards from the number after the one issued last to
511, and then from 0. -/

open Sys2Proof Sys2Proof.Machine

namespace Sys2Proof.Machine

/-- The number at which the pool begins to look for a free one. -/
def State.scanStart (s : State) : Nat := match s.tickets.last with | none => 0 | some m => m + 1

theorem State.scanStart_of_last_none {s : State} (h : s.tickets.last = none) : s.scanStart = 0 := by
  simp only [scanStart, h]

theorem State.scanStart_of_last_some {s : State} {m : Nat} (h : s.tickets.last = some m) : s.scanStart = m + 1 := by
  simp only [scanStart, h]

theorem State.scanStart_le {s : State} (h : ∀ m, s.tickets.last = some m → m < 512) : s.scanStart ≤ 512 := by
  cases hlast : s.tickets.last with
  | none => rw [scanStart_of_last_none hlast]; exact Nat.zero_le _
  | some m => rw [scanStart_of_last_some hlast]; exact h m hlast

/-- The numbers from `a` up to but not including `b` are all allocated. -/
def State.Allocated (s : State) (a b : Nat) : Prop := ∀ j, a ≤ j → j < b → (s.ticket? j).isSome = true

/-- The scan upwards comes before the scan from 0, and each gives the lowest free number it meets. -/
theorem State.nextNumber_eq_some_iff {s : State} {n : Nat} (hstart : s.scanStart ≤ 512) :
    s.nextNumber = some n ↔ s.ticket? n = none ∧
      ((s.scanStart ≤ n ∧ n < 512 ∧ s.Allocated s.scanStart n) ∨
       (n < s.scanStart ∧ s.Allocated s.scanStart 512 ∧ s.Allocated 0 n)) := by
  have hscan : s.nextNumber = ((List.range' s.scanStart (512 - s.scanStart)).find? (fun n => (s.ticket? n).isNone)).or
      ((List.range s.scanStart).find? (fun n => (s.ticket? n).isNone)) := List.find?_append
  have hend : s.scanStart + (512 - s.scanStart) = 512 := by omega
  rw [hscan, Option.or_eq_some_iff, List.find?_range'_eq_some, List.find?_range'_eq_none, List.find?_range_eq_some]
  simp only [List.mem_range'_1, List.mem_range, hend, Allocated, Option.isNone_iff_eq_none, Option.not_isNone,
    Nat.zero_le, true_implies]
  tauto

end Sys2Proof.Machine

/-- Settles O55: the scan that finds the number either stops above the last one issued or has passed 511, and each clause
belongs to one of the two. -/
theorem ticketNumbersAscend : Obligations.TicketNumbersAscend := by
  intro s hlast
  have hstart := State.scanStart_le hlast
  refine ⟨fun n hnext => ?_, fun hreset => ?_, fun hroom => Option.isSome_iff_exists.mpr (s.nextNumber_some hroom)⟩
  · obtain ⟨hfree, ⟨hup, hbound, hbelow⟩ | ⟨hwrapped, habove, hbelow⟩⟩ := (State.nextNumber_eq_some_iff hstart).mp hnext
    · refine ⟨hbound, hfree, fun m hm _ => ?_, fun m hm hle => ?_, fun hnone j => ?_⟩
      · rw [State.scanStart_of_last_some hm] at hbelow
        exact hbelow
      · rw [State.scanStart_of_last_some hm] at hup
        omega
      · rw [State.scanStart_of_last_none hnone] at hbelow
        exact hbelow j j.zero_le
    · refine ⟨by omega, hfree, fun m hm hlt => ?_, fun m hm _ => ⟨?_, fun j => hbelow j j.zero_le⟩,
        fun _ j => hbelow j j.zero_le⟩
      · rw [State.scanStart_of_last_some hm] at hwrapped
        omega
      · rw [State.scanStart_of_last_some hm] at habove
        exact habove
  · have hzero : s.scanStart = 0 := State.scanStart_of_last_none (by rw [hreset])
    refine (State.nextNumber_eq_some_iff hstart).mpr ⟨?_, .inl ⟨hzero.le, by omega,
      fun j _ hj => absurd hj j.not_lt_zero⟩⟩
    rw [State.ticket?, hreset]
    rfl

end

section
/-! What triggers an order (21_orders R541–R543): a command trigger starts the order in its slot and does not look at its
`enabled`; a schedule and an event look at the enabled orders alone. -/

open Sys2Proof Sys2Proof.Machine

namespace Sys2Proof.Machine

/-! ## The slot of an order -/

/-- The order in a slot is a matter of the orders' state alone. -/
theorem State.slot_of_orders {s t : State} (h : t.orders = s.orders) (k : Nat) : t.slot k = s.slot k := by
  simp only [slot, h]

/-- Answering lines and firing events change no slot. -/
theorem State.slot_of_besideEvents {s t : State} (h : t.besideEvents = s.besideEvents) (k : Nat) :
    t.slot k = s.slot k := by
  have hslot (u : State) : u.slot k = u.besideEvents.slot k := rfl
  rw [hslot t, h, ← hslot s]

/-! ## Command triggers -/

theorem State.missWhy_idle {s : State} {k : Nat} {x : OrderSlot} (hslot : s.slot k = some x)
    (hrun : s.orders.run = none) (hpending : s.orders.pending = []) : s.missWhy k = none := by
  simp [missWhy, hslot, hrun, hpending]

/-- A command trigger that finds the order stored, none running and none pending starts it and counts the run, whether or
not the order is enabled. -/
theorem State.triggerOrder_idle {s : State} {k : Nat} {x : OrderSlot} (hslot : s.slot k = some x)
    (hrun : s.orders.run = none) (hpending : s.orders.pending = []) (rt : Option Nat) (afterReady : Bool) :
    (s.triggerOrder k rt afterReady).orders.run.map (fun r => (r.k, r.slot, r.runTicket)) = some (k, x, rt) ∧
      (s.triggerOrder k rt afterReady).orders.runs = s.orders.runs.inc := by
  have hstarts : s.triggerOrder k rt afterReady = (s.startOrder k x rt afterReady).bump .orders := by
    simp [triggerOrder, triggerCore, missWhy_idle hslot hrun hpending, hslot, hrun, hpending]
  rw [hstarts, bump_orders]
  exact ⟨rfl, rfl⟩

/-- At the head of the ORDERS queue a ticket of ORDER RUN that has nothing to wait for is marked as running, which leaves
the orders, and starts its operation. -/
theorem exec_ticketHead_orderRun {s : State} {y : Ticket} {k : Nat} (hawake : s.awake = true)
    (hhead : s.head .orders = some y) (hop : y.op = .orderRun k) (hunstarted : y.unstarted = true)
    (hafter : y.after = none) (hdue : y.due = none) (hguard : y.guard = none) (hstart : y.startAt = none)
    (htimed : y.timed = false) :
    ∃ t : State, t.orders = s.orders ∧
      exec (.ticketHead .orders) s = .next ((t.startOrderRun y.n k).settled s) := by
  refine ⟨s.updTicket y.n (fun t => { t with st := .running }), s.updTicket_orders _ _, ?_⟩
  have hexec : exec (.ticketHead .orders) s = execTicketHead .orders s := rfl
  have hintime : s.isOverdue y = false := by simp [State.isOverdue, hdue]
  simp [hexec, execTicketHead, hhead, hawake, hunstarted, htimed, hintime, hafter, State.tryStart, hguard,
    State.tryStart.go, State.startForbid, State.headed, hop, hstart, State.tryStart.start, State.startOp]

/-- ORDER RUN whose trigger is not missed is a command trigger whose run keeps the ticket's number. -/
theorem State.startOrderRun_of_not_missed {s : State} {k : Nat} (h : s.missWhy k = none) (n : Nat) :
    s.startOrderRun n k = s.triggerOrder k (some n) false := by
  simp [startOrderRun, h]

/-- A host alarm that fires alone carries out its own action. -/
theorem exec_alarmFire_alone {s : State} {a : Fin 4} {at_ : Nat} (hawake : s.awake = true)
    (hdue : s.alarmDue a.val = true) (hlist : s.dueList = [(at_, 0, a.val)]) :
    exec (.alarmFire a) s = .next ((s.alarmGo a.val (!s.inRun)).settled s) := by
  have hexec : exec (.alarmFire a) s = execAlarmFire a s := rfl
  simp [hexec, execAlarmFire, hawake, hdue, State.dueNow, State.dueAll, hlist, State.dueGo]

/-- A host alarm with an order changes the alarms and the DAYBOOK edition, not the orders, before it triggers the order. -/
theorem State.alarmGo_of_order {s : State} {a k : Nat} (horder : (s.alarm a).order = some k) (afterReady : Bool) :
    ∃ t : State, t.orders = s.orders ∧ s.alarmGo a afterReady = t.triggerOrder k none afterReady := by
  simp only [alarmGo, horder]
  refine ⟨_, ?_, rfl⟩
  split <;> simp

/-! ## Schedules -/

/-- A disabled order has no schedule time, whatever its trigger. -/
theorem OrderSlot.nextAt_of_disabled {x : OrderSlot} (h : x.enabled = false) (v : Nat) : x.nextAt v = none := by
  simp [nextAt, h]

/-- Setting the schedule of a disabled order takes its next time away. -/
theorem State.next_scheduleOrder_of_disabled {s : State} {k : Nat} {x : OrderSlot} (hslot : s.slot k = some x)
    (h : x.enabled = false) (v : Nat) : vget (s.scheduleOrder k v).orders.next k none = none := by
  rw [scheduleOrder, hslot, Option.bind_some, OrderSlot.nextAt_of_disabled h]
  by_cases hk : k < 32
  · exact vget_vset_same _ _ _ _ hk
  · simp [vget, hk]

/-- Without a schedule time ORDER_SCHEDULE_DUE does nothing. -/
theorem exec_orderScheduleDue_of_next_none {s : State} {j : Fin 32} (h : vget s.orders.next j.val none = none) :
    exec (.orderScheduleDue j) s = .next s := by
  have hexec : exec (.orderScheduleDue j) s = execOrderScheduleDue j s := rfl
  rw [hexec, execOrderScheduleDue, h]

/-! ## One firing without its triggers leaves the orders -/

theorem State.padFollow_orders (s : State) : s.padFollow.orders = s.orders := by
  unfold padFollow
  split <;> rfl

theorem State.attnFollow_orders (s : State) : s.attnFollow.orders = s.orders := by
  unfold attnFollow
  simp only []
  (repeat' split) <;> exact s.padFollow_orders

theorem State.push_orders (s : State) (p : Port) (l : OutLine) : (s.push p l).orders = s.orders := by
  unfold push
  simp only []
  split <;> exact s.setPort_orders p _

theorem State.pushEv_orders (s : State) (p : Port) (n : Nat) (l : OutLine) : (s.pushEv p n l).orders = s.orders := by
  unfold pushEv
  split
  · rfl
  · split
    · exact s.push_orders p l
    · simp only []
      split <;> rfl

theorem State.fireCore_orders (s : State) (n : Nat) (fs : List Tok) : (s.fireCore n fs).orders = s.orders := by
  unfold fireCore
  split
  · rfl
  · simp only []
    rw [attnFollow_orders]
    split
    · rfl
    · split
      · rfl
      · rw [pushEv_orders, pushEv_orders]

/-! ## Event triggers -/

/-- An event triggers stored orders that are enabled and have it as their trigger. -/
theorem State.slot_of_mem_ordersOn {s : State} {n j : Nat} (h : j ∈ s.ordersOn n) :
    ∃ z, s.slot j = some z ∧ z.enabled = true ∧ z.trigger = .event n := by
  unfold ordersOn at h
  split at h
  · obtain ⟨-, hj⟩ := List.mem_filter.mp h
    split at hj
    · next z hz => exact ⟨z, hz, by simpa using hj⟩
    · cases hj
  · cases h

/-- An event that no enabled order has as its trigger triggers none. -/
theorem State.ordersOn_eq_nil {s : State} {n : Nat}
    (h : ∀ j z, s.slot j = some z → z.trigger = .event n → z.enabled = false) : s.ordersOn n = [] := by
  refine List.eq_nil_iff_forall_not_mem.mpr fun j hj => ?_
  obtain ⟨z, hz, henabled, htrigger⟩ := slot_of_mem_ordersOn hj
  exact absurd henabled (by simp [h j z hz htrigger])

theorem State.eventTriggers_of_ordersOn_nil {s : State} {n : Nat} (h : s.ordersOn n = []) :
    s.eventTriggers n = (s, []) := by
  rw [eventTriggers, h, List.foldl_nil]

/-- A firing that triggers no order leaves the orders: it makes no miss that would fire EV_ORDER_MISSED. -/
theorem State.fire_orders_of_triggers_disabled {s : State} {n : Nat}
    (h : ∀ j z, s.slot j = some z → z.trigger = .event n → z.enabled = false) (fs : List Tok) :
    (s.fire n fs).orders = s.orders := by
  have htriggers {t : State} (ht : t.orders = s.orders) : t.eventTriggers n = (t, []) :=
    eventTriggers_of_ordersOn_nil (ordersOn_eq_nil fun j z hz => h j z ((slot_of_orders ht j).symm.trans hz))
  unfold fire
  split
  · split
    · simp only [htriggers (s.fireCore_orders n fs)]
      exact s.fireCore_orders n fs
    · simp only [htriggers rfl]
      exact s.fireCore_orders n fs
  · rfl

/-! ## A disabled order is left out of every firing -/

/-- From s to t order k neither starts nor becomes pending: it runs or is pending in t only where it did in s. -/
def State.SparesOrder (k : Nat) (s t : State) : Prop :=
  (t.orders.run.map (·.k) = some k → s.orders.run.map (·.k) = some k) ∧
    (t.orders.pending.any (·.k == k) = true → s.orders.pending.any (·.k == k) = true)

theorem State.SparesOrder.trans {k : Nat} {s t u : State} (h : s.SparesOrder k t) (h' : t.SparesOrder k u) :
    s.SparesOrder k u := ⟨h.1 ∘ h'.1, h.2 ∘ h'.2⟩

theorem State.SparesOrder.of_orders {k : Nat} {s t : State} (h : t.orders = s.orders) : s.SparesOrder k t := by
  simp [SparesOrder, h]

/-- The trigger of another order spares order k. -/
theorem State.triggerCore_spares {j k : Nat} (hjk : j ≠ k) (s : State) (rt : Option Nat) (afterReady : Bool) :
    s.SparesOrder k (s.triggerCore j rt afterReady) := by
  unfold triggerCore
  split
  · exact ⟨id, id⟩
  · exact ⟨id, id⟩
  · split
    · exact ⟨fun h => absurd (Option.some.inj h) hjk, id⟩
    · exact ⟨id, by simp [hjk]⟩

/-- The order in slot k is disabled. -/
def State.OrderDisabled (k : Nat) (s : State) : Prop := ∃ x, s.slot k = some x ∧ x.enabled = false

theorem State.OrderDisabled.not_mem_ordersOn {k : Nat} {s : State} (h : s.OrderDisabled k) (n : Nat) :
    k ∉ s.ordersOn n := by
  intro hmem
  obtain ⟨x, hx, hdisabled⟩ := h
  obtain ⟨z, hz, henabled, -⟩ := slot_of_mem_ordersOn hmem
  obtain rfl : x = z := Option.some.inj (hx.symm.trans hz)
  exact absurd henabled (by simp [hdisabled])

/-- Firing events leaves a disabled order disabled. -/
theorem State.OrderDisabled.of_besideEvents {k : Nat} {s t : State} (h : s.OrderDisabled k)
    (hbeside : t.besideEvents = s.besideEvents) : t.OrderDisabled k := by
  rwa [OrderDisabled, slot_of_besideEvents hbeside k]

theorem State.eventTriggers_spares {k : Nat} {s : State} (h : s.OrderDisabled k) (n : Nat) :
    s.SparesOrder k (s.eventTriggers n).1 := by
  unfold eventTriggers
  refine List.foldlRecOn (motive := fun acc : State × List (Nat × String) => s.SparesOrder k acc.1) _ _ ⟨id, id⟩
    fun acc hacc j hj => hacc.trans ?_
  have hjk : j ≠ k := fun hjk => h.not_mem_ordersOn n (hjk ▸ hj)
  exact triggerCore_spares hjk acc.1 none false

theorem State.fireMissed_spares {k : Nat} {s : State} (h : s.OrderDisabled k) (ms : List (Nat × String)) :
    s.SparesOrder k (s.fireMissed ms) := by
  unfold fireMissed
  split
  · exact ⟨id, id⟩
  · exact (SparesOrder.of_orders (s.fireCore_orders _ _)).trans
      (eventTriggers_spares (h.of_besideEvents (s.fireCore_besideEvents _ _)) 114)

/-- No firing of an event starts a disabled order or makes it pending: neither by the orders that the event triggers nor by
those of the EV_ORDER_MISSED that it brings about. -/
theorem State.fire_spares {k : Nat} {s : State} (h : s.OrderDisabled k) (n : Nat) (fs : List Tok) :
    s.SparesOrder k (s.fire n fs) := by
  have hcore (t : State) : t.SparesOrder k (t.fireCore n fs) := .of_orders (t.fireCore_orders n fs)
  unfold fire
  split
  · split
    · have h1 : (s.fireCore n fs).OrderDisabled k := h.of_besideEvents (s.fireCore_besideEvents n fs)
      have h2 := h1.of_besideEvents (State.eventTriggers_besideEvents _ n)
      exact ((hcore s).trans (eventTriggers_spares h1 n)).trans (fireMissed_spares h2 _)
    · have h1 := h.of_besideEvents (s.eventTriggers_besideEvents n)
      exact ((eventTriggers_spares h n).trans (fireMissed_spares h1 _)).trans (hcore _)
  · exact ⟨id, id⟩

end Sys2Proof.Machine

/-- Settles O60: a command trigger starts the order in its slot without a look at `enabled`, while the schedule times and
the orders that an event triggers are those of enabled orders. -/
theorem commandTriggersStartAnyOrder : Obligations.CommandTriggersStartAnyOrder := by
  intro s k x y a hslot
  refine ⟨fun hrun hpending => ⟨?_, ?_⟩, fun hdisabled => ⟨?_, ?_, ?_, ?_⟩⟩
  · intro hhead hop hunstarted hafter hdue hguard hstart htimed hawake
    obtain ⟨u, hu, hexec⟩ := exec_ticketHead_orderRun hawake hhead hop hunstarted hafter hdue hguard hstart htimed
    rw [← State.slot_of_orders hu] at hslot
    rw [← hu] at hrun hpending ⊢
    refine ⟨_, hexec, ?_⟩
    simp only [State.settled_orders, State.startOrderRun_of_not_missed (State.missWhy_idle hslot hrun hpending)]
    exact State.triggerOrder_idle hslot hrun hpending (some y.n) false
  · intro hawake hlist hdue horder
    obtain ⟨u, hu, hgo⟩ := State.alarmGo_of_order horder (!s.inRun)
    rw [← State.slot_of_orders hu] at hslot
    rw [← hu] at hrun hpending ⊢
    refine ⟨_, exec_alarmFire_alone hawake hdue hlist, ?_⟩
    simp only [State.settled_orders, hgo]
    exact State.triggerOrder_idle hslot hrun hpending none _
  · exact State.next_scheduleOrder_of_disabled hslot hdisabled
  · rintro j v rfl
    exact exec_orderScheduleDue_of_next_none (State.next_scheduleOrder_of_disabled hslot hdisabled v)
  · exact fun n fields htriggers => State.fire_orders_of_triggers_disabled htriggers fields
  · exact fun n fields => State.fire_spares ⟨x, hslot, hdisabled⟩ n fields

end

section
/-! The canonical form of the stores along every step, the state before any supply, and lines that no port or order
hears. -/

open Sys2Proof Sys2Proof.Machine

/-- Settles O4: the step keeps what `Keeps` names, and the canonical form of the stores is part of it. -/
theorem storesStayCanonical : Obligations.StoresStayCanonical := by
  intro s t hwf hstep
  obtain ⟨u, hu, -, -, hkeeps⟩ := step_next_keeps s
  obtain rfl : t = u := by simpa [hstep] using hu
  exact hkeeps hwf

namespace Sys2Proof.Machine

/-- A vector of empty places holds nothing, inside its length and beyond. -/
theorem vget_replicate_none {α : Type} (n i : Nat) : vget (Vector.replicate n (none : Option α)) i none = none := by
  by_cases h : i < n <;> simp [vget, h]

end Sys2Proof.Machine

/-- Settles O5: every claim is the value of a field of the reset state; the orders are not loaded, and the key slots are
a vector of empty places. -/
theorem resetStateHoldsNothing : Obligations.ResetStateHoldsNothing :=
  ⟨State.reset_memWf, rfl, rfl, fun _ => rfl, vget_replicate_none 8, rfl, rfl, rfl, rfl⟩

namespace Sys2Proof.Machine

/-- The meaning of a line's row is that of a line with its origin, with a form, errors and an action; only a row of
register writes whose kind the named register is not does nothing. -/
def RunsLine (s : State) (o : Origin) (r : Host.Outcome State Fault Refusal) : Prop :=
  (∃ f l es act, l.origin = o ∧ r = runLine f l s es act) ∨ r = .next s

theorem RunsLine.line {s : State} {o : Origin} {f : Form} {l : Line} {es : List Er} {act : State → State}
    (h : l.origin = o) : RunsLine s o (runLine f l s es act) := .inl ⟨f, l, es, act, h, rfl⟩

/-! ## The rows -/

theorem execWrite_runsLine (f : WriteForm) (l : Line) (s : State) : RunsLine s l.origin (execWrite f l s) := by
  unfold execWrite
  exact .line rfl

theorem execWriteIn_runsLine (c : WriteClass) (f : WriteForm) (l : Line) (s : State) :
    RunsLine s l.origin (execWriteIn c f l s) := by
  unfold execWriteIn
  split
  · exact execWrite_runsLine f l s
  · exact .inr rfl

/-- Every row that carries a line runs it: what its meaning adds before `runLine` are names for operands. -/
theorem exec_runsLine {c : Instr} {l : Line} (h : c.line? = some l) (s : State) : RunsLine s l.origin (exec c s) := by
  cases c <;> cases h
  case registerWrite | counterWrite | eventsPendWrite | sysAlertClear | carrelLostClear | ordersDamagedClear |
    deskConfigWrite | chuteConfigWrite | dormConfigWrite | sysPadDriveWrite | pwrVbatWarnWrite | radioChanWrite |
    radioTxConfigWrite | radioPlanWrite | modemConfigWrite | censusConfigWrite | frameConfigWrite | frameFilterWrite |
    linkConfigWrite | ticketsConfigWrite | eventsMaskWrite | eventsAttnConfigWrite | vaultConfigWrite | vaultFcWrite |
    collateFeedWrite | collateCompareWrite | gpioOutWrite | gpioConfigWrite | tamperConfigWrite =>
    exact execWriteIn_runsLine _ _ _ _
  any_goals
    delta exec execAlarmArm execArchAdd execArchDrop execArchFind execArchMark execArchRead execBandClear execBandSet
      execCarrelRead execCarrelWrite execCatAdd execCatPool execCatQueue execCatRemove execCatSet execCcaCheck
      execCensusOff execCensusScan execCensusSettings execCensusWatch execChan execCollateClose execCollateFeed
      execCollateOpen execDaySet execDaySlew execDorm execEdition execEventClear execEventRaise execEventSave
      execFrameFree execFrameSend execGet execGpio execHelp execLinkAssoc execLinkAssocLocal execLinkLeave
      execLinkPoll execLinkSched execLinkSettings execLinkWake execMode execNoiseRawCapture execNoiseRawOff
      execOrderDraft execOrderErase execOrderLine execOrderRun execOrderSet execOrderShow execOrderStop execOrderStore
      execPorterGo execProfile execPwrMeasure execRd execRecordRead execRecordWrite execRet execRx execSkip execSlip
      execSlipWrite execSswOff execSswOn execStacksPart execStacksRead execStacksWrite execTamperSettings
      execTariffClear execTariffSched execTariffSet execTrimRestore execTrimRun execTxCw execTxSettings execVaultCcm
      execVaultErase execVaultFlags execVaultLoad execVaultRand censusLine orderStoreWith runTicket runTicketMk
  all_goals exact .line rfl

end Sys2Proof.Machine

/-- Settles O6: a line's meaning is `runLine`, whose first test is whether the line's origin is heard. -/
theorem noLineActsUnheard : Obligations.NoLineActsUnheard := by
  intro s c l hline hdeaf
  obtain ⟨f, l', es, act, horigin, hexec⟩ | hexec := exec_runsLine hline s
  · rw [hexec]
    exact runLine_deaf (horigin ▸ hdeaf) f es act
  · exact hexec

end

section
/-! Reports: a line that is answered with what its unit reads and changes nothing (04_desk R96, R97). -/

open Sys2Proof Sys2Proof.Machine

namespace Sys2Proof.Machine

section
variable {c : Instr} {s : State} {f : Form} {l : Line} {es : List Er}

/-! ## The shapes of a report -/

/-- A report of one line. -/
theorem reports_ok (toks : State → List Tok) (h : exec c s = runLine f l s es (fun s => s.ok l (toks s))) :
    Reports c s f l es false (fun s => [okLine (toks s)]) := runLine_reports false _ h

/-- A report of the lines given. -/
theorem reports_okMany (rows : State → List (List Tok))
    (h : exec c s = runLine f l s es (fun s => s.okMany l (rows s))) :
    Reports c s f l es true (fun s => (rows s).map okLine) := runLine_reports true _ h

/-- A report of one line for each thing of a list. -/
theorem reports_each {α : Type} (all : State → List α) (line : State → α → List Tok)
    (h : exec c s = runLine f l s es (fun s => s.okMany l ((all s).map (line s)))) :
    Reports c s f l es true (fun s => (all s).map (fun x => okLine (line s x))) := by
  simpa only [List.map_map, Function.comp_def] using reports_okMany _ h

end

end Sys2Proof.Machine


/-- Settles O7: each meaning is a line with one of the shapes above; where an operand may name one thing, the two replies
are told apart by whether it does. -/
theorem systemReportsAnswer : Obligations.SystemReportsAnswer := by
  intro l s
  refine ⟨?help, ?id, ?idAll, ?stat, ?pins, ?ticket, ?edition, ?event, ?day, ?dayStatus, ?alarm⟩
  case id | idAll | stat | day | dayStatus => exact reports_ok _ rfl
  case help =>
    have h : exec (.help l) s = execHelp l s := rfl
    unfold execHelp at h
    exact reports_each _ State.helpToks h
  case pins =>
    have h : exec (.pins l) s = execPins l s := rfl
    unfold execPins at h
    generalize (l.posWord? 0).bind padNamed = pad at h ⊢
    cases pad with
    | none => exact reports_each _ State.pinToks h
    | some p => exact reports_ok _ h
  case ticket =>
    have h : exec (.ticket l) s = execTicket l s := rfl
    unfold execTicket at h
    generalize l.posNat? 0 = number at h ⊢
    cases number with
    | none => exact reports_ok _ h
    | some n => exact reports_ok _ h
  case edition =>
    have h : exec (.edition l) s = execEdition l s := rfl
    unfold execEdition at h
    generalize (l.posWord? 0).bind edUnitOf = unit at h ⊢
    cases unit with
    | none => exact reports_each _ _ h
    | some u => exact reports_ok _ h
  case event =>
    have h : exec (.event l) s = execEvent l s := rfl
    unfold execEvent at h
    generalize (l.at? 0).bind eventOf = event at h ⊢
    cases event with
    | none => exact reports_okMany _ h
    | some n => exact reports_ok _ h
  case alarm =>
    have h : exec (.alarmReport l) s = execAlarmReport l s := rfl
    unfold execAlarmReport at h
    generalize l.posNat? 0 = alarm at h ⊢
    cases alarm with
    | none => exact reports_each _ (fun s a => s.alarmToks a none) h
    | some a => exact reports_ok _ h


namespace Sys2Proof.Machine

/-- PWR alone is a line as any other; the line it leaves without operands is the line itself. -/
theorem execPwr_alone {l : Line} {s : State} (hpos : l.pos = []) (hnamed : l.named = []) :
    execPwr l s = runLine {} l s [] (fun s => s.ok l s.pwrToks) := by
  cases l
  obtain rfl : _ = [] := hpos
  obtain rfl : _ = [] := hnamed
  rfl

end Sys2Proof.Machine

/-- Settles O8: RD lists the registers read, GET names one, and PWR is a report where it has no operands. -/
theorem registerReadsAnswer : Obligations.RegisterReadsAnswer := by
  intro l s
  refine ⟨?rd, ?get, fun ⟨hpos, hnamed⟩ => ?pwr⟩
  case rd =>
    have h : exec (.rd l) s = execRd l s := rfl
    unfold execRd at h
    exact reports_each _ (fun s x => [w "RD", .w (.hex 4 x), .w (.hex 8 (s.readAt x).toNat)]) h
  case get =>
    have h : exec (.get l) s = execGet l s := rfl
    unfold execGet at h
    exact reports_ok _ h
  case pwr => exact reports_ok _ (execPwr_alone hpos hnamed)

/-- Settles O9: each meaning is a line with one of the shapes above. -/
theorem unitReportsAnswer : Obligations.UnitReportsAnswer := by
  intro l s
  refine ⟨reports_ok _ rfl, ?census, ?cat, ?tariff, reports_okMany _ rfl, reports_ok _ rfl, reports_okMany _ rfl⟩
  case census =>
    have h : exec (.censusLevels l) s = execCensusLevels l s := rfl
    unfold execCensusLevels at h
    exact reports_okMany _ h
  case cat =>
    have h : exec (.cat l) s = execCat l s := rfl
    unfold execCat at h
    exact reports_okMany _ h
  case tariff =>
    have h : exec (.tariffReport l) s = execTariffReport l s := rfl
    unfold execTariffReport at h
    generalize l.posNat? 0 = number at h ⊢
    cases number with
    | none => exact reports_each _ State.tariffToks h
    | some t => exact reports_ok _ h

namespace Sys2Proof.Machine

/-- Taking a line leaves the orders' slots. -/
theorem State.slot_took (s : State) (o : Origin) (k : Nat) : (s.took o).slot k = s.slot k := by
  obtain ⟨d, c, turn, h⟩ := s.took_eq o
  rw [h]
  rfl

/-- ORDER SHOW of an order that is stored lists it. -/
theorem execOrderShow_stored {l : Line} {s : State} {x : OrderSlot} (hslot : s.slot (lineOrder l) = some x) :
    execOrderShow l s = runLine { minPos := 1, pos := orderPos } l s (s.emptyErs l) (fun s =>
      s.okMany l ((s.orderToks (lineOrder l) x ++ [kw "policy" (if x.cont then "CONTINUE" else "STOP"),
          kd "retries" x.retries, kd "limit" x.limitMs, kw "enabled" (yesNo x.enabled),
          .kv "next" (match vget s.orders.next (lineOrder l) none with | some t => .time t | none => .word "NONE")]) ::
        x.lines.zipIdx.map (fun y => [w "ORDER", w "LINE", n' y.2, .w (.str y.1)]))) := by
  unfold execOrderShow
  refine runLine_congr ?_
  simp only [State.slot_took, hslot] <;> rfl

end Sys2Proof.Machine

/-- Settles O10: each meaning is a line with one of the shapes above; ORDER SHOW reads the slot that its line names. -/
theorem storeReportsAnswer : Obligations.StoreReportsAnswer := by
  intro l s
  refine ⟨reports_ok _ rfl, reports_ok _ rfl, ?shelves, reports_ok _ rfl, ?porter, ?collate, ?orderList,
    fun x hslot => ?orderShow, fun _ e hlistens hruns he => ?empty, reports_ok _ rfl, ?tamperLog⟩
  case shelves =>
    have h : exec (.stacks l) s = execStacks l s := rfl
    unfold execStacks at h
    exact reports_ok _ h
  case porter =>
    have h : exec (.porter l) s = execPorter l s := rfl
    unfold execPorter at h
    generalize l.posNat? 0 = number at h ⊢
    cases number with
    | none => exact reports_each _ State.chanToks h
    | some n => exact reports_ok _ h
  case collate =>
    have h : exec (.collate l) s = execCollate l s := rfl
    unfold execCollate at h
    generalize l.posNat? 0 = number at h ⊢
    cases number with
    | none => exact reports_each _ State.colToks h
    | some n => exact reports_ok _ h
  case orderList =>
    have h : exec (.orderList l) s = execOrderList l s := rfl
    unfold execOrderList at h
    exact reports_okMany _ h
  case orderShow => exact reports_okMany _ (execOrderShow_stored hslot)
  case empty =>
    have h : exec (.orderShow l) s = execOrderShow l s := rfl
    unfold execOrderShow at h
    rw [h]
    exact runLine_refuses hlistens hruns he _
  case tamperLog =>
    have h : exec (.tamperLog l) s = execTamperLog l s := rfl
    unfold execTamperLog at h
    exact reports_okMany _ h

end

section
/-! Settings: a line that gives registers new words, counts the change of its unit once and answers with what then
holds (05_register_file R122, 06_tickets R178). -/

open Sys2Proof Sys2Proof.Machine

namespace Sys2Proof.Machine

section
variable {c : Instr} {s : State} {f : Form} {l : Line} {es : List Er}

/-! ## The shape of a setting -/

/-- A line whose action, once the line is taken (which touches nothing but the ports and whose turn it is), is a setting
and then a reply of one line. -/
theorem answers_settings {act : State → State} {u : EdUnit} {new : List (CfgReg × Word)} {sv : List CfgReg}
    (toks : State → List Tok) (h : exec c s = runLine f l s es act)
    (hact : ∀ d c k, let t := { s with dport := d, cport := c, desk := { s.desk with turnChute := k } }
      act t = (t.settings u new sv).ok l (toks (t.settings u new sv))) :
    Answers c s f l es false (fun t => t.settings u new sv) (fun t => [okLine (toks t)]) := by
  obtain ⟨d, c, k, took⟩ := s.took_eq l.origin
  exact runLine_settings u new sv _ (h.trans (runLine_congr (took ▸ hact d c k)))

end

section
variable (s : State) (u : EdUnit)

/-- A setting with save=YES is the setting, and then the save. -/
theorem State.settings_saving (new : List (CfgReg × Word)) (l : Line) (r : CfgReg) (rs : List CfgReg) :
    s.settings u new (saving l (r :: rs)) =
      if l.save then (s.settings u new []).save (r :: rs) else s.settings u new [] := by
  unfold saving
  cases l.save <;> rfl

/-- One register given its word. -/
theorem State.settings_reg (r : CfgReg) (v : Word) :
    s.settings u [(r, v)] [] = if s.cfgGet r = v then s else (s.cfgSet r v).bump u := by
  simp [State.settings]

/-- Two registers given their words: one change, where any of the two is one. -/
theorem State.settings_regs (q r : CfgReg) (x y : Word) :
    s.settings u [(q, x), (r, y)] [] =
      if s.cfgGet q = x ∧ s.cfgGet r = y then s else ((s.cfgSet q x).cfgSet r y).bump u := by
  simp [State.settings]

/-- The three registers of the modem given their words. -/
theorem State.settings_modem (p y d : Word) :
    s.settings u [(.profile, p), (.sync, y), (.deep, d)] [] =
      if s.cfg.modem.profile = p ∧ s.cfg.modem.sync = y ∧ s.cfg.modem.deep = d then s
      else ({ s with cfg := { s.cfg with modem := { profile := p, sync := y, deep := d } } }).bump u := by
  simp [State.settings]
  rfl

end

end Sys2Proof.Machine

/-- Settles O11: each line's action is a setting of its unit's registers, read once the line has been taken. -/
theorem radioSettingsTakeEffect : Obligations.RadioSettingsTakeEffect := by
  intro l s
  refine ⟨?chan, ?cca, ?tx, ?profile, ?frame, ?filter⟩
  case chan =>
    have h : exec (.chan l) s = execChan l s := rfl
    unfold execChan at h
    refine answers_settings _ h fun d c k => ?_
    cases hp : l.pos.isEmpty
    · simp only [State.settings_saving, Bool.false_or, Bool.false_eq_true, if_false, State.settings_reg]
      simp only [decide_eq_true_eq]
      rfl
    · simp only [State.settings_saving, Bool.true_or, if_true, State.settings_nil]
      rfl
  case cca =>
    have h : exec (.ccaSettings l) s = execCcaSettings l s := rfl
    unfold execCcaSettings at h
    refine answers_settings _ h fun d c k => ?_
    simp only [State.settings_saving, State.settings_regs]
    rfl
  case tx =>
    have h : exec (.txSettings l) s = execTxSettings l s := rfl
    unfold execTxSettings at h
    refine answers_settings _ h fun d c k => ?_
    simp only [State.settings_saving, State.settings_reg, eq_comm (b := s.cfg.radio.txConfig)]
    rfl
  case profile =>
    have h : exec (.profile l) s = execProfile l s := rfl
    unfold execProfile at h
    refine answers_settings _ h fun d c k => ?_
    simp only [State.settings_saving, State.settings_modem]
  case frame =>
    have h : exec (.frameSettings l) s = execFrameSettings l s := rfl
    unfold execFrameSettings at h
    refine answers_settings _ h fun d c k => ?_
    simp only [State.settings_saving, State.settings_reg]
    rfl
  case filter =>
    have h : exec (.filter l) s = execFilter l s := rfl
    unfold execFilter at h
    refine answers_settings _ h fun d c k => ?_
    simp only [State.settings_saving, State.settings_regs]
    rfl

/-- Settles O12: four lines are settings of one register; DAY SLEW adds to the value left to slew. -/
theorem systemSettingsTakeEffect : Obligations.SystemSettingsTakeEffect := by
  intro l s
  refine ⟨?dorm, ?attn, ?ledger, ?switch, ?slew⟩
  case dorm =>
    have h : exec (.dorm l) s = execDorm l s := rfl
    unfold execDorm at h
    refine answers_settings _ h fun d c k => ?_
    simp only [State.settings_saving, State.settings_reg, State.putDorm, eq_comm (b := s.cfg.sys.dorm)]
    rfl
  case attn =>
    have h : exec (.eventAttn l) s = execEventAttn l s := rfl
    unfold execEventAttn at h
    refine answers_settings _ h fun d c k => ?_
    simp only [State.settings_reg, eq_comm (b := s.cfg.events.attnCfg)]
    rfl
  case ledger =>
    have h : exec (.ledger l) s = execLedger l s := rfl
    unfold execLedger at h
    refine answers_settings _ h fun d c k => ?_
    simp only [State.settings_saving]
    generalize l.nat? "low" = low
    cases low with
    | none => rfl
    | some p =>
      simp only [State.settings_reg]
      rfl
  case switch =>
    have h : exec (.ssw l) s = execSsw l s := rfl
    unfold execSsw at h
    refine answers_settings _ h fun d c k => ?_
    simp only [State.settings_saving]
    generalize (l.arg "soft").bind softOf = soft
    cases soft with
    | none =>
      simp only [if_true]
      rfl
    | some v =>
      simp only [State.settings_reg, eq_comm (b := s.cfg.pins.ssw)]
      rfl
  case slew =>
    have h : exec (.daySlew l) s = execDaySlew l s := rfl
    unfold execDaySlew at h
    exact runLine_answers false _ _ _ [] h rfl rfl (by simp)

end

section
/-! Settings that bring more with them than the words of registers: a rate that waits for its reply, ATTN, readings held,
the poll schedule, the pads (04_desk R106, 07_events R191, 15_link R396, 22_ssw_tamper_gpio R570, R576). -/

open Sys2Proof Sys2Proof.Machine

namespace Sys2Proof.Machine

section
variable {c : Instr} {s : State} {f : Form} {l : Line} {es : List Er}

/-! ## The shape of such a setting -/

/-- A line whose action, once the line is taken, is an effect that leaves the ports alone, and then a reply. -/
theorem answers_effect {action : State → State} (m : Bool) (act : State → State) (ls : State → List (List Tok))
    (kind : OutKind) (h : exec c s = runLine f l s es action)
    (hact : ∀ d c k, let t := { s with dport := d, cport := c, desk := { s.desk with turnChute := k } }
      action t = (act t).replyLines l kind m (ls (act t)))
    (hports : ∀ t, SamePorts t (act t)) (hmode : m = true → ∀ t, (act t).cfg.desk = t.cfg.desk) :
    Answers c s f l es m act ls := by
  obtain ⟨d, c, k, took⟩ := s.took_eq l.origin
  refine runLine_answers m act ls kind [] (h.trans (runLine_congr (took ▸ hact d c k))) (hports _).1 (hports _).2
    fun hm p => ?_
  rw [← s.took_framed l.origin p]
  cases p with
  | chute => rfl
  | desk => exact congrArg (fun d : DeskCfg => bit d.desk 5) (hmode hm _)

/-- A line whose action, once the line is taken, is an effect that may fire events, and then a reply. -/
theorem answersLast_effect {action : State → State} (act : State → State) (toks : State → List Tok)
    (h : exec c s = runLine f l s es action)
    (hact : ∀ d c k, let t := { s with dport := d, cport := c, desk := { s.desk with turnChute := k } }
      action t = (act t).ok l (toks (act t)))
    (hout : ∀ t : State, t.OutLe (act t)) : AnswersLast c s f l es act (fun t => okLine (toks t)) := by
  obtain ⟨d, c, k, took⟩ := s.took_eq l.origin
  exact runLine_last act toks (h.trans (runLine_congr (took ▸ hact d c k))) (hout _)

end

/-! ## What the effects leave alone -/

theorem State.applyRow_cfg (s : State) (x : RowWhat) : (s.applyRow x).cfg = s.cfg := by
  have touched : (s.touch 8).cfg = s.cfg := by
    unfold State.touch
    repeat' split
    all_goals rfl
  match x with
  | .mirror i =>
    unfold State.applyRow
    dsimp only
    split <;> rfl
  | .cat _ | .stacks _ _ => exact touched
  | .twin .. | .twinEnd .. | .counters .. | .drift .. | .journal .. | .key .. | .tamperLog .. | .scratch .. | .order ..
  | .archFirst _ | .archNext _ => rfl

theorem State.rowWrites_cfg (s : State) (ws : List RowWhat) (n : Option Nat) : (s.rowWrites ws n).cfg = s.cfg := by
  have one : ∀ (t : State) r, (t.rowWrite r).cfg = t.cfg := fun t r => by
    unfold State.rowWrite
    split
    · exact t.applyRow_cfg _
    · rfl
  induction ws generalizing s with
  | nil => rfl
  | cons x xs ih =>
    cases xs with
    | nil => exact one s _
    | cons y ys => exact (ih _).trans (one s _)

theorem State.save_cfg (s : State) (rs : List CfgReg) : (s.save rs).cfg = s.cfg := s.rowWrites_cfg _ _

theorem State.saveIf_ports {s t : State} (h : SamePorts s t) (b : Bool) (rs : List CfgReg) :
    SamePorts s (if b then t.save rs else t) := by
  split
  · exact h.trans (t.save_ports rs)
  · exact h

theorem State.saveIf_cfg (s : State) (b : Bool) (rs : List CfgReg) : (if b then s.save rs else s).cfg = s.cfg := by
  split
  · exact s.save_cfg rs
  · rfl

theorem State.putDesk_ports (s : State) (v : Word) : SamePorts s (s.putDesk v) := by
  unfold State.putDesk
  split <;> exact ⟨rfl, rfl⟩

theorem State.setMasks_ports (s : State) (a li wk : BitVec 128) : SamePorts s (s.setMasks a li wk) := by
  unfold State.setMasks
  dsimp only
  split
  · exact ⟨rfl, rfl⟩
  · exact SamePorts.trans ⟨rfl, rfl⟩ (State.attnFollow_ports _).1

theorem State.putPlan_ports (s : State) (p : Nat) (base ctrl : Word) : SamePorts s (s.putPlan p base ctrl) := by
  unfold State.putPlan
  split <;> exact ⟨rfl, rfl⟩

theorem State.setCensus_ports (s : State) (c : CensusCfg) : SamePorts s (s.setCensus c) := by
  unfold State.setCensus State.censusHold
  repeat' split
  all_goals exact ⟨rfl, rfl⟩

theorem State.setTamper_ports (s : State) (v : Word) : SamePorts s (s.setTamper v) := by
  unfold State.setTamper
  dsimp only
  repeat' split
  all_goals exact ⟨rfl, rfl⟩

theorem State.setFlags_ports (s : State) (m : BitVec 8) : SamePorts s (s.setFlags m) := by
  unfold State.setFlags State.saveVault
  split
  · exact ⟨rfl, rfl⟩
  · exact SamePorts.trans ⟨rfl, rfl⟩ (State.rowWrite_ports _ _)

theorem State.hostHeld_keeps (s : State) (ns : List Nat) :
    SamePorts s (ns.foldl State.hostHeld s) ∧ (ns.foldl State.hostHeld s).cfg = s.cfg := by
  induction ns generalizing s with
  | nil => exact ⟨⟨rfl, rfl⟩, rfl⟩
  | cons n ns ih =>
    have one : SamePorts s (s.hostHeld n) ∧ (s.hostHeld n).cfg = s.cfg := by
      unfold State.hostHeld
      split <;> exact ⟨⟨rfl, rfl⟩, rfl⟩
    exact ⟨one.1.trans (ih _).1, (ih _).2.trans one.2⟩

theorem State.padFollow_keeps (s : State) : SamePorts s s.padFollow ∧ s.padFollow.cfg = s.cfg := by
  unfold State.padFollow
  split <;> exact ⟨⟨rfl, rfl⟩, rfl⟩

theorem State.setGpio_keeps (s : State) (cfg : Vector Word 8) (out : Word) :
    SamePorts s (s.setGpio cfg out) ∧ (s.setGpio cfg out).cfg.desk = s.cfg.desk := by
  unfold State.setGpio
  split
  · exact ⟨⟨rfl, rfl⟩, rfl⟩
  · obtain ⟨hp, hc⟩ := State.hostHeld_keeps (State.bump { s with cfg := { s.cfg with
      pins := { s.cfg.pins with gpio := cfg, gpioOut := out } } } .gpio) (List.range 8)
    obtain ⟨gp, gc⟩ := State.padFollow_keeps ((List.range 8).foldl State.hostHeld
      (State.bump { s with cfg := { s.cfg with pins := { s.cfg.pins with gpio := cfg, gpioOut := out } } } .gpio))
    exact ⟨SamePorts.trans (SamePorts.trans ⟨rfl, rfl⟩ hp) gp, (congrArg Cfg.desk (gc.trans hc)).trans rfl⟩

theorem State.OutLe.ite {s a b : State} {p : Prop} [Decidable p] (ha : s.OutLe a) (hb : s.OutLe b) :
    s.OutLe (if p then a else b) := by
  split
  · exact ha
  · exact hb

/-- Taking up a role fires at most EV_POOL_EXHAUSTED. -/
theorem State.putLink_outLe (s : State) (v : Word) : s.OutLe (s.putLink v) := by
  have role : ∀ t : State, t.OutLe t.partnerRole.schedPoll := fun t => by
    unfold State.partnerRole State.partnerClear State.schedPoll
    split <;> exact .of_eq rfl rfl
  unfold State.putLink
  dsimp only
  repeat' split
  · exact .refl s
  · exact .of_eq rfl rfl
  all_goals
    refine State.OutLe.trans (.of_eq rfl rfl) (.trans (.of_eq ?_ ?_) (.trans (State.poolCheck_outLe _) (role _)))
    · exact (State.rowWrite_ports _ _).1
    · exact (State.rowWrite_ports _ _).2

/-- The effect of LINK: its words, its role, and with save=YES the Record. -/
theorem State.linkSet_outLe (s : State) (v ti wa : Word) (same sameTimes : Prop) [Decidable same] [Decidable sameTimes]
    (save : Bool) (rs : List CfgReg) :
    s.OutLe
      (let s1 := (s.cfgSet .timing ti).cfgSet .wait wa
       let s2 := if same then (if sameTimes then s1 else s1.bump .link) else s1.putLink v
       if save then s2.save rs else s2) := by
  have words : s.OutLe ((s.cfgSet .timing ti).cfgSet .wait wa) := .of_eq rfl rfl
  generalize (s.cfgSet .timing ti).cfgSet .wait wa = s1 at words ⊢
  have put : s1.OutLe (if same then (if sameTimes then s1 else s1.bump .link) else s1.putLink v) :=
    .ite (.ite (.refl _) (.of_eq rfl rfl)) (s1.putLink_outLe v)
  have saved (t : State) : t.OutLe (if save then t.save rs else t) :=
    .ite (.of_eq (t.save_ports rs).1 (t.save_ports rs).2) (.refl t)
  exact words.trans (put.trans (saved _))

/-- The effect of CAT POOL fires at most EV_POOL_EXHAUSTED. -/
theorem State.catPool_outLe (s : State) (p v : Word) (same : Prop) [Decidable same] :
    s.OutLe (if same then s else (((s.cfgSet .pool p).cfgSet .catConfig v).bump .link).poolCheck) :=
  .ite (.refl s) (.trans (b := ((s.cfgSet .pool p).cfgSet .catConfig v).bump .link) (.of_eq rfl rfl)
    (State.poolCheck_outLe _))

end Sys2Proof.Machine

/-- Settles O13: DESK, BAND and CENSUS change their registers and what follows from them; none queues a line before its
reply. -/
theorem bandAndCensusSettingsTakeEffect : Obligations.BandAndCensusSettingsTakeEffect := by
  intro l s
  refine ⟨?desk, ?mask, ?report, ⟨?bandSet, ?bandClear⟩, ?settings, ?watch, ?off⟩
  case desk =>
    have h : exec (.desk l) s = execDesk l s := rfl
    unfold execDesk at h
    refine answers_effect false _ _ .deskReply h (fun d c k => ?_) (fun t => ?_) (by simp)
    · generalize l.nat? "baud" = baud
      cases l.save <;> cases baud <;> rfl
    · have rate : ∀ t : State, SamePorts t (match l.nat? "baud" with
          | none => t
          | some b => (t.newRate (deskRates.idxOf b)).putDesk (setFld t.cfg.desk.desk 3 0 (deskRates.idxOf b))) := by
        intro t
        split
        · exact ⟨rfl, rfl⟩
        · exact SamePorts.trans ⟨rfl, rfl⟩ (State.putDesk_ports _ _)
      dsimp only
      split
      · exact (rate t).trans (State.rowWrites_ports _ _ _)
      · exact rate t
  case mask =>
    intro n hn
    have h : exec (.eventMask l) s = execEventMask l s := rfl
    unfold execEventMask at h
    simp only [hn] at h
    exact answers_effect false _ _ _ h (fun d c k => rfl) (fun t => t.setMasks_ports _ _ _) (by simp)
  case report =>
    have h : exec (.bandReport l) s = execBandReport l s := rfl
    unfold execBandReport at h
    have saved : ∀ t : State, SamePorts t (if l.save then t.save planRegs4 else t) := fun t =>
      State.saveIf_ports ⟨rfl, rfl⟩ _ _
    have mode : ∀ t : State, (if l.save then t.save planRegs4 else t).cfg.desk = t.cfg.desk := fun t =>
      congrArg Cfg.desk (t.saveIf_cfg _ _)
    generalize l.posNat? 0 = p at h ⊢
    cases p with
    | some p => exact answers_effect false _ _ _ h (fun d c k => rfl) saved (by simp)
    | none => exact answers_effect true _ _ _ h (fun d c k => rfl) saved fun _ => mode
  case bandSet =>
    have h : exec (.bandSet l) s = execBandSet l s := rfl
    unfold execBandSet at h
    exact answers_effect false _ _ _ h (fun d c k => rfl) (fun t => t.saveIf_ports (t.putPlan_ports _ _ _) _ _) (by simp)
  case bandClear =>
    have h : exec (.bandClear l) s = execBandClear l s := rfl
    unfold execBandClear at h
    exact answers_effect false _ _ _ h (fun d c k => rfl) (fun t => t.putPlan_ports _ _ _) (by simp)
  case settings =>
    have h : exec (.censusSettings l) s = censusLine none [] l s := rfl
    unfold censusLine at h
    exact answers_effect false _ _ _ h (fun d c k => rfl) (fun t => t.saveIf_ports (t.setCensus_ports _) _ _) (by simp)
  case watch =>
    have h : exec (.censusWatch l) s = censusLine (some true) [] l s := rfl
    unfold censusLine at h
    exact answers_effect false _ _ _ h (fun d c k => rfl) (fun t => t.saveIf_ports (t.setCensus_ports _) _ _) (by simp)
  case off =>
    have h : exec (.censusOff l) s = censusLine (some false) [] l s := rfl
    unfold censusLine at h
    exact answers_effect false _ _ _ h (fun d c k => rfl) (fun t => t.saveIf_ports (t.setCensus_ports _) _ _) (by simp)
/-- Settles O14: LINK and CAT POOL may fire EV_POOL_EXHAUSTED before their reply; the other lines queue nothing before
it. -/
theorem linkAndPinSettingsTakeEffect : Obligations.LinkAndPinSettingsTakeEffect := by
  intro l s
  refine ⟨?link, ?sched, ?pool, ?tamper, ?gpio, ?flags⟩
  case link =>
    have h : exec (.linkSettings l) s = execLinkSettings l s := rfl
    unfold execLinkSettings at h
    exact answersLast_effect _ _ h (fun d c k => rfl) (fun t => t.linkSet_outLe _ _ _ _ _ _ _)
  case sched =>
    have h : exec (.linkSched l) s = execLinkSched l s := rfl
    unfold execLinkSched at h
    refine answers_effect false _ _ _ h (fun d c k => rfl) (fun t => t.saveIf_ports ?_ _ _) (by simp)
    split <;> exact ⟨rfl, rfl⟩
  case pool =>
    have h : exec (.catPool l) s = execCatPool l s := rfl
    unfold execCatPool at h
    exact answersLast_effect _ _ h (fun d c k => rfl) (fun t => t.catPool_outLe _ _ _)
  case tamper =>
    have h : exec (.tamperSettings l) s = execTamperSettings l s := rfl
    unfold execTamperSettings at h
    exact answers_effect false _ _ _ h (fun d c k => rfl) (fun t => t.saveIf_ports (t.setTamper_ports _) _ _) (by simp)
  case gpio =>
    have h : exec (.gpio l) s = execGpio l s := rfl
    unfold execGpio at h
    generalize l.pos.isEmpty = bare at h ⊢
    cases bare with
    | true =>
      exact answers_effect true _ _ _ h (fun d c k => rfl) (fun t => t.saveIf_ports ⟨rfl, rfl⟩ _ _)
        fun _ t => congrArg Cfg.desk (t.saveIf_cfg _ _)
    | false =>
      exact answers_effect false _ _ _ h (fun d c k => rfl) (fun t => t.saveIf_ports (t.setGpio_keeps _ _).1 _ _)
        (by simp)
  case flags =>
    have h : exec (.vaultFlags l) s = execVaultFlags l s := rfl
    unfold execVaultFlags at h
    exact answers_effect false _ _ _ h (fun d c k => rfl) (fun t => t.setFlags_ports _) (by simp)

end

section
/-! The pure algorithms of the model: the loops of a call slip (19_stacks_porter R512, R513), the octets of the carrels
(R500), the times of a schedule (21_orders R541) and CCM* (18_noise_vault R492). -/

open Sys2Proof Sys2Proof.Machine

namespace Sys2Proof.Machine

/-! ## Call slips -/

/-- A counter below c that runs on: it steps, and carries nothing. -/
theorem succ_counts {i c : Nat} (h : i % c + 1 < c) : (i + 1) % c = i % c + 1 ∧ (i + 1) / c = i / c := by
  have hi := Nat.div_add_mod i c
  have e : i + 1 = (i % c + 1) + c * (i / c) := by omega
  rw [e, Nat.add_mul_mod_self_left, Nat.mod_eq_of_lt h, Nat.add_mul_div_left _ _ (by omega), Nat.div_eq_of_lt h]
  omega

/-- A counter below c at its end: it starts again, and carries one. -/
theorem succ_carries {i c : Nat} (hc : 0 < c) (h : ¬ i % c + 1 < c) : (i + 1) % c = 0 ∧ (i + 1) / c = i / c + 1 := by
  have hi := Nat.div_add_mod i c
  have hm := Nat.mod_lt i hc
  have e : i + 1 = c * (i / c + 1) := by rw [Nat.mul_add]; omega
  rw [e, Nat.mul_mod_right, Nat.mul_div_cancel_left _ hc]
  exact ⟨rfl, rfl⟩

theorem unsigned_add (n : Nat) (a b : Int) : unsigned n ((unsigned n a : Int) + b) = unsigned n (a + b) := by
  have h : (0 : Int) ≤ a % ((2 ^ n : Nat) : Int) := Int.emod_nonneg _ (by positivity)
  simp only [unsigned, Int.toNat_of_nonneg h, Int.emod_add_emod]

theorem unsigned_of_lt {n a : Nat} (h : a < 2 ^ n) : unsigned n (a : Int) = a := by
  simp only [unsigned, ← Int.natCast_emod, Nat.mod_eq_of_lt h, Int.toNat_natCast]

/-- The state of a LOOP slip after i elements. -/
def PRun.looped (x : PRun) (sl : Slip) (i : Nat) : PRun :=
  { x with k0 := i % sl.c0, k1 := i / sl.c0 % sl.c1, k2 := i / (sl.c0 * sl.c1), p := unsigned 32 ((x.p : Int) + i * sl.other) }

/-- The state of a SHELF slip after i elements. -/
def PRun.shelved (x : PRun) (sl : Slip) (i : Nat) : PRun :=
  { x with k0 := i % sl.c0, k1 := i / sl.c0, p := unsigned 32 ((x.p : Int) + i * sl.other) }

theorem unsigned_other (p i : Nat) (d : Int) :
    unsigned 32 ((unsigned 32 ((p : Int) + i * d) : Int) + d) = unsigned 32 ((p : Int) + (i + 1 : Nat) * d) := by
  rw [unsigned_add]
  congr 1
  push_cast
  ring

theorem PRun.looped_zero (x : PRun) (sl : Slip) (h0 : x.k0 = 0) (h1 : x.k1 = 0) (h2 : x.k2 = 0) (hp : x.p < 2 ^ 32) :
    x.looped sl 0 = x := by
  cases x
  simp_all [PRun.looped, unsigned_of_lt]

theorem PRun.shelved_zero (x : PRun) (sl : Slip) (h0 : x.k0 = 0) (h1 : x.k1 = 0) (hp : x.p < 2 ^ 32) :
    x.shelved sl 0 = x := by
  cases x
  simp_all [PRun.shelved, unsigned_of_lt]

/-- One element of a LOOP slip: the innermost counter steps, each that ends carries to the next, and the slip ends with the
outermost. -/
theorem PRun.looped_advance (x : PRun) (sl : Slip) (i : Nat) (hs : sl.shelf = false) (h0 : 0 < sl.c0) (h1 : 0 < sl.c1)
    (hi : i < sl.c0 * sl.c1 * sl.c2) :
    (x.looped sl i).advance sl = if i + 1 < sl.c0 * sl.c1 * sl.c2 then some (x.looped sl (i + 1)) else none := by
  have outer (j : Nat) : j < sl.c0 * sl.c1 * sl.c2 ↔ j / sl.c0 / sl.c1 < sl.c2 := by
    rw [Nat.div_div_eq_div_mul, Nat.div_lt_iff_lt_mul (Nat.mul_pos h0 h1), Nat.mul_comm sl.c2]
  rw [outer] at hi
  simp only [PRun.advance, PRun.looped, unsigned_other, hs, ← Nat.div_div_eq_div_mul, outer]
  by_cases k0 : i % sl.c0 + 1 < sl.c0
  · obtain ⟨m0, d0⟩ := succ_counts k0
    simp [k0, m0, d0, hi]
  · obtain ⟨m0, d0⟩ := succ_carries h0 k0
    by_cases k1 : i / sl.c0 % sl.c1 + 1 < sl.c1
    · obtain ⟨m1, d1⟩ := succ_counts k1
      simp [k0, m0, d0, k1, m1, d1, hi]
    · obtain ⟨m1, d1⟩ := succ_carries h1 k1
      simp [k0, m0, d0, k1, m1, d1]

/-- One element of a SHELF slip: each entry of the shelf list gives c0 elements. -/
theorem PRun.shelved_advance (x : PRun) (sl : Slip) (i : Nat) (hs : sl.shelf = true) (h0 : 0 < sl.c0)
    (hi : i < sl.n * sl.c0) :
    (x.shelved sl i).advance sl = if i + 1 < sl.n * sl.c0 then some (x.shelved sl (i + 1)) else none := by
  have outer (j : Nat) : j < sl.n * sl.c0 ↔ j / sl.c0 < sl.n := (Nat.div_lt_iff_lt_mul h0).symm
  rw [outer] at hi
  simp only [PRun.advance, PRun.shelved, unsigned_other, hs, outer]
  by_cases k0 : i % sl.c0 + 1 < sl.c0
  · obtain ⟨m0, d0⟩ := succ_counts k0
    simp [k0, m0, d0, hi]
  · obtain ⟨m0, d0⟩ := succ_carries h0 k0
    simp [k0, m0, d0]

/-- A slip whose state after i elements is `f i`, and which ends with element number n. -/
theorem PRun.after_eq {x : PRun} {sl : Slip} {n : Nat} (f : Nat → PRun) (h0 : f 0 = x) (hn : 0 < n)
    (step : ∀ i, i < n → (f i).advance sl = if i + 1 < n then some (f (i + 1)) else none) (i : Nat) :
    x.after sl i = if i < n then some (f i) else none := by
  induction i with
  | zero => simp [PRun.after, hn, h0]
  | succ i ih =>
    rw [PRun.after, ih]
    by_cases hi : i < n
    · simp [hi, step i hi]
    · simp [hi, show ¬ i + 1 < n by omega]

/-! ## Octets of the carrels -/

theorem cellAt_cellsPut_same (m : List Host.Cell) (a : Nat) (b : Byte) : cellAt (cellsPut m a b) a = some b := by
  induction m with
  | nil => simp [cellsPut, cellAt]
  | cons e r ih =>
    obtain ⟨x, y⟩ := e
    unfold cellsPut
    split
    · simp [cellAt]
    · split
      · simp [cellAt]
      · have hx : (x == a) = false := by simp; omega
        simpa [cellAt, hx] using ih

theorem cellAt_cellsPut_other (m : List Host.Cell) (a c : Nat) (b : Byte) (hc : c ≠ a) :
    cellAt (cellsPut m a b) c = cellAt m c := by
  have ha : (a == c) = false := by simp; omega
  induction m with
  | nil => simp [cellsPut, cellAt, ha]
  | cons e r ih =>
    obtain ⟨x, y⟩ := e
    unfold cellsPut
    split
    · simp [cellAt, ha]
    · split
      · rename_i hx
        subst hx
        simp [cellAt, ha]
      · cases hx : (x == c)
        · simpa [cellAt, hx] using ih
        · simp [cellAt, hx]

theorem cellAt_cellsPutAll_outside (l : List Byte) (m : List Host.Cell) (a c : Nat) (hc : c < a ∨ a + l.length ≤ c) :
    cellAt (cellsPutAll m a l) c = cellAt m c := by
  induction l generalizing m a with
  | nil => rfl
  | cons b bs ih =>
    rw [List.length_cons] at hc
    rw [cellsPutAll, ih _ _ (by omega), cellAt_cellsPut_other _ _ _ _ (by omega)]

theorem cellAt_cellsPutAll_inside (l : List Byte) (m : List Host.Cell) (a i : Nat) (hi : i < l.length) :
    cellAt (cellsPutAll m a l) (a + i) = some l[i] := by
  induction l generalizing m a i with
  | nil => exact absurd hi (by simp)
  | cons b bs ih =>
    rw [cellsPutAll]
    cases i with
    | zero => rw [cellAt_cellsPutAll_outside _ _ _ _ (by omega)]; exact cellAt_cellsPut_same m a b
    | succ i =>
      rw [show a + (i + 1) = a + 1 + i by omega]
      exact ih _ _ i (by simpa using hi)

/-! ## Times of a schedule -/

/-- A number of the class `phase` modulo `every` that is above `d` is at least the first one at or above `d`. -/
theorem leastAt_le {every phase d u : Nat} (hp : phase < every) (hd : d ≤ u) (hu : u % every = phase) :
    leastAt every phase d ≤ u := by
  unfold leastAt
  have hdiv := Nat.div_add_mod u every
  rw [hu] at hdiv
  split
  · omega
  · have : ceilDiv' (d - phase) every ≤ u / every := by
      unfold ceilDiv'
      rw [← Nat.lt_succ_iff, Nat.div_lt_iff_lt_mul (by omega), Nat.succ_mul, Nat.mul_comm]
      omega
    calc phase + ceilDiv' (d - phase) every * every
        ≤ phase + u / every * every := by gcongr
      _ = u := by rw [Nat.mul_comm]; omega

theorem le_leastAt {every phase d : Nat} (hp : phase < every) : d ≤ leastAt every phase d := by
  unfold leastAt ceilDiv'
  split
  · assumption
  · have h := Nat.lt_div_mul_add (a := d - phase + every - 1) (show 0 < every by omega)
    omega

theorem leastAt_mod {every phase d : Nat} (hp : phase < every) : leastAt every phase d % every = phase := by
  unfold leastAt
  split
  · exact Nat.mod_eq_of_lt hp
  · rw [Nat.add_mul_mod_self_right, Nat.mod_eq_of_lt hp]

/-! ## CCM* -/

theorem xorL_length (a b : List Nat) : (xorL a b).length = min a.length b.length := List.length_zipWith

/-- Two octet strings of which the first is no longer: the exclusive or with the second, twice, gives the first. -/
theorem xorL_xorL (a b : List Nat) (h : a.length ≤ b.length) : xorL (xorL a b) b = a := by
  induction a generalizing b with
  | nil => rfl
  | cons x xs ih =>
    cases b with
    | nil => simp at h
    | cons y ys =>
      simp only [xorL, List.zipWith_cons_cons, List.cons.injEq]
      exact ⟨by rw [Nat.xor_assoc, Nat.xor_self, Nat.xor_zero], ih ys (by simpa using h)⟩

/-- The words of a key schedule have four octets, and n are added to those given. -/
theorem keyWords_words (n rcon : Nat) (ws : List (List Nat)) (h : ∀ x ∈ ws, x.length = 4) (h4 : 4 ≤ ws.length) :
    (∀ x ∈ keyWords n rcon ws, x.length = 4) ∧ (keyWords n rcon ws).length = ws.length + n := by
  induction n generalizing rcon ws with
  | zero => exact ⟨h, rfl⟩
  | succ n ih =>
    obtain ⟨a, b, c, d, r, rfl⟩ : ∃ a b c d r, ws = a :: b :: c :: d :: r := by
      match ws, h4 with
      | a :: b :: c :: d :: r, _ => exact ⟨a, b, c, d, r, rfl⟩
    have ha : a.length = 4 := h a (by simp)
    have hd : d.length = 4 := h d (by simp)
    have add (rc : Nat) (y : List Nat) (hy : y.length = 4) :
        (∀ x ∈ keyWords n rc (xorL d y :: a :: b :: c :: d :: r), x.length = 4) ∧
          (keyWords n rc (xorL d y :: a :: b :: c :: d :: r)).length = (a :: b :: c :: d :: r).length + (n + 1) := by
      obtain ⟨h1, h2⟩ := ih rc (xorL d y :: a :: b :: c :: d :: r)
        (by intro x hx
            rcases List.mem_cons.1 hx with rfl | hx
            · rw [xorL_length, hd, hy]; rfl
            · exact h x hx) (by simp)
      exact ⟨h1, h2.trans (by simp only [List.length_cons]; omega)⟩
    unfold keyWords
    dsimp only [List.headD_cons, List.getD_cons_succ, List.getD_cons_zero]
    split
    · obtain ⟨w, x, y, z, rfl⟩ : ∃ w x y z, a = [w, x, y, z] := List.length_eq_four.1 ha
      exact add _ _ rfl
    · exact add _ _ ha

theorem flatten_length_of_fours (ws : List (List Nat)) (h : ∀ x ∈ ws, x.length = 4) : ws.flatten.length = 4 * ws.length := by
  induction ws with
  | nil => rfl
  | cons w ws ih =>
    rw [List.flatten_cons, List.length_append, ih fun x hx => h x (List.mem_cons_of_mem _ hx), h w (by simp)]
    simp only [List.length_cons]
    omega

theorem chunks4_words (n : Nat) (l : List Nat) (h : l.length = 4 * n) :
    (chunks4 l).length = n ∧ ∀ x ∈ chunks4 l, x.length = 4 := by
  induction n generalizing l with
  | zero =>
    obtain rfl := List.length_eq_zero_iff.1 h
    exact ⟨rfl, by simp [chunks4]⟩
  | succ n ih =>
    match l, h with
    | a :: b :: c :: d :: r, h =>
      obtain ⟨h1, h2⟩ := ih r (by simp only [List.length_cons] at h; omega)
      refine ⟨congrArg (· + 1) h1, fun x hx => ?_⟩
      rcases List.mem_cons.1 hx with rfl | hx
      · rfl
      · exact h2 x hx

/-- A key of sixteen octets gives eleven round keys of sixteen octets. -/
theorem roundKeys_lengths (key : List Nat) (h : key.length = 16) :
    (roundKeys key).length = 11 ∧ ∀ k ∈ roundKeys key, k.length = 16 := by
  refine ⟨by simp [roundKeys], fun k hk => ?_⟩
  obtain ⟨hn, hw⟩ := chunks4_words 4 key h
  obtain ⟨words, count⟩ := keyWords_words 40 1 (chunks4 key).reverse (fun x hx => hw x (List.mem_reverse.1 hx))
    (by rw [List.length_reverse, hn])
  rw [List.length_reverse, hn] at count
  obtain ⟨i, hi, rfl⟩ := List.mem_map.1 hk
  have hi := List.mem_range.1 hi
  rw [flatten_length_of_fours]
  · simp only [List.length_take, List.length_drop, List.length_reverse, count]
    omega
  · intro x hx
    exact words x (List.mem_reverse.1 (List.mem_of_mem_drop (List.mem_of_mem_take hx)))

/-- The rounds give sixteen octets, whatever they are given. -/
theorem encRounds_length (ks : List (List Nat)) (x : List Nat) (hn : ks ≠ []) (hk : ∀ k ∈ ks, k.length = 16) :
    (encRounds ks x).length = 16 := by
  induction ks generalizing x with
  | nil => exact absurd rfl hn
  | cons k ks ih =>
    cases ks with
    | nil => rw [encRounds, xorL_length, hk k (by simp)]; rfl
    | cons k' ks => exact ih _ (by simp) fun y hy => hk y (List.mem_cons_of_mem _ hy)

theorem aesEnc_length (key x : List Nat) (h : key.length = 16) : (aesEnc key x).length = 16 := by
  obtain ⟨hn, hk⟩ := roundKeys_lengths key h
  unfold aesEnc
  match roundKeys key, hn, hk with
  | k :: k' :: ks, _, hk => exact encRounds_length _ _ (by simp) fun y hy => hk y (List.mem_cons_of_mem _ hy)

theorem cbcMac_length (key : List Nat) (bs : List (List Nat)) (h : key.length = 16) : (cbcMac key bs).length = 16 := by
  unfold cbcMac
  have fold (bs : List (List Nat)) (x : List Nat) (hx : x.length = 16) :
      (bs.foldl (fun x b => aesEnc key (xorL x b)) x).length = 16 := by
    induction bs generalizing x with
    | nil => exact hx
    | cons b bs ih => exact ih _ (aesEnc_length _ _ h)
  exact fold bs _ rfl

theorem ctrBlock_length (key nonce : List Nat) (i : Nat) (h : key.length = 16) : (ctrBlock key nonce i).length = 16 :=
  aesEnc_length _ _ h

/-- A list cut into its first block of 16 and the rest. -/
theorem take_drop_block {α : Type} {a b : List α} {n : Nat} (ha : a.length = min 16 n) (hb : b.length = n - 16) :
    (a ++ b).take 16 = a ∧ (a ++ b).drop 16 = b := by
  by_cases h : n ≤ 16
  · obtain rfl : b = [] := List.length_eq_zero_iff.1 (by omega)
    rw [List.append_nil]
    exact ⟨List.take_of_length_le (by omega), List.drop_of_length_le (by omega)⟩
  · have h16 : a.length = 16 := by omega
    exact ⟨List.take_left' h16, List.drop_left' h16⟩

/-- The key stream keeps the length of what it is applied to, and applied twice gives it back. -/
theorem ctrXor_ctrXor (key nonce : List Nat) (h : key.length = 16) (n i : Nat) (l : List Nat) (hl : l.length < n) :
    (ctrXor key nonce n i l).length = l.length ∧ ctrXor key nonce n i (ctrXor key nonce n i l) = l := by
  induction n generalizing i l with
  | zero => omega
  | succ n ih =>
    cases hl0 : l.isEmpty
    · have step (m : List Nat) (hm : m.isEmpty = false) : ctrXor key nonce (n + 1) i m =
          xorL (m.take 16) (ctrBlock key nonce i) ++ ctrXor key nonce n (i + 1) (m.drop 16) := by
        rw [ctrXor, hm]; rfl
      have pos : 0 < l.length := List.length_pos_iff.2 (by simpa using hl0)
      have first : (xorL (l.take 16) (ctrBlock key nonce i)).length = min 16 l.length := by
        rw [xorL_length, ctrBlock_length _ _ _ h, List.length_take]; omega
      obtain ⟨len, back⟩ := ih (i + 1) (l.drop 16) (by rw [List.length_drop]; omega)
      have drop : (l.drop 16).length = l.length - 16 := List.length_drop
      obtain ⟨take16, drop16⟩ := take_drop_block first (len.trans drop)
      rw [step l hl0]
      refine ⟨by rw [List.length_append, first, len, drop]; omega, ?_⟩
      rw [step _ (by rw [List.isEmpty_eq_false_iff_exists_mem]; exact List.exists_mem_of_length_pos (by
        rw [List.length_append, first]; omega)), take16, drop16, back,
        xorL_xorL _ _ (by rw [ctrBlock_length _ _ _ h]; exact List.length_take_le ..), List.take_append_drop]
    · obtain rfl := List.isEmpty_iff.1 hl0
      exact ⟨rfl, rfl⟩

/-- The sealed MIC has the octets of its level. -/
theorem ccmTag_length (key nonce aad msg : List Nat) (level : Nat) (h : key.length = 16) :
    (xorL (ccmMac key nonce aad msg (micLen level)) (ctrBlock key nonce 0)).length = micLen level := by
  have m16 : micLen level ≤ 16 := by
    unfold micLen
    repeat' split
    all_goals omega
  rw [xorL_length, ctrBlock_length _ _ _ h, ccmMac, List.length_take, cbcMac_length _ _ h]
  omega

/-- What ENC gives has the length of the plaintext and its MIC. -/
theorem ccmEnc_length (key nonce aad msg : List Nat) (level : Nat) (h : key.length = 16) :
    (ccmEnc key nonce aad msg level).length = msg.length + micLen level := by
  rw [ccmEnc, List.length_append, ccmTag_length _ _ _ _ _ h, (ctrXor_ctrXor key nonce h _ 1 msg (Nat.lt_succ_self _)).1]

end Sys2Proof.Machine

/-- Settles O56: after each element the counts are those of the loops' closed form, so the run ends with the last. -/
theorem slipsMoveTheirElements : Obligations.SlipsMoveTheirElements := by
  intro x sl i k0 k1 k2 hp h0
  refine ⟨fun hs h1 h2 => ?loop, fun hs hn => ?shelf⟩
  case loop =>
    have after := PRun.after_eq (x.looped sl) (x.looped_zero sl k0 k1 k2 hp) (Nat.mul_pos (Nat.mul_pos h0 h1) h2)
      (fun j => x.looped_advance sl j hs h0 h1) i
    refine ⟨fun hi => ⟨x.looped sl i, by rw [after, if_pos hi], rfl, ?_⟩, fun hi => by rw [after, if_neg (by omega)]⟩
    simp [PRun.walked, PRun.looped, hs]
  case shelf =>
    have after := PRun.after_eq (x.shelved sl) (x.shelved_zero sl k0 k1 hp) (Nat.mul_pos hn h0)
      (fun j => x.shelved_advance sl j hs h0) i
    refine ⟨fun hi => ⟨x.shelved sl i, by rw [after, if_pos hi], rfl, fun off => ?_⟩,
      fun hi => by rw [after, if_neg (by omega)]⟩
    simp [PRun.walked, PRun.shelved, hs]

/-- Settles O57: the key stream applied twice gives the text back, and text and MIC have fixed lengths, so that data is
parted in one way only. -/
theorem ccmOpensExactlyWhatItSeals : Obligations.CcmOpensExactlyWhatItSeals := by
  intro key nonce aad msg data level hk _
  constructor
  · intro h
    unfold ccmDec at h
    obtain ⟨mac, rfl⟩ := Option.ite_some_none_eq_some.1 h
    obtain ⟨len, back⟩ := ctrXor_ctrXor key nonce hk _ 1 (data.take (data.length - micLen level)) (Nat.lt_succ_self _)
    rw [ccmEnc, mac, len, back, List.take_append_drop]
  · rintro rfl
    obtain ⟨len, back⟩ := ctrXor_ctrXor key nonce hk _ 1 msg (Nat.lt_succ_self _)
    have parts : (ccmEnc key nonce aad msg level).length - micLen level = msg.length := by
      rw [ccmEnc_length _ _ _ _ _ hk]; omega
    unfold ccmDec
    simp only [parts]
    simp only [ccmEnc, List.take_left' len, List.drop_left' len, len]
    rw [back, if_pos rfl]

/-- Settles O58. -/
theorem carrelsReadBack : Obligations.CarrelsReadBack := by
  intro s a b o _
  refine ⟨List.ext_getElem (by simp [State.carrelRead]) fun i h1 h2 => ?_, fun hb => ?_⟩
  · simp [State.carrelRead, State.carrelByte, State.carrelWrite, cellAt_cellsPutAll_inside o _ a i h2]
  · simp only [State.carrelByte, State.carrelWrite, cellAt_cellsPutAll_outside o _ a b hb]

/-- Settles O59. -/
theorem schedulesTakeLeastTime : Obligations.SchedulesTakeLeastTime := by
  intro x e p v hon ht hpe
  have hp : p * 19200000 < e * 19200000 := by omega
  refine ⟨leastAt (e * 19200000) (p * 19200000) v, ?_, le_leastAt hp, leastAt_mod hp, fun u => leastAt_le hp⟩
  simp [OrderSlot.nextAt, hon, ht]

end

section
/-! Register writes: what an accepted write leaves, whatever the register, and what a write refuses (05_register_file
R116–R126). -/

open Sys2Proof Sys2Proof.Machine

namespace Sys2Proof.Machine

/-! ## What joins the output queues -/

theorem State.OutLe.ports {s t u : State} (h : s.OutLe t) (k : SamePorts t u) : s.OutLe u := h.trans (.of_eq k.1 k.2)

theorem State.OutLe.of_keeps {s t : State} (h : ∀ p, (t.port p).out = (s.port p).out) : s.OutLe t :=
  fun p => ⟨[], by rw [h p, List.append_nil]⟩

theorem State.inOrder_append (t : State) (old new : List OutLine) :
    ∃ mid, t.inOrder old (old ++ new) = old ++ mid := by
  unfold State.inOrder
  simp only [List.take_left, if_true]
  exact ⟨_, rfl⟩

/-- The order of the lines that join the queues in one cycle leaves those before them. -/
theorem State.OutLe.settled {s t : State} (h : s.OutLe t) : s.OutLe (t.settled s) := by
  intro p
  obtain ⟨mid, hm⟩ := h p
  cases p with
  | desk => obtain ⟨x, hx⟩ := t.inOrder_append s.dport.out mid; exact ⟨x, (congrArg _ hm).trans hx⟩
  | chute => obtain ⟨x, hx⟩ := t.inOrder_append s.cport.out mid; exact ⟨x, (congrArg _ hm).trans hx⟩

theorem State.freeTicket_ports (s : State) (n : Nat) : SamePorts s (s.freeTicket n) := by
  unfold State.freeTicket
  split <;> exact ⟨rfl, rfl⟩

theorem State.completeCore_outLe (s : State) (n : Nat) (r : Result) (fs : List Tok) (b : List Byte) (z : Fired) :
    s.OutLe (s.completeCore n r fs b z) := by
  have done (u : State) (t : Ticket) : u.OutLe (u.fireDone t r) := by
    unfold State.fireDone
    exact .ite (u.fire_outLe _ _) (.refl u)
  have fail (u : State) (t : Ticket) : u.OutLe (u.fireFail t r) := by
    unfold State.fireFail
    exact .ite (.refl u) (u.fire_outLe _ _)
  have delivered (u : State) (t : Ticket) (fs : List Tok) : u.OutLe (u.deliver t r fs b) := by
    unfold State.deliver
    split
    · exact u.push_outLe _ _
    · exact .of_eq (u.freeTicket_ports _).1 (u.freeTicket_ports _).2
  unfold State.completeCore
  split
  · exact .refl s
  · split
    · exact .refl s
    · rename_i t _ _
      extract_lets fs s1 s2 s3
      have h1 : s.OutLe s1 := .of_eq rfl rfl
      have h2 : s1.OutLe s2 := .ite (.refl s1) (done s1 t)
      have h3 : s2.OutLe s3 := .ite (.refl s2) (fail s2 t)
      exact ((h1.trans h2).trans h3).trans (delivered s3 t fs)

theorem State.startPending_ports (s : State) : SamePorts s s.startPending := by
  unfold State.startPending
  split
  · exact ⟨rfl, rfl⟩
  · dsimp only
    split <;> exact ⟨rfl, rfl⟩

theorem State.orderEnd_outLe (s : State) (res : OrderResult) (z : Fired) : s.OutLe (s.orderEnd res z) := by
  unfold State.orderEnd
  split
  · exact .refl s
  · rename_i r _
    extract_lets line code o last pwr s1 s2 s3 s4
    have h2 : s.OutLe s2 := .trans (b := s1) (.of_eq rfl rfl) (.ite (s1.fire_outLe _ _) (s1.fire_outLe _ _))
    have h3 : s.OutLe s3 := h2.trans (.ite (.refl s2) (.of_eq (s2.startPending_ports).1 (s2.startPending_ports).2))
    have h4 : s.OutLe s4 := by
      refine h3.trans ?_
      dsimp only [s4]
      split
      · exact .refl s3
      · exact .ite (s3.completeCore_outLe _ _ _ _ _) (s3.completeCore_outLe _ _ _ _ _)
    exact h4.settled

theorem State.orderLineDone_outLe (s : State) (e : Option Nat) (z : Fired) : s.OutLe (s.orderLineDone e z) := by
  unfold State.orderLineDone
  split
  · exact .refl s
  · have ended (x : Run) (res : OrderResult) :
        s.OutLe (State.orderEnd { s with orders := { s.orders with run := some x } } res z) :=
      .trans (.of_eq rfl rfl) (State.orderEnd_outLe _ _ _)
    dsimp only
    repeat' split
    all_goals solve
      | exact ended _ _
      | exact .of_eq rfl rfl

theorem State.waitCheck_outLe (s : State) : s.OutLe s.waitCheck := by
  unfold State.waitCheck
  split
  · exact .ite (.refl s) (s.orderLineDone_outLe _ _)
  · exact .refl s

theorem State.holdFlush_outLe (s : State) (p : Port) (was : Bool) : s.OutLe (s.holdFlush p was) := by
  have flush (held : List Ticket) (s : State) : s.OutLe (held.foldl (fun s t =>
      (s.updTicket t.n (fun t => { t with st := .complete })).push p
        { kind := .dn t.n, tag := t.tag, toks := dnToks t.n (t.result.getD .done) t.fields, block := t.block }) s) := by
    induction held generalizing s with
    | nil => exact .refl s
    | cons x xs ih =>
      exact .trans (.trans (b := s.updTicket x.n _) (.of_eq rfl rfl) (State.push_outLe _ _ _)) (ih _)
  exact .ite (flush _ s) (.refl s)

/-! ## The input of a port leaves its output alone -/

theorem PortSt.octet_out (p : PortSt) (framed : Bool) (x : InOctet) : (p.octet framed x).out = p.out := by
  have ended (q : PortSt) : (q.lineEnd framed x.at_).out = q.out := by
    unfold PortSt.lineEnd
    dsimp only
    split <;> rfl
  have stored (q : PortSt) : (q.store framed x.b).out = q.out := by
    unfold PortSt.store
    dsimp only
    repeat' split
    all_goals rfl
  have controlled (q : PortSt) : (q.control framed x.b).out = q.out := by
    unfold PortSt.control
    repeat' split
    all_goals rfl
  have fed : (p.feed framed x).out = p.out := by
    unfold PortSt.feed
    dsimp only
    split
    · rfl
    · split <;> (repeat' split) <;> simp only [ended, stored, controlled]
  unfold PortSt.octet
  split
  · rfl
  · split
    · unfold PortSt.blockOctet
      dsimp only
      split <;> rfl
    · exact fed

theorem PortSt.reread_out (p : PortSt) (framed all : Bool) : (p.reread framed all).out = p.out := by
  have fold (xs : List InOctet) (q : PortSt) : (xs.foldl (fun q x => q.octet framed x) q).out = q.out := by
    induction xs generalizing q with
    | nil => rfl
    | cons x xs ih => exact (ih _).trans (q.octet_out framed x)
  unfold PortSt.reread
  split
  · rfl
  · exact fold _ _

theorem State.newMode_outLe (s : State) (was all : Bool) : s.OutLe (s.newMode was all) := by
  refine .of_keeps fun p => ?_
  unfold State.newMode
  split
  · rfl
  · cases p with
    | desk => exact s.dport.reread_out _ _
    | chute => rfl

theorem State.rateSoon_outLe (s : State) : s.OutLe s.rateSoon := by
  unfold State.rateSoon State.applyRate
  repeat' split
  all_goals exact .of_eq rfl rfl

/-! ## What a register queues -/

/-- A write to the register queues at most lines behind those that wait. -/
def Reg.Appends (r : Reg) : Prop := ∀ v s, State.OutLe s (r.apply v s)

theorem roReg_appends (a : Nat) (n : String) (f : List Field) (g : State → Word) : (roReg a n f g).Appends :=
  fun _ s => State.OutLe.refl s

theorem roVal_appends (a : Nat) (n : String) (f : Nat) (g : State → Word) : (roVal a n f g).Appends :=
  fun _ s => State.OutLe.refl s

theorem wrapReg_appends (a : Nat) (n : String) (f : Nat) (g : State → List Counter) : (wrapReg a n f g).Appends :=
  fun _ s => State.OutLe.refl s

theorem State.saveCounters_ports (s : State) : SamePorts s s.saveCounters := s.rowWrite_ports _

theorem State.antFollow_ports (s : State) : SamePorts s s.antFollow := by
  unfold State.antFollow
  repeat' split
  all_goals solve
    | exact ⟨rfl, rfl⟩
    | exact SamePorts.trans ⟨rfl, rfl⟩ (State.padFollow_keeps _).1

theorem State.saveFc_ports (s : State) : SamePorts s s.saveFc := s.rowWrite_ports _

/-- The registers of the blocks whose writes touch the unit, its edition and the Record. -/
theorem plainRegs_append : ∀ rs ∈ [sysRegs, padRegs, pwrRegs, dormRegs, dayRegs, radioRegs, modemRegs, censusRegs,
    frameRegs, ledgerRegs, trimRegs, noiseRegs, vaultRegs, fcRegs, storeRegs, porterRegs, orderRegs, sswRegs, tamperRegs,
    ticketRegs], ∀ r ∈ rs, r.Appends := by
  simp only [sysRegs, padRegs, pwrRegs, dormRegs, dayRegs, radioRegs, modemRegs, censusRegs, frameRegs, ledgerRegs,
    trimRegs, noiseRegs, vaultRegs, fcRegs, storeRegs, porterRegs, orderRegs, sswRegs, tamperRegs, ticketRegs,
    List.forall_mem_cons, List.forall_mem_append, List.forall_mem_map, List.forall_mem_flatMap, roReg_appends,
    roVal_appends, wrapReg_appends, List.not_mem_nil, false_imp_iff, implies_true, true_and, and_true, imp_and, forall_and]
  repeat' apply And.intro
  all_goals
    intros
    intro v s
    dsimp only [ctrReg, cfgReg, State.putDorm]
    repeat' split
  all_goals refine State.OutLe.of_eq ?_ ?_
  all_goals
    try simp only [(State.saveCounters_ports _).1, (State.saveCounters_ports _).2, (State.save_ports _ _).1,
      (State.save_ports _ _).2, (State.saveFc_ports _).1, (State.saveFc_ports _).2, (State.setTamper_ports _ _).1,
      (State.setTamper_ports _ _).2, (State.setFlags_ports _ _).1, (State.setFlags_ports _ _).2,
      (State.setCensus_ports _ _).1, (State.setCensus_ports _ _).2, id, State.bump_dport,
      State.bump_cport, (State.antFollow_ports _).1, (State.antFollow_ports _).2]
  all_goals rfl

theorem ctrReg_appends (a : Nat) (n : String) (get : State → Counter) (set : Counter → State → State)
    (h : ∀ c s, SamePorts s (set c s)) : (ctrReg a n get set).Appends :=
  fun _ s => .of_eq (h _ s).1 (h _ s).2

theorem cfgReg_appends (a : Nat) (n : String) (u : EdUnit) (c : CfgReg) (f : List Field) (check : State → Word → List Er)
    (also : State → State) (h : ∀ s : State, s.OutLe (also s)) : (cfgReg a n (some u) c f check also).Appends := fun v s =>
  .ite (.refl s) (.trans (.trans (.of_eq rfl rfl) (h (s.cfgSet c v))) (.of_eq rfl rfl))

theorem linkRegs_append : ∀ r ∈ linkRegs, r.Appends := by
  simp only [linkRegs, List.forall_mem_cons, List.forall_mem_append, List.forall_mem_map, roReg_appends, roVal_appends,
    wrapReg_appends, List.not_mem_nil, false_imp_iff, implies_true, true_and, and_true]
  have link : ∀ f s, SamePorts s (setLink f s) := fun _ _ => ⟨rfl, rfl⟩
  refine ⟨⟨⟨fun v s => s.putLink_outLe v, ?_, ?_, ?_, ?_, fun v s => ?_⟩, fun i _ => ?_⟩, fun i _ => ?_⟩
  · exact cfgReg_appends _ _ _ _ _ _ _ State.OutLe.refl
  · exact cfgReg_appends _ _ _ _ _ _ _ State.OutLe.refl
  · exact cfgReg_appends _ _ _ _ _ _ _ State.poolCheck_outLe
  · exact cfgReg_appends _ _ _ _ _ _ _ State.OutLe.refl
  · exact .ite (.refl s) (.of_eq rfl rfl)
  · exact ctrReg_appends _ _ _ _ fun _ => link _
  · exact ctrReg_appends _ _ _ _ fun _ => link _

theorem collateRegs_append : ∀ r ∈ collateRegs, r.Appends := by
  have put (s : State) (n : Nat) (c : Collator) : s.OutLe (s.putCol n c) := .ite (.refl s) (.of_eq rfl rfl)
  have feed (n off k : Nat) (name : String) : (feedReg n off k name).Appends := fun v s => .of_eq rfl rfl
  simp only [collateRegs, colRegs, List.forall_mem_cons, List.forall_mem_append, List.forall_mem_flatMap, roReg_appends,
    roVal_appends, wrapReg_appends, feed, List.not_mem_nil, false_imp_iff, implies_true, true_and, and_true]
  exact ⟨⟨ctrReg_appends _ _ _ _ fun _ _ => ⟨rfl, rfl⟩, ctrReg_appends _ _ _ _ fun _ _ => ⟨rfl, rfl⟩⟩,
    fun n _ => ⟨fun v s => put s n _, fun v s => put s n _⟩⟩

theorem gpioRegs_append : ∀ r ∈ gpioRegs, r.Appends := by
  simp only [gpioRegs, List.forall_mem_cons, List.forall_mem_append, List.forall_mem_map, roReg_appends,
    wrapReg_appends, List.not_mem_nil, false_imp_iff, implies_true, true_and, and_true]
  have pins (s : State) cfg out : s.OutLe (s.setGpio cfg out) :=
    .of_eq (s.setGpio_keeps cfg out).1.1 (s.setGpio_keeps cfg out).1.2
  exact ⟨⟨fun _ s => pins s _ _, ctrReg_appends _ _ _ _ fun _ _ => ⟨rfl, rfl⟩⟩, fun _ _ _ s => pins s _ _⟩

theorem State.clearPend_ports (s : State) (m : BitVec 128) : SamePorts s (s.clearPend m) :=
  SamePorts.trans ⟨rfl, rfl⟩ (State.attnFollow_ports _).1

theorem eventRegs_append : ∀ r ∈ eventRegs, r.Appends := by
  simp only [eventRegs, List.forall_mem_cons, List.forall_mem_append, List.forall_mem_flatMap, roReg_appends,
    wrapReg_appends, List.not_mem_nil, false_imp_iff, implies_true, true_and, and_true]
  have masks (s : State) (a li wk : BitVec 128) : s.OutLe (s.setMasks a li wk) :=
    .of_eq (s.setMasks_ports a li wk).1 (s.setMasks_ports a li wk).2
  have cleared (s : State) (m : BitVec 128) : s.OutLe (s.clearPend m).waitCheck :=
    .trans (.of_eq (s.clearPend_ports m).1 (s.clearPend_ports m).2) (State.waitCheck_outLe _)
  exact ⟨⟨cfgReg_appends _ _ _ _ _ _ _ State.OutLe.refl, ctrReg_appends _ _ _ _ fun _ _ => ⟨rfl, rfl⟩,
      ctrReg_appends _ _ _ _ fun _ _ => ⟨rfl, rfl⟩⟩,
    fun k _ => ⟨fun _ s => cleared s _, fun _ s => masks s _ _ _, fun _ s => masks s _ _ _, fun _ s => masks s _ _ _⟩⟩

theorem State.writeDesk_outLe (s : State) (v : Word) : s.OutLe (s.writeDesk v) := by
  unfold State.writeDesk
  extract_lets r s1 was
  have h1 : s.OutLe s1 := .ite (.refl s) (.of_eq rfl rfl)
  exact ((h1.ports (s1.putDesk_ports v)).trans (State.newMode_outLe _ _ _)).trans (State.holdFlush_outLe _ _ _)

theorem State.writeChute_outLe (s : State) (v : Word) : s.OutLe (s.writeChute v) := by
  unfold State.writeChute
  exact .ite (.refl s) (.trans (b := (s.cfgSet .chute v).bump .chute) (.of_eq rfl rfl) (State.holdFlush_outLe _ _ _))

theorem deskRegs_append : ∀ r ∈ deskRegs, r.Appends := by
  simp only [deskRegs, List.forall_mem_cons, roReg_appends, wrapReg_appends, List.not_mem_nil, false_imp_iff, implies_true,
    true_and, and_true]
  have count (a n get) (f : Counter → DeskSt → DeskSt) : (ctrReg a n get (fun c => setDeskSt (f c))).Appends :=
    ctrReg_appends a n get _ fun _ _ => ⟨rfl, rfl⟩
  exact ⟨fun v s => s.writeDesk_outLe v, fun v s => .of_eq rfl rfl, count _ _ _ _, count _ _ _ _, count _ _ _ _,
    count _ _ _ _, fun v s => s.writeChute_outLe v, count _ _ _ _, count _ _ _ _, count _ _ _ _⟩

theorem allRegs_append : ∀ r ∈ allRegs, r.Appends := by
  have plain := plainRegs_append
  simp only [List.forall_mem_cons, List.not_mem_nil, false_imp_iff, implies_true, and_true] at plain
  obtain ⟨sys, pad, pwr, dorm, day, radio, modem, census, frame, ledger, trim, noise, vault, fc, store, porter, order,
    ssw, tamper, ticket⟩ := plain
  simp only [allRegs, List.flatten_cons, List.flatten_nil, List.forall_mem_append, List.not_mem_nil, false_imp_iff,
    implies_true, and_true]
  exact ⟨sys, pad, pwr, dorm, day, radio, modem, census, frame, linkRegs_append, ledger, trim, noise, vault, fc, store,
    porter, collateRegs_append, order, ssw, tamper, gpioRegs_append, eventRegs_append, deskRegs_append, ticket⟩

/-! ## What an accepted write leaves -/

theorem mem_allRegs_of_setTarget {k : String} {r : Reg} {f : Field} (h : setTarget k = some (r, f)) : r ∈ allRegs := by
  unfold setTarget at h
  dsimp only at h
  cases hr : regNamed (splitName (upperName k)).1 with
  | none => simp [hr] at h
  | some q =>
    rw [hr] at h
    obtain ⟨g, _, hg⟩ := Option.map_eq_some_iff.1 h
    cases hg
    exact List.mem_of_find?_eq_some hr

theorem mem_allRegs_of_setFields {l : Line} {x : SetField} (h : x ∈ setFields l) : x.reg ∈ allRegs := by
  unfold setFields at h
  obtain ⟨a, _, ha⟩ := List.mem_filterMap.1 h
  split at ha
  · rename_i r f v hr _
    cases ha
    exact mem_allRegs_of_setTarget hr
  · cases ha

/-- The register that a line writes is one of the file's. -/
theorem State.writeOf_mem {s : State} {f : WriteForm} {l : Line} {r : Reg} {v : Word} (h : s.writeOf f l = some (r, v)) :
    r ∈ allRegs := by
  cases f with
  | wr =>
    obtain ⟨q, hq, e⟩ := Option.map_eq_some_iff.1 h
    cases e
    exact List.mem_of_find?_eq_some hq
  | set =>
    dsimp only [State.writeOf] at h
    cases hx : setFields l with
    | nil => rw [hx] at h; cases h
    | cons x xs =>
      rw [hx] at h
      cases h
      exact mem_allRegs_of_setFields (l := l) (by simp [hx])

/-- A write that takes nothing. -/
theorem State.written_none {s : State} {f : WriteForm} {l : Line} (h : s.writeOf f l = none) : s.written f l = s := by
  unfold State.written
  rw [h]

/-- What an accepted write leaves, told by the register's own write. -/
theorem State.written_some {s : State} {f : WriteForm} {l : Line} {r : Reg} {v : Word} (h : s.writeOf f l = some (r, v)) :
    s.written f l = if r.addr = 0x2400 then
      (if l.origin = .port .desk then (r.write v s).newMode (s.framed .desk) true else (r.write v s).rateSoon)
      else r.write v s := by
  unfold State.written
  rw [h]
  rfl

theorem State.written_outLe (s : State) (f : WriteForm) (l : Line) : s.OutLe (s.written f l) := by
  cases h : s.writeOf f l with
  | none => rw [State.written_none h]; exact .refl s
  | some x =>
    obtain ⟨r, v⟩ := x
    have wrote : s.OutLe (r.write v s) := allRegs_append r (State.writeOf_mem h) _ s
    rw [State.written_some h]
    exact .ite (.ite (wrote.trans (State.newMode_outLe _ _ _)) (wrote.trans (State.rateSoon_outLe _))) wrote

/-- The kind of the reply to a write: the one to DESK_CONFIG from the Desk ends with a change of rate. -/
def State.writeReply (s : State) (f : WriteForm) (l : Line) : OutKind :=
  match s.writeOf f l with
  | some (r, _) => if r.addr = 0x2400 ∧ l.origin = .port .desk then .deskReply else .reply true
  | none => .reply true

/-- A write is a line that takes its word and is answered. -/
theorem execWrite_eq (f : WriteForm) (l : Line) (s : State) :
    execWrite f l s = runLine (writeForm f l) l s (s.writeErs f l) (fun s =>
      (s.written f l).replyLines l (s.writeReply f l) false [okLine (writeToks f l)]) := by
  unfold execWrite
  refine runLine_congr ?_
  cases h : (s.took l.origin).writeOf f l with
  | none =>
    simp only [State.written_none h, State.writeReply, h]
    rfl
  | some x =>
    obtain ⟨r, v⟩ := x
    simp only [State.written_some h, State.writeReply, h]
    by_cases ha : r.addr = 0x2400
    · by_cases ho : l.origin = .port .desk
      · simp only [ha, ho, if_true, and_self]
        rfl
      · simp only [ha, ho, if_true, and_false, if_false]
        rfl
    · simp only [ha, if_false, false_and]
      rfl

theorem State.replyLines_ended {s t : State} (l : Line) (k : OutKind) (ts : List Tok) (h : s.OutLe t) :
    Ended s (t.replyLines l k false [okLine ts]) l .ok (okLine ts) := by
  unfold Ended State.replyLines
  cases ho : l.origin with
  | order k => rfl
  | port p =>
    obtain ⟨mid, hm⟩ := h p
    exact ⟨mid, { kind := k, tag := l.tag, toks := okLine ts }, by simp [State.push_port, hm], rfl⟩

/-- The row of a kind carries out the writes of its kind. -/
theorem writes_of_class {c : Instr} {k : WriteClass} {f : WriteForm} {l : Line} {s : State}
    (h : exec c s = execWriteIn k f l s) (hk : lineClass f l = k) : Writes c s f l := by
  have hw : exec c s = _ := h.trans ((hk ▸ execWriteIn_lineClass f l s).trans (execWrite_eq f l s))
  refine ⟨fun ha => ?_, fun e hl hc he => ?_⟩
  · rw [hw, runLine_accepts ha]
    exact ⟨_, rfl, State.replyLines_ended l _ _ ((s.took_outLe _).trans ((s.took l.origin).written_outLe f l)),
      State.replyLines_besideReply _ _ _ _ _ _⟩
  · rw [hw]
    exact runLine_refuses hl hc he _

/-! ## The edition of a unit that the part lacks -/

set_option maxRecDepth 20000 in
theorem regAt_censusEdition : (regAt 0x2694).isSome = true ∧ (regAt 0x2694).all (·.readOnly) = true := by decide

/-- A part without a census, and a WR of 0 to the edition of the census. -/
def censuslessState : State := { State.reset with part := .vg42 }

def censusEditionLine : Line :=
  { origin := .port .desk, tag := none, pos := [.int 0x2694, .int 0], named := [], block := .absent }

set_option maxRecDepth 20000 in
theorem wrErs_censusEdition : censuslessState.wrErs censusEditionLine = [] := by decide

end Sys2Proof.Machine

/-- Settles O26: each row of the table carries out the writes of its own kind. -/
theorem registerWritesTakeEffect : Obligations.RegisterWritesTakeEffect := by
  intro f l s
  repeat' apply And.intro
  all_goals exact writes_of_class rfl

/-- Refutes O28: the editions of units that the part lacks lie at reserved addresses of a present block (05_register_file
R116 before R119), so that a WR of 0 to the edition of the census of a part without one has no error at all. -/
theorem not_writeRefusals : ¬ Obligations.WriteRefusals := by
  intro h
  obtain ⟨r, hr⟩ := Option.isSome_iff_exists.1 regAt_censusEdition.1
  have readOnly : r.readOnly = true := by
    have all := regAt_censusEdition.2
    rwa [hr] at all
  have refused := (h censusEditionLine censuslessState 0x2694 0 rfl rfl (by decide) (by decide) (by decide) (by decide) rfl
    rfl r hr).1 readOnly
  rw [wrErs_censusEdition] at refused
  cases refused

end

section
/-! Resets: what a reset leaves, cause by cause (08_bringup R208–R210). -/

open Sys2Proof Sys2Proof.Machine

namespace Sys2Proof.Machine

/-! ## Taking a reset -/

/-- What a reset leaves, wherever the free values stand (`n`). -/
theorem State.resetCore_leaves (s : State) (n : Nat) (c : Cause) (also stage : Nat) (h : Hold) :
    ResetLeaves s (State.resetCore { s with drawn := n } c also stage h) c h :=
  { taken := ⟨rfl, rfl, rfl, rfl, rfl⟩
    record := ⟨rfl, rfl⟩
    shelves := ⟨rfl, rfl, rfl⟩
    units := ⟨rfl, rfl, rfl, rfl, rfl, rfl, rfl, rfl, rfl, rfl, rfl⟩
    waiting := ⟨rfl, rfl, rfl⟩
    pads := ⟨rfl, rfl, rfl, rfl⟩
    fresh := ⟨rfl, rfl, rfl, rfl, rfl, rfl, rfl, rfl, rfl, rfl, rfl, rfl, rfl, rfl, rfl, rfl, rfl, rfl, rfl⟩ }

theorem DaySt.loadDrift_keeps (d : DaySt) (v : Vector (List Byte) 4) :
    (d.loadDrift v).cont = d.cont ∧ (d.loadDrift v).keeper = d.keeper := by
  unfold DaySt.loadDrift
  split <;> exact ⟨rfl, rfl⟩

/-- A reset that takes DREG down stops the keeper. -/
theorem State.resetCore_day (s : State) {c : Cause} (h : c.dregUp = false) (also stage : Nat) (hold : Hold) :
    (s.resetCore c also stage hold).day.cont = false ∧ (s.resetCore c also stage hold).day.keeper = 0 := by
  obtain ⟨cont, keeper⟩ := DaySt.loadDrift_keeps (s.day.afterReset c.dregUp (c.dregUp && s.day.keeperOk)) s.record.drift
  exact ⟨cont.trans (by simp [DaySt.afterReset, h]), keeper.trans (by simp [DaySt.afterReset, h])⟩

/-- Held in reset, the part is not in bring-up. -/
theorem State.unclocked_of_holding {s : State} (h : s.holding = true) : s.unclocked = false := by
  have hold : s.sys.hold ≠ .none := by
    intro e
    simp [State.holding, e] at h
  simp [State.unclocked, State.booting, hold]

theorem State.holding_of_hold {s : State} (h : s.sys.hold = .none) : s.holding = false := by
  simp [State.holding, h]

/-- While a cause holds the part, a further one is present with it: the first of the two is reported, and where that is
not the new one, the new one is noted beside it (R209). -/
theorem State.takeReset_of_holding {s : State} (hh : s.holding = true) (c : Cause) (stage : Nat) (h : Hold) :
    ∃ also stage', s.takeReset c stage h = s.resetCore (c.first s.sys.cause) also stage' h ∧
      (s.sys.cause.rank < c.rank → also.testBit c.code = true) := by
  simp only [State.takeReset, State.unclocked_of_holding hh, hh, Bool.false_eq_true, if_false, Bool.true_or, if_true,
    Cause.first]
  refine ⟨_, _, rfl, fun hr => ?_⟩
  have lost : ¬ c.rank ≤ s.sys.cause.rank := by omega
  have other : s.sys.cause ≠ c := fun e => lost (by rw [e])
  rw [if_neg lost, if_neg lost, if_neg other, Nat.testBit_or, Nat.testBit_two_pow_self, Bool.or_true]

/-- Not held, the part takes the reset of the cause; in POWER before SCLK runs the cause may be of the cycle of the last
one (log entry 78). -/
theorem State.takeReset_of_not_holding {s : State} (hh : s.holding = false) (c : Cause) (stage : Nat) (h : Hold) :
    ∃ n, s.takeReset c stage h = State.resetCore { s with drawn := n } c 0 stage h ∨
      s.unclocked = true ∧ ∃ also stage',
        s.takeReset c stage h = State.resetCore { s with drawn := n } (c.first s.sys.cause) also stage' h := by
  cases hu : s.unclocked
  · refine ⟨s.drawn, .inl ?_⟩
    simp [State.takeReset, hu, hh]
  · refine ⟨s.drawn + 1, ?_⟩
    have still : s.draw.2.holding = false := hh
    cases hd : s.draw.1.getLsbD 0
    · left
      simp only [State.takeReset, hu, hd, still, if_true, Bool.and_false, Bool.or_false, Bool.false_eq_true, if_false]
      rfl
    · right
      refine ⟨rfl, ?_⟩
      simp only [State.takeReset, hu, hd, if_true, Bool.and_true, Bool.or_true]
      exact ⟨_, _, rfl⟩

/-- A POR is the first of any two causes. -/
theorem State.takeReset_por (s : State) : ∃ n also stage,
    s.takeReset .por 0 .por = State.resetCore { s with drawn := n } .por also stage .por := by
  have first : Cause.por.first s.sys.cause = .por := if_pos (Nat.zero_le _)
  cases hh : s.holding
  · obtain ⟨n, taken | ⟨-, also, stage, taken⟩⟩ := State.takeReset_of_not_holding hh .por 0 .por
    · exact ⟨n, 0, 0, taken⟩
    · exact ⟨n, also, stage, first ▸ taken⟩
  · obtain ⟨also, stage, taken, -⟩ := State.takeReset_of_holding hh .por 0 .por
    exact ⟨s.drawn, also, stage, first ▸ taken⟩

section
variable {i : Instr} {s : State} {c : Cause} {stage : Nat} {h : Hold}

/-- A cause that comes while another holds the part. -/
theorem leads_held {post : State → Prop} (he : exec i s = .next (s.takeReset c stage h)) (hh : s.holding = true)
    (hp : ∀ also stage', (s.sys.cause.rank < c.rank → also.testBit c.code = true) →
      post (s.resetCore (c.first s.sys.cause) also stage' h)) : Leads i s post := by
  obtain ⟨also, stage', taken, bit⟩ := State.takeReset_of_holding hh c stage h
  exact ⟨_, he, taken ▸ hp also stage' bit⟩

/-- A cause that comes while none holds the part. -/
theorem resets_of_not_holding {post : State → Prop} (he : exec i s = .next (s.takeReset c stage h))
    (hh : s.holding = false) (hp : ∀ n, post (State.resetCore { s with drawn := n } c 0 stage h)) :
    Resets i s c h post := by
  refine ⟨_, he, ?_⟩
  obtain ⟨n, taken | ⟨hu, also, stage', taken⟩⟩ := State.takeReset_of_not_holding hh c stage h
  · rw [taken]
    exact .inl ⟨s.resetCore_leaves n c 0 stage h, hp n⟩
  · rw [taken]
    exact .inr ⟨hu, s.resetCore_leaves n _ also stage' h⟩

/-- A cause that comes while none holds the part, out of POWER. -/
theorem leads_clocked {post : State → Prop} (he : exec i s = .next (s.takeReset c stage h)) (hh : s.holding = false)
    (hu : s.unclocked = false) (hp : ∀ n, post (State.resetCore { s with drawn := n } c 0 stage h)) : Leads i s post := by
  obtain ⟨n, taken | ⟨hu', -⟩⟩ := State.takeReset_of_not_holding hh c stage h
  · exact ⟨_, he, taken ▸ hp n⟩
  · exact absurd hu' (by simp [hu])

end

end Sys2Proof.Machine

/-- Settles O31: each command takes the reset of its cause where its guard holds, and nothing where it does not. -/
theorem resetsLeaveTableState : Obligations.ResetsLeaveTableState := by
  intro s
  refine ⟨?por, ?bor, ?borHeld, ?borDeaf, ?dormant, ?dormantHeld, ?dormantDeaf, ⟨?pin, ?pinHeld, ?pinDeaf⟩, ?watchdog,
    ?watchdogDeaf, ?entry, ?command, ?chute, ?chuteEarly⟩
  case por =>
    obtain ⟨n, also, stage, taken⟩ := s.takeReset_por
    obtain ⟨cont, keeper⟩ := State.resetCore_day { s with drawn := n } (c := .por) rfl also stage .por
    obtain ⟨took, record, shelves, units, waiting, pads, fresh⟩ := s.resetCore_leaves n .por also stage .por
    have latch : (State.resetCore { s with drawn := n } .por also stage .por).tamper.latched = false := Bool.and_false _
    have test : (State.resetCore { s with drawn := n } .por also stage .por).sys.testMode = false := Bool.and_false _
    refine ⟨_, rfl, ?_⟩
    rw [taken]
    exact ⟨⟨took, record, shelves, units, waiting, pads, fresh⟩, latch, keeper, cont, test,
      fun low => by simp only [low, Bool.false_and]⟩
  case bor =>
    intro hw hh
    exact resets_of_not_holding (if_pos hw) hh fun _ => rfl
  case borHeld =>
    intro hw hh
    exact leads_held (if_pos hw) hh fun _ _ _ => s.resetCore_leaves s.drawn _ _ _ _
  case borDeaf =>
    intro hw
    exact if_neg (by rw [hw]; exact Bool.false_ne_true)
  case dormant =>
    intro hr hd hh
    have he : exec .borDormant s = .next (s.takeReset .borDormant 0 .none) := by
      show execBorDormant s = _
      simp [execBorDormant, hr, hd, hh]
    refine resets_of_not_holding he (State.holding_of_hold hh) fun n => ⟨?_, (State.resetCore_day _ rfl _ _ _).1⟩
    simp [State.resetCore, State.takeUp, PwrSt.afterReset]
  case dormantHeld =>
    intro hr hd hh
    have he : exec .borDormant s = .next (s.takeReset .borDormant 0 .nrst) := by
      show execBorDormant s = _
      simp [execBorDormant, hr, hd, hh]
    exact leads_held he (by simp [State.holding, hh]) fun _ _ _ => s.resetCore_leaves s.drawn _ _ _ _
  case dormantDeaf =>
    intro hd
    show execBorDormant s = _
    simp [execBorDormant, hd]
  case pin =>
    intro hr hh
    have hold : s.sys.hold ≠ .borRun := by
      intro e
      simp [State.holding, e] at hh
    have he : exec .nrstReset s = .next (State.takeReset { s with pads := { s.pads with nrst := false } } .pin 0 .nrst) := by
      show execNrstReset s = _
      exact (if_pos hr).trans (by rw [if_neg hold])
    obtain ⟨n, taken | ⟨hu, also, stage, taken⟩⟩ :=
      State.takeReset_of_not_holding (s := { s with pads := { s.pads with nrst := false } }) hh .pin 0 .nrst
    · exact ⟨_, he, .inl (taken ▸ State.resetCore_leaves _ n _ _ _ _)⟩
    · exact ⟨_, he, .inr ⟨hu, taken ▸ State.resetCore_leaves _ n _ _ _ _⟩⟩
  case pinHeld =>
    intro hr hh
    have he : exec .nrstReset s = .next (State.takeReset { s with pads := { s.pads with nrst := false } } .pin 0
        (if s.sys.hold = .borRun then .borRun else .nrst)) := if_pos hr
    obtain ⟨also, stage, taken, bit⟩ := State.takeReset_of_holding (s := { s with pads := { s.pads with nrst := false } })
      hh .pin 0 (if s.sys.hold = .borRun then .borRun else .nrst)
    refine ⟨_, he, taken ▸ ⟨State.resetCore_leaves _ s.drawn _ _ _ _, fun hr => ?_⟩⟩
    show (BitVec.ofNat 7 also).getLsbD 1 = true
    rw [BitVec.getLsbD_ofNat]
    simpa [Cause.code] using bit hr
  case pinDeaf =>
    intro hr
    have still : State.resettable { s with pads := { s.pads with nrst := false } } = false := hr
    exact if_neg (by rw [still]; exact Bool.false_ne_true)
  case watchdog =>
    intro hb hs
    have hold : s.sys.hold = .none := by simp [State.booting] at hb; exact hb.1.1
    have he : exec .seqWatchdog s = .next (s.takeReset .seqWatchdog s.workStage.code .none) := by
      show execSeqWatchdog s = _
      simp [execSeqWatchdog, hb, hs]
    exact leads_clocked he (State.holding_of_hold hold) (by simp [State.unclocked, hs]) fun n =>
      ⟨s.resetCore_leaves n _ _ _ _, rfl⟩
  case watchdogDeaf =>
    intro hb
    show execSeqWatchdog s = _
    simp [execSeqWatchdog, hb]
  case entry =>
    intro r q hp hh
    have he : exec .entryWatchdog s = .next (s.takeReset .seqWatchdog 7 .none) := by
      show execEntryWatchdog s = _
      simp [execEntryWatchdog, hp]
    exact resets_of_not_holding he hh fun _ => rfl
  case command =>
    intro o ho hr hh hdue
    have he : exec .commandReset s = .next (s.takeReset .command 0 .none) := by
      show execCommandReset s = _
      match o, hdue with
      | .order _, _ => simp [execCommandReset, ho, hr]
      | .port .desk, hdue =>
        have gone : s.dport.out.any (fun x => decide (x.kind = .resetReply)) = false := by simpa using hdue
        simp [execCommandReset, ho, hr, gone]
      | .port .chute, hdue => simp [execCommandReset, ho, hr, hdue.1, hdue.2]
    exact resets_of_not_holding he hh fun _ => rfl
  case chute =>
    intro ho hc hr hh
    have he : exec .chuteReplyTimeout s = .next (s.takeReset .command 0 .none) := by
      show execChuteReplyTimeout s = _
      simp [execChuteReplyTimeout, ho, hc, hr]
    exact resets_of_not_holding he hh fun _ => rfl
  case chuteEarly =>
    intro hc
    show execChuteReplyTimeout s = _
    simp [execChuteReplyTimeout, Nat.not_le.2 hc]

end

section
/-! Control lines: RESET, DORMANT, PADS RELEASE, the alarms and the keeper (08_bringup R229, 09_dormant R233, R255,
10_daybook R263, R276). -/

open Sys2Proof Sys2Proof.Machine

namespace Sys2Proof.Machine

section
variable {c : Instr} {s : State} {f : Form} {l : Line} {es : List Er}

/-- A line whose action, once the line is taken, leads to a state of which `post` holds. -/
theorem does_of_runLine {action : State → State} {post : State → Prop} (h : exec c s = runLine f l s es action)
    (hp : s.Accepts f l es → post (action (s.took l.origin))) : Does c s f l es post := by
  refine ⟨fun ha => ⟨_, h.trans (runLine_accepts ha _), hp ha⟩, fun e hl hk he => ?_⟩
  rw [h]
  exact runLine_refuses hl hk he _

end

/-- What a reset leaves says nothing of the ports, so that taking a line before it makes no difference. -/
theorem ResetLeaves.of_took {s t : State} {o : Origin} {cause : Cause} {hold : Hold}
    (h : ResetLeaves (s.took o) t cause hold) : ResetLeaves s t cause hold := by
  obtain ⟨d, c, k, took⟩ := s.took_eq o
  rw [took] at h
  exact { taken := h.taken, record := h.record, shelves := h.shelves, units := h.units, waiting := h.waiting,
          pads := h.pads, fresh := h.fresh }

theorem State.took_sys (s : State) (o : Origin) : (s.took o).sys = s.sys := by
  obtain ⟨d, c, k, took⟩ := s.took_eq o
  rw [took]

theorem State.took_unclocked (s : State) (o : Origin) : (s.took o).unclocked = s.unclocked := by
  simp only [State.unclocked, State.booting, State.took_sys]

theorem State.took_holding (s : State) (o : Origin) : (s.took o).holding = s.holding := by
  simp only [State.holding, State.took_sys]

/-- A part that takes lines is not held in reset. -/
theorem State.not_holding_of_listens {s : State} {o : Origin} (h : s.listens o = true) : s.holding = false := by
  refine State.holding_of_hold ?_
  have on : s.booting = true ∨ s.inRun = true := by
    simpa using (Bool.and_eq_true_iff.1 h).1
  rcases on with b | r
  · simp only [State.booting, Bool.and_eq_true, decide_eq_true_eq] at b
    exact b.1.1
  · simp only [State.inRun, Bool.and_eq_true, decide_eq_true_eq] at r
    exact r.1.1.1

/-! ## What the keeper's lines leave alone -/

theorem State.setRef_ports (s : State) (l : Line) : SamePorts s (s.setRef l) := by
  unfold State.setRef
  split
  · exact ⟨rfl, rfl⟩
  · exact SamePorts.trans ⟨rfl, rfl⟩ (State.save_ports _ _)

theorem State.putRef_ports (s : State) (l : Line) : SamePorts s (s.putRef l) := by
  unfold State.putRef
  dsimp only
  split
  · exact s.setRef_ports l
  · exact (s.setRef_ports l).trans ⟨rfl, rfl⟩

theorem State.setRef_desk (s : State) (l : Line) : (s.setRef l).cfg.desk = s.cfg.desk := by
  unfold State.setRef
  split
  · rfl
  · rw [State.save_cfg]; rfl

theorem State.putRef_desk (s : State) (l : Line) : (s.putRef l).cfg.desk = s.cfg.desk := by
  unfold State.putRef
  dsimp only
  split <;> exact s.setRef_desk l

theorem State.driftRow_ports (s : State) : SamePorts s s.driftRowWrite := by
  unfold State.driftRowWrite State.driftRowAt
  exact SamePorts.trans ⟨rfl, rfl⟩ (State.rowWrite_ports _ _)

theorem State.release_all (s : State) :
    s.release (BitVec.allOnes 32) = { s with pads := { s.pads with held := 0, heldDev := 0 } } := by
  simp [State.release]

end Sys2Proof.Machine

/-- Settles O15: each line has its effect before its reply, and none but the reset of an order touches the ports. -/
theorem controlLinesTakeEffect : Obligations.ControlLinesTakeEffect := by
  intro l s temp
  refine ⟨?reset, ?resetOrder, ?dormant, ?pads, ?arm, ?off, ?keeper, ?table, ?forget, ?ref⟩
  case reset =>
    intro p hp
    have h : exec (.reset l) s = execReset l s := rfl
    unfold execReset at h
    simp only [hp] at h
    exact answers_effect false _ _ .resetReply h (fun d c k => by rw [← hp]) (fun t => ⟨rfl, rfl⟩) (by simp)
  case resetOrder =>
    intro k hk
    have h : exec (.reset l) s = execReset l s := rfl
    unfold execReset at h
    simp only [hk] at h
    refine does_of_runLine h fun ha => ?_
    have free : (s.took l.origin).holding = false :=
      (s.took_holding _).trans (State.not_holding_of_listens ha.listens)
    obtain ⟨n, taken | ⟨hu, also, stage, taken⟩⟩ := State.takeReset_of_not_holding free .command 0 .none
    · exact .inl (.of_took (taken ▸ State.resetCore_leaves _ n _ _ _ _))
    · refine .inr ⟨s.took_unclocked l.origin ▸ hu, .of_took (o := l.origin) ?_⟩
      rw [← s.took_sys l.origin, taken]
      exact State.resetCore_leaves _ n _ _ _ _
  case dormant =>
    have h : exec (.dormant l) s = execDormant l s := rfl
    unfold execDormant at h
    exact answers_effect false _ _ .dormantReply h (fun d c k => rfl) (fun t => ⟨rfl, rfl⟩) (by simp)
  case pads =>
    have h : exec (.padsRelease l) s = execPadsRelease l s := rfl
    unfold execPadsRelease at h
    simp only [State.release_all] at h
    exact answers_effect false _ _ _ h (fun d c k => rfl) (fun t => ⟨rfl, rfl⟩) (by simp)
  case arm =>
    intro a v ha hv
    have h : exec (.alarmArm l) s = execAlarmArm l s := rfl
    unfold execAlarmArm at h
    simp only [ha, hv] at h ⊢
    exact answers_effect false _ _ _ h (fun d c k => rfl) (fun t => ⟨rfl, rfl⟩) (by simp)
  case off =>
    intro a ha
    have h : exec (.alarmOff l) s = execAlarmOff l s := rfl
    unfold execAlarmOff at h
    simp only [ha] at h
    refine answers_effect false _ _ _ h (fun d c k => rfl) (fun t => ?_) (by simp)
    dsimp only
    split <;> exact ⟨rfl, rfl⟩
  case keeper =>
    have h : exec (.keeper temp l) s = execKeeper temp l s := rfl
    unfold execKeeper at h
    exact answers_effect false _ _ _ h (fun d c k => rfl) (fun t => ⟨rfl, rfl⟩) (by simp)
  case table =>
    have h : exec (.keeperTable l) s = execKeeperTable l s := rfl
    unfold execKeeperTable at h
    refine answers_effect true _ _ (.reply true) h (fun d c k => ?_) (fun t => t.putRef_ports l) fun _ t => t.putRef_desk l
    simp only [State.okMany, List.map_map]
    rfl
  case forget =>
    have h : exec (.keeperForget temp l) s = execKeeperForget temp l s := rfl
    unfold execKeeperForget at h
    refine answers_effect false _ _ (.reply true) h (fun d c k => ?_) (fun t => ?_) (by simp)
    · generalize l.nat? "bin" = bin
      cases bin <;> rfl
    · refine SamePorts.trans (b := State.driftRowWrite _) (SamePorts.trans ?_ (State.driftRow_ports _)) ⟨rfl, rfl⟩
      exact (t.setRef_ports l).trans ⟨rfl, rfl⟩
  case ref =>
    have h : exec (.keeperRef temp l) s = execKeeperRef temp l s := rfl
    unfold execKeeperRef at h
    exact answers_effect false _ _ _ h (fun d c k => rfl) (fun t => SamePorts.trans ⟨rfl, rfl⟩ (State.putRef_ports _ l))
      (by simp)

end

section
/-! Lines that read and write the stores: FRAME READ and FREE, CARREL, STACKS READ, ARCH READ and SLIP (14_frames R376,
19_stacks_porter R500, R506, R511). -/

open Sys2Proof Sys2Proof.Machine

namespace Sys2Proof.Machine

/-! ## The reply that waits for an array -/

theorem dueLast_says (d : Nat) (out : List OutLine) : (dueLast d out).map OutLine.says = out.map OutLine.says := by
  induction out with
  | nil => rfl
  | cons x xs ih =>
    cases xs with
    | nil => rfl
    | cons y ys => exact congrArg (x.says :: ·) ih

/-- A reply that waits for an array differs from one that does not by its time alone. -/
theorem State.okAccess_of_port (s : State) {l : Line} {p : Port} (ns : List Nat) (toks : List Tok)
    (h : l.origin = .port p) : ∃ d, s.okAccess l ns toks =
      (s.ok l toks).setPort p { (s.ok l toks).port p with out := dueLast d ((s.ok l toks).port p).out } := by
  unfold State.okAccess
  rw [h]
  exact ⟨_, rfl⟩

theorem State.okAccess_of_order (s : State) {l : Line} {k : Nat} (ns : List Nat) (toks : List Tok)
    (h : l.origin = .order k) : s.okAccess l ns toks = s.ok l toks := by
  unfold State.okAccess
  rw [h]

theorem State.okAccess_besideReply (s : State) (l : Line) (ns : List Nat) (toks : List Tok) :
    (s.okAccess l ns toks).besideReply = s.besideReply := by
  cases ho : l.origin with
  | order k => rw [s.okAccess_of_order ns toks ho]; exact State.ok_besideReply _ _ _ _
  | port p =>
    obtain ⟨d, e⟩ := s.okAccess_of_port ns toks ho
    rw [e, ← State.ok_besideReply s l toks []]
    cases p <;> rfl

theorem State.okAccess_answered {s t : State} {l : Line} {ns : List Nat} {toks : List Tok}
    (h : Answered s (t.ok l toks) l false [okLine toks]) : Answered s (t.okAccess l ns toks) l false [okLine toks] := by
  cases ho : l.origin with
  | order k => rwa [t.okAccess_of_order ns toks ho]
  | port p =>
    obtain ⟨d, e⟩ := t.okAccess_of_port ns toks ho
    rw [e]
    unfold Answered at h ⊢
    simp only [ho] at h ⊢
    obtain ⟨out, lines, other⟩ := h
    refine ⟨?_, ?_, fun q hq => ?_⟩
    · rw [← out]
      cases p <;> exact dueLast_says _ _
    · rw [← lines]
      cases p <;> rfl
    · rw [← other q hq]
      cases p <;> cases q <;> first | rfl | exact absurd rfl hq

section
variable {c : Instr} {s : State} {f : Form} {l : Line} {es : List Er}

/-- A line whose action, once the line is taken, is an effect on the stores and then a reply that waits for its arrays. -/
theorem answers_access {action : State → State} (act : State → State) (toks : State → List Tok) (ns : List Nat)
    (h : exec c s = runLine f l s es action)
    (hact : ∀ d c k, let t := { s with dport := d, cport := c, desk := { s.desk with turnChute := k } }
      action t = (act t).okAccess l ns (toks (act t)))
    (hports : ∀ t, SamePorts t (act t)) : Answers c s f l es false act (fun t => [okLine (toks t)]) := by
  obtain ⟨d, c, k, took⟩ := s.took_eq l.origin
  have he := h.trans (runLine_congr (b := fun t => (act t).okAccess l ns (toks (act t))) (took ▸ hact d c k))
  refine ⟨fun ha => ⟨_, he.trans (runLine_accepts ha _), ?_, State.okAccess_besideReply _ _ _ _⟩, fun e hl hk hr => ?_⟩
  · exact State.okAccess_answered
      (State.reply_answered s _ l _ false _ [] (hports _).1 (hports _).2 (by simp))
  · rw [he]
    exact runLine_refuses hl hk hr _

end

/-! ## The block of a reply -/

theorem State.replyBody_of_not_framed {s : State} {o : Origin} (h : ∀ p, o = .port p → s.framed p = false) (m b : Bool)
    (ls : List (List Tok)) : s.replyBody o m ls b = s.replyBody o m ls := by
  cases o with
  | order k => rfl
  | port p => simp [State.replyBody, h p rfl]

theorem State.framed_of_cfg {s t : State} (h : t.cfg = s.cfg) : t.framed = s.framed := by
  funext p
  cases p <;> simp only [State.framed, h]

/-- Out of framed mode a reply has no block, so that one makes no difference to what is sent. -/
theorem answers_block {c : Instr} {s : State} {f : Form} {l : Line} {es : List Er} {m : Bool} {act : State → State}
    {ls : State → List (List Tok)} {b : Bool} (h : ∀ p, l.origin = .port p → s.framed p = false)
    (k : Answers c s f l es m act ls) : Answers c s f l es m act ls b := by
  refine ⟨fun ha => ?_, k.2⟩
  obtain ⟨t, ht, answered, rest⟩ := k.1 ha
  refine ⟨t, ht, ?_, rest⟩
  unfold Answered at answered ⊢
  rwa [State.replyBody_of_not_framed h]

/-! ## Arrays are powered without a change of what they hold -/

theorem State.touch_store (s : State) (n : Nat) : (s.touch n).store = s.store := by
  unfold State.touch
  repeat' split
  all_goals rfl

theorem State.touchSpan_keeps (s : State) (a n : Nat) : SamePorts s (s.touchSpan a n) ∧ (s.touchSpan a n).store = s.store := by
  have all (ns : List Nat) (s : State) : SamePorts s (ns.foldl State.touch s) ∧ (ns.foldl State.touch s).store = s.store := by
    induction ns generalizing s with
    | nil => exact ⟨⟨rfl, rfl⟩, rfl⟩
    | cons n ns ih => exact ⟨(s.touch_ports n).trans (ih _).1, (ih _).2.trans (s.touch_store n)⟩
  exact all _ s

theorem State.carrelRead_of_store {s t : State} (h : t.store = s.store) : t.carrelRead = s.carrelRead := by
  funext a n
  simp only [State.carrelRead, State.carrelByte, h]

theorem State.shelfRead_of_store {s t : State} (h : t.store = s.store) : t.shelfRead = s.shelfRead := by
  funext a n
  simp only [State.shelfRead, State.shelfByte, h]

end Sys2Proof.Machine

/-- Settles O16: the arrays that a line touches are powered, which leaves what they hold, so that it makes no difference
whether the reply reads before or after. -/
theorem memoryLinesTakeEffect : Obligations.MemoryLinesTakeEffect := by
  intro l s
  refine ⟨?free, ?empty, ?frame, ?read, ?write, ?shelf, ?arch, ?slip, ?slipWrite⟩
  case free =>
    have h : exec (.frameFree l) s = execFrameFree l s := rfl
    unfold execFrameFree at h
    exact answers_effect false _ _ _ h (fun d c k => rfl) (fun t => ⟨rfl, rfl⟩) (by simp)
  case empty =>
    intro hrx
    have h : exec (.frameRead l) s = execFrameRead l s := rfl
    unfold execFrameRead at h
    refine answers_effect false _ _ (.reply true) h (fun d c k => ?_) (fun t => ⟨rfl, rfl⟩) (by simp)
    simp only [hrx, List.head?_nil]
    rfl
  case frame =>
    intro e rest hrx
    have h : exec (.frameRead l) s = execFrameRead l s := rfl
    unfold execFrameRead at h
    cases ho : l.origin with
    | order k =>
      refine answers_block (by simp [ho]) (answers_effect true _ _ (.reply true) h (fun d c k => ?_)
        (fun t => ⟨rfl, rfl⟩) fun _ t => rfl)
      simp only [hrx, List.head?_cons, State.sendData, ho]
      rfl
    | port p =>
      cases hf : s.framed p
      · refine answers_block (by simpa [ho] using hf) (answers_effect true _ _ (.reply true) h (fun d c k => ?_)
          (fun t => ⟨rfl, rfl⟩) fun _ t => rfl)
        simp only [hrx, List.head?_cons, State.sendData, ho]
        rw [State.framed_of_cfg (s := s), hf]
        · simp only [Bool.false_eq_true, if_false]
          rfl
        · rfl
      · obtain ⟨d, c, k, took⟩ := s.took_eq l.origin
        refine runLine_answers true _ _ (.reply true) e.octets (h.trans (runLine_congr ?_)) rfl rfl ?_
        · rw [took]
          simp only [hrx, List.head?_cons, State.sendData, ho]
          rw [State.framed_of_cfg (s := s), hf]
          · simp only [if_true]
            rfl
          · rfl
        · intro _ q
          rw [took]
          exact congrFun (State.framed_of_cfg rfl) q
  case read =>
    have h : exec (.carrelRead l) s = execCarrelRead l s := rfl
    unfold execCarrelRead at h
    refine answers_access _ _ (spanCarrels ((l.posNat? 0).getD 0) (count16 l)) h (fun d c k => ?_)
      (fun t => (t.touchSpan_keeps _ _).1)
    dsimp only
    rw [State.carrelRead_of_store (State.touchSpan_keeps _ _ _).2]
  case write =>
    have h : exec (.carrelWrite l) s = execCarrelWrite l s := rfl
    unfold execCarrelWrite at h
    exact answers_access _ _ _ h (fun d c k => rfl) (fun t => .trans (t.touchSpan_keeps _ _).1 ⟨rfl, rfl⟩)
  case shelf =>
    have h : exec (.stacksRead l) s = execStacksRead l s := rfl
    unfold execStacksRead at h
    refine answers_access _ _ [8] h (fun d c k => ?_) (fun t => t.touch_ports 8)
    dsimp only
    rw [State.shelfRead_of_store (State.touch_store _ _)]
  case arch =>
    intro p hp
    have h : exec (.archRead l) s = execArchRead l s := rfl
    unfold execArchRead at h
    simp only [hp] at h
    refine answers_access _ _ [8] h (fun d c k => ?_) (fun t => .trans (t.touch_ports 8) ⟨rfl, rfl⟩)
    dsimp only
    simp only [hp]
    rfl
  case slip =>
    have h : exec (.slip l) s = execSlip l s := rfl
    unfold execSlip at h
    refine answers_access _ _ [(l.posNat? 0).getD 0 / 0x8000] h (fun d c k => ?_) (fun t => t.touch_ports _)
    dsimp only
    rw [State.carrelRead_of_store (State.touch_store _ _)]
  case slipWrite =>
    have h : exec (.slipWrite l) s = execSlipWrite l s := rfl
    unfold execSlipWrite at h
    exact answers_access _ _ _ h (fun d c k => rfl) (fun t => .trans (t.touch_ports _) ⟨rfl, rfl⟩)

end

section
/-! CAT QUEUE with security takes the next frame counter, which may fire EV_FRAME_COUNTER (14_frames R391) and so queue the
line of an event before the reply. -/

open Sys2Proof Sys2Proof.Machine

namespace Sys2Proof.Machine

/-- A parent with one child, a key in slot 2 of the Vault whose next frame counter is the one warned of, and the line of
EV_FRAME_COUNTER unmasked. -/
def warnedParent : State :=
  let s := State.reset
  { s with
    sys := { s.sys with stage := .ready, hold := .none, oscOn := true }
    pwr := { s.pwr with state := .run, vddioOk := true }
    dport := { s.dport with announced := true }
    cfg := { s.cfg with
      link := { s.cfg.link with config := 0x000E4533 }
      events := { s.cfg.events with line := (1 : BitVec 128) <<< 59 } }
    link := { s.link with
      st := .parent, cat := [{ idx := 0, short := 5, valid := true, listed := true, eui := 7 }] }
    vault := { s.vault with slots := vset s.vault.slots 2 (some 2) }
    frame := { s.frame with fcWarn := 1 }
    orders := { s.orders with loaded := true } }

/-- `CAT QUEUE 5 x'01' sec=5 key=1` from the Desk. -/
def secureQueueLine : Line :=
  { origin := .port .desk, tag := none, pos := [.int 5, .octets [1#8]], named := [("sec", .int 5), ("key", .int 1)],
    block := .absent }

/-- The lines that wait to be sent to the Desk in the state a command leads to. -/
def deskLines : Host.Outcome State Fault Refusal → Nat
  | .next t => t.dport.out.length
  | _ => 0

set_option maxRecDepth 20000 in
theorem deskLines_secureQueue : deskLines (exec (.catQueue secureQueueLine) warnedParent) = 2 := by decide

set_option maxRecDepth 20000 in
theorem accepts_secureQueue :
    let s := warnedParent
    let l := secureQueueLine
    let e := (s.lineEntry l).getD noEntry
    s.Accepts { feat := some .parent, minPos := 1, pos := [("short", .int 0 65535), ("payload", .any)], keys := secKeys } l
      (s.late (erIf (!l.pos.isEmpty && !e.valid) (erRange "short")) ++ payloadErs l 1 ++ s.queueKeyErs (s.childFrame l e 1) ++
        s.childErs l (s.childFrame l e 1) ++ s.needRole 2 ++
        erIf (decide (16 ≤ (s.heldFor e.idx).length)) ⟨"FULL", ["QUEUE"]⟩) where
  listens := by decide
  runs := by decide
  form := by decide
  verb := by decide

/-- A line of the Desk answered at once by one line queues that line alone. -/
theorem Answered.deskLines_eq {s t : State} {l : Line} {x : List Tok} (ho : l.origin = .port .desk)
    (h : Answered s t l false [x]) : t.dport.out.length = s.dport.out.length + 1 := by
  unfold Answered at h
  simp only [ho] at h
  simpa [State.replyBody, State.port] using congrArg List.length h.1

end Sys2Proof.Machine

/-- Refutes O17: CAT QUEUE of a frame whose counter is the one warned of queues the line of EV_FRAME_COUNTER, and then its
reply. -/
theorem not_editingLinesTakeEffect : ¬ Obligations.EditingLinesTakeEffect := by
  intro h
  obtain ⟨-, -, -, -, catalogue, -⟩ := h secureQueueLine warnedParent
  obtain ⟨t, ht, answered, -⟩ := (catalogue _ rfl).2.1 accepts_secureQueue
  have one : t.dport.out.length = 0 + 1 := answered.deskLines_eq rfl
  have two := deskLines_secureQueue
  rw [ht] at two
  exact absurd (one.symm.trans two) (by decide)

end

section
/-! Lines that issue one ticket (06_tickets R151, R152, R159): every such row of the model runs `runTicket`. -/

open Sys2Proof Sys2Proof.Machine

namespace Sys2Proof.Machine

theorem issues_of_runTicket {c : Instr} {s : State} {f : Form} {q : Queue} {l : Line} {es ss : List Er} {op : TicketOp}
    (h : exec c s = runTicket f q l s es ss op) : Issues c s f q l es ss op := by
  refine ⟨fun ha => ?_, fun e hl hc he => ?_⟩
  · rw [h]; exact runTicket_issues ha
  · rw [h]; exact runTicket_refuses hl hc he

end Sys2Proof.Machine

/-- Settles O21: each row is a `runTicket` of its checks and its operation. -/
theorem radioLinesIssueTickets : Obligations.RadioLinesIssueTickets := by
  intro l s
  refine ⟨issues_of_runTicket (show exec (.pwrMeasure l) s = execPwrMeasure l s from rfl),
    issues_of_runTicket (show exec (.eventSave l) s = execEventSave l s from rfl),
    issues_of_runTicket (show exec (.txCw l) s = execTxCw l s from rfl),
    issues_of_runTicket (show exec (.rx l) s = execRx l s from rfl),
    issues_of_runTicket (show exec (.ccaCheck l) s = execCcaCheck l s from rfl),
    issues_of_runTicket (show exec (.censusScan l) s = execCensusScan l s from rfl),
    issues_of_runTicket (show exec (.linkAssoc l) s = execLinkAssoc l s from rfl),
    issues_of_runTicket (show exec (.linkLeave l) s = execLinkLeave l s from rfl),
    issues_of_runTicket (show exec (.linkPoll l) s = execLinkPoll l s from rfl), ?trim⟩
  case trim =>
    have h : exec (.trimRun l) s = execTrimRun l s := rfl
    unfold execTrimRun at h
    generalize s.trimForbids (s.lineItems l) = d at h ⊢
    cases d <;> exact issues_of_runTicket h

/-- Settles O22: each row is a `runTicket` of its checks and its operation. -/
theorem vaultLinesIssueTickets : Obligations.VaultLinesIssueTickets := by
  intro l s
  refine ⟨issues_of_runTicket (show exec (.noiseRawOff l) s = execNoiseRawOff l s from rfl),
    issues_of_runTicket (show exec (.noiseRawCapture l) s = execNoiseRawCapture l s from rfl), ?load, ?erase,
    issues_of_runTicket (show exec (.vaultRand l) s = execVaultRand l s from rfl), ?ccm,
    issues_of_runTicket (show exec (.sswOn l) s = execSswOn l s from rfl),
    issues_of_runTicket (show exec (.sswOff l) s = execSswOff l s from rfl)⟩
  case load =>
    have h : exec (.vaultLoad l) s = execVaultLoad l s := rfl
    unfold execVaultLoad at h
    exact issues_of_runTicket h
  case erase =>
    have h : exec (.vaultErase l) s = execVaultErase l s := rfl
    unfold execVaultErase at h
    exact issues_of_runTicket h
  case ccm =>
    have h : exec (.vaultCcm l) s = execVaultCcm l s := rfl
    unfold execVaultCcm at h
    dsimp only at h ⊢
    generalize l.at? 1 = pay at h ⊢
    cases pay with
    | none => exact issues_of_runTicket h
    | some a => cases a <;> exact issues_of_runTicket h

/-- Settles O23: each row is a `runTicket` of its checks and its operation. -/
theorem storeLinesIssueTickets : Obligations.StoreLinesIssueTickets := by
  intro l s
  refine ⟨⟨issues_of_runTicket (show exec (.recordWrite l) s = execRecordWrite l s from rfl),
      issues_of_runTicket (show exec (.stacksWrite l) s = execStacksWrite l s from rfl)⟩,
    issues_of_runTicket (show exec (.stacksPart l) s = execStacksPart l s from rfl), ?add, ?find, ?mark,
    issues_of_runTicket (show exec (.archDrop l) s = execArchDrop l s from rfl), ?go, ?feed,
    issues_of_runTicket (show exec (.collateClose l) s = execCollateClose l s from rfl)⟩
  case add =>
    have h : exec (.archAdd l) s = execArchAdd l s := rfl
    unfold execArchAdd at h
    dsimp only at h ⊢
    generalize lineSource l = src at h ⊢
    generalize s.store.part = part at h ⊢
    cases src <;> cases part <;> exact issues_of_runTicket h
  case find =>
    have h : exec (.archFind l) s = execArchFind l s := rfl
    unfold execArchFind at h
    dsimp only at h ⊢
    generalize l.nat? "list" = list at h ⊢
    generalize s.store.part = part at h ⊢
    cases list <;> cases part <;> exact issues_of_runTicket h
  case mark =>
    have h : exec (.archMark l) s = execArchMark l s := rfl
    unfold execArchMark at h
    dsimp only at h ⊢
    generalize l.nat? "list" = list at h ⊢
    generalize l.nat? "from" = low at h ⊢
    generalize l.nat? "to" = high at h ⊢
    cases list <;> cases low <;> cases high <;> exact issues_of_runTicket h
  case go =>
    have h : exec (.porterGo l) s = execPorterGo l s := rfl
    unfold execPorterGo at h
    dsimp only at h ⊢
    generalize l.at? 1 = second at h ⊢
    cases second with
    | none => exact issues_of_runTicket h
    | some a => cases a <;> exact issues_of_runTicket h
  case feed =>
    have h : exec (.collateFeed l) s = execCollateFeed l s := rfl
    unfold execCollateFeed at h
    dsimp only at h ⊢
    generalize lineSource l = src at h ⊢
    cases src <;> exact issues_of_runTicket h

/-- Settles O24: each row is a `runTicket` of its checks and its operation. -/
theorem orderLinesIssueTickets : Obligations.OrderLinesIssueTickets := by
  intro l s
  refine ⟨?store, issues_of_runTicket (show exec (.orderSet l) s = execOrderSet l s from rfl),
    issues_of_runTicket (show exec (.orderErase l) s = execOrderErase l s from rfl),
    issues_of_runTicket (show exec (.orderRun l) s = execOrderRun l s from rfl)⟩
  have h : exec (.orderStore l) s = execOrderStore l s := rfl
  unfold execOrderStore orderStoreWith at h
  dsimp only at h ⊢
  generalize l.at? 1 = second at h ⊢
  cases second with
  | none => exact issues_of_runTicket h
  | some a => cases a <;> exact issues_of_runTicket h

end

section
/-! Lines that build what they send before they issue their ticket (FRAME SEND, LINK WAKE, TARIFF SCHED). -/

open Sys2Proof Sys2Proof.Machine

namespace Sys2Proof.Machine

/-! ## The line that issues a ticket after work of its own -/

theorem State.poolLow_besideEvents (s : State) (k : Nat) : (s.poolLow k).besideEvents = s.besideEvents := by
  unfold State.poolLow
  dsimp only
  split
  · exact s.fire_besideEvents _ _
  · rfl

theorem State.tk_besideEvents (s : State) (l : Line) (n : Nat) : (s.tk l n).besideEvents = s.besideEvents := by
  unfold State.tk
  split
  · rfl
  · exact State.push_besideEvents _ _ _

theorem State.took_besideEvents (s : State) (o : Origin) : (s.took o).besideEvents = s.besideEvents :=
  State.besideEvents_of_reply (s.took_besideReply o)

theorem room_of_accepts {s : State} {f : Form} {l : Line} {es : List Er}
    (h : s.Accepts f l (es ++ erIf (s.noTicketFor (ownerOf l.origin)) ⟨"NOTICKET", []⟩)) : ∃ n, s.nextNumber = some n := by
  refine s.nextNumber_some (s.noTicketFor_room (ownerOf l.origin) ?_)
  have := (List.append_eq_nil_iff.mp h.verb).2
  unfold erIf at this
  split at this
  · cases this
  · rename_i hh; simpa using hh

/-- An accepted ticketed line whose building and after-work leave the pool alone and only add to the ports' output: its
ticket, its reply, and the state beside. -/
theorem runTicketMk_issues {s : State} {f : Form} {q : Queue} {l : Line} {es ss : List Er} {at_ : Option Nat}
    {mk : State → State × TicketOp} {post : Nat → State → State}
    (h : s.Accepts { f with ticketed := true } l (es ++ (if l.has "after" then [] else ss) ++
      erIf (s.noTicketFor (ownerOf l.origin)) ⟨"NOTICKET", []⟩))
    (hm : ∀ t : State, (mk t).1.tickets = t.tickets ∧ t.OutLe (mk t).1)
    (hp : ∀ n t, (post n t).tickets = t.tickets ∧ t.OutLe (post n t)) :
    ∃ n t u, s.nextNumber = some n ∧ runTicketMk f q at_ l s es ss mk post = .next t ∧
      Issued s t l n q (mk (s.took l.origin)).2 at_ ∧ u.besideTickets = (mk (s.took l.origin)).1.besideTickets ∧
      u = { (mk (s.took l.origin)).1 with tickets := u.tickets } ∧ t.besideEvents = (post n u).besideEvents := by
  obtain ⟨n, hn⟩ := room_of_accepts h
  unfold runTicketMk
  rw [runLine_accepts h]
  set m := mk (s.took l.origin) with hmdef
  obtain ⟨hmt, hmo⟩ := hm (s.took l.origin)
  rw [← hmdef] at hmt hmo
  have hmt' : m.1.tickets = s.tickets := by rw [hmt, State.took_tickets]
  have hn' : m.1.nextNumber = some n := by
    rw [← hn]; unfold State.nextNumber State.ticket?; rw [hmt']
  obtain ⟨u, hu, h1, h2, h3, h4⟩ := m.1.issue_spec (s.askOf l q at_ m.2) n hn'
  have heq : u = { m.1 with tickets := u.tickets } := by
    have : u = (m.1.issue (s.askOf l q at_ m.2)).1 := by rw [hu]
    rw [this]; unfold State.issue; rw [hn']
  have hT : (((post n u).tk l n).poolLow (480 - (s.took l.origin).hostTickets)).tickets = u.tickets := by
    rw [State.poolLow_tickets, State.tk_tickets, (hp n u).1]
  refine ⟨n, ((post n u).tk l n).poolLow (480 - (s.took l.origin).hostTickets), u, hn, ?_, ⟨?_, ?_, ?_, ?_⟩, h4, heq, ?_⟩
  · simp only [hu]
  · rw [State.ticket_of_tickets hT, h1]; rfl
  · intro k hk
    rw [State.ticket_of_tickets hT, h2 k hk]
    exact State.ticket_of_tickets hmt' k
  · rw [hT]; exact h3
  · refine State.tk_told l n ?_ (State.poolLow_evLe _ _)
    have hi := m.1.issue_outLe (s.askOf l q at_ m.2)
    rw [hu] at hi
    exact (((s.took_outLe _).trans hmo).trans hi).trans (hp n u).2
  · rw [State.poolLow_besideEvents, State.tk_besideEvents]

theorem runTicketMk_refuses {s : State} {f : Form} {q : Queue} {l : Line} {es ss : List Er} {at_ : Option Nat}
    {mk : State → State × TicketOp} {post : Nat → State → State} {e : Er}
    (hl : s.listens l.origin = true) (hc : s.orders.checking = none)
    (he : firstEr (s.formErs { f with ticketed := true } l ++ (es ++ (if l.has "after" then [] else ss) ++
      erIf (s.noTicketFor (ownerOf l.origin)) ⟨"NOTICKET", []⟩)) = some e) :
    runTicketMk f q at_ l s es ss mk post = .next ((s.took l.origin).refuse l e) := by
  unfold runTicketMk
  exact runLine_refuses hl hc he _

theorem does_of_runTicketMk {c : Instr} {s : State} {f : Form} {q : Queue} {l : Line} {es ss all : List Er}
    {at_ : Option Nat} {mk : State → State × TicketOp} {post : Nat → State → State} {claim : State → Prop}
    (h : exec c s = runTicketMk f q at_ l s es ss mk post)
    (hall : all = es ++ (if l.has "after" then [] else ss) ++ erIf (s.noTicketFor (ownerOf l.origin)) ⟨"NOTICKET", []⟩)
    (hm : ∀ t : State, (mk t).1.tickets = t.tickets ∧ t.OutLe (mk t).1)
    (hp : ∀ n t, (post n t).tickets = t.tickets ∧ t.OutLe (post n t))
    (hc : ∀ n t u, s.nextNumber = some n → Issued s t l n q (mk (s.took l.origin)).2 at_ →
      u.besideTickets = (mk (s.took l.origin)).1.besideTickets → u = { (mk (s.took l.origin)).1 with tickets := u.tickets } →
      t.besideEvents = (post n u).besideEvents → claim t) :
    Does c s { f with ticketed := true } l all claim := by
  subst hall
  refine ⟨fun ha => ?_, fun e hl hk he => h.trans (runTicketMk_refuses hl hk he)⟩
  obtain ⟨n, t, u, hn, hx, hi, h1, h2, h3⟩ := runTicketMk_issues (mk := mk) (post := post) (q := q) (at_ := at_) ha hm hp
  exact ⟨t, h.trans hx, hc n t u hn hi h1 h2 h3⟩

/-! ## The frame that a line builds -/

theorem State.touch_frame (s : State) (n : Nat) : ∃ p, s.touch n = { s with pwr := p } := by
  unfold State.touch
  dsimp only
  (repeat' split) <;> exact ⟨_, rfl⟩

/-- A row of the Record changes the Record, the stores and the power of the arrays. -/
theorem State.applyRow_frame (s : State) (x : RowWhat) :
    ∃ r st pw, s.applyRow x = { s with record := r, store := st, pwr := pw } := by
  match x with
  | .mirror i =>
    unfold State.applyRow
    dsimp only
    split <;> exact ⟨_, _, _, rfl⟩
  | .stacks a d | .cat es =>
    obtain ⟨p, hp⟩ := s.touch_frame 8
    unfold State.applyRow
    dsimp only
    rw [hp]
    exact ⟨_, _, _, rfl⟩
  | .twin .. | .twinEnd .. | .counters .. | .drift .. | .journal .. | .key .. | .tamperLog .. | .scratch .. | .order ..
  | .archFirst _ | .archNext _ => exact ⟨_, _, _, rfl⟩

theorem State.rowWrite_frame (s : State) (x : RowWrite) :
    ∃ r st pw rows, s.rowWrite x = { s with record := r, store := st, pwr := pw, rows := rows } := by
  unfold State.rowWrite State.beginRow
  split
  · obtain ⟨r, st, pw, h⟩ := s.applyRow_frame x.what
    rw [h]
    exact ⟨_, _, _, _, rfl⟩
  · exact ⟨_, _, _, _, rfl⟩

theorem State.rowWrite_tickets (s : State) (x : RowWrite) : (s.rowWrite x).tickets = s.tickets := by
  obtain ⟨r, st, pw, rows, h⟩ := s.rowWrite_frame x
  rw [h]

/-- A frame with its numbers, placed in the TX ring for the line. -/
def State.staged (s : State) (l : Line) (f : TxFrame) : State × Nat :=
  ((s.number f).2.unstage l).ringPut (s.number f).1 none .data []

theorem State.nextCounter_tickets (s : State) (k : Nat) : (s.nextCounter k).2.tickets = s.tickets := by
  unfold State.nextCounter
  dsimp only
  split
  · rfl
  split
  · rw [State.fire_tickets]; exact State.rowWrite_tickets _ _
  · exact State.rowWrite_tickets _ _

theorem State.rowWrite_outLe (s : State) (x : RowWrite) : s.OutLe (s.rowWrite x) :=
  (State.OutLe.refl s).ports (s.rowWrite_ports x)

theorem State.nextCounter_outLe (s : State) (k : Nat) : s.OutLe (s.nextCounter k).2 := by
  unfold State.nextCounter
  dsimp only
  split
  · exact .refl s
  generalize hx : { s with frame := _ } = x
  have h : s.OutLe x := by subst hx; exact .of_eq rfl rfl
  split
  · exact (h.trans (x.rowWrite_outLe _)).trans (State.fire_outLe _ _ _)
  · exact h.trans (x.rowWrite_outLe _)

theorem State.number_tickets (s : State) (f : TxFrame) : (s.number f).2.tickets = s.tickets := by
  unfold State.number
  dsimp only
  split
  · rfl
  · exact State.nextCounter_tickets _ _

theorem State.number_outLe (s : State) (f : TxFrame) : s.OutLe (s.number f).2 := by
  unfold State.number
  dsimp only
  split
  · exact .of_eq rfl rfl
  · exact State.OutLe.trans (b := s.nextSeq.2) (.of_eq rfl rfl) (State.nextCounter_outLe _ _)

theorem State.unstage_frame (s : State) (l : Line) : ∃ x, s.unstage l = { s with frame := x } := by
  unfold State.unstage
  split
  · exact ⟨_, rfl⟩
  · exact ⟨s.frame, rfl⟩

theorem State.ringPut_frame (s : State) (f : TxFrame) (c : Option Nat) (k : HeldKind) (o : List Byte) :
    ∃ x p, (s.ringPut f c k o).1 = { s with frame := x, pwr := p } := by
  obtain ⟨p, hp⟩ := s.touch_frame 1
  unfold State.ringPut
  dsimp only
  rw [hp]
  exact ⟨_, _, rfl⟩

theorem State.staged_keeps (s : State) (l : Line) (f : TxFrame) :
    (s.staged l f).1.tickets = s.tickets ∧ s.OutLe (s.staged l f).1 := by
  obtain ⟨x, hx⟩ := (s.number f).2.unstage_frame l
  obtain ⟨y, p, hy⟩ := ((s.number f).2.unstage l).ringPut_frame (s.number f).1 none .data []
  unfold State.staged
  rw [hy, hx]
  exact ⟨s.number_tickets f, (s.number_outLe f).trans (.of_eq rfl rfl)⟩

/-! Numbering and placing a frame read nothing that answering lines and firing events change. -/

theorem State.besideEvents_besideEvents (s : State) : s.besideEvents.besideEvents = s.besideEvents := by
  unfold State.besideEvents
  dsimp only
  rw [vset_vset]
  rfl

theorem State.touch_beside (s : State) (n : Nat) : (s.touch n).besideEvents = s.besideEvents.touch n := by
  unfold State.touch
  rw [show s.besideEvents.pwr = s.pwr from rfl, show s.besideEvents.day = s.day from rfl]
  dsimp only
  split_ifs <;> rfl

theorem State.applyRow_beside (s : State) (x : RowWhat) : (s.applyRow x).besideEvents = s.besideEvents.applyRow x := by
  match x with
  | .mirror i =>
    unfold State.applyRow
    dsimp only
    rw [show s.besideEvents.twin i = s.twin i from rfl]
    cases (s.twin i).latest i <;> rfl
  | .stacks a d | .cat es =>
    unfold State.applyRow
    dsimp only
    rw [← State.touch_beside]
    rfl
  | .twin .. | .twinEnd .. | .counters .. | .drift .. | .journal .. | .key .. | .tamperLog .. | .scratch .. | .order ..
  | .archFirst _ | .archNext _ => rfl

theorem State.rowWrite_beside (s : State) (x : RowWrite) : (s.rowWrite x).besideEvents = s.besideEvents.rowWrite x := by
  unfold State.rowWrite
  rw [show s.besideEvents.rows = s.rows from rfl]
  split
  · unfold State.beginRow
    rw [← State.applyRow_beside]
    rfl
  · rfl

/-- The next frame counter of a slot counted, and the counters stored. -/
def State.counted (s : State) (k : Nat) : State :=
  { s with frame := { s.frame with
    fc := vset s.frame.fc (k + 1) (BitVec.ofNat 32 ((vget s.frame.fc (k + 1) 0).toNat + 1)) } }.saveFc

theorem State.counted_beside (s : State) (k : Nat) : (s.counted k).besideEvents = s.besideEvents.counted k :=
  State.rowWrite_beside _ _

theorem State.nextCounter_besideEvents (s : State) (k : Nat) :
    (s.nextCounter k).2.besideEvents =
      if (vget s.frame.fc (k + 1) 0).toNat = 0xFFFFFFFF then s.besideEvents else (s.counted k).besideEvents := by
  unfold State.nextCounter
  dsimp only
  split
  · rfl
  split
  · exact State.fire_besideEvents _ _ _
  · rfl

theorem State.nextCounter_beside (s : State) (k : Nat) :
    (s.nextCounter k).1 = (s.besideEvents.nextCounter k).1 ∧
      (s.nextCounter k).2.besideEvents = (s.besideEvents.nextCounter k).2.besideEvents := by
  constructor
  · unfold State.nextCounter
    rw [show s.besideEvents.frame = s.frame from rfl]
    dsimp only
    split <;> rfl
  · rw [State.nextCounter_besideEvents, State.nextCounter_besideEvents, ← State.counted_beside,
      State.besideEvents_besideEvents, State.besideEvents_besideEvents]
    rfl

theorem State.number_beside (s : State) (f : TxFrame) :
    (s.number f).1 = (s.besideEvents.number f).1 ∧
      (s.number f).2.besideEvents = (s.besideEvents.number f).2.besideEvents := by
  unfold State.number
  dsimp only
  split
  · refine ⟨rfl, ?_⟩
    rw [show s.besideEvents.nextSeq.2 = s.nextSeq.2.besideEvents from rfl, State.besideEvents_besideEvents]
  · obtain ⟨h1, h2⟩ := s.nextSeq.2.nextCounter_beside f.key
    rw [show s.besideEvents.nextSeq.2 = s.nextSeq.2.besideEvents from rfl, ← h1, ← h2]
    exact ⟨rfl, rfl⟩

theorem State.unstage_beside (s : State) (l : Line) : (s.unstage l).besideEvents = s.besideEvents.unstage l := by
  unfold State.unstage
  split <;> rfl

theorem State.ringPut_beside (s : State) (f : TxFrame) (c : Option Nat) (k : HeldKind) (o : List Byte) :
    (s.ringPut f c k o).2 = (s.besideEvents.ringPut f c k o).2 ∧
      (s.ringPut f c k o).1.besideEvents = (s.besideEvents.ringPut f c k o).1 := by
  unfold State.ringPut
  dsimp only
  rw [← State.touch_beside]
  exact ⟨rfl, rfl⟩

/-- What answering lines and firing events change does not show in the frame placed. -/
theorem State.staged_congr {s t : State} (h : t.besideEvents = s.besideEvents) (l : Line) (f : TxFrame) :
    (t.number f).1 = (s.number f).1 ∧ (t.staged l f).2 = (s.staged l f).2 ∧
      (t.staged l f).1.besideEvents = (s.staged l f).1.besideEvents := by
  obtain ⟨hs1, hs2⟩ := s.number_beside f
  obtain ⟨ht1, ht2⟩ := t.number_beside f
  rw [h] at ht1 ht2
  have h1 : (t.number f).1 = (s.number f).1 := ht1.trans hs1.symm
  have h2 : (t.number f).2.besideEvents = (s.number f).2.besideEvents := ht2.trans hs2.symm
  have h3 : ((t.number f).2.unstage l).besideEvents = ((s.number f).2.unstage l).besideEvents := by
    rw [State.unstage_beside, h2, ← State.unstage_beside]
  unfold State.staged
  rw [h1]
  obtain ⟨p1, p2⟩ := ((s.number f).2.unstage l).ringPut_beside (s.number f).1 none .data []
  obtain ⟨q1, q2⟩ := ((t.number f).2.unstage l).ringPut_beside (s.number f).1 none .data []
  rw [h3] at q1 q2
  exact ⟨rfl, q1.trans p1.symm, q2.trans p2.symm⟩

theorem if_nil {α : Type} (b : Bool) : (if b = true then ([] : List α) else []) = [] := by cases b <;> rfl

/-- A line that places its frame in the TX ring and issues a ticket with it. -/
theorem does_of_staged {c : Instr} {s : State} {f : Form} {l : Line} {es all : List Er} {at_ : Option Nat}
    {g : State → TxFrame} {op : TxFrame → Nat → TicketOp} (hg : g (s.took l.origin) = g s)
    (h : exec c s = runTicketMk f .link at_ l s es [] (fun t => ((t.staged l (g t)).1, op (t.number (g t)).1 (t.staged l (g t)).2))
      (fun _ t => t))
    (hall : all = es ++ erIf (s.noTicketFor (ownerOf l.origin)) ⟨"NOTICKET", []⟩) :
    Does c s { f with ticketed := true } l all (fun t => ∃ k, s.nextNumber = some k ∧
      Issued s t l k .link (op (s.number (g s)).1 (s.staged l (g s)).2) at_ ∧
      t.besideTickets = (s.staged l (g s)).1.besideTickets) := by
  refine does_of_runTicketMk h ?_ (fun t => State.staged_keeps t l _) (fun _ t => ⟨rfl, .refl t⟩) ?_
  · rw [if_nil, List.append_nil]; exact hall
  · intro n t u hn hi hu _ ht
    obtain ⟨h1, h2, h3⟩ := State.staged_congr (s.took_besideEvents l.origin) l (g s)
    dsimp only at hi hu
    rw [hg, h1, h2] at hi
    rw [hg] at hu
    exact ⟨n, hn, hi, (State.besideTickets_of_events ht).trans (hu.trans (State.besideTickets_of_events h3))⟩

theorem State.took_sendFrame (s : State) (o : Origin) (l : Line) : (s.took o).sendFrame l = s.sendFrame l := by
  obtain ⟨d, c, k, h⟩ := s.took_eq o
  rw [h]
  rfl

theorem State.took_childFrame (s : State) (o : Origin) (l : Line) (e : CatEntry) (i : Nat) :
    (s.took o).childFrame l e i = s.childFrame l e i := by
  obtain ⟨d, c, k, h⟩ := s.took_eq o
  rw [h]
  rfl

/-! ## The booking of a tariff's change -/

theorem State.adopt_keeps (s : State) (n i b : Nat) : (s.adopt n i b).tickets = s.tickets ∧ s.OutLe (s.adopt n i b) := by
  unfold State.adopt State.schedule State.journal
  split
  · exact ⟨rfl, .refl s⟩
  · dsimp only
    exact ⟨State.rowWrite_tickets _ _, State.OutLe.trans (.of_eq rfl rfl) (State.rowWrite_outLe _ _)⟩

/-- A change booked: the Ledger's fields, its record in the journal and its edition; settings and stores stay. -/
structure Booked (s t : State) (i b n : Nat) : Prop where
  pend : t.ledger.pend = some (i, b)
  ticket : t.ledger.pendTicket = some n
  edition : t.edition .ledger = s.edition .ledger + 1
  journal : (vget t.ledger.journal ((s.ledger.row + 1) % 32) none).map (·.kind) = some .sched
  cfg : t.cfg = s.cfg
  store : t.store = s.store

theorem State.edition_besideEvents (s : State) (u : EdUnit) (h : u ≠ .orders) : s.besideEvents.edition u = s.edition u := by
  unfold State.edition State.besideEvents
  exact vget_vset_other _ _ _ _ _ (by cases u <;> first | exact absurd rfl h | decide)

theorem Booked.of_beside {s t u : State} {i b n : Nat} (h : Booked s u i b n) (e : t.besideEvents = u.besideEvents) :
    Booked s t i b n := by
  have hg : t.ledger = u.ledger := (congrArg State.ledger e : t.besideEvents.ledger = u.besideEvents.ledger)
  have hed : t.edition .ledger = u.edition .ledger := by
    rw [← t.edition_besideEvents _ (by decide), e, u.edition_besideEvents _ (by decide)]
  exact ⟨hg ▸ h.pend, hg ▸ h.ticket, hed ▸ h.edition, hg ▸ h.journal, (congrArg State.cfg e : t.besideEvents.cfg = _).trans h.cfg,
    (congrArg State.store e : t.besideEvents.store = _).trans h.store⟩

theorem State.rowWrite_journal_keeps (s : State) (k : Nat) (o : List Byte) :
    let t := s.rowWrite { what := .journal k o, journal := true }
    t.cfg = s.cfg ∧ t.store = s.store ∧ t.ledger = s.ledger ∧ t.ed = s.ed := by
  unfold State.rowWrite
  split <;> exact ⟨rfl, rfl, rfl, rfl⟩

theorem State.schedule_booked (s : State) (i b n : Nat) : Booked s (s.schedule i b n) i b n := by
  unfold State.schedule State.journal
  dsimp only
  obtain ⟨hc, hs, hl, he⟩ := State.rowWrite_journal_keeps { s with ledger := _ } ((s.ledger.row + 1) % 32) _
  refine ⟨congrArg LedgerSt.pend hl, congrArg LedgerSt.pendTicket hl, ?_, ?_, hc, hs⟩
  · rw [State.edition_bump_same]
    exact congrArg (· + 1) (congrArg (fun e => vget e EdUnit.ledger.index 0) he)
  · refine (congrArg (fun g => (vget (LedgerSt.journal g) ((s.ledger.row + 1) % 32) none).map (·.kind)) hl).trans ?_
    rw [vget_vset_same _ _ _ _ (Nat.mod_lt _ (by decide))]
    rfl

end Sys2Proof.Machine

/-- Settles O25: FRAME SEND and LINK WAKE place their frame as the claim builds it, for what taking the line changed does
not show in it; TARIFF SCHED records the change where none is booked. -/
theorem buildingLinesIssueTickets : Obligations.BuildingLinesIssueTickets := by
  intro l s
  refine ⟨?send, ?wake, ?sched⟩
  case send =>
    have h : exec (.frameSend l) s = execFrameSend l s := rfl
    unfold execFrameSend at h
    dsimp only at h ⊢
    generalize (s.sendFrame l).dst = d at h ⊢
    cases d <;>
      exact does_of_staged (g := fun t => t.sendFrame l) (op := fun f k => .frameSend f (s.linePlan l) (s.lineChan l) k)
        (s.took_sendFrame _ l) h rfl
  case wake =>
    have h : exec (.linkWake l) s = execLinkWake l s := rfl
    unfold execLinkWake at h
    dsimp only at h ⊢
    exact does_of_staged (g := fun t => t.childFrame l (((l.nat? "dst").bind s.entryShort).getD noEntry) 0)
      (op := fun f k => .linkWake f (((l.nat? "dst").bind s.entryShort).getD noEntry).idx
        (s.nextSniff (((l.nat? "dst").bind s.entryShort).getD noEntry)) k)
      (s.took_childFrame _ l _ 0) h rfl
  case sched =>
    have h : exec (.tariffSched l) s = execTariffSched l s := rfl
    unfold execTariffSched at h
    dsimp only at h ⊢
    refine does_of_runTicketMk h rfl (fun t => ⟨rfl, .refl t⟩) (fun n t => t.adopt_keeps n _ _) ?_
    intro n t u hn hi hu heq ht
    dsimp only at hi hu heq
    have hl : u.ledger = s.ledger := by
      rw [heq]
      exact (congrArg State.ledger (s.took_besideEvents l.origin) : (s.took l.origin).besideEvents.ledger = _)
    refine ⟨n, hn, hi, fun hnone => ?_, fun hsome => ?_⟩
    · have hb := Booked.of_beside (State.schedule_booked u _ _ n) (ht.trans (by rw [State.adopt, hl, hnone]; rfl))
      have he : u.besideTickets = s.besideTickets := hu.trans (s.took_besideTickets _)
      refine ⟨hb.pend, hb.ticket, ?_, ?_, hb.cfg.trans (congrArg State.cfg he : u.besideTickets.cfg = _),
        hb.store.trans (congrArg State.store he : u.besideTickets.store = _)⟩
      · rw [hb.edition, ← u.edition_besideEvents _ (by decide), ← s.edition_besideEvents _ (by decide)]
        exact (congrArg (fun t => State.edition t .ledger + 1) he :
          u.besideTickets.edition .ledger + 1 = s.besideTickets.edition .ledger + 1)
      · rw [← hl]; exact hb.journal
    · refine (State.besideTickets_of_events (ht.trans ?_)).trans (hu.trans (s.took_besideTickets _))
      rw [State.adopt, hl, if_pos hsome]


end

section
/-! What firing events, completing tickets and ending an order's lines leave of the rest of the state, in one relation. -/

open Sys2Proof Sys2Proof.Machine

namespace Sys2Proof.Machine

/-! #### Pads held -/

/-- No pad is held in t that s, holding none, did not hold. -/
def State.HeldLe (s t : State) : Prop := s.pads.held = 0 → t.pads.held = 0

namespace State.HeldLe

theorem refl (s : State) : s.HeldLe s := id

theorem trans {s t u : State} (h : s.HeldLe t) (k : t.HeldLe u) : s.HeldLe u := k ∘ h

theorem of_eq {s t : State} (h : t.pads = s.pads) : s.HeldLe t := fun h0 => by rw [h]; exact h0

theorem ite {s a b : State} {c : Prop} [Decidable c] (h : s.HeldLe a) (k : s.HeldLe b) : s.HeldLe (if c then a else b) := by
  split
  · exact h
  · exact k

theorem release (s : State) (m : Word) : s.HeldLe (s.release m) := fun h => by
  show s.pads.held &&& ~~~m = 0
  rw [h]
  exact BitVec.zero_and

theorem padFollow (s : State) : s.HeldLe s.padFollow := ite (refl s) (release s _)

theorem attnFollow (s : State) : s.HeldLe s.attnFollow := by
  unfold State.attnFollow
  dsimp only
  (repeat' split) <;> exact padFollow s

theorem push (s : State) (p : Port) (l : OutLine) : s.HeldLe (s.push p l) :=
  of_eq (congrArg (fun u : State => u.pads) (s.push_besideReply p l) : (s.push p l).besideReply.pads = s.besideReply.pads)

theorem pushEv (s : State) (p : Port) (n : Nat) (l : OutLine) : s.HeldLe (s.pushEv p n l) := by
  unfold State.pushEv
  split
  · exact refl s
  · split
    · exact push s p l
    · cases p <;> dsimp only <;> split <;> exact refl s

theorem fireCore (s : State) (n : Nat) (fs : List Tok) : s.HeldLe (s.fireCore n fs) := by
  unfold State.fireCore
  split
  · exact refl s
  · dsimp only
    refine trans ?_ (attnFollow _)
    split
    · exact refl s
    · split
      · exact refl s
      · refine trans ?_ (pushEv _ _ _ _)
        exact fun h => pushEv _ _ _ _ h

theorem eventTriggers (s : State) (n : Nat) : s.HeldLe (s.eventTriggers n).1 := by
  unfold State.eventTriggers
  refine List.foldlRecOn (motive := fun a : State × List (Nat × String) => s.HeldLe a.1) _ _ (refl s)
    fun a ha j _ => ha.trans (of_eq ?_)
  show (a.1.triggerCore j none false).pads = a.1.pads
  unfold State.triggerCore
  (repeat' split) <;> rfl

theorem fireMissed (s : State) (ms : List (Nat × String)) : s.HeldLe (s.fireMissed ms) := by
  unfold State.fireMissed
  split
  · exact refl s
  · exact (fireCore s _ _).trans (eventTriggers _ _)

theorem fire (s : State) (n : Nat) (fs : List Tok) : s.HeldLe (s.fire n fs) := by
  unfold State.fire
  split
  · split
    · exact ((fireCore s _ _).trans (eventTriggers _ _)).trans (fireMissed _ _)
    · exact ((eventTriggers s _).trans (fireMissed _ _)).trans (fireCore _ _ _)
  · exact refl s

end State.HeldLe

/-- Between s and t no pending bit has gone, and no pad has come to be held. -/
structure State.Marks (s t : State) : Prop where
  pend : s.PendLe t
  held : s.HeldLe t

namespace State.Marks

theorem refl (s : State) : s.Marks s := ⟨.refl s, .refl s⟩

theorem trans {s t u : State} (h : s.Marks t) (k : t.Marks u) : s.Marks u := ⟨h.pend.trans k.pend, h.held.trans k.held⟩

theorem of_eq {s t : State} (h : t.events = s.events) (k : t.pads = s.pads) : s.Marks t :=
  ⟨.of_eq (congrArg EventsSt.pend h), .of_eq k⟩

theorem fire (s : State) (n : Nat) (fs : List Tok) : s.Marks (s.fire n fs) := ⟨s.fire_pendLe n fs, .fire s n fs⟩

end State.Marks

/-- Between s and t events have fired, tickets completed, order lines ended: the rest is as it was, no pending bit has
gone, and the ports' output has only grown. -/
structure State.Aside (s t : State) : Prop where
  beside : t.besideTickets = s.besideTickets
  pend : s.PendLe t
  out : s.OutLe t
  held : s.HeldLe t

namespace State.Aside

theorem refl (s : State) : s.Aside s := ⟨rfl, .refl s, .refl s, .refl s⟩

theorem trans {a b c : State} (h : a.Aside b) (k : b.Aside c) : a.Aside c :=
  ⟨k.beside.trans h.beside, h.pend.trans k.pend, h.out.trans k.out, h.held.trans k.held⟩

theorem ite {s a b : State} {c : Prop} [Decidable c] (h : s.Aside a) (k : s.Aside b) : s.Aside (if c then a else b) := by
  split
  · exact h
  · exact k

theorem settled {s t : State} (h : s.Aside t) : s.Aside (t.settled s) :=
  ⟨State.settled_besideTickets h.beside, h.pend.trans (.of_eq rfl), h.out.settled, h.held⟩

theorem fire (s : State) (n : Nat) (fs : List Tok) : s.Aside (s.fire n fs) :=
  ⟨s.fire_besideTickets n fs, s.fire_pendLe n fs, s.fire_outLe n fs, .fire s n fs⟩

theorem push (s : State) (p : Port) (l : OutLine) : s.Aside (s.push p l) :=
  ⟨s.push_besideTickets p l, .of_eq (by rw [State.push_pend]), s.push_outLe p l, .push s p l⟩

theorem freeTicket (s : State) (n : Nat) : s.Aside (s.freeTicket n) := by
  refine ⟨s.freeTicket_besideTickets n, .of_eq ?_, .of_eq (s.freeTicket_ports n).1 (s.freeTicket_ports n).2, .of_eq ?_⟩
  · unfold State.freeTicket
    split <;> rfl
  · unfold State.freeTicket
    split <;> rfl

theorem completeCore (s : State) (n : Nat) (r : Result) (fs : List Tok) (b : List Byte) (z : Fired) :
    s.Aside (s.completeCore n r fs b z) := by
  have marks : s.Marks (s.completeCore n r fs b z) := by
    unfold State.completeCore
    split
    · exact .refl s
    split
    · exact .refl s
    rename_i t _ _
    extract_lets fs s1 s2 s3
    have h1 : s.Marks s1 := .of_eq rfl rfl
    have h2 : s1.Marks s2 := by
      dsimp only [s2, State.fireDone]
      (repeat' split) <;> first | exact .refl _ | exact .fire s1 _ _
    have h3 : s2.Marks s3 := by
      dsimp only [s3, State.fireFail]
      (repeat' split) <;> first | exact .refl _ | exact .fire s2 _ _
    have h4 : s3.Marks (s3.deliver t r fs b) := by
      unfold State.deliver
      split
      · exact ⟨(push s3 _ _).pend, (push s3 _ _).held⟩
      · exact ⟨(freeTicket s3 _).pend, (freeTicket s3 _).held⟩
    exact ((h1.trans h2).trans h3).trans h4
  exact ⟨s.completeCore_besideTickets n r fs b z, marks.pend, s.completeCore_outLe n r fs b z, marks.held⟩

theorem orderEnd (s : State) (r : OrderResult) (z : Fired) : s.Aside (s.orderEnd r z) := by
  have marks : s.Marks (s.orderEnd r z) := by
    unfold State.orderEnd
    split
    · exact .refl s
    rename_i x _
    extract_lets line code o l pw s1 s2 s3 s4
    have h2 : s.Marks s2 := by
      refine State.Marks.trans (t := s1) (.of_eq rfl rfl) ?_
      dsimp only [s2]
      split <;> exact .fire s1 _ _
    have h3 : s2.Marks s3 := by
      dsimp only [s3]
      split
      · exact .refl s2
      · unfold State.startPending State.startOrder
        split
        · exact .of_eq rfl rfl
        · dsimp only
          split <;> exact .of_eq rfl rfl
    have h4 : s3.Marks s4 := by
      dsimp only [s4]
      (repeat' split) <;> first | exact .refl s3 | exact ⟨(completeCore s3 _ _ _ _ _).pend, (completeCore s3 _ _ _ _ _).held⟩
    exact ((h2.trans h3).trans h4).trans (.of_eq rfl rfl)
  exact ⟨s.orderEnd_besideTickets r z, marks.pend, s.orderEnd_outLe r z, marks.held⟩

theorem orderLineDone (s : State) (e : Option Nat) (z : Fired) : s.Aside (s.orderLineDone e z) := by
  have marks : s.Marks (s.orderLineDone e z) := by
    unfold State.orderLineDone
    split
    · exact .refl s
    · have put (x : Run) : s.Marks { s with orders := { s.orders with run := some x } } := .of_eq rfl rfl
      have done (x : Run) (r : OrderResult) :
          s.Marks (State.orderEnd { s with orders := { s.orders with run := some x } } r z) :=
        (put x).trans ⟨(orderEnd _ _ _).pend, (orderEnd _ _ _).held⟩
      dsimp only
      (repeat' split) <;> first | exact put _ | exact done _ _
  exact ⟨s.orderLineDone_besideTickets e z, marks.pend, s.orderLineDone_outLe e z, marks.held⟩

theorem lineAfter (s : State) (n : Nat) (r : Result) (z : Fired) : s.Aside (s.lineAfter n r z) := by
  unfold State.lineAfter
  exact .ite (orderLineDone s _ _) (.refl s)

theorem complete (s : State) (n : Nat) (r : Result) (fs : List Tok) (b : List Byte) : s.Aside (s.complete n r fs b) := by
  unfold State.complete
  exact settled ((completeCore s n r fs b _).trans (.ite (lineAfter _ _ _ _) (.refl _)))

theorem completeRunning (s : State) (q : Queue) (r : Result) (fs : List Tok) : s.Aside (s.completeRunning q r fs) := by
  unfold State.completeRunning
  split
  · exact .refl s
  · exact complete s _ _ _ _

theorem waitCheck (s : State) : s.Aside s.waitCheck := by
  unfold State.waitCheck
  split
  · exact .ite (.refl s) (orderLineDone s _ _)
  · exact .refl s

/-! What stays in step. -/

variable {s t : State} (h : s.Aside t)
include h

theorem part : t.part = s.part := (congrArg State.part h.beside : t.besideTickets.part = _)
theorem cfg : t.cfg = s.cfg := (congrArg State.cfg h.beside : t.besideTickets.cfg = _)
theorem record : t.record = s.record := (congrArg State.record h.beside : t.besideTickets.record = _)
theorem day : t.day = s.day := (congrArg State.day h.beside : t.besideTickets.day = _)
theorem store : t.store = s.store := (congrArg State.store h.beside : t.besideTickets.store = _)
theorem porter : t.porter = s.porter := (congrArg State.porter h.beside : t.besideTickets.porter = _)
theorem collate : t.collate = s.collate := (congrArg State.collate h.beside : t.besideTickets.collate = _)
theorem radio : t.radio = s.radio := (congrArg State.radio h.beside : t.besideTickets.radio = _)
theorem modem : t.modem = s.modem := (congrArg State.modem h.beside : t.besideTickets.modem = _)
theorem census : t.census = s.census := (congrArg State.census h.beside : t.besideTickets.census = _)
theorem frame : t.frame = s.frame := (congrArg State.frame h.beside : t.besideTickets.frame = _)
theorem ledger : t.ledger = s.ledger := (congrArg State.ledger h.beside : t.besideTickets.ledger = _)
theorem trim : t.trim = s.trim := (congrArg State.trim h.beside : t.besideTickets.trim = _)
theorem noise : t.noise = s.noise := (congrArg State.noise h.beside : t.besideTickets.noise = _)
theorem vault : t.vault = s.vault := (congrArg State.vault h.beside : t.besideTickets.vault = _)
theorem ssw : t.ssw = s.ssw := (congrArg State.ssw h.beside : t.besideTickets.ssw = _)
theorem tamper : t.tamper = s.tamper := (congrArg State.tamper h.beside : t.besideTickets.tamper = _)
theorem gpio : t.gpio = s.gpio := (congrArg State.gpio h.beside : t.besideTickets.gpio = _)
theorem rows : t.rows = s.rows := (congrArg State.rows h.beside : t.besideTickets.rows = _)
theorem cond : t.events.cond = s.events.cond := (congrArg (·.events.cond) h.beside : t.besideTickets.events.cond = _)

theorem pwr {α : Type} (f : PwrSt → α) (hf : ∀ x, f { x with idleSince := 0 } = f x := by exact fun _ => rfl) :
    f t.pwr = f s.pwr := by
  rw [← hf t.pwr, ← hf s.pwr]
  exact congrArg f (congrArg State.pwr h.beside : t.besideTickets.pwr = _)

theorem sys {α : Type} (f : SysSt → α) (hf : ∀ x, f { x with alertEvents := [] } = f x := by exact fun _ => rfl) :
    f t.sys = f s.sys := by
  rw [← hf t.sys, ← hf s.sys]
  exact congrArg f (congrArg State.sys h.beside : t.besideTickets.sys = _)

theorem link {α : Type} (f : LinkSt → α) (hf : ∀ x, f { x with lastPoll := (0, false, 0) } = f x := by exact fun _ => rfl) :
    f t.link = f s.link := by
  rw [← hf t.link, ← hf s.link]
  exact congrArg f (congrArg State.link h.beside : t.besideTickets.link = _)

theorem pads {α : Type} (f : PadsSt → α) (hf : ∀ x, f { x with held := 0, heldDev := 0 } = f x := by exact fun _ => rfl) :
    f t.pads = f s.pads := by
  rw [← hf t.pads, ← hf s.pads]
  exact congrArg f (congrArg State.pads h.beside : t.besideTickets.pads = _)

theorem desk {α : Type} (f : DeskSt → α)
    (hf : ∀ x, f { x with turnChute := false, evDropped := {}, cEvDropped := {} } = f x := by exact fun _ => rfl) :
    f t.desk = f s.desk := by
  rw [← hf t.desk, ← hf s.desk]
  exact congrArg f (congrArg State.desk h.beside : t.besideTickets.desk = _)

theorem quiet : t.quiet = s.quiet := by
  unfold State.quiet
  rw [h.pwr PwrSt.state]

theorem pends {n : Nat} (k : s.pends n) : t.pends n := fun hn =>
  h.pend n (k (by rw [← State.eventPresent_of_part h.part]; exact hn))

theorem edition {u : EdUnit} (hu : u ≠ .orders) : t.edition u = s.edition u := by
  rw [← t.edition_besideEvents u hu, ← s.edition_besideEvents u hu]
  exact (congrArg (fun x => State.edition x u) h.beside : t.besideTickets.edition u = s.besideTickets.edition u)

end State.Aside

theorem eventPresent_lt {s : State} {n : Nat} (h : s.eventPresent n = true) : n < 128 := by
  have all : ∀ e ∈ eventTable, e.1 < 128 := by decide
  unfold State.eventPresent eventDefined at h
  rw [Bool.and_eq_true, List.any_eq_true] at h
  obtain ⟨⟨e, he, hn⟩, _⟩ := h
  rw [beq_iff_eq] at hn
  exact hn ▸ all e he

theorem State.pends_fire {s : State} {n : Nat} {fs : List Tok} (hq : s.quiet = false) : (s.fire n fs).pends n := fun hn => by
  rw [State.eventPresent_of_part (s := s) (by simp)] at hn
  exact s.fire_pends n fs hn hq (eventPresent_lt hn)

theorem State.running_of_tickets {s t : State} (h : t.tickets = s.tickets) (q : Queue) : t.running q = s.running q := by
  unfold State.running
  rw [h]

/-- The ticket that runs on a queue completes. -/
theorem State.completeRunning_completed {s : State} {q : Queue} {x : Ticket} (r : Result) (fs : List Tok)
    (hr : s.running q = some x) (hx : s.ticket? x.n = some x) (hl : x.live = true) :
    Completed (s.completeRunning q r fs) x r fs (s.edition (queueUnit x.queue)) := by
  unfold State.completeRunning
  rw [hr]
  exact s.complete_completed x r fs [] hx hl

theorem State.queue_of_running {s : State} {q : Queue} {x : Ticket} (h : s.running q = some x) : x.queue = q := by
  have := List.find?_some h
  simp only [Bool.and_eq_true, decide_eq_true_eq] at this
  exact this.1

/-! ## A measurement -/

end Sys2Proof.Machine

/-- Settles O36: the readings are taken before the events fire and the ticket completes, and neither changes them. -/
theorem measurementsTakeEffect : Obligations.MeasurementsTakeEffect := by
  intro s vbat vddio vddpa
  refine ⟨fun hb => ?idle, fun hb => ?busy⟩
  case idle =>
    show execMeasurementDone vbat vddio vddpa s = _
    unfold execMeasurementDone
    rw [hb]
    rfl
  case busy =>
    have h : exec (.measurementDone vbat vddio vddpa) s = execMeasurementDone vbat vddio vddpa s := rfl
    unfold execMeasurementDone at h
    rw [if_neg (by rw [hb]; decide)] at h
    extract_lets hp warn d rails s0 p0 p s1 s2 s3 at h
    have hrails : 1800 ≤ vbat → rails = (true, true) := fun hv => if_pos hv
    have h0 : ∃ n, s0 = { s with drawn := n } := by
      dsimp only [s0]
      split <;> exact ⟨_, rfl⟩
    clear_value s0 rails
    obtain ⟨n, rfl⟩ := h0
    have h2 : s1.Aside s2 := .ite (.fire s1 _ _) (.refl s1)
    have h3 : s2.Aside s3 := .ite (.fire s2 _ _) (.refl s2)
    have h4 := State.Aside.completeRunning s3 .pwr .done [kd "vbat" vbat, kd "vddio" vddio, kd "vddpa" vddpa]
    have h14 := (h2.trans h3).trans h4
    have hq1 : s1.quiet = s.quiet := rfl
    have hq2 : s2.quiet = s.quiet := h2.quiet
    have ht : s3.tickets = s.tickets := by
      have a2 : s2.tickets = s1.tickets := by dsimp only [s2]; split <;> simp only [State.fire_tickets]
      have a3 : s3.tickets = s2.tickets := by dsimp only [s3]; split <;> simp only [State.fire_tickets]
      exact a3.trans a2
    have he : s3.edition .pwr = s.edition .pwr + 1 :=
      ((h2.trans h3).edition (by decide)).trans (State.edition_bump_same _ .pwr)
    refine ⟨_, h, h14.pwr PwrSt.vbat, h14.pwr PwrSt.vddio, h14.pwr PwrSt.vddpa, h14.pwr PwrSt.measBusy,
      h14.pwr PwrSt.vbatLow, h14.pwr PwrSt.vddpaLow, (h4.edition (by decide)).trans he, ?_, ?_, ?_, ?_⟩
    · intro hv
      have hr := hrails hv
      exact ⟨(h14.pwr PwrSt.vregOk).trans (congrArg Prod.fst hr), (h14.pwr PwrSt.buckOk).trans (congrArg Prod.snd hr)⟩
    · intro hw hr
      have : s2 = s1.fire 16 [kd "vbat" vbat, kd "warn" warn] := if_pos hw
      exact (h3.trans h4).pends (this ▸ State.pends_fire (hq1.trans hr))
    · intro hh hv hr
      have : s3 = s2.fire 17 [kd "vddpa" vddpa, kd "level" s.txLevel] :=
        if_pos (by simp only [hp, hh, Bool.true_and, decide_eq_true_eq]; exact hv)
      exact h4.pends (this ▸ State.pends_fire (hq2.trans hr))
    · intro x hr hl hx
      rw [← he, show EdUnit.pwr = queueUnit x.queue by rw [State.queue_of_running hr]; rfl]
      exact State.completeRunning_completed _ _ ((State.running_of_tickets ht _).trans hr)
        ((State.ticket_of_tickets ht _).trans hx) hl

end

section
/-! The head of a queue: what becomes of its ticket (06_tickets R155, R159–R163). -/

open Sys2Proof Sys2Proof.Machine

namespace Sys2Proof.Machine

/-! ## A ticket that ends unstarted -/

theorem Completed.of_tickets {s t : State} {x : Ticket} {r : Result} {fs : List Tok} {ed : BitVec 16}
    (h : Completed s x r fs ed) (k : t.tickets = s.tickets) : Completed t x r fs ed := by
  unfold Completed at h ⊢
  rw [State.ticket_of_tickets k, State.past_of_tickets k]
  exact h

theorem State.unschedule_tickets (s : State) : s.unschedule.tickets = s.tickets := by
  unfold State.unschedule State.journal
  split
  · rfl
  · exact State.rowWrite_tickets _ _

/-- What an unstarted ticket held is given back; the pool stays. -/
theorem State.undo_tickets (s : State) (x : Ticket) (r : Result) : (s.undo x r).tickets = s.tickets := by
  unfold State.undo
  split
  · rfl
  · rfl
  · split
    · exact s.unschedule_tickets
    · rfl
  · split
    · rfl
    · rfl
  · rfl

theorem State.endUnstarted_completed {s : State} {x : Ticket} (r : Result) (fs : List Tok) (hx : s.ticket? x.n = some x)
    (hl : x.live = true) : ∃ ed, Completed (s.endUnstarted x r fs) x r fs ed :=
  ⟨_, (s.undo x r).complete_completed x r fs [] ((State.ticket_of_tickets (s.undo_tickets x r) _).trans hx) hl⟩

theorem Ticket.live_of_unstarted {x : Ticket} (h : x.unstarted = true) : x.live = true := by
  unfold Ticket.unstarted at h
  unfold Ticket.live
  rw [h, Bool.true_or]

/-! ## The start of a ticket -/

theorem State.tryStart_stale {s : State} {x : Ticket} {u : EdUnit} {e : Nat} (hg : x.guard = some (u, e))
    (h : (s.edition u).toNat ≠ e) : s.tryStart x = s.endUnstarted x .stale [] := by
  unfold State.tryStart
  rw [hg]
  exact if_neg h

theorem State.tryStart_go {s : State} {x : Ticket} (h : ∀ u e, x.guard = some (u, e) → (s.edition u).toNat = e) :
    s.tryStart x = State.tryStart.go s x := by
  unfold State.tryStart
  cases hg : x.guard with
  | none => rfl
  | some g => exact if_pos (h g.1 g.2 hg)

theorem State.go_forbidden {s : State} {x : Ticket} {u y : String} (h : s.startForbid x.op = some (u, y)) :
    State.tryStart.go s x = s.endUnstarted x .state [kw "unit" u, kw "state" y] := by
  unfold State.tryStart.go
  rw [h]

theorem State.go_waits {s : State} {x : Ticket} {v : Nat} (h : s.startForbid x.op = none) (hv : x.startAt = some v)
    (hlt : (s.headed x).now < v) :
    State.tryStart.go s x = (s.headed x).updTicket x.n (fun y => { y with st := .waiting, timed := true }) := by
  unfold State.tryStart.go
  rw [h, hv]
  exact if_neg (Nat.not_le.mpr hlt)

theorem State.go_starts {s : State} {x : Ticket} (h : s.startForbid x.op = none)
    (hv : ∀ v, x.startAt = some v → v ≤ (s.headed x).now) :
    State.tryStart.go s x = ((s.headed x).updTicket x.n (fun y => { y with st := .running })).startOp x.n x.op := by
  unfold State.tryStart.go
  rw [h]
  cases ha : x.startAt with
  | none => rfl
  | some v => exact if_pos (hv v ha)

/-! ## The command at the head -/

theorem execTicketHead_idle {s : State} {q : Queue} {x : Ticket} (hx : s.head q = some x)
    (h : s.awake = false ∨ x.unstarted = false ∨ x.timed = true) : exec (.ticketHead q) s = .next s := by
  show execTicketHead q s = _
  unfold execTicketHead
  rw [hx]
  refine if_pos ?_
  rcases h with h | h | h <;> simp [h]

/-- A head that may go on: an overdue one ends, another by what it waits for. -/
theorem execTicketHead_of_free {s : State} {q : Queue} {x : Ticket} (hx : s.head q = some x) (ha : s.awake = true)
    (hu : x.unstarted = true) (ht : x.timed = false) (ho : s.isOverdue x = false) :
    (∀ m, x.after = some m → s.awaited x m = none →
      exec (.ticketHead q) s = .next (s.updTicket x.n (fun y => { y with st := .waiting }))) ∧
    (∀ m r, x.after = some m → s.awaited x m = some r → r ≠ some .done →
      exec (.ticketHead q) s = .next (s.endUnstarted x .cancelled [kw "by" "AFTER", kd "after" m])) ∧
    ((∀ m, x.after = some m → s.awaited x m = some (some .done)) →
      exec (.ticketHead q) s = .next ((s.tryStart x).settled s)) := by
  have hexec : exec (.ticketHead q) s = execTicketHead q s := rfl
  unfold execTicketHead at hexec
  rw [hx] at hexec
  simp only [ha, hu, ht, ho, Bool.not_true, Bool.or_self, Bool.false_eq_true, if_false] at hexec
  rw [hexec]
  refine ⟨fun m hm hw => ?_, fun m r hm hw hr => ?_, fun h => ?_⟩
  · rw [hm]; dsimp only; rw [hw]
  · rw [hm]; dsimp only; rw [hw]; exact if_neg hr
  · cases hm : x.after with
    | none => rfl
    | some m => dsimp only; rw [h m hm]; exact if_pos rfl

theorem execTicketHead_overdue {s : State} {q : Queue} {x : Ticket} (hx : s.head q = some x) (ha : s.awake = true)
    (hu : x.unstarted = true) (ht : x.timed = false) (ho : s.isOverdue x = true) :
    exec (.ticketHead q) s = .next (s.endUnstarted x .overdue []) := by
  show execTicketHead q s = _
  unfold execTicketHead
  rw [hx]
  simp only [ha, hu, ht, ho, Bool.not_true, Bool.or_self, Bool.false_eq_true, if_false, if_true]
  rfl

/-- A timed start that is the only thing due. -/
theorem execTicketTimedStart_alone {s : State} {q : Queue} {x : Ticket} {v : Nat} (hx : s.head q = some x)
    (ha : s.awake = true) (ht : s.timedDue x = true) (ho : s.isOverdue x = false) (hl : s.dueList = [(v, 3, x.n)])
    (hn : s.ticket? x.n = some x) : exec (.ticketTimedStart q) s = .next ((s.tryStart x).settled s) := by
  show execTicketTimedStart q s = _
  unfold execTicketTimedStart
  rw [hx]
  simp only [ha, ht, ho, Bool.not_false, Bool.and_self, if_true]
  unfold State.dueNow State.dueAll
  rw [hl]
  simp only [List.insertionSort, List.foldr, List.orderedInsert, List.foldl, State.dueGo, hn]

end Sys2Proof.Machine

/-- Settles O37: the cases of the head's command, in the order of its checks. -/
theorem queueHeadsAdvance : Obligations.QueueHeadsAdvance := by
  intro s q x
  refine ⟨?empty, ?asleep, ?busy, ?head, ?timed, ?notDue, ?gone, ?late, ?notLate⟩
  case empty =>
    intro h
    refine ⟨?_, ?_⟩
    · show execTicketHead q s = _
      unfold execTicketHead
      rw [h]
    · show execTicketTimedStart q s = _
      unfold execTicketTimedStart
      rw [h]
  case asleep =>
    intro h ha
    refine ⟨execTicketHead_idle h (.inl ha), ?_⟩
    show execTicketTimedStart q s = _
    unfold execTicketTimedStart
    rw [h]
    simp [ha]
  case busy => exact fun h hu => execTicketHead_idle h (.inr hu)
  case head =>
    intro h ha hu ht hx
    have hl := Ticket.live_of_unstarted hu
    refine ⟨fun ho => ⟨_, execTicketHead_overdue h ha hu ht ho, State.endUnstarted_completed _ _ hx hl⟩, fun ho => ?_⟩
    obtain ⟨hwait, hfail, hgo⟩ := execTicketHead_of_free h ha hu ht ho
    refine ⟨hwait, fun m r hm hr hd => ⟨_, hfail m r hm hr hd, State.endUnstarted_completed _ _ hx hl⟩, fun hafter => ?_⟩
    have hexec := hgo hafter
    refine ⟨fun u e hg he => ?_, fun hg => ?_⟩
    · obtain ⟨ed, hc⟩ := State.endUnstarted_completed (r := .stale) (fs := []) hx hl
      exact ⟨_, hexec, ed, (State.tryStart_stale hg he ▸ hc).of_tickets rfl⟩
    rw [State.tryStart_go hg] at hexec
    refine ⟨fun u y hf => ?_, fun hf => ⟨fun v hv hlt => ?_, fun hv => ?_⟩⟩
    · obtain ⟨ed, hc⟩ := State.endUnstarted_completed (r := .state) (fs := [kw "unit" u, kw "state" y]) hx hl
      exact ⟨_, hexec, ed, (State.go_forbidden hf ▸ hc).of_tickets rfl⟩
    · rw [hexec, State.go_waits hf hv hlt]
    · rw [hexec, State.go_starts hf hv]
  case timed =>
    intro v h ha ht hv ho hl hx hg hf hle
    rw [execTicketTimedStart_alone h ha ht ho hl hx, State.tryStart_go (by rw [hg]; exact fun _ _ k => nomatch k),
      State.go_starts hf (fun y hy => by rw [hv] at hy; cases hy; exact hle)]
  case notDue =>
    intro h ht
    show execTicketTimedStart q s = _
    unfold execTicketTimedStart
    rw [h]
    simp [ht]
  case gone =>
    intro h
    show execTicketOverdue x.n s = _
    unfold execTicketOverdue
    rw [h]
  case late =>
    intro h ha ho
    have hexec : exec (.ticketOverdue x.n) s = execTicketOverdue x.n s := rfl
    unfold execTicketOverdue at hexec
    rw [h] at hexec
    simp only [ha, ho, Bool.and_self, if_true] at hexec
    refine ⟨_, hexec, State.endUnstarted_completed _ _ h (Ticket.live_of_unstarted ?_)⟩
    unfold State.isOverdue at ho
    exact (Bool.and_eq_true _ _ ▸ ho).1
  case notLate =>
    intro h ho
    show execTicketOverdue x.n s = _
    unfold execTicketOverdue
    rw [h]
    simp [ho]

end

section
/-! Conditions of events, and the events of Collators, switch and pins. -/

open Sys2Proof Sys2Proof.Machine

namespace Sys2Proof.Machine

/-! ## An event's condition that comes true -/

theorem State.Aside.padFollow (s : State) : s.Aside s.padFollow := by
  refine ⟨State.besideTickets_of_events s.padFollow_besideEvents, .of_eq ?_, .of_eq ?_ ?_, .padFollow s⟩ <;>
  · unfold State.padFollow
    split <;> rfl

/-- A condition coming true sets its bit and fires its event; nothing else. -/
theorem State.condOn_aside (s : State) (n : Nat) (fs : List Tok) :
    ∃ c, (∀ i, s.events.cond.getLsbD i = true → c.getLsbD i = true) ∧
      State.Aside { s with events := { s.events with cond := c } } (s.condOn n fs) := by
  unfold State.condOn
  split
  · exact ⟨s.events.cond, fun _ h => h, .refl s⟩
  · split
    · refine ⟨s.events.cond ||| ((1 : BitVec 128) <<< n), fun i h => ?_, .fire _ _ _⟩
      rw [BitVec.getLsbD_or, h, Bool.true_or]
    · exact ⟨s.events.cond, fun _ h => h, .refl s⟩

theorem State.condOn_cond {s : State} {n : Nat} {fs : List Tok} (h : s.eventPresent n = true) :
    (s.condOn n fs).events.cond.getLsbD n = true := by
  unfold State.condOn
  by_cases hc : s.events.cond.getLsbD n = true
  · rw [if_pos hc]
    exact hc
  · rw [if_neg hc, if_pos h, (State.Aside.fire _ n fs).cond, BitVec.getLsbD_or]
    simp [eventPresent_lt h]

theorem State.condOn_pends {s : State} {n : Nat} {fs : List Tok} (hq : s.quiet = false)
    (hc : s.events.cond.getLsbD n = false) : (s.condOn n fs).pends n := by
  unfold State.condOn
  rw [if_neg (by rw [hc]; exact Bool.false_ne_true)]
  split
  · exact State.pends_fire hq
  · rename_i h
    exact fun hn => absurd hn h

theorem State.condOn_tickets (s : State) (n : Nat) (fs : List Tok) : (s.condOn n fs).tickets = s.tickets := by
  unfold State.condOn
  split
  · rfl
  · split
    · exact State.fire_tickets _ _ _
    · rfl

theorem State.pends_congr {s t : State} {n : Nat} (hp : t.part = s.part) (he : t.events.pend = s.events.pend)
    (h : s.pends n) : t.pends n := by
  unfold State.pends at h ⊢
  rw [State.eventPresent_of_part hp, he]
  exact h

/-! ## The Collators -/

theorem State.Aside.col {s t : State} (h : s.Aside t) (n : Nat) : t.col n = s.col n := by
  unfold State.col
  rw [h.collate]

/-- A Collator changes and its ticket ends. -/
theorem State.setCol_completes {s : State} {q : Fin 4} {y : Ticket} {c : Collator} {r : Result} {fs : List Tok}
    (hy : s.ticket? y.n = some y) (hl : y.live = true) :
    let t := (s.setCol q.val c).complete y.n r fs
    t.col q.val = c ∧ (∀ j, j ≠ q.val → t.col j = s.col j) ∧ t.store = s.store ∧ ∃ ed, Completed t y r fs ed := by
  have h := State.Aside.complete (s.setCol q.val c) y.n r fs []
  exact ⟨(h.col q.val).trans (s.col_setCol_same q.val c q.isLt), fun j hj => (h.col j).trans (s.col_setCol_other q.val j c hj),
    h.store, _, State.complete_completed _ y r fs [] hy hl⟩

/-- The value that a close compares with: the ticket's, or the Collator's own. -/
def Collator.wanted (c : Collator) (e : Option (Option Nat)) : Option Nat :=
  e.getD (if c.check then some c.expect.toNat else none)

/-- A Collator shut by a close, with its outcome. -/
def Collator.shut (c : Collator) (k : Nat) : Collator :=
  { c with isOpen := false, value := BitVec.ofNat 32 (crcValue c.crc c.reg), last := k, stages := [] }

theorem State.closeCycle_none {s : State} {t n : Nat} {e : Option (Option Nat)} (h : (s.col n).wanted e = none) :
    s.closeCycle t n e = ((s.setCol n ((s.col n).shut 3)).bump .collate).complete t .done
      [.kv "result" ((s.col n).hex (crcValue (s.col n).crc (s.col n).reg)), kw "match" "NONE", kd "count" (s.col n).count] := by
  unfold State.closeCycle
  cases e with
  | none => dsimp only; rw [show (if (s.col n).check then some (s.col n).expect.toNat else none) = none from h]; rfl
  | some w => cases (show w = none from h); rfl

theorem State.closeCycle_match {s : State} {t n : Nat} {e : Option (Option Nat)}
    (h : (s.col n).wanted e = some (crcValue (s.col n).crc (s.col n).reg)) :
    s.closeCycle t n e = ((s.setCol n ((s.col n).shut 1)).bump .collate).complete t .done
      [.kv "result" ((s.col n).hex (crcValue (s.col n).crc (s.col n).reg)), kw "match" "YES", kd "count" (s.col n).count] := by
  unfold State.closeCycle
  cases e with
  | none =>
    dsimp only
    rw [show (if (s.col n).check then some (s.col n).expect.toNat else none) = some _ from h]
    exact if_pos rfl
  | some w => cases (show w = some _ from h); exact if_pos rfl

/-- A Collator whose value is not the one wanted: shut, with its mismatch counted and its event fired. -/
def State.mismatched (s : State) (n x : Nat) : State :=
  let c := s.col n
  let t := (s.setCol n (c.shut 2)).bump .collate
  State.fire { t with collate := { t.collate with mismatches := t.collate.mismatches.inc } } (104 + n)
    [.kv "result" (c.hex (crcValue c.crc c.reg)), .kv "expect" (c.hex x), kd "count" c.count]

theorem State.closeCycle_mismatch {s : State} {t n x : Nat} {e : Option (Option Nat)}
    (h : (s.col n).wanted e = some x) (hx : x ≠ crcValue (s.col n).crc (s.col n).reg) :
    s.closeCycle t n e = (s.mismatched n x).complete t .fail
      [kw "why" "MISMATCH", .kv "result" ((s.col n).hex (crcValue (s.col n).crc (s.col n).reg)),
        .kv "expect" ((s.col n).hex x), kd "count" (s.col n).count] := by
  unfold State.closeCycle
  cases e with
  | none =>
    dsimp only
    rw [show (if (s.col n).check then some (s.col n).expect.toNat else none) = some x from h]
    exact if_neg hx.symm
  | some w => cases (show w = some x from h); exact if_neg hx.symm

/-- A Collator that has closed without a mismatch: its edition has stepped and its ticket ends. -/
theorem State.closed_completes {s : State} {q : Fin 4} {y : Ticket} {c : Collator} {r : Result} {fs : List Tok}
    (hy : s.ticket? y.n = some y) (hl : y.live = true) :
    let t := ((s.setCol q.val c).bump .collate).complete y.n r fs
    t.col q.val = c ∧ t.collate.mismatches = s.collate.mismatches ∧ t.edition .collate = s.edition .collate + 1 ∧
      ∃ ed, Completed t y r fs ed := by
  have h := State.Aside.complete ((s.setCol q.val c).bump .collate) y.n r fs []
  refine ⟨(h.col q.val).trans (s.col_setCol_same q.val c q.isLt), ?_,
    (h.edition (by decide)).trans (State.edition_bump_same _ _), _, State.complete_completed _ y r fs [] hy hl⟩
  rw [h.collate]
  rfl

theorem State.mismatched_completes {s : State} {q : Fin 4} {y : Ticket} {x : Nat} {fs : List Tok}
    (hy : s.ticket? y.n = some y) (hl : y.live = true) :
    let t := (s.mismatched q.val x).complete y.n .fail fs
    t.col q.val = (s.col q.val).shut 2 ∧ t.collate.mismatches = s.collate.mismatches.inc ∧
      t.edition .collate = s.edition .collate + 1 ∧ (s.quiet = false → t.pends (104 + q.val)) ∧
      ∃ ed, Completed t y .fail fs ed := by
  have h := State.Aside.complete (s.mismatched q.val x) y.n .fail fs []
  have hf := (State.Aside.fire { (s.setCol q.val ((s.col q.val).shut 2)).bump .collate with
    collate := { (s.setCol q.val ((s.col q.val).shut 2)).collate with mismatches := s.collate.mismatches.inc } }
    (104 + q.val) _).trans h
  refine ⟨(hf.col q.val).trans (s.col_setCol_same q.val _ q.isLt), ?_,
    (hf.edition (by decide)).trans (State.edition_bump_same (s.setCol q.val _) _),
    fun hq => h.pends (State.pends_fire hq), _, State.complete_completed _ y .fail fs [] ?_ hl⟩
  · rw [hf.collate]
  · exact (State.ticket_of_tickets (State.fire_tickets _ _ _) _).trans hy

end Sys2Proof.Machine

/-- Settles O50: a Collator takes what is left of its FEED at once, and closes by what it is compared with. -/
theorem collatorEventsTakeEffect : Obligations.CollatorEventsTakeEffect := by
  intro s q y data src e
  refine ⟨fun h => ?idle, fun hr hy hl => ⟨fun hop => ?feed, fun hop => ?close⟩⟩
  case idle =>
    refine ⟨?_, ?_⟩
    · show execCollateFeedDone q s = _
      unfold execCollateFeedDone
      rw [h]
    · show execCollateCloseCycle q s = _
      unfold execCollateCloseCycle
      rw [h]
  case feed =>
    refine ⟨?_, ?_⟩
    · show execCollateCloseCycle q s = _
      unfold execCollateCloseCycle
      rw [hr]
      dsimp only
      rw [hop]
    · have hexec : exec (.collateFeedDone q) s = execCollateFeedDone q s := rfl
      unfold execCollateFeedDone at hexec
      rw [hr] at hexec
      dsimp only at hexec
      rw [hop] at hexec
      dsimp only at hexec
      exact ⟨_, hexec, State.setCol_completes hy hl⟩
  case close =>
    refine ⟨?_, ?_⟩
    · show execCollateFeedDone q s = _
      unfold execCollateFeedDone
      rw [hr]
      dsimp only
      rw [hop]
    · have hexec : exec (.collateCloseCycle q) s = execCollateCloseCycle q s := rfl
      unfold execCollateCloseCycle at hexec
      rw [hr] at hexec
      dsimp only at hexec
      rw [hop] at hexec
      dsimp only at hexec
      refine ⟨fun h => ?_, fun h => ?_, fun x h hx => ?_⟩
      · rw [State.closeCycle_none (by cases e <;> exact h)] at hexec
        exact ⟨_, hexec, State.closed_completes hy hl⟩
      · rw [State.closeCycle_match (by cases e <;> exact h)] at hexec
        exact ⟨_, hexec, State.closed_completes hy hl⟩
      · rw [State.closeCycle_mismatch (by cases e <;> exact h) hx] at hexec
        exact ⟨_, hexec, State.mismatched_completes hy hl⟩

namespace Sys2Proof.Machine

/-! ## The sensor supply switch -/

theorem State.Aside.sswTo (s : State) (x : SState) :
    State.Aside (State.bump { s with ssw := { s.ssw with st := x, ramped := false } } .ssw) (s.sswTo x) := .padFollow _

theorem State.sswTo_tickets (s : State) (x : SState) : (s.sswTo x).tickets = s.tickets := State.padFollow_tickets _

/-- The switch in fault, with its condition: a trip before it ends the ticket of SSW ON. -/
def State.sswFault (s : State) (cause : Nat) (fs : List Tok) : State :=
  (State.sswTo { s with ssw := { s.ssw with cause := cause, limit := false, faults := s.ssw.faults.inc } } .fault).condOn
    (89 + cause) fs

theorem State.sswFault_tickets (s : State) (cause : Nat) (fs : List Tok) : (s.sswFault cause fs).tickets = s.tickets :=
  (State.condOn_tickets _ _ _).trans (State.sswTo_tickets _ _)

/-- The ticket of SSW ON that a fault ends, where one runs. -/
def State.endSswOn (s : State) (cause : Nat) : State :=
  match s.running .ssw with
  | some t => (match t.op with | .sswOn => s.complete t.n .fault [kw "why" (causeName cause)] | _ => s)
  | none => s

theorem State.sswTrip_eq (s : State) (cause : Nat) (fs : List Tok) :
    s.sswTrip cause fs = (s.sswFault cause fs).endSswOn cause := rfl

theorem State.Aside.endSswOn (s : State) (cause : Nat) : s.Aside (s.endSswOn cause) := by
  unfold State.endSswOn
  split
  · split
    · exact .complete _ _ _ _ _
    · exact .refl _
  · exact .refl _

theorem State.endSswOn_of_running {s : State} {cause : Nat} {y : Ticket} (hr : s.running .ssw = some y)
    (hop : y.op = .sswOn) : s.endSswOn cause = s.complete y.n .fault [kw "why" (causeName cause)] := by
  unfold State.endSswOn
  rw [hr]
  dsimp only
  rw [hop]

/-- What a trip of the switch leaves. -/
theorem State.sswTrip_trips (s : State) (cause : Nat) (fs : List Tok) (y : Ticket) :
    let t := s.sswTrip cause fs
    t.ssw.st = .fault ∧ t.ssw.cause = cause ∧ t.ssw.limit = false ∧ t.ssw.faults = s.ssw.faults.inc ∧
    t.edition .ssw = s.edition .ssw + 1 ∧
    (s.quiet = false → s.events.cond.getLsbD (89 + cause) = false → t.pends (89 + cause) ∧
      (s.eventPresent (89 + cause) = true → t.events.cond.getLsbD (89 + cause) = true)) ∧
    (s.running .ssw = some y → y.op = .sswOn → s.ticket? y.n = some y → y.live = true →
      ∃ ed, Completed t y .fault [kw "why" (causeName cause)] ed) := by
  generalize hx : ({ s with ssw := { s.ssw with cause := cause, limit := false, faults := s.ssw.faults.inc } } : State) = x
  have h1 := State.Aside.sswTo x .fault
  obtain ⟨c, _, h2⟩ := (x.sswTo .fault).condOn_aside (89 + cause) fs
  have h3 := State.Aside.endSswOn (s.sswFault cause fs) cause
  rw [← State.sswTrip_eq] at h3
  have hf : s.sswFault cause fs = (x.sswTo .fault).condOn (89 + cause) fs := by subst hx; rfl
  rw [hf] at h3
  have hssw : (s.sswTrip cause fs).ssw = { x.ssw with st := .fault, ramped := false } :=
    ((h2.trans h3).ssw).trans h1.ssw
  have hquiet : (x.sswTo .fault).quiet = s.quiet := by rw [h1.quiet]; subst hx; rfl
  have hcond : (x.sswTo .fault).events.cond = s.events.cond := by rw [h1.cond]; subst hx; rfl
  have hpart : (x.sswTo .fault).part = s.part := by rw [h1.part]; subst hx; rfl
  dsimp only
  rw [hssw]
  refine ⟨rfl, ?_, ?_, ?_, ?_, fun hq hc => ⟨?_, fun hp => ?_⟩, fun hr hop hy hl => ?_⟩
  · subst hx; rfl
  · subst hx; rfl
  · subst hx; rfl
  · rw [(h2.trans h3).edition (by decide)]
    refine (h1.edition (by decide)).trans ((State.edition_bump_same _ _).trans ?_)
    subst hx; rfl
  · exact h3.pends (State.condOn_pends (hquiet.trans hq) (by rw [hcond]; exact hc))
  · rw [h3.cond]
    exact State.condOn_cond ((State.eventPresent_of_part hpart).trans hp)
  · have ht := s.sswFault_tickets cause fs
    have hy' := (State.ticket_of_tickets ht _).trans hy
    rw [State.sswTrip_eq, State.endSswOn_of_running ((State.running_of_tickets ht _).trans hr) hop]
    exact ⟨_, State.complete_completed _ y _ _ [] hy' hl⟩

end Sys2Proof.Machine

/-- Settles O52: the ramp's check, and every trip through the one fault of the switch. -/
theorem switchEventsTakeEffect : Obligations.SwitchEventsTakeEffect := by
  intro s sswOut sswIn b y
  refine ⟨?ramp, ?notRamp, ?check, ?short, ?trip, ?calm, ?held, ?free, ?limit, ?unlimit, ?hot, ?noSwitch⟩
  case ramp =>
    intro h
    show execSswRampEnd s = _
    unfold execSswRampEnd
    rw [if_pos h]
  case notRamp =>
    intro h
    refine ⟨?_, ?_⟩
    · show execSswRampEnd s = _
      unfold execSswRampEnd
      rw [if_neg h]
    · show execSswCheck sswOut sswIn s = _
      unfold execSswCheck
      exact if_neg (by simp [h])
  case check =>
    intro h hr
    have hexec : exec (.sswCheck sswOut sswIn) s = execSswCheck sswOut sswIn s := rfl
    unfold execSswCheck at hexec
    rw [if_pos (by simp [h, hr])] at hexec
    refine ⟨fun hle hin => ?_, fun hbad => ?_⟩
    · rw [if_pos (by simp [hle, hin])] at hexec
      have h1 := State.Aside.sswTo s .on
      have h2 := State.Aside.fire (s.sswTo .on) 93 []
      have h3 := State.Aside.completeRunning ((s.sswTo .on).fire 93 []) .ssw .done []
      have h13 := (h1.trans h2).trans h3
      have ht : ((s.sswTo .on).fire 93 []).tickets = s.tickets := (State.fire_tickets _ _ _).trans (State.sswTo_tickets _ _)
      refine ⟨_, hexec, by rw [h13.ssw]; rfl, by rw [h13.ssw]; rfl, by rw [h13.ssw]; rfl,
        (h13.edition (by decide)).trans (State.edition_bump_same _ _), fun hq => ?_, fun hy hx hl => ?_⟩
      · exact h3.pends (State.pends_fire (h1.quiet.trans hq))
      · exact ⟨_, State.completeRunning_completed _ _ ((State.running_of_tickets ht _).trans hy)
          ((State.ticket_of_tickets ht _).trans hx) hl⟩
    · rw [if_neg (by simp only [Bool.and_eq_true, decide_eq_true_eq]; omega)] at hexec
      exact ⟨_, hexec, State.sswTrip_trips s 1 _ y⟩
  case short =>
    intro hl h hr
    have hexec : exec (.sswLimitTimeout sswIn) s = execSswLimitTimeout sswIn s := rfl
    unfold execSswLimitTimeout at hexec
    rw [hl, h, hr] at hexec
    exact ⟨_, hexec, State.sswTrip_trips s 1 _ y⟩
  case trip =>
    intro hl h
    have hexec : exec (.sswLimitTimeout sswIn) s = execSswLimitTimeout sswIn s := rfl
    unfold execSswLimitTimeout at hexec
    rw [hl, h] at hexec
    exact ⟨_, hexec, State.sswTrip_trips s 2 _ y⟩
  case calm =>
    intro h
    show execSswLimitTimeout sswIn s = _
    unfold execSswLimitTimeout
    rcases h with h | h | h
    · rw [h]; rfl
    · rw [h]; split <;> rfl
    · rw [h]; split <;> rfl
  case held =>
    intro h
    refine ⟨?_, ?_⟩
    · show execSswThermal s = _
      unfold execSswThermal
      exact if_pos h
    · show execSswDormantOverload s = _
      unfold execSswDormantOverload
      rw [if_pos h]
      rfl
  case free =>
    intro h
    have hexec : exec .sswThermal s = execSswThermal s := rfl
    unfold execSswThermal at hexec
    dsimp only at hexec
    rw [h] at hexec
    refine ⟨?_, fun ha hc => ?_, fun hc => ?_⟩
    · show execSswDormantOverload s = _
      unfold execSswDormantOverload
      rw [h]
      rfl
    · have hclosed : s.sswClosed = true := by
        unfold State.sswClosed
        rcases hc with hc | hc <;> rw [hc] <;> rfl
      rw [ha, hclosed] at hexec
      exact ⟨_, hexec, State.sswTrip_trips { s with ssw := { s.ssw with hot := true } } 3 _ y⟩
    · have hopen : (s.awake && s.sswClosed) = false := by
        unfold State.sswClosed
        rcases hc with hc | hc | hc <;> rw [hc]
        · rfl
        · cases s.awake <;> rfl
        · cases s.awake <;> rfl
      rw [hopen] at hexec
      exact hexec
  case limit =>
    intro h
    show execSswCurrentLimit b s = _
    unfold execSswCurrentLimit State.sswClosed
    rcases h with h | h <;> rw [h] <;> rfl
  case unlimit =>
    intro h
    show execSswCurrentLimit b s = _
    unfold execSswCurrentLimit State.sswClosed
    rcases h with h | h <;> rw [h] <;> rfl
  case hot =>
    intro h
    show execSswHotChange b s = _
    unfold execSswHotChange
    rw [h]
    rfl
  case noSwitch =>
    intro h
    show execSswHotChange b s = _
    unfold execSswHotChange
    rw [h]
    rfl

end

section
/-! Edges of the pins. -/

open Sys2Proof Sys2Proof.Machine

namespace Sys2Proof.Machine

theorem State.loud_of_awake {s : State} (h : s.awake = true) : s.quiet = false := by
  unfold State.awake State.inRun at h
  unfold State.quiet
  cases hp : s.pwr.state with
  | wake n q => cases q <;> simp_all
  | entry n q => cases q <;> simp_all
  | _ => rfl

theorem State.awake_of_inRun {s : State} (h : s.inRun = true) : s.awake = true := by
  unfold State.awake
  rw [h, Bool.true_or]

end Sys2Proof.Machine

/-- Settles O54: an edge of a general pin fires where the pin selects it; one of WAKE_IN by the state it finds. -/
theorem pinEdgesTakeEffect : Obligations.PinEdgesTakeEffect := by
  intro s n level
  refine ⟨⟨fun h => ?plain, fun ha hf hl hsel => ?fires⟩, fun h => ?same, fun h => ⟨fun ha hw => ?unselected,
    fun ha hw => ?wakes, fun hb ha he => ?booting, fun hb hd hw hv he => ?dormant⟩⟩
  case plain =>
    show execGpioEdge n level s = _
    unfold execGpioEdge
    refine if_neg ?_
    rcases h with h | h | h | h
    · simp [h]
    · simp [h]
    · rw [h]
      simp
    · cases level <;> simp_all
  case fires =>
    have hexec : exec (.gpioEdge n level) s = execGpioEdge n level s := rfl
    unfold execGpioEdge at hexec
    dsimp only at hexec
    rw [if_pos (by cases level <;> simp_all)] at hexec
    generalize hx : ({ s with pads := _, gpio := _ } : State) = x at hexec
    have h1 := State.Aside.fire x 94 [.kv "pins" (.hex 2 (2 ^ n.val))]
    have hq : x.quiet = false := by subst hx; exact State.loud_of_awake ha
    refine ⟨_, hexec, by rw [h1.gpio]; subst hx; rfl, ?_, by rw [h1.gpio]; subst hx; rfl, State.pends_fire hq, ?_⟩
    · rw [h1.pads PadsSt.gpioIn]; subst hx; rfl
    · rw [h1.cfg]; subst hx; rfl
  case same =>
    show execWakeInEdge level s = _
    unfold execWakeInEdge
    exact if_pos h.symm
  case unselected =>
    show execWakeInEdge level s = _
    unfold execWakeInEdge
    rw [if_neg (fun e => h e.symm)]
    refine (if_pos ha).trans ?_
    rw [hw]
    rfl
  case wakes =>
    have hexec : exec (.wakeInEdge level) s = execWakeInEdge level s := rfl
    unfold execWakeInEdge at hexec
    rw [if_neg (fun e => h e.symm)] at hexec
    have hgo := hexec.trans (if_pos ha)
    rw [hw, if_pos rfl] at hgo
    have h1 := State.Aside.fire { s with pads := { s.pads with wakeIn := level } } 4 [kw "level" (levelWord level)]
    refine ⟨_, hgo, h1.pads PadsSt.wakeIn, State.pends_fire (State.loud_of_awake (s := s) ha), ?_⟩
    exact (congrArg State.pwr (State.fire_besideEvents _ _ _) : State.pwr (State.besideEvents _) = _)
  case booting =>
    show execWakeInEdge level s = _
    unfold execWakeInEdge
    rw [if_neg (fun e => h e.symm)]
    dsimp only
    rw [ha, hb, he]
    rfl
  case dormant =>
    show execWakeInEdge level s = _
    unfold execWakeInEdge
    rw [if_neg (fun e => h e.symm)]
    have ha : s.awake = false := by
      unfold State.awake State.inRun
      rw [hd]
      simp
    dsimp only
    rw [ha, hb]
    have hs : State.sourceOn { s with pads := { s.pads with wakeIn := level } } .wakeIn level = true := by
      unfold State.sourceOn
      show (s.wakeInOn level && (s.pwr.vddioOk || _)) = true
      rw [hw, hv]
      rfl
    show Host.Outcome.next (State.wakeSource { s with pads := { s.pads with wakeIn := level } } .wakeIn level) = _
    unfold State.wakeSource
    simp only [if_true, hs, hd, he, sourceCode]
    rfl

end

section
/-! The end of a row write: a standing order whose row ends before the orders are loaded. -/

open Sys2Proof Sys2Proof.Machine

namespace Sys2Proof.Machine

/-- The header of an order with no line: its tag, zeros, the check of the text and the check of the header (21_orders
R537). -/
def emptyOrderHeader : List Byte := [0xA5#8] ++ List.replicate 59 0#8 ++ [0xE3#8, 0x8A#8, 0xEC#8, 0x62#8]

/-- A running ticket of ORDER STORE. -/
def storingTicket : Ticket :=
  { n := 0, st := .running, queue := .stacks, owner := .host .desk, op := .orderStore 0 emptySlot }

/-- The last row of ORDER STORE is written, and the orders are not loaded yet. -/
def unloadedStore : State :=
  let s := State.reset
  { s with
    record := { s.record with orders := vset s.record.orders 0 (emptyOrderHeader, []) }
    tickets := { s.tickets with pool := [storingTicket] }
    rows := [{ what := .order 0 0 emptyOrderHeader, last := some 0 }] }

/-- Whether the orders are loaded in the state a command leads to. -/
def ordersLoaded : Host.Outcome State Fault Refusal → Bool
  | .next t => t.orders.loaded
  | _ => false

set_option maxRecDepth 20000 in
theorem ordersLoaded_unloadedStore : ordersLoaded (exec .recordRowWriteDone unloadedStore) = false := by decide

set_option maxRecDepth 20000 in
theorem isSome_recordOrder_unloadedStore : (unloadedStore.recordOrder 0).isSome = true := by decide

theorem State.slot_of_not_loaded {s : State} (h : s.orders.loaded = false) (k : Nat) : s.slot k = none := by
  unfold State.slot
  rw [h]
  rfl

end Sys2Proof.Machine

/-- Refutes O48: before the orders are loaded no slot reads, though the row of ORDER
STORE holds an order. -/
theorem not_storeEventsTakeEffect : ¬ Obligations.StoreEventsTakeEffect := by
  intro h
  obtain ⟨⟨-, -, -, done⟩, -⟩ := h unloadedStore { what := .order 0 0 emptyOrderHeader, last := some 0 } [] storingTicket
    { kib := 8, pmax := 1, refuse := false } none none none none none none false false 0
  obtain ⟨t, ht, -, -, -, -, slots, -⟩ := done rfl (.inl rfl) rfl rfl rfl (fun _ _ _ _ => nofun)
  have hslot : t.slot 0 = unloadedStore.recordOrder 0 := slots 0 emptySlot (.inl rfl) (by decide)
  have hloaded : t.orders.loaded = false := by
    have := ordersLoaded_unloadedStore
    rw [ht] at this
    exact this
  have hsome := isSome_recordOrder_unloadedStore
  rw [← hslot, State.slot_of_not_loaded hloaded] at hsome
  cases hsome

end

section
/-! Standing orders: what triggers keep of a running order, how a run ends, and the events that take its lines on. -/

open Sys2Proof Sys2Proof.Machine

namespace Sys2Proof.Machine

/-! ## A trigger while an order runs -/

/-- Between s and t the order that runs and the count of runs are the same. -/
def State.SameRun (s t : State) : Prop := t.orders.run = s.orders.run ∧ t.orders.runs = s.orders.runs

theorem State.triggerCore_sameRun {s : State} (h : s.orders.run.isSome = true) (k : Nat) (rt : Option Nat) (b : Bool) :
    s.SameRun (s.triggerCore k rt b) := by
  unfold State.triggerCore
  split
  · exact ⟨rfl, rfl⟩
  · exact ⟨rfl, rfl⟩
  · obtain ⟨r, hr⟩ := Option.isSome_iff_exists.mp h
    rw [if_neg (by rw [hr]; exact Bool.false_ne_true)]
    exact ⟨rfl, rfl⟩

theorem State.eventTriggers_sameRun {s : State} (h : s.orders.run.isSome = true) (n : Nat) :
    s.SameRun (s.eventTriggers n).1 := by
  unfold State.eventTriggers
  refine List.foldlRecOn (motive := fun acc : State × List (Nat × String) => s.SameRun acc.1) _ _ ⟨rfl, rfl⟩
    fun acc hacc j _ => ?_
  obtain ⟨h1, h2⟩ := hacc
  obtain ⟨k1, k2⟩ := State.triggerCore_sameRun (s := acc.1) (by rw [h1]; exact h) j none false
  exact ⟨k1.trans h1, k2.trans h2⟩

/-- A trigger that misses while an order runs: EV_ORDER_MISSED fires, and the order runs on. -/
theorem State.triggerOrder_missed {s : State} {k : Nat} {r : Run} (hr : s.orders.run = some r) (hk : r.k = k)
    (rt : Option Nat) (b : Bool) : s.SameRun (s.triggerOrder k rt b) ∧ (s.triggerOrder k rt b).pends 114 := by
  have hmiss : ∃ y, s.missWhy k = some y := by
    unfold State.missWhy
    rw [hr]
    split
    · exact ⟨_, rfl⟩
    · exact ⟨_, if_pos (congrArg some hk)⟩
  obtain ⟨y, hy⟩ := hmiss
  have hs : s.orders.run.isSome = true := by rw [hr]; rfl
  obtain ⟨a1, a2⟩ := State.triggerCore_sameRun hs k rt b
  generalize hx : (s.triggerCore k rt b) = x at a1 a2
  have hc : x.SameRun (x.fireCore 114 [kd "order" k, kw "why" y]) :=
    ⟨congrArg OrdersSt.run (State.fireCore_orders _ _ _), congrArg OrdersSt.runs (State.fireCore_orders _ _ _)⟩
  obtain ⟨c1, c2⟩ := hc
  obtain ⟨e1, e2⟩ := State.eventTriggers_sameRun (s := x.fireCore 114 [kd "order" k, kw "why" y])
    (by rw [c1, a1]; exact hs) 114
  have ht : s.triggerOrder k rt b = ((x.fireCore 114 [kd "order" k, kw "why" y]).eventTriggers 114).1 := by
    unfold State.triggerOrder
    rw [hy, hx]
    rfl
  rw [ht]
  refine ⟨⟨e1.trans (c1.trans a1), e2.trans (c2.trans a2)⟩, fun hn => ?_⟩
  rw [State.eventTriggers_pend]
  have hp : x.eventPresent 114 = true := by
    rw [← hn]
    exact (State.eventPresent_of_part (by simp)).symm
  rw [State.fireCore_pend _ _ _ hp, BitVec.getLsbD_or]
  simp

/-! ## The end of a run -/

/-- Between s and t no order has ended: the results and the count of failures are the same. -/
def State.SameResults (s t : State) : Prop := t.orders.last = s.orders.last ∧ t.orders.fails = s.orders.fails

theorem State.SameResults.trans {a b c : State} (h : a.SameResults b) (k : b.SameResults c) : a.SameResults c :=
  ⟨k.1.trans h.1, k.2.trans h.2⟩

theorem State.fire_results (s : State) (n : Nat) (fs : List Tok) : s.SameResults (s.fire n fs) :=
  ⟨(congrArg (·.orders.last) (s.fire_besideEvents n fs) : (s.fire n fs).besideEvents.orders.last = _),
    (congrArg (·.orders.fails) (s.fire_besideEvents n fs) : (s.fire n fs).besideEvents.orders.fails = _)⟩

theorem State.completeCore_results (s : State) (n : Nat) (r : Result) (fs : List Tok) (b : List Byte) (z : Fired) :
    s.SameResults (s.completeCore n r fs b z) := by
  unfold State.completeCore
  split
  · exact ⟨rfl, rfl⟩
  split
  · exact ⟨rfl, rfl⟩
  rename_i t _ _
  extract_lets fs s1 s2 s3
  have h1 : s.SameResults s1 := ⟨rfl, rfl⟩
  have h2 : s1.SameResults s2 := by
    dsimp only [s2, State.fireDone]
    split
    · exact ⟨rfl, rfl⟩
    · split
      · exact s1.fire_results _ _
      · exact ⟨rfl, rfl⟩
  have h3 : s2.SameResults s3 := by
    dsimp only [s3, State.fireFail]
    split
    · exact ⟨rfl, rfl⟩
    · split
      · exact ⟨rfl, rfl⟩
      · exact s2.fire_results _ _
  have h4 : s3.SameResults (s3.deliver t r fs b) := by
    unfold State.deliver
    split
    · rename_i p _
      exact ⟨congrArg OrdersSt.last (s3.push_orders p _), congrArg OrdersSt.fails (s3.push_orders p _)⟩
    · unfold State.freeTicket
      split <;> exact ⟨rfl, rfl⟩
  exact ((h1.trans h2).trans h3).trans h4

theorem State.startPending_results (s : State) : s.SameResults s.startPending := by
  unfold State.startPending
  split
  · exact ⟨rfl, rfl⟩
  · dsimp only
    split <;> exact ⟨rfl, rfl⟩

/-- The result that the end of a run leaves. -/
def Run.outcome (r : Run) (res : OrderResult) : OrderLast :=
  { result := res, line := (r.lastErr.map (·.1)).getD r.line, code := (r.lastErr.map (·.2)).getD 0, errors := r.errors }

/-- The end of a run records its result, counts a failure, and fires its event. -/
theorem State.orderEnd_ends {s : State} {r : Run} {res : OrderResult} {z : Fired} (hr : s.orders.run = some r) :
    let t := s.orderEnd res z
    (r.k < 32 → vget t.orders.last r.k none = some (r.outcome res)) ∧ t.orders.fails = s.orders.fails.incIf (decide (res ≠ .done)) ∧
      (s.quiet = false → t.pends (if res = .done then 112 else 113)) := by
  unfold State.orderEnd
  rw [hr]
  dsimp only
  generalize hx : ({ s with orders := _, pwr := _ } : State) = x
  have hxl (hk : r.k < 32) : vget x.orders.last r.k none = some (r.outcome res) := by
    subst hx
    exact vget_vset_same _ _ _ _ hk
  have hxf : x.orders.fails = s.orders.fails.incIf (decide (res ≠ .done)) := by subst hx; rfl
  have hxq : x.quiet = s.quiet := by subst hx; rfl
  generalize hy : (if res = .done then x.fire 112 _ else x.fire 113 _) = y
  have hxy : x.SameResults y := by
    subst hy
    split <;> exact x.fire_results _ _
  have hyp : s.quiet = false → y.pends (if res = .done then 112 else 113) := by
    intro hq
    subst hy
    split
    · exact State.pends_fire (hxq.trans hq)
    · exact State.pends_fire (hxq.trans hq)
  generalize hu : (if y.orders.run.isSome then y else y.startPending.bump .orders) = u
  have hyu : y.SameResults u ∧ (u.part = y.part ∧ u.events.pend = y.events.pend) := by
    subst hu
    split
    · exact ⟨⟨rfl, rfl⟩, rfl, rfl⟩
    · refine ⟨y.startPending_results, ?_⟩
      unfold State.startPending
      split
      · exact ⟨rfl, rfl⟩
      · dsimp only
        split <;> exact ⟨rfl, rfl⟩
  have key : ∀ v, u.SameResults v ∧ u.Aside v → (r.k < 32 → vget (v.settled s).orders.last r.k none = some (r.outcome res)) ∧
      (v.settled s).orders.fails = s.orders.fails.incIf (decide (res ≠ OrderResult.done)) ∧
      (s.quiet = false → (v.settled s).pends (if res = .done then 112 else 113)) := by
    rintro v ⟨hr, ha⟩
    have hres := (hxy.trans hyu.1).trans hr
    exact ⟨fun hk => (congrArg (fun x => vget x r.k none) hres.1).trans (hxl hk), hres.2.trans hxf,
      fun hq => ha.pends (State.pends_congr hyu.2.1 hyu.2.2 (hyp hq))⟩
  refine key _ ?_
  split
  · exact ⟨⟨rfl, rfl⟩, .refl u⟩
  · split <;> exact ⟨State.completeCore_results _ _ _ _ _ _, .completeCore _ _ _ _ _ _⟩

/-! ## The lines of a run -/

/-- A line answered OK with lines left takes the run to the next one. -/
theorem State.orderLineDone_next {s : State} {r : Run} {z : Fired} (hr : s.orders.run = some r) (hs : r.stopping = none)
    (hl : r.line + 1 < r.slot.lines.length) :
    s.orderLineDone none z = { s with orders := { s.orders with
      run := some { r with lastOk := true, await := .next, line := r.line + 1, ready := s.day.cyc + 1 } } } := by
  unfold State.orderLineDone
  rw [hr]
  simp only [hs, Option.isSome_none, Bool.false_and, Bool.false_eq_true, if_false, hl, if_true]

/-- The last line answered OK ends the run. -/
theorem State.orderLineDone_last {s : State} {r : Run} {z : Fired} (hr : s.orders.run = some r) (hs : r.stopping = none)
    (hl : r.slot.lines.length ≤ r.line + 1) :
    s.orderLineDone none z = State.orderEnd { s with orders := { s.orders with
      run := some { r with lastOk := true, await := .next } } } .done z := by
  unfold State.orderLineDone
  rw [hr]
  simp only [hs, Option.isSome_none, Bool.false_and, Bool.false_eq_true, if_false, Nat.not_lt.mpr hl]

/-- A run after a line with an error. -/
def Run.failed (r : Run) (c : Nat) : Run :=
  { r with lastOk := false, await := .next, errors := r.errors + 1, lastErr := some (r.line, c) }

/-- A line with an error: the run goes on, starts again, or ends. -/
theorem State.orderLineDone_error {s : State} {r : Run} {c : Nat} {z : Fired} (hr : s.orders.run = some r)
    (hs : r.stopping = none) :
    (r.slot.cont = true → r.line + 1 < r.slot.lines.length → s.orderLineDone (some c) z = { s with orders := { s.orders with
      run := some { r.failed c with line := r.line + 1, ready := s.day.cyc + 1 } } }) ∧
    (r.slot.cont = false → r.retriesUsed < r.slot.retries → s.orderLineDone (some c) z = { s with orders := { s.orders with
      run := some { r.failed c with
        line := 0, retriesUsed := r.retriesUsed + 1, errors := 0, lastOk := true, ready := s.day.cyc + 1 } } }) ∧
    (r.slot.cont = false → r.slot.retries ≤ r.retriesUsed → s.orderLineDone (some c) z =
      State.orderEnd { s with orders := { s.orders with run := some (r.failed c) } } .fail z) := by
  unfold State.orderLineDone
  rw [hr]
  refine ⟨fun hc hl => ?_, fun hc hl => ?_, fun hc hl => ?_⟩
  · simp only [hs, hc, Bool.not_true, Bool.and_false, Bool.false_eq_true, if_false, hl, if_true, Run.failed]
  · simp only [hs, hc, Option.isSome_some, Bool.not_false, Bool.and_self, hl, if_true, Run.failed]
  · simp only [hs, hc, Option.isSome_some, Bool.not_false, Bool.and_self, Nat.not_lt.mpr hl, if_true, if_false, Run.failed]

/-- A line of a running order that is due is taken. -/
theorem execOrderLineTake_takes {s : State} {r : Run} {temp : Int} {text : String} (hr : s.orders.run = some r)
    (hi : s.inRun = true) (ha : r.await = .next) (hs : r.stopping = none) (hf : r.afterReady = false)
    (hd : r.ready ≤ s.day.cyc) (hp : s.sys.pendingReset = none) (hl : r.slot.lines[r.line]? = some text) :
    exec (.orderLineTake temp) s = .next (s.takeOrderLine temp r text) := by
  show execOrderLineTake temp s = _
  unfold execOrderLineTake
  rw [hr]
  dsimp only
  rw [if_neg (by simp [hi, ha, hs, hf, hd, hp]), hl]

/-- A wait that lapses counts as a line answered OK. -/
theorem execWaitExpiry_of_wait {s : State} {r : Run} {c ev : Nat} (hr : s.orders.run = some r)
    (hw : r.await = .waitUntil c ∨ r.await = .waitClear ev c) :
    exec .waitExpiry s = .next (if c ≤ s.day.cyc then s.orderLineDone none else s) := by
  show execWaitExpiry s = _
  unfold execWaitExpiry
  rw [hr]
  rcases hw with hw | hw
  · rw [Option.map_some, hw]
  · rw [Option.map_some, hw]

/-- A schedule that is the only thing due. -/
theorem execOrderScheduleDue_alone {s : State} {k : Fin 32} {at_ : Nat} (hn : vget s.orders.next k.val none = some at_)
    (ha : s.awake = true) (ht : at_ ≤ s.now) (hl : s.dueList = [(at_, 1, k.val)]) :
    exec (.orderScheduleDue k) s = .next ((s.orderDue k.val (!s.inRun)).settled s) := by
  show execOrderScheduleDue k s = _
  unfold execOrderScheduleDue
  rw [hn]
  simp only [ha, ht, decide_true, Bool.and_self, if_true]
  unfold State.dueNow State.dueAll
  rw [hl]
  simp only [List.insertionSort, List.foldr, List.orderedInsert, List.foldl, State.dueGo]

/-- The edition of a unit that steps once in a cycle. -/
theorem State.edition_settled_bump (s t : State) (u : EdUnit) (h : t.ed = s.ed) :
    ((t.bump u).settled s).edition u = s.edition u + 1 := by
  have ht : (t.bump u).edition u = s.edition u + 1 := by
    rw [State.edition_bump_same]
    exact congrArg (fun e => vget e u.index 0 + 1) h
  have hu : u.index < 22 := by cases u <;> decide
  have hi : ((t.bump u).settled s).edition u = if (t.bump u).edition u = s.edition u then (t.bump u).edition u
      else s.edition u + 1 := by
    unfold State.edition State.settled vget
    simp [hu]
  rw [hi, ht, ite_self]

/-- A schedule of a stored order that starts at once. -/
theorem State.orderDue_starts {s : State} {k : Nat} {x : OrderSlot} (hs : s.slot k = some x) (hr : s.orders.run = none)
    (hp : s.orders.pending = []) (b : Bool) : s.orderDue k b = State.bump { s with orders := { s.orders with
      next := vset s.orders.next k (x.nextAt (s.now + 1)), runs := s.orders.runs.inc
      run := some { k := k, slot := x, ready := s.day.cyc + 1, afterReady := b } } } .orders := by
  unfold State.orderDue State.scheduleOrder
  rw [hs]
  generalize ht : ({ s with orders := _ } : State) = t
  have hts : t.slot k = some x := by subst ht; exact hs
  have htr : t.orders.run = none := by subst ht; exact hr
  have htp : t.orders.pending = [] := by subst ht; exact hp
  have hgo : t.triggerOrder k none b = (t.startOrder k x none b).bump .orders := by
    simp [State.triggerOrder, State.triggerCore, State.missWhy_idle hts htr htp, hts, htr, htp]
  rw [hgo]
  subst ht
  rfl

end Sys2Proof.Machine

/-- Settles O51: schedules through the trigger, lines through what answers them, and every end through `orderEnd`. -/
theorem orderEventsTakeEffect : Obligations.OrderEventsTakeEffect := by
  intro s k r temp at_ c ev
  refine ⟨fun h => ?unscheduled, fun hn h => ?early, fun hn ha ht => ⟨fun x hl hx hr hp => ?starts, fun hl hr hk => ?misses⟩,
    fun h => ?none, fun hr => ⟨fun h => ?idle, fun text hi ha hs hf hd hp hl => ⟨fun p act u hg hrow hact => ?line,
      fun o e hbad => ?bad⟩, fun h => ?noLimit, fun hst hlt => ?underLimit, fun hi h0 hst hs hw hk hle => ?limit,
      fun hw => ⟨fun hlt => ?waits, fun hle hs hl => ?waited, fun hle hs hl hk => ?last⟩, fun h => ?next⟩⟩
  case unscheduled =>
    show execOrderScheduleDue k s = _
    unfold execOrderScheduleDue
    rw [h]
  case early =>
    show execOrderScheduleDue k s = _
    unfold execOrderScheduleDue
    rw [hn]
    rcases h with h | h
    · simp [h]
    · simp [Nat.not_le.mpr h]
  case starts =>
    have hexec := execOrderScheduleDue_alone hn ha ht hl
    rw [State.orderDue_starts hx hr hp] at hexec
    exact ⟨_, hexec, rfl, rfl, vget_vset_same _ _ _ _ k.isLt, State.edition_settled_bump s _ .orders rfl, rfl⟩
  case misses =>
    have hexec := execOrderScheduleDue_alone hn ha ht hl
    obtain ⟨⟨h1, h2⟩, h3⟩ := State.triggerOrder_missed (s := s.scheduleOrder k.val (s.now + 1)) hr hk none (!s.inRun)
    exact ⟨_, hexec, h1, h2, h3⟩
  case none =>
    refine ⟨?_, ?_, ?_⟩
    · show execOrderLineTake temp s = _
      unfold execOrderLineTake
      rw [h]
    · show execOrderLimitExpiry s = _
      unfold execOrderLimitExpiry
      rw [h]
    · show execWaitExpiry s = _
      unfold execWaitExpiry
      rw [h]
      rfl
  case idle =>
    show execOrderLineTake temp s = _
    unfold execOrderLineTake
    rw [hr]
    refine if_pos ?_
    rcases h with h | h | h | h | h
    · simp [h]
    · simp [h]
    · simp [h]
    · simp [h]
    · simp [Nat.not_le.mpr h]
  case line =>
    have hexec := execOrderLineTake_takes (temp := temp) hr hi ha hs hf hd hp hl
    have htake : s.takeOrderLine temp r text = u.afterLine := by
      unfold State.takeOrderLine
      rw [hg]
      dsimp only
      rw [hrow]
      dsimp only
      rw [hact]
    rw [htake] at hexec
    rw [hexec]
    unfold State.afterLine
    refine ⟨fun n hsaid hrun hres => ?_, fun hsaid hrun hres hlen => ?_⟩
    · rw [hres, hsaid, hrun]
      rfl
    · rw [hres, hsaid]
      refine congrArg Host.Outcome.next ((State.orderLineDone_next hrun hs hlen).trans ?_)
      rw [ha]
  case bad =>
    have hexec := execOrderLineTake_takes (temp := temp) hr hi ha hs hf hd hp hl
    obtain ⟨hgo, hagain, hfail⟩ := State.orderLineDone_error (z := {}) (c := e.orderCode)
      (s := { s with orders := { s.orders with said := .nothing, run := some { r with started := some (r.started.getD s.day.cyc) } } })
      (r := { r with started := some (r.started.getD s.day.cyc) }) rfl hs
    have htake : s.takeOrderLine temp r text = State.orderLineDone
        { s with orders := { s.orders with said := .nothing, run := some { r with started := some (r.started.getD s.day.cyc) } } }
        (some e.orderCode) := by
      unfold State.takeOrderLine
      rw [hbad]
    rw [htake] at hexec
    refine ⟨fun hc hlen => ?_, fun hc hret => ?_, fun hc hret hk => ?_⟩
    · rw [hexec, hgo hc hlen, Run.failed, ha]
    · rw [hexec, hagain hc hret, Run.failed, ha]
    · rw [hfail hc hret] at hexec
      obtain ⟨h1, h2, h3⟩ := State.orderEnd_ends (z := {}) (res := .fail) (s := { s with orders := { s.orders with
        said := .nothing, run := some (Run.failed { r with started := some (r.started.getD s.day.cyc) } e.orderCode) } })
        rfl
      exact ⟨_, hexec, h1 hk, h2, h3 (State.loud_of_awake (State.awake_of_inRun hi))⟩
  case noLimit =>
    show execOrderLimitExpiry s = _
    unfold execOrderLimitExpiry
    rw [hr]
    dsimp only
    split
    · rename_i c0 hst hs
      rcases h with h | h | h | h
      · simp [h]
      · simp [h]
      · rw [hst] at h; cases h
      · rw [hs] at h; cases h
    · rfl
  case underLimit =>
    show execOrderLimitExpiry s = _
    unfold execOrderLimitExpiry
    rw [hr]
    dsimp only
    rw [hst]
    split
    · rename_i c0 hc _
      cases hc
      simp [Nat.not_le.mpr hlt]
    · rfl
  case limit =>
    have hexec : exec .orderLimitExpiry s = execOrderLimitExpiry s := rfl
    unfold execOrderLimitExpiry at hexec
    rw [hr] at hexec
    dsimp only at hexec
    rw [hst, hs] at hexec
    dsimp only at hexec
    rw [if_pos (by simp [hi, h0, hle])] at hexec
    have hstop : s.stopOrder .timeout = State.orderEnd { s with orders := { s.orders with
        run := some { r with stopping := some .timeout } } } .timeout := by
      unfold State.stopOrder
      rw [hr]
      dsimp only
      split
      · rename_i n hn
        exact absurd hn (hw n)
      · rfl
    rw [hstop] at hexec
    obtain ⟨h1, h2, h3⟩ := State.orderEnd_ends (z := {}) (res := .timeout) (s := { s with orders := { s.orders with
        run := some { r with stopping := some .timeout } } }) rfl
    exact ⟨_, hexec, (congrArg (Option.map (·.result)) (h1 hk)), h2, h3 (State.loud_of_awake (State.awake_of_inRun hi))⟩
  case waits => rw [execWaitExpiry_of_wait hr hw, if_neg (Nat.not_le.mpr hlt)]
  case waited => rw [execWaitExpiry_of_wait hr hw, if_pos hle, State.orderLineDone_next hr hs hl]
  case last =>
    have hexec := execWaitExpiry_of_wait hr hw
    rw [if_pos hle, State.orderLineDone_last hr hs hl] at hexec
    obtain ⟨h1, h2, h3⟩ := State.orderEnd_ends (z := {}) (res := .done) (s := { s with orders := { s.orders with
        run := some { r with lastOk := true, await := .next } } }) rfl
    exact ⟨_, hexec, congrArg (Option.map (·.result)) (h1 hk), h2, h3⟩
  case next =>
    show execWaitExpiry s = _
    unfold execWaitExpiry
    rw [hr, Option.map_some, h]

end

section
/-! The tamper input: what sets the latch, the response it begins, and the response's end (22_ssw_tamper_gpio R568–R575). -/

open Sys2Proof Sys2Proof.Machine

namespace Sys2Proof.Machine

/-! ## What the response is made of -/

theorem State.rowWrites_frame (s : State) (ws : List RowWhat) (n : Option Nat) :
    ∃ r st pw rows, s.rowWrites ws n = { s with record := r, store := st, pwr := pw, rows := rows } := by
  induction ws generalizing s with
  | nil => exact ⟨_, _, _, _, rfl⟩
  | cons x xs ih =>
    cases xs with
    | nil => exact s.rowWrite_frame _
    | cons y ys =>
      obtain ⟨r, st, pw, rows, h⟩ := s.rowWrite_frame { what := x }
      obtain ⟨r', st', pw', rows', h'⟩ := ih (s.rowWrite { what := x })
      exact ⟨r', st', pw', rows', h'.trans (by rw [h])⟩

theorem vget_foldl_vset_none {α : Type} {n : Nat} (ks : List Nat) (v : Vector (Option α) n) (j : Nat) :
    vget (ks.foldl (fun v k => vset v k none) v) j none = if j ∈ ks then none else vget v j none := by
  have one (v : Vector (Option α) n) (k : Nat) : vget (vset v k none) k none = none := by
    by_cases hk : k < n
    · exact vget_vset_same _ _ _ _ hk
    · simp [vget, hk]
  induction ks generalizing v with
  | nil => rfl
  | cons k ks ih =>
    rw [List.foldl_cons, ih]
    by_cases hj : j ∈ ks
    · simp [hj]
    · by_cases hk : j = k
      · subst hk; simp [hj, one]
      · simp [hj, hk, vget_vset_other _ _ _ _ _ hk]

theorem State.eraseList_congr {s t : State} {x y : TamperSet} (hp : t.part = s.part) (hv : t.vault.eraseMask = s.vault.eraseMask)
    (hs : y.slot = x.slot) : t.eraseList y = s.eraseList x := by
  unfold State.eraseList State.has
  rw [hp, hv, hs]

/-- The number that the next entry of the tamper log gets. -/
def TamperSt.nextSeq (x : TamperSt) : Nat := if (x.seq + 1) % 2 ^ 32 = 0 then 1 else (x.seq + 1) % 2 ^ 32

/-- The entry of a response. -/
def TamperResp.entry (r : TamperResp) (q : Nat) : TamperEntry :=
  { seq := q, at_ := r.at_, source := r.what.source.toNat, ctx := r.what.ctx, erased := r.erased }

/-- The log with the entry of a response. -/
def State.logged (s : State) (r : TamperResp) : State :=
  { s with tamper := { s.tamper with
    log := vset s.tamper.log (s.tamper.nextSeq % 32) (some (r.entry s.tamper.nextSeq)), seq := s.tamper.nextSeq } }

/-- The event of an entry that another replaces. -/
def State.firesLost (s : State) (lost : Bool) (q : Nat) : State := if lost then s.fire 89 [kd "seq" q] else s

theorem State.tamperEntry_eq (s : State) (r : TamperResp) :
    s.tamperEntry r = ((s.logged r).firesLost (vget s.tamper.log (s.tamper.nextSeq % 32) none).isSome
      s.tamper.nextSeq).rowWrite { what := .tamperLog (s.tamper.nextSeq % 32) (r.entry s.tamper.nextSeq).octets } := rfl

theorem State.Aside.firesLost (s : State) (lost : Bool) (q : Nat) : s.Aside (s.firesLost lost q) :=
  .ite (.fire _ _ _) (.refl _)

/-- An entry joins the log, and the event of one that it replaces fires; nothing else. -/
theorem State.tamperEntry_enters (s : State) (r : TamperResp) : let t := s.tamperEntry r; let q := s.tamper.nextSeq
    t.tamper = { s.tamper with log := vset s.tamper.log (q % 32) (some (r.entry q)), seq := q } ∧
      t.vault = s.vault ∧ t.part = s.part ∧ (∀ u, u ≠ .orders → t.edition u = s.edition u) ∧ s.PendLe t ∧
      (s.quiet = false → (vget s.tamper.log (q % 32) none).isSome = true → t.pends 89) := by
  dsimp only
  rw [State.tamperEntry_eq]
  have h := State.Aside.firesLost (s.logged r) (vget s.tamper.log (s.tamper.nextSeq % 32) none).isSome s.tamper.nextSeq
  have hlost : s.quiet = false → (vget s.tamper.log (s.tamper.nextSeq % 32) none).isSome = true →
      ((s.logged r).firesLost (vget s.tamper.log (s.tamper.nextSeq % 32) none).isSome s.tamper.nextSeq).pends 89 := by
    intro hq hl
    rw [hl]
    exact State.pends_fire hq
  revert h hlost
  generalize State.firesLost _ _ _ = y
  intro h hlost
  obtain ⟨rc, st, pw, rows, hrow⟩ := y.rowWrite_frame
    { what := .tamperLog (s.tamper.nextSeq % 32) (r.entry s.tamper.nextSeq).octets }
  rw [hrow]
  exact ⟨h.tamper, h.vault, h.part, fun u hu => h.edition hu, h.pend, hlost⟩

/-! ## The response -/

/-- The response to a setting owed, in a variant with the Vault: its slots are erased. -/
theorem State.tamperRespond_erases {s : State} {x : TamperSet} (ho : s.tamper.owed = some x) (hr : s.tamper.resp = none)
    (hv : s.has .vault = true) : let t := s.tamperRespond; let ks := s.eraseList x
    t.tamper = { s.tamper with
      owed := none, resp := some { what := x, at_ := s.now, erased := BitVec.ofNat 8 (maskOf ks) } } ∧
    (∀ j, t.slotKey j = if j ∈ ks then none else s.slotKey j) ∧
    (∀ u, u ≠ .vault → t.edition u = s.edition u) ∧ t.events = s.events ∧ t.part = s.part := by
  have hdef : s.tamperRespond = (fun y : State => { y with tamper := { y.tamper with
      resp := some { what := x, at_ := s.now, erased := BitVec.ofNat 8 (maskOf (s.eraseList x)) } } })
      (if (s.eraseList x).isEmpty then { s with tamper := { s.tamper with owed := none } }
        else ((State.eraseSlots { s with tamper := { s.tamper with owed := none } } (s.eraseList x)).bump .vault).rowWrites
          ((s.eraseList x).map (fun k => .key k none)) none) := by
    unfold State.tamperRespond
    rw [ho, hr]
    dsimp only
    rw [hv]
    rfl
  dsimp only
  rw [hdef]
  split
  · rename_i he
    rw [List.isEmpty_iff] at he
    refine ⟨rfl, fun j => ?_, fun _ _ => rfl, rfl, rfl⟩
    rw [he]
    rfl
  · obtain ⟨rc, st, pw, rows, hrow⟩ := State.rowWrites_frame
      ((State.eraseSlots { s with tamper := { s.tamper with owed := none } } (s.eraseList x)).bump .vault)
      ((s.eraseList x).map (fun k => .key k none)) none
    rw [hrow]
    exact ⟨rfl, fun j => vget_foldl_vset_none _ _ j, fun u hu => State.edition_bump_other _ _ _ hu, rfl, rfl⟩

/-- The response to a setting owed, in a variant without the Vault: its entry joins the log at once. -/
theorem State.tamperRespond_enters {s : State} {x : TamperSet} (ho : s.tamper.owed = some x) (hr : s.tamper.resp = none)
    (hv : s.has .vault = false) : s.tamperRespond =
      State.tamperEntry { s with tamper := { s.tamper with owed := none } } { what := x, at_ := s.now, erased := 0 } := by
  have he : s.eraseList x = [] := by
    unfold State.eraseList
    rw [hv]
    rfl
  unfold State.tamperRespond
  rw [ho, hr]
  dsimp only
  rw [hv, he]
  rfl

/-! ## The latch -/

/-- A part in Run whose latch is clear, that owes no response and runs no ticket of the Vault. -/
structure State.Untampered (s : State) : Prop where
  run : s.inRun = true
  latched : s.tamper.latched = false
  owed : s.tamper.owed = none
  resp : s.tamper.resp = none
  vault : s.running .vault = none

/-- The setting that a source makes in Run. -/
def State.setting (s : State) (src : BitVec 2) : TamperSet := { source := src, ctx := 1, period := s.day.keeper }

/-- The latch set, its edition stepped, its response owed, and the setting's event fired. -/
def State.latches (s : State) (src : BitVec 2) : State :=
  State.tamperEvent
    { State.bump { s with tamper := { s.tamper with latched := true, source := s.tamper.source ||| src } } .tamper with
      tamper := { s.tamper with latched := true, source := s.tamper.source ||| src, owed := some (s.setting src) } }
    (s.setting src)

theorem State.ctx_of_inRun {s : State} (h : s.inRun = true) : s.tamperCtx = 1 := by
  unfold State.inRun at h
  unfold State.tamperCtx
  simp only [Bool.and_eq_true, Bool.or_eq_true, decide_eq_true_eq] at h
  obtain ⟨⟨⟨_, hstage⟩, _⟩, hp | hp⟩ := h <;> rw [hp, if_pos hstage]

theorem State.tamperLatch_untampered {s : State} {src : BitVec 2} (h : s.Untampered) :
    s.tamperLatch src = (s.latches src).tamperRespond := by
  obtain ⟨hrun, hl, ho, hr, hv⟩ := h
  have hk : s.keyOp = none := by unfold State.keyOp; rw [hv]
  have ha := State.awake_of_inRun hrun
  unfold State.tamperLatch
  dsimp only
  rw [hl, ho, hr, hk, State.ctx_of_inRun hrun]
  dsimp only
  rw [if_neg (by rw [ha]; simp), if_pos hrun]
  unfold State.latches State.setting
  dsimp only
  rw [hr]
  rfl

/-- What a latch set in Run leaves, by whether the variant has the Vault. -/
theorem State.tamperLatch_latches {s : State} {src : BitVec 2} (h : s.Untampered) :
    let t := s.tamperLatch src
    let ks := s.eraseList { source := 1, ctx := 1, period := s.day.keeper }
    t.tamper.latched = true ∧ t.tamper.source = s.tamper.source ||| src ∧ t.tamper.latches = s.tamper.latches.inc ∧
    t.tamper.owed = none ∧ t.edition .tamper = s.edition .tamper + 1 ∧
    (s.events.cond.getLsbD 88 = false → t.pends 88) ∧
    (s.has .vault = true → (t.tamper.resp.map (·.erased)) = some (BitVec.ofNat 8 (maskOf ks)) ∧
      ∀ j, t.slotKey j = if j ∈ ks then none else s.slotKey j) ∧
    (s.has .vault = false → t.tamper.resp = none ∧ ∃ e, vget t.tamper.log (t.tamper.seq % 32) none = some e ∧
      e.seq = t.tamper.seq ∧ e.at_ = s.now ∧ e.source = src.toNat ∧ e.ctx = 1 ∧ e.erased = 0) := by
  dsimp only
  rw [State.tamperLatch_untampered h]
  generalize hx : ({ State.bump { s with tamper := { s.tamper with latched := true, source := s.tamper.source ||| src } } .tamper
    with tamper := { s.tamper with latched := true, source := s.tamper.source ||| src, owed := some (s.setting src)
                                   latches := s.tamper.latches.inc } } : State) = x
  have hu : s.latches src = x.condOn 88 [kw "src" (srcText src), kw "ctx" (ctxName 1)] := by subst hx; rfl
  obtain ⟨c, _, hc⟩ := x.condOn_aside 88 [kw "src" (srcText src), kw "ctx" (ctxName 1)]
  rw [← hu] at hc
  have htamper : (s.latches src).tamper = { s.tamper with
      latched := true, source := s.tamper.source ||| src, owed := some (s.setting src), latches := s.tamper.latches.inc } := by
    rw [hc.tamper]; subst hx; rfl
  have howed : (s.latches src).tamper.owed = some (s.setting src) := by rw [htamper]
  have hresp : (s.latches src).tamper.resp = none := by rw [htamper]; exact h.resp
  have hpart : (s.latches src).part = s.part := by rw [hc.part]; subst hx; rfl
  have hvault : (s.latches src).vault = s.vault := by rw [hc.vault]; subst hx; rfl
  have hday : (s.latches src).day = s.day := by rw [hc.day]; subst hx; rfl
  have hed : (s.latches src).edition .tamper = s.edition .tamper + 1 := by
    rw [hc.edition (by decide)]; subst hx; exact State.edition_bump_same { s with tamper := _ } .tamper
  have hpend : s.events.cond.getLsbD 88 = false → (s.latches src).pends 88 := by
    intro h88
    rw [hu]
    refine State.condOn_pends ?_ ?_
    · subst hx; exact State.loud_of_awake (State.awake_of_inRun (s := s) h.run)
    · subst hx; exact h88
  have hhas : (s.latches src).has .vault = s.has .vault := by unfold State.has; rw [hpart]
  have herase : (s.latches src).eraseList (s.setting src) =
      s.eraseList { source := 1, ctx := 1, period := s.day.keeper } :=
    State.eraseList_congr hpart (by rw [hvault]) rfl
  cases hv : s.has .vault with
  | true =>
    obtain ⟨h1, h2, h3, h4, h5⟩ := State.tamperRespond_erases howed hresp (hhas.trans hv)
    rw [h1, htamper, h3 _ (by decide), hed]
    refine ⟨rfl, rfl, rfl, rfl, rfl, fun h88 => State.pends_congr h5 (by rw [h4]) (hpend h88), fun _ => ⟨?_, fun j => ?_⟩,
      fun hf => nomatch hf⟩
    · rw [← herase]; rfl
    · rw [h2, herase]; unfold State.slotKey; rw [hvault]
  | false =>
    rw [State.tamperRespond_enters howed hresp (hhas.trans hv)]
    have hat : (s.latches src).now = s.now := congrArg (fun d => d.now.toNat) hday
    rw [hat]
    generalize hy : ({ s.latches src with tamper := { (s.latches src).tamper with owed := none } } : State) = y
    have hyt : y.tamper = { s.tamper with
        latched := true, source := s.tamper.source ||| src, owed := none, latches := s.tamper.latches.inc } := by
      subst hy
      exact congrArg (fun x : TamperSt => { x with owed := none }) htamper
    have hyl : y.edition .tamper = s.edition .tamper + 1 ∧ y.part = s.part ∧ y.events = (s.latches src).events := by
      subst hy; exact ⟨hed, hpart, rfl⟩
    obtain ⟨h1, _, h3, h4, h5, -⟩ := y.tamperEntry_enters { what := s.setting src, at_ := s.now, erased := 0 }
    have hp88 : s.events.cond.getLsbD 88 = false → (y.tamperEntry { what := s.setting src, at_ := s.now, erased := 0 }).pends 88 := by
      intro h88 hn
      rw [State.eventPresent_of_part h3, State.eventPresent_of_part hyl.2.1, ← State.eventPresent_of_part hpart] at hn
      exact h5 88 (by rw [hyl.2.2]; exact hpend h88 hn)
    have hedition := (h4 .tamper (by decide)).trans hyl.1
    clear hc
    rw [hyt] at h1
    rw [h1]
    exact ⟨rfl, rfl, rfl, rfl, hedition, hp88, fun hf => (nomatch hf), fun _ => ⟨h.resp, _,
      vget_vset_same _ _ _ _ (Nat.mod_lt _ (by decide)), rfl, rfl, rfl, rfl, rfl⟩⟩

/-- A reading that leaves no response owed wakes nothing. -/
theorem State.tamperWakes_of_owed {s : State} {f : State → State} (h : (f s).tamper.owed = s.tamper.owed ∨ (f s).tamper.owed = none) :
    s.tamperWakes f = f s := by
  unfold State.tamperWakes
  refine if_pos ?_
  rcases h with h | h
  · simp [h]
  · simp [h]

/-- A source that sets the latch of an untampered part. -/
theorem State.tamperWakes_latches {s t : State} {f : State → State} {src : BitVec 2} (hf : f s = t.tamperLatch src)
    (ht : t.Untampered) : s.tamperWakes f = t.tamperLatch src := by
  rw [State.tamperWakes_of_owed (.inr ?_), hf]
  rw [hf]
  exact (State.tamperLatch_latches ht).2.2.2.1

/-- A state with a reading of the tamper input. -/
def State.tamperRead (s : State) (pads : PadsSt) (level seen : Bool) : State :=
  { s with pads := pads, tamper := { s.tamper with level := level, seenOnce := seen } }

/-- A command whose reading sets the latch of an untampered part. -/
theorem State.leads_latched {c : Instr} {s : State} {f : State → State} {src : BitVec 2} {pads : PadsSt} {level seen : Bool}
    (j : Nat) (hc : exec c s = .next (s.tamperWakes f)) (hf : f s = (s.tamperRead pads level seen).tamperLatch src)
    (h : s.Untampered) : Leads c s (fun t =>
      let ks := s.eraseList { source := 1, ctx := 1, period := s.day.keeper }
      t.tamper.latched = true ∧ t.tamper.source = s.tamper.source ||| src ∧ t.tamper.latches = s.tamper.latches.inc ∧
      t.tamper.owed = none ∧ t.edition .tamper = s.edition .tamper + 1 ∧
      (s.events.cond.getLsbD 88 = false → t.pends 88) ∧
      (s.has .vault = true → (t.tamper.resp.map (·.erased)) = some (BitVec.ofNat 8 (maskOf ks)) ∧
        (j < 8 → j ∈ ks → t.slotKey j = none) ∧ (j ∉ ks → t.slotKey j = s.slotKey j)) ∧
      (s.has .vault = false → t.tamper.resp = none ∧ ∃ e, vget t.tamper.log (t.tamper.seq % 32) none = some e ∧
        e.seq = t.tamper.seq ∧ e.at_ = s.now ∧ e.source = src.toNat ∧ e.ctx = 1 ∧ e.erased = 0)) := by
  have hu : (s.tamperRead pads level seen).Untampered := ⟨h.run, h.latched, h.owed, h.resp, h.vault⟩
  rw [State.tamperWakes_latches hf hu] at hc
  obtain ⟨h1, h2, h3, h4, h5, h6, h7, h8⟩ := State.tamperLatch_latches (src := src) hu
  refine ⟨_, hc, h1, h2, h3, h4, h5, h6, fun hv => ⟨(h7 hv).1, fun _ hj => ?_, fun hj => ?_⟩, h8⟩
  · rw [(h7 hv).2 j]; exact if_pos hj
  · rw [(h7 hv).2 j]; exact if_neg hj

/-- The end of a response with no other owed. -/
theorem State.tamperFinish_enters {s : State} {r : TamperResp} (hr : s.tamper.resp = some r) (ho : s.tamper.owed = none) :
    let t := s.tamperFinish
    let q := s.tamper.nextSeq
    t.tamper.resp = none ∧ t.tamper.seq = q ∧ vget t.tamper.log (q % 32) none = some (r.entry q) ∧
      (∀ i, i ≠ q % 32 → vget t.tamper.log i none = vget s.tamper.log i none) ∧ t.vault.slots = s.vault.slots ∧
      (r.erased = 0 → t.vault.erasures = s.vault.erasures) ∧
      (r.erased ≠ 0 → t.vault.erasures = s.vault.erasures.inc ∧ (s.quiet = false → t.pends 83)) ∧
      (s.quiet = false → (vget s.tamper.log (q % 32) none).isSome = true → t.pends 89) := by
  dsimp only
  -- the response gone, and the erasure counted where slots were erased
  obtain ⟨y, hy, hyt, hys, hyq, hyv, hye⟩ : ∃ y : State, s.tamperFinish = (y.tamperEntry r).tamperRespond ∧
      y.tamper = { s.tamper with resp := none } ∧ y.vault.slots = s.vault.slots ∧ y.quiet = s.quiet ∧
      (r.erased = 0 → y.vault.erasures = s.vault.erasures) ∧
      (r.erased ≠ 0 → y.vault.erasures = s.vault.erasures.inc ∧ (s.quiet = false → y.pends 83)) := by
    unfold State.tamperFinish
    rw [hr]
    dsimp only
    refine ⟨_, rfl, ?_⟩
    split
    · rename_i h0
      exact ⟨rfl, rfl, rfl, fun _ => rfl, fun hn => absurd h0 hn⟩
    · rename_i h0
      generalize hx : ({ s with tamper := _, vault := _ } : State) = x
      have h := State.Aside.fire x 83 [.kv "slots" (.hex 2 r.erased.toNat)]
      refine ⟨?_, ?_, ?_, fun hn => absurd hn h0, fun _ => ⟨?_, fun hq => State.pends_fire ?_⟩⟩
      · rw [h.tamper]; subst hx; rfl
      · rw [h.vault]; subst hx; rfl
      · rw [h.quiet]; subst hx; rfl
      · rw [h.vault]; subst hx; rfl
      · subst hx; exact hq
  obtain ⟨h1, h2, h3, -, h5, h6⟩ := y.tamperEntry_enters r
  have hdone : (y.tamperEntry r).tamperRespond = y.tamperEntry r := by
    unfold State.tamperRespond
    rw [h1, hyt]
    dsimp only
    rw [ho]
  rw [hyt] at h1
  rw [hyq, hyt] at h6
  rw [hy, hdone, h1, h2]
  refine ⟨rfl, rfl, vget_vset_same _ _ _ _ (Nat.mod_lt _ (by decide)), fun i hi => vget_vset_other _ _ _ _ _ hi, hys, hyv,
    fun h0 => ⟨(hye h0).1, fun hq hn => h5 83 ((hye h0).2 hq ?_)⟩, h6⟩
  rw [← hn, State.eventPresent_of_part h3]

end Sys2Proof.Machine

/-- Settles O53: every source that sets the latch does so through `tamperLatch`, and the response ends in the log. -/
theorem tamperEventsTakeEffect : Obligations.TamperEventsTakeEffect := by
  intro s level r j
  refine ⟨fun h => ?unsampled, fun h ha => ?sampled, fun h ha hl hq => ?sampleLatches, fun h => ?unsensed, fun h ha => ?sensed,
    fun h ha hl hq => ?edgeLatches, fun h => ?noDip, fun h hq => ?dipLatches, fun h => ?calm, fun hr ho => ?finish⟩
  case unsampled =>
    refine congrArg Host.Outcome.next ((State.tamperWakes_of_owed (.inl ?_)).trans ?_) <;> simp [State.tamperSampled, h]
  case sampled =>
    have hf : s.tamperSampled level = { s with
        pads := { s.pads with tamp := level }, tamper := { s.tamper with level := s.tampActive level } } := by
      unfold State.tamperSampled
      rw [if_pos h]
      exact if_neg (by rcases ha with ha | ha <;> simp [ha])
    refine congrArg Host.Outcome.next ((State.tamperWakes_of_owed (.inl ?_)).trans hf)
    show (s.tamperSampled level).tamper.owed = _
    rw [hf]
  case sampleLatches =>
    obtain ⟨hrun, hlatched, howed, hresp, hvault⟩ := hq
    refine State.leads_latched (pads := { s.pads with tamp := level }) (level := s.tampActive level) (seen := s.tamper.seenOnce)
      j rfl ?_ ⟨hrun, hlatched, howed, hresp, hvault⟩
    show s.tamperSampled level = _
    unfold State.tamperSampled
    rw [if_pos h]
    exact if_pos (by rw [ha, hl]; rfl)
  case unsensed =>
    refine congrArg Host.Outcome.next ((State.tamperWakes_of_owed (.inl ?_)).trans ?_) <;> simp [State.tamperEdge, h]
  case sensed =>
    have hf : s.tamperEdge level = { s with
        pads := { s.pads with tamp := level }
        tamper := { s.tamper with level := s.tampActive level, seenOnce := s.tampActive level && !s.tamper.level } } := by
      unfold State.tamperEdge
      rw [if_pos h]
      exact if_neg (by rcases ha with ha | ha <;> simp [ha])
    refine congrArg Host.Outcome.next ((State.tamperWakes_of_owed (.inl ?_)).trans hf)
    show (s.tamperEdge level).tamper.owed = _
    rw [hf]
  case edgeLatches =>
    obtain ⟨hrun, hlatched, howed, hresp, hvault⟩ := hq
    refine State.leads_latched (pads := { s.pads with tamp := level }) (level := s.tampActive level)
      (seen := s.tampActive level && !s.tamper.level) j rfl ?_ ⟨hrun, hlatched, howed, hresp, hvault⟩
    show s.tamperEdge level = _
    unfold State.tamperEdge
    rw [if_pos h]
    exact if_pos (by rw [ha, hl]; rfl)
  case noDip =>
    refine congrArg Host.Outcome.next ((State.tamperWakes_of_owed (.inl ?_)).trans ?_) <;> simp [State.tamperDip, h]
  case dipLatches =>
    obtain ⟨hrun, hlatched, howed, hresp, hvault⟩ := hq
    refine State.leads_latched (pads := s.pads) (level := s.tamper.level) (seen := s.tamper.seenOnce) j rfl ?_
      ⟨hrun, hlatched, howed, hresp, hvault⟩
    show s.tamperDip = _
    unfold State.tamperDip
    refine if_pos ?_
    unfold State.inRun at hrun
    simp only [Bool.and_eq_true, decide_eq_true_eq] at hrun
    obtain ⟨⟨⟨hh, hs⟩, _⟩, _⟩ := hrun
    simp [hh, hs, h]
  case calm =>
    refine congrArg Host.Outcome.next ?_
    unfold State.tamperFinish
    rw [h]
  case finish => exact ⟨_, rfl, State.tamperFinish_enters hr ho⟩

end

section
/-! The Porter: the fetch of a call slip and the move of one element (19_stacks_porter R510–R519). -/

open Sys2Proof Sys2Proof.Machine

namespace Sys2Proof.Machine

/-! ## A channel that stops -/

/-- The ticket of a channel's run, by its number. -/
theorem State.n_of_ticket {s : State} {n : Nat} {y : Ticket} (h : s.ticket? n = some y) : y.n = n := by
  unfold State.ticket? at h
  exact beq_iff_eq.mp (List.find?_some (p := fun t : Ticket => t.n == n) h)

theorem State.Aside.chan {s t : State} (h : s.Aside t) (n : Nat) : t.chan n = s.chan n := by
  unfold State.chan
  rw [h.porter]

theorem State.quiet_of_pwr {s t : State} (h : t.pwr = s.pwr) : t.quiet = s.quiet := by
  unfold State.quiet
  rw [h]

theorem State.complete_of_ticket {s : State} {n : Nat} {y : Ticket} (r : Result) (fs : List Tok) (b : List Byte)
    (hy : s.ticket? n = some y) (hl : y.live = true) : ∃ ed, Completed (s.complete n r fs b) y r fs ed := by
  have hn := State.n_of_ticket hy
  subst hn
  exact ⟨_, s.complete_completed y r fs b hy hl⟩

/-- The words of a fault of the Porter. -/
def faultToks (x : PRun) (why at_ : Nat) : List Tok :=
  [kw "why" (faultNames.getD why ""), .kv "slip" (hex8 x.at_), .kv "at" (hex8 at_)]

/-- A channel stopped by a fault, before its event and the end of its ticket. -/
def State.chanFaulted (s : State) (n : Nat) (x : PRun) (why at_ : Nat) : State :=
  let t := (s.setChan n { s.chan n with addr := at_, slip := x.at_ }).chanStop n 2 why
  { t with porter := { t.porter with faults := t.porter.faults.inc } }

theorem State.chanFault_eq (s : State) (n : Nat) (x : PRun) (why at_ : Nat) : s.chanFault n x why at_ =
    ((s.chanFaulted n x why at_).fire (100 + n) (faultToks x why at_)).complete x.ticket .fail (faultToks x why at_) := rfl

theorem State.chan_chanFaulted (s : State) (q : Fin 4) (x : PRun) (why at_ : Nat) :
    (s.chanFaulted q.val x why at_).chan q.val =
      { s.chan q.val with addr := at_, slip := x.at_, run := none, last := 2, why := why } := by
  refine (State.chan_setChan_same _ _ _ q.isLt).trans ?_
  rw [State.chan_setChan_same _ _ _ q.isLt]

theorem State.edition_chanStop (s : State) (n last why : Nat) :
    (s.chanStop n last why).edition .porter = s.edition .porter + 1 :=
  State.edition_bump_same (s.setChan n { s.chan n with run := none, last := last, why := why }) .porter

theorem State.edition_chanFaulted (s : State) (n : Nat) (x : PRun) (why at_ : Nat) :
    (s.chanFaulted n x why at_).edition .porter = s.edition .porter + 1 :=
  State.edition_chanStop (s.setChan n { s.chan n with addr := at_, slip := x.at_ }) n 2 why

theorem State.chanFaulted_keeps (s : State) (n : Nat) (x : PRun) (why at_ : Nat) :
    (s.chanFaulted n x why at_).pwr = s.pwr ∧ (s.chanFaulted n x why at_).store = s.store ∧
      (s.chanFaulted n x why at_).tickets = s.tickets := by
  unfold State.chanFaulted State.chanStop State.setChan State.bump
  exact ⟨rfl, rfl, rfl⟩

/-- What a channel's fault leaves. -/
theorem State.chanFault_fails {s : State} {q : Fin 4} {x : PRun} {why at_ : Nat} (y : Ticket) (hq : s.quiet = false) :
    let t := s.chanFault q.val x why at_
    (t.chan q.val).run = none ∧ (t.chan q.val).last = 2 ∧ (t.chan q.val).why = why ∧ (t.chan q.val).addr = at_ ∧
    (t.chan q.val).slip = x.at_ ∧ t.porter.faults = s.porter.faults.inc ∧ t.edition .porter = s.edition .porter + 1 ∧
    t.pends (100 + q.val) ∧ t.store.carrels = s.store.carrels ∧ t.store.shelf = s.store.shelf ∧
    (s.ticket? x.ticket = some y → y.live = true → ∃ ed, Completed t y .fail
      [kw "why" (faultNames.getD why ""), .kv "slip" (hex8 x.at_), .kv "at" (hex8 at_)] ed) := by
  dsimp only
  rw [State.chanFault_eq]
  have hf := State.Aside.fire (s.chanFaulted q.val x why at_) (100 + q.val) (faultToks x why at_)
  have hc := State.Aside.complete ((s.chanFaulted q.val x why at_).fire (100 + q.val) (faultToks x why at_)) x.ticket .fail
    (faultToks x why at_) []
  have h := hf.trans hc
  obtain ⟨hpwr, hstore, htick⟩ := s.chanFaulted_keeps q.val x why at_
  have hq' : (s.chanFaulted q.val x why at_).quiet = false := (State.quiet_of_pwr hpwr).trans hq
  rw [h.chan, State.chan_chanFaulted, h.porter, h.store, hstore, h.edition (by decide),
    State.edition_chanFaulted]
  refine ⟨rfl, rfl, rfl, rfl, rfl, rfl, rfl, hc.pends (State.pends_fire hq'), rfl, rfl, ?_⟩
  intro hy hl
  exact State.complete_of_ticket _ _ _ ((State.ticket_of_tickets ((State.fire_tickets _ _ _).trans htick) _).trans hy) hl

/-- A channel whose last slip has ended, before its event and the end of its ticket. -/
def State.chanEnded (s : State) (n : Nat) : State :=
  { s.chanStop n 1 0 with porter := { (s.chanStop n 1 0).porter with runs := s.porter.runs.inc } }

theorem State.chanEnded_keeps (s : State) (n : Nat) : (s.chanEnded n).pwr = s.pwr ∧ (s.chanEnded n).store = s.store ∧
    (s.chanEnded n).tickets = s.tickets := by
  unfold State.chanEnded State.chanStop State.setChan State.bump
  exact ⟨rfl, rfl, rfl⟩

/-- What the end of a channel's last slip leaves. -/
theorem State.chanDone_ends {s : State} {q : Fin 4} {x : PRun} (y : Ticket) (hq : s.quiet = false) :
    let t := s.chanDone q.val x
    (t.chan q.val).run = none ∧ (t.chan q.val).last = 1 ∧ (t.chan q.val).elements = (s.chan q.val).elements ∧
    t.store = s.store ∧ t.porter.runs = s.porter.runs.inc ∧ t.pends (96 + q.val) ∧
    (s.ticket? x.ticket = some y → y.live = true → ∃ fs ed, Completed t y .done fs ed) := by
  obtain ⟨f, g, hdef⟩ : ∃ f g, s.chanDone q.val x =
      ((s.chanEnded q.val).fire (96 + q.val) f).complete x.ticket .done g x.output := ⟨_, _, rfl⟩
  dsimp only
  rw [hdef]
  have hc := State.Aside.complete ((s.chanEnded q.val).fire (96 + q.val) f) x.ticket .done g x.output
  have h := (State.Aside.fire (s.chanEnded q.val) (96 + q.val) f).trans hc
  obtain ⟨hpwr, hstore, htick⟩ := s.chanEnded_keeps q.val
  have hq' : (s.chanEnded q.val).quiet = false := (State.quiet_of_pwr hpwr).trans hq
  have hchan : (s.chanEnded q.val).chan q.val = { s.chan q.val with run := none, last := 1, why := 0 } :=
    State.chan_setChan_same _ _ _ q.isLt
  rw [h.chan, hchan, h.porter, h.store, hstore]
  refine ⟨rfl, rfl, rfl, rfl, rfl, hc.pends (State.pends_fire hq'), fun hy hl => ⟨g, ?_⟩⟩
  exact State.complete_of_ticket _ _ _ ((State.ticket_of_tickets ((State.fire_tickets _ _ _).trans htick) _).trans hy) hl

/-! ## The arrays that an element touches -/

/-- An array that has its power and does not stall. -/
def State.arrayReady (s : State) (n : Nat) : Prop := s.pwr.powered.getLsbD n = true ∧ s.stalled n = false

theorem State.touch_of_powered {s : State} {n : Nat} (h : s.pwr.powered.getLsbD n = true) : s.touch n = s := by
  unfold State.touch
  rw [if_neg (fun h8 => by subst h8; simp at h), if_pos h]

theorem State.power_of_ready {s : State} {ts : List Target} (h : ∀ t ∈ ts, ∀ n, t.place = some n → s.arrayReady n) :
    s.power ts = (s, false) := by
  unfold State.power
  induction ts with
  | nil => rfl
  | cons t ts ih =>
    rw [List.foldl_cons]
    have ih' := ih (fun u hu => h u (List.mem_cons_of_mem _ hu))
    cases hp : t.place with
    | none => exact ih'
    | some n =>
      obtain ⟨h1, h2⟩ := h t List.mem_cons_self n hp
      simp only [State.touch_of_powered h1, h2, Bool.or_false]
      exact ih'

theorem stallEnd_mem (x : Nat × Nat) (l : List (Nat × Nat)) : x ∈ stallEnd x l := by
  induction l with
  | nil => exact List.mem_singleton_self x
  | cons y l ih =>
    unfold stallEnd
    split
    · exact List.mem_cons_self
    · exact List.mem_cons_of_mem _ ih

theorem State.stalled_touch {s : State} {n : Nat} (h8 : n ≠ 8) (h : s.pwr.powered.getLsbD n = false) :
    (s.touch n).stalled n = true := by
  unfold State.touch
  rw [if_neg h8, if_neg (by rw [h]; exact Bool.false_ne_true)]
  exact List.any_eq_true.mpr ⟨_, stallEnd_mem _ _, beq_self_eq_true n⟩

/-! ## The fetch -/

theorem execPorterSlipFetch_idle {s : State} {q : Fin 4} (h : s.inRun = false ∨ (s.chan q.val).run = none) :
    exec (.porterSlipFetch q) s = .next s := by
  show execPorterSlipFetch q s = _
  unfold execPorterSlipFetch
  dsimp only
  cases hr : (s.chan q.val).run with
  | none => rfl
  | some x =>
    rw [hr] at h
    exact if_pos (by simp [h.resolve_right (fun h => nomatch h)])

/-- The fetch of a run that has none of its slip: what the checks before the arrays' power find. -/
theorem execPorterSlipFetch_checks {s : State} {q : Fin 4} {x : PRun} (hi : s.inRun = true)
    (hr : (s.chan q.val).run = some x) (hs : x.slip = none) :
    (x.max ≤ (s.chan q.val).slips → exec (.porterSlipFetch q) s = .next (s.chanFault q.val x 7 x.at_)) ∧
    ((s.chan q.val).slips < x.max → inCarrels x.at_ 32 = false →
      exec (.porterSlipFetch q) s = .next (s.chanFault q.val x 6 x.at_)) ∧
    ((s.chan q.val).slips < x.max → inCarrels x.at_ 32 = true →
      (s.pwr.powered.getLsbD (x.at_ / 0x8000) = false →
        exec (.porterSlipFetch q) s = .next (s.touch (x.at_ / 0x8000))) ∧
      (s.arrayReady (x.at_ / 0x8000) → exec (.porterSlipFetch q) s =
        if slipBad x.at_ (s.carrelRead x.at_ 32) then .next (s.chanFault q.val x 6 x.at_)
        else .next (s.setChan q.val { s.chan q.val with
          run := some { x with
            slip := some (slipOf (s.carrelRead x.at_ 32)), k0 := 0, k1 := 0, k2 := 0, off := 0
            p := if (slipOf (s.carrelRead x.at_ 32)).walkDst then (slipOf (s.carrelRead x.at_ 32)).src
              else (slipOf (s.carrelRead x.at_ 32)).dst }
          slips := (s.chan q.val).slips + 1, slip := x.at_ }))) := by
  have hexec : exec (.porterSlipFetch q) s = execPorterSlipFetch q s := rfl
  unfold execPorterSlipFetch at hexec
  dsimp only at hexec
  rw [hr] at hexec
  dsimp only at hexec
  rw [if_neg (by simp [hi, hs])] at hexec
  rw [hexec]
  refine ⟨fun hm => if_pos hm, fun hm hc => ?_, fun hm hc => ⟨fun hp => ?_, fun hp => ?_⟩⟩
  · rw [if_neg (Nat.not_le.mpr hm)]
    exact if_pos (by rw [hc]; rfl)
  · rw [if_neg (Nat.not_le.mpr hm), if_neg (by rw [hc]; exact Bool.false_ne_true)]
    have h8 : x.at_ / 0x8000 ≠ 8 := by
      unfold inCarrels at hc
      simp only [Bool.and_eq_true, decide_eq_true_eq] at hc
      omega
    have hpow : s.power [.carrel (x.at_ / 0x8000)] = (s.touch (x.at_ / 0x8000), true) := by
      unfold State.power
      simp only [List.foldl, Target.place, State.stalled_touch h8 hp, Bool.or_true]
    rw [hpow]
    rfl
  · rw [if_neg (Nat.not_le.mpr hm), if_neg (by rw [hc]; exact Bool.false_ne_true)]
    have hpow : s.power [.carrel (x.at_ / 0x8000)] = (s, false) := by
      refine State.power_of_ready fun t ht n hn => ?_
      rw [List.mem_singleton] at ht
      subst ht
      cases hn
      exact hp
    rw [hpow]
    rfl

/-! ## The element -/

/-- The run with the entry of the shelf list that its next element reads. -/
def State.entryRead (s : State) (x : PRun) (sl : Slip) : PRun :=
  if sl.shelf && decide (x.k0 = 0) then { x with off := leNat (s.carrelRead (sl.list + 2 * x.k1) 2) } else x

theorem State.entryRead_keeps (s : State) (x : PRun) (sl : Slip) : (s.entryRead x sl).ticket = x.ticket ∧
    (s.entryRead x sl).at_ = x.at_ ∧ (s.entryRead x sl).p = x.p ∧ (s.entryRead x sl).fifo = x.fifo := by
  unfold State.entryRead
  split <;> exact ⟨rfl, rfl, rfl, rfl⟩

theorem State.chanFault_entryRead (s : State) (n : Nat) (x : PRun) (sl : Slip) (why at_ : Nat) :
    s.chanFault n (s.entryRead x sl) why at_ = s.chanFault n x why at_ := by
  unfold State.entryRead
  split <;> rfl

/-- The array that the entry of a shelf list is read from. -/
def PRun.lists (x : PRun) (sl : Slip) : List Target :=
  if sl.shelf && decide (x.k0 = 0) then [.carrel ((sl.list + 2 * x.k1) / 0x8000)] else []

theorem State.nextElement_of_run {s : State} {n : Nat} {x : PRun} {sl : Slip} (hr : (s.chan n).run = some x)
    (hs : x.slip = some sl) : s.nextElement n = some (sl, s.entryRead x sl,
      if sl.walkDst then x.p else (s.entryRead x sl).walked sl, if sl.walkDst then (s.entryRead x sl).walked sl else x.p,
      x.lists sl) := by
  rw [← (s.entryRead_keeps x sl).2.2.1]
  unfold State.nextElement
  rw [hr, Option.bind_some]
  exact (congrArg (Option.map _) hs).trans rfl

theorem execPorterElement_idle {s : State} {q : Fin 4} (h : s.inRun = false ∨ s.elementTurn q.val = false ∨
    s.nextElement q.val = none) : exec (.porterElement q) s = .next s := by
  show execPorterElement q s = _
  unfold execPorterElement
  dsimp only
  cases hn : s.nextElement q.val with
  | none => rfl
  | some e =>
    rw [hn] at h
    refine if_pos ?_
    rcases h with h | h | h
    · simp [h]
    · simp [h]
    · cases h

/-- An element whose shelf list is at hand: a fault, or the move, when its arrays are at hand too. -/
theorem execPorterElement_goes {s : State} {q : Fin 4} {sl : Slip} {x : PRun} {src dst : Nat} {list : List Target}
    (hi : s.inRun = true) (ht : s.elementTurn q.val = true) (hn : s.nextElement q.val = some (sl, x, src, dst, list))
    (hl : s.power list = (s, false)) :
    (∀ why at_, s.elementFault src dst sl.size = some (why, at_) →
      exec (.porterElement q) s = .next (s.chanFault q.val x why at_)) ∧
    (s.elementFault src dst sl.size = none → s.power [s.target src false, s.target dst true] = (s, false) →
      exec (.porterElement q) s = .next { s.moveElement q.val x sl src dst with
        porter := { (s.moveElement q.val x sl src dst).porter with turn := q.val } }) := by
  have hexec : exec (.porterElement q) s = execPorterElement q s := rfl
  unfold execPorterElement at hexec
  dsimp only at hexec
  rw [hn] at hexec
  dsimp only at hexec
  rw [if_neg (by simp [hi, ht]), hl] at hexec
  rw [hexec]
  refine ⟨fun why at_ hf => ?_, fun hf hp => ?_⟩
  · simp only [hf, Bool.false_eq_true, if_false]
  · simp only [hf, hp, Bool.false_eq_true, if_false]

/-- The move of an element from a carrel. -/
theorem State.moveElement_of_carrel {s : State} {n a : Nat} {x : PRun} {sl : Slip} {src dst : Nat}
    (h : s.target src false = .carrel a) :
    (s.writeElement x (s.target dst true) dst (s.carrelRead src sl.size) = none →
      s.moveElement n x sl src dst = s.chanFault n x 8 dst) ∧
    (∀ t y, s.writeElement x (s.target dst true) dst (s.carrelRead src sl.size) = some (t, y) →
      let c : Chan := { t.chan n with
        addr := if sl.walkDst then dst else src, elements := ((t.chan n).elements + 1) % 2 ^ 32 }
      (∀ z, y.advance sl = some z → s.moveElement n x sl src dst = t.setChan n { c with run := some z }) ∧
      (y.advance sl = none → sl.last = false → s.moveElement n x sl src dst =
        t.setChan n { c with run := some { y with slip := none, at_ := sl.next } }) ∧
      (y.advance sl = none → sl.last = true → s.moveElement n x sl src dst =
        (t.setChan n { c with run := some { y with slip := none, at_ := sl.next } }).chanDone n y)) := by
  unfold State.moveElement
  rw [h]
  refine ⟨fun hw => ?_, fun t y hw => ⟨fun z hz => ?_, fun hz hl => ?_, fun hz hl => ?_⟩⟩
  · simp only [State.readElement, hw]
  · simp only [State.readElement, hw, hz]
  · simp only [State.readElement, hw, hz, hl, Bool.false_eq_true, if_false]
  · simp only [State.readElement, hw, hz, hl, if_true]

/-- A port that is open and full gives no channel the turn. -/
theorem State.elementTurn_of_full {s : State} {n : Nat} {sl : Slip} {x : PRun} {src dst k j : Nat} {list : List Target}
    (hn : s.nextElement n = some (sl, x, src, dst, list)) (ht : s.target dst true = .port k j)
    (ho : (s.col k).isOpen = true) (hf : (s.col k).full = true) : s.elementTurn n = false := by
  have hready : s.elementReady n = false := by
    unfold State.elementReady
    rw [hn]
    dsimp only
    rw [ht]
    simp [State.portReady, ho, hf]
  unfold State.elementTurn
  rw [beq_eq_false_iff_ne]
  intro h
  have := List.find?_some (p := s.elementReady) h
  rw [hready] at this
  cases this

/-- The channel after an element at the address given. -/
def Chan.moved (c : Chan) (at_ : Nat) : Chan := { c with addr := at_, elements := (c.elements + 1) % 2 ^ 32 }

/-- The turn after an element of channel n. -/
def State.turned (s : State) (n : Nat) : State := { s with porter := { s.porter with turn := n } }

section

variable {s : State} {q : Fin 4} {sl : Slip} {x : PRun} {src dst : Nat} {list : List Target}
variable (hi : s.inRun = true) (ht : s.elementTurn q.val = true)
  (hn : s.nextElement q.val = some (sl, x, src, dst, list)) (hl : s.power list = (s, false))
  (hf : s.elementFault src dst sl.size = none) (hs : s.target src false = .carrel (src / 0x8000))
  (hr : s.arrayReady (src / 0x8000))
include hi ht hn hl hf hs hr

/-- An element that comes from a carrel and whose target needs no other power is moved. -/
theorem element_moves (hd : ∀ n, (s.target dst true).place = some n → s.arrayReady n) :
    exec (.porterElement q) s = .next ((s.moveElement q.val x sl src dst).turned q.val) := by
  refine (execPorterElement_goes hi ht hn hl).2 hf (State.power_of_ready fun t hm n hp => ?_)
  rcases List.mem_pair.mp hm with rfl | rfl
  · rw [hs] at hp
    cases hp
    exact hr
  · exact hd n hp

/-- An element from a carrel to a carrel. -/
theorem element_to_carrel (y : Ticket) (hd : s.target dst true = .carrel (dst / 0x8000)) (hrd : s.arrayReady (dst / 0x8000)) :
    let data := s.carrelRead src sl.size
    let moved := (s.chan q.val).moved (if sl.walkDst then dst else src)
    (∀ z, x.advance sl = some z → exec (.porterElement q) s =
      .next (((s.carrelWrite dst data).setChan q.val { moved with run := some z }).turned q.val)) ∧
    (x.advance sl = none → sl.last = false → exec (.porterElement q) s = .next (((s.carrelWrite dst data).setChan q.val
      { moved with run := some { x with slip := none, at_ := sl.next } }).turned q.val)) ∧
    (x.advance sl = none → sl.last = true → Leads (.porterElement q) s (fun t =>
      (t.chan q.val).run = none ∧ (t.chan q.val).last = 1 ∧
      (t.chan q.val).elements = ((s.chan q.val).elements + 1) % 2 ^ 32 ∧
      t.store.carrels = cellsPutAll s.store.carrels dst data ∧ t.porter.runs = s.porter.runs.inc ∧
      t.pends (96 + q.val) ∧ (s.ticket? x.ticket = some y → y.live = true → ∃ fs ed, Completed t y .done fs ed))) := by
  have hexec := element_moves hi ht hn hl hf hs hr (fun n hp => by rw [hd] at hp; cases hp; exact hrd)
  have hw : s.writeElement x (s.target dst true) dst (s.carrelRead src sl.size) =
      some (s.carrelWrite dst (s.carrelRead src sl.size), x) := by rw [hd]; rfl
  obtain ⟨hgo, hnext, hlast⟩ := (State.moveElement_of_carrel (n := q.val) hs).2 _ _ hw
  refine ⟨fun z hz => ?_, fun hz he => ?_, fun hz he => ?_⟩
  · rw [hexec, hgo z hz]; rfl
  · rw [hexec, hnext hz he]; rfl
  · rw [hlast hz he] at hexec
    obtain ⟨h1, h2, h3, h4, h5, h6, h7⟩ := State.chanDone_ends (q := q) (x := x) y
      (s := (s.carrelWrite dst (s.carrelRead src sl.size)).setChan q.val _)
      ((State.quiet_of_pwr (s := s) rfl).trans (State.loud_of_awake (State.awake_of_inRun hi)))
    refine ⟨_, hexec, h1, h2, h3.trans ?_, congrArg StoreSt.carrels h4, h5, h6, fun hy hl => ?_⟩
    · rw [State.chan_setChan_same _ _ _ q.isLt]
      rfl
    · obtain ⟨fs, ed, hc⟩ := h7 hy hl
      exact ⟨fs, ed, hc.of_tickets rfl⟩

/-- An element from a carrel to a port of an open Collator that takes it. -/
theorem element_to_port {n k : Nat} {z : PRun} (hd : s.target dst true = .port n k) (ho : (s.col n).isOpen = true)
    (hz : x.advance sl = some z) (hn4 : n < 4) : Leads (.porterElement q) s (fun t =>
      t.col n = (s.col n).accept (s.carrelRead src sl.size) ∧ t.store = s.store ∧
      t.chan q.val = { (s.chan q.val).moved (if sl.walkDst then dst else src) with run := some z }) := by
  have hexec := element_moves hi ht hn hl hf hs hr (fun m hp => by rw [hd] at hp; cases hp)
  have hw : s.writeElement x (s.target dst true) dst (s.carrelRead src sl.size) =
      some (s.setCol n ((s.col n).accept (s.carrelRead src sl.size)), x) := by
    rw [hd]
    unfold State.writeElement State.feedPort
    dsimp only
    rw [if_pos ho]
  rw [((State.moveElement_of_carrel (n := q.val) hs).2 _ _ hw).1 z hz] at hexec
  exact ⟨_, hexec, State.col_setCol_same _ _ _ hn4, rfl, State.chan_setChan_same _ _ _ q.isLt⟩

/-- An element from a carrel to the block FIFO of a run that may not use it. -/
theorem element_to_no_fifo (hd : s.target dst true = .fifo) (hx : x.fifo = false) :
    exec (.porterElement q) s = .next ((s.chanFault q.val x 8 dst).turned q.val) := by
  have hexec := element_moves hi ht hn hl hf hs hr (fun m hp => by rw [hd] at hp; cases hp)
  have hw : s.writeElement x (s.target dst true) dst (s.carrelRead src sl.size) = none := by
    rw [hd]
    unfold State.writeElement
    dsimp only
    rw [hx]
    rfl
  rw [hexec, (State.moveElement_of_carrel (n := q.val) hs).1 hw]

end

end Sys2Proof.Machine

/-- Settles O49: the fetch and the element in the order of their checks; every fault through `chanFault`. -/
theorem porterMovesElements : Obligations.PorterMovesElements := by
  intro s q x sl y
  refine ⟨fun h => ?idle, fun hi hr => ⟨fun hs => ?fetched, fun hs => ?unfetched, fun hs hm => ?chain, fun hs hm hc => ?outside,
    fun hs hm hc => ⟨fun hp => ?unpowered, fun hp hb => ?bad, fun hp hb => ?fetch⟩, fun ht => ?noTurn, fun hs hl => ?element⟩⟩
  case idle =>
    refine ⟨execPorterSlipFetch_idle h, execPorterElement_idle ?_⟩
    rcases h with h | h
    · exact .inl h
    · refine .inr (.inr ?_)
      unfold State.nextElement
      rw [h]
      rfl
  case fetched =>
    show execPorterSlipFetch q s = _
    unfold execPorterSlipFetch
    dsimp only
    rw [hr]
    exact if_pos (by rw [hs, Bool.or_true])
  case unfetched =>
    refine execPorterElement_idle (.inr (.inr ?_))
    unfold State.nextElement
    rw [hr, Option.bind_some, hs]
    rfl
  case chain =>
    exact ⟨_, (execPorterSlipFetch_checks hi hr hs).1 hm, State.chanFault_fails y (State.loud_of_awake (State.awake_of_inRun hi))⟩
  case outside =>
    exact ⟨_, (execPorterSlipFetch_checks hi hr hs).2.1 hm hc,
      State.chanFault_fails y (State.loud_of_awake (State.awake_of_inRun hi))⟩
  case unpowered => exact ((execPorterSlipFetch_checks hi hr hs).2.2 hm hc).1 hp
  case bad =>
    have hexec := ((execPorterSlipFetch_checks hi hr hs).2.2 hm hc).2 hp
    rw [if_pos hb] at hexec
    exact ⟨_, hexec, State.chanFault_fails y (State.loud_of_awake (State.awake_of_inRun hi))⟩
  case fetch =>
    have hexec := ((execPorterSlipFetch_checks hi hr hs).2.2 hm hc).2 hp
    rw [if_neg (by rw [hb]; exact Bool.false_ne_true)] at hexec
    exact hexec
  case noTurn => exact execPorterElement_idle (.inr (.inl ht))
  case element =>
    have hquiet := State.loud_of_awake (State.awake_of_inRun hi)
    have hn := State.nextElement_of_run hr hs
    have hlist : s.power (x.lists sl) = (s, false) := by
      refine State.power_of_ready fun t ht n hp => ?_
      unfold PRun.lists at ht
      split at ht
      · rename_i hk
        rw [List.mem_singleton] at ht
        subst ht
        cases hp
        simp only [Bool.and_eq_true, decide_eq_true_eq] at hk
        exact hl hk.1 hk.2
      · cases ht
    obtain ⟨hticket, hat, hp, hfifo⟩ := s.entryRead_keeps x sl
    refine ⟨fun n k ht ho hf => execPorterElement_idle (.inr (.inl (State.elementTurn_of_full hn ht ho hf))),
      fun why at_ ht hf => ?fault, fun ht hf hsrc hrs => ⟨fun hd hrd => ?carrel, fun n k x2 hd ho _ hx hn4 => ?port,
        fun hd hx => ?fifo⟩⟩
    case fault =>
      have hexec := (execPorterElement_goes hi ht hn hlist).1 why at_ hf
      rw [State.chanFault_entryRead] at hexec
      exact ⟨_, hexec, State.chanFault_fails y hquiet⟩
    case carrel =>
      obtain ⟨hgo, hnext, hlast⟩ := element_to_carrel hi ht hn hlist hf hsrc hrs y hd hrd
      rw [hticket] at hlast
      exact ⟨hgo, hnext, hlast⟩
    case port => exact element_to_port hi ht hn hlist hf hsrc hrs hd ho hx hn4
    case fifo =>
      have hexec := element_to_no_fifo hi ht hn hlist hf hsrc hrs hd (hfifo.trans hx)
      rw [State.chanFault_entryRead] at hexec
      obtain ⟨h1, h2, h3, h4, h5, h6, h7, h8, h9, h10, h11⟩ := State.chanFault_fails (q := q) (x := x) (why := 8)
        (at_ := if sl.walkDst then (s.entryRead x sl).walked sl else x.p) y hquiet
      refine ⟨_, hexec, h1, h2, h3, h4, h5, h6, h7, h8, h9, h10, fun hy hl => ?_⟩
      obtain ⟨ed, hc⟩ := h11 hy hl
      exact ⟨ed, hc.of_tickets rfl⟩

end

section

/-! ### Supply and pin events that start no reset (02_pins, 03_power; 04_desk R113, 08_bringup R213, R214) -/

open Sys2Proof Sys2Proof.Machine

namespace Sys2Proof.Machine

/-- In Dormant without VDDIO the ATTN pin is low (R192). -/
theorem State.attnFollow_dark (s : State) (h : s.attnDark = true) : s.attnFollow.events.attn = false := by
  have hd : s.padFollow.attnDark = true := by
    have hp : s.padFollow.pwr = s.pwr :=
      (congrArg (fun t : State => t.pwr) s.padFollow_besideEvents : s.padFollow.besideEvents.pwr = s.besideEvents.pwr)
    unfold State.attnDark State.asleep at h ⊢
    rw [hp]
    exact h
  unfold State.attnFollow
  simp only [State.attnWanted, hd, if_true, Bool.true_or, Bool.and_true]
  cases ha : s.padFollow.events.attn
  · simp [ha]
  · simp

/-- What follows the ATTN pin changes neither supply nor ports. -/
theorem State.attnFollow_keeps (s : State) :
    s.attnFollow.pwr = s.pwr ∧ s.attnFollow.dport = s.dport ∧ s.attnFollow.cport = s.cport :=
  ⟨(congrArg (fun t : State => t.pwr) s.attnFollow_besideEvents : s.attnFollow.besideEvents.pwr = s.besideEvents.pwr),
    s.attnFollow_ports.1.1, s.attnFollow_ports.1.2⟩

end Sys2Proof.Machine

/-- Settles O32: each event's own case; ATTN's following leaves the rest of the state as it was. -/
theorem supplyEventsTakeEffect : Obligations.SupplyEventsTakeEffect := by
  unfold Obligations.SupplyEventsTakeEffect
  intro s
  refine ⟨fun h ht => ?_, fun h ht hn => ?_, fun h ht hn => ?_, fun h => ?_, fun h => ?_, fun h => ?_, fun h => ?_,
    fun h => ?_, fun h => ?_, fun h => ?_, ?_, fun h => ?_, fun h => ?_, rfl⟩
  · show execPowerOn s = _
    simp [execPowerOn, h, ht, State.toTest]
  · show execPowerOn s = _
    simp [execPowerOn, h, ht, hn]
  · show execPowerOn s = _
    simp [execPowerOn, h, ht, hn]
  · exact if_neg h
  · exact if_pos h
  · exact if_neg h
  · exact if_pos h
  · exact if_neg h
  · exact if_neg h
  · exact if_pos h
  · refine ⟨_, rfl, (State.attnFollow_keeps _).1, fun hd => State.attnFollow_dark _ ?_, State.attnFollow_pend _,
      State.attnFollow_besideEvents _⟩
    simp [State.attnDark, State.asleep, hd]
  · exact if_pos h
  · obtain ⟨hp, hd, hc⟩ := State.attnFollow_keeps { s with
      pwr := { s.pwr with vddioOk := true }, dport := s.dport.dropPartial, cport := s.cport.dropPartial }
    refine ⟨_, ?_, hp, hd, hc, State.attnFollow_pend _, State.attnFollow_besideEvents _⟩
    show execVddioRestore s = _
    simp [execVddioRestore, h]

end

section

/-! ### Octets and breaks at the Desk (04_desk R66–R74, R80, R104) -/

open Sys2Proof Sys2Proof.Machine

namespace Sys2Proof.Machine

/-! #### A field of a register word -/

/-- The low four bits of a word take the value written to them. -/
theorem fld_setFld_low (v : Word) {r : Nat} (h : r < 16) : fld (setFld v 3 0 r) 3 0 = r := by
  unfold setFld fld
  simp only [BitVec.toNat_add, BitVec.toNat_sub, BitVec.toNat_ofNat, Nat.pow_zero, Nat.div_one, Nat.mul_one]
  have hv := v.isLt
  omega

/-! #### What a port has taken in -/

/-- The ports differ in the lines that wait to be sent, and in nothing else. -/
def State.SameInput (s t : State) : Prop := ∀ p, { t.port p with out := [] } = ({ s.port p with out := [] } : PortSt)

theorem State.SameInput.refl (s : State) : s.SameInput s := fun _ => rfl

theorem State.SameInput.trans {s t u : State} (h : s.SameInput t) (k : t.SameInput u) : s.SameInput u :=
  fun p => (k p).trans (h p)

theorem State.SameInput.of_ports {s t : State} (h : SamePorts s t) : s.SameInput t := by
  intro p
  cases p
  · exact congrArg (fun q : PortSt => { q with out := [] }) h.1
  · exact congrArg (fun q : PortSt => { q with out := [] }) h.2

theorem State.SameInput.block {s t : State} (h : s.SameInput t) (p : Port) : (t.port p).block = (s.port p).block :=
  (congrArg PortSt.block (h p) :)

theorem State.SameInput.lines {s t : State} (h : s.SameInput t) (p : Port) : (t.port p).lines = (s.port p).lines :=
  (congrArg PortSt.lines (h p) :)

theorem State.push_sameInput (s : State) (p : Port) (l : OutLine) : s.SameInput (s.push p l) := by
  intro q
  by_cases h : q = p
  · subst h
    rw [s.push_port]
  · rw [s.push_other l h]

theorem State.pushEv_sameInput (s : State) (p : Port) (n : Nat) (l : OutLine) : s.SameInput (s.pushEv p n l) := by
  unfold State.pushEv
  split
  · exact .refl s
  · split
    · exact s.push_sameInput p l
    · cases p <;> simp only [] <;> split <;> exact .of_ports ⟨rfl, rfl⟩

theorem State.fireCore_sameInput (s : State) (n : Nat) (fs : List Tok) : s.SameInput (s.fireCore n fs) := by
  unfold State.fireCore
  split
  · exact .refl s
  · simp only []
    refine State.SameInput.trans ?_ (.of_ports (State.attnFollow_ports _).1)
    split
    · exact .of_ports ⟨rfl, rfl⟩
    · split
      · exact .of_ports ⟨rfl, rfl⟩
      · refine State.SameInput.trans ?_ (State.pushEv_sameInput _ _ _ _)
        refine State.SameInput.trans ?_ (State.pushEv_sameInput _ _ _ _)
        exact .of_ports ⟨rfl, rfl⟩

theorem State.eventTriggers_sameInput (s : State) (n : Nat) : s.SameInput (s.eventTriggers n).1 := by
  unfold State.eventTriggers
  refine List.foldlRecOn (motive := fun acc : State × List (Nat × String) => s.SameInput acc.1) _ _ (.refl s)
    fun acc hacc j _ => hacc.trans (.of_ports (acc.1.triggerCore_ports j none false).1)

theorem State.fireMissed_sameInput (s : State) (ms : List (Nat × String)) : s.SameInput (s.fireMissed ms) := by
  unfold State.fireMissed
  split
  · exact .refl s
  · exact (s.fireCore_sameInput _ _).trans (State.eventTriggers_sameInput _ _)

/-- Firing an event leaves what the ports have taken in. -/
theorem State.fire_sameInput (s : State) (n : Nat) (fs : List Tok) : s.SameInput (s.fire n fs) := by
  unfold State.fire
  split
  · split
    · exact ((s.fireCore_sameInput _ _).trans (State.eventTriggers_sameInput _ _)).trans (State.fireMissed_sameInput _ _)
    · exact ((s.eventTriggers_sameInput _).trans (State.fireMissed_sameInput _ _)).trans (State.fireCore_sameInput _ _ _)
  · exact .refl s

/-! #### The answer to a line that is refused -/

/-- What the refusal of a port's line leaves: the pool, the input of both ports, and the count of bad stop bits. -/
structure State.PortRefused (s t : State) (p : Port) : Prop where
  pool : t.tickets.pool = s.tickets.pool
  said : ∃ y more, (t.port p).out = (s.port p).out ++ y :: more ∧ y.toks.head? = some (w "ER")
  input : s.SameInput t
  framing : t.desk.framing = s.desk.framing

theorem State.PortRefused.fire {s t : State} {p : Port} (h : s.PortRefused t p) (n : Nat) (fs : List Tok) :
    s.PortRefused (t.fire n fs) p := by
  refine ⟨?_, ?_, h.input.trans (t.fire_sameInput n fs), ?_⟩
  · rw [t.fire_tickets, h.pool]
  · obtain ⟨y, more, hout, hy⟩ := h.said
    obtain ⟨mid, hmid⟩ := t.fire_outLe n fs p
    exact ⟨y, more ++ mid, by rw [hmid, hout]; simp, hy⟩
  · exact (congrArg (fun u : State => u.desk.framing) (t.fire_besideEvents n fs) :
      (t.fire n fs).besideEvents.desk.framing = t.besideEvents.desk.framing).trans h.framing

theorem State.PortRefused.push {s u : State} {p : Port} {x : OutLine} (hx : x.toks.head? = some (w "ER"))
    (hu : SamePorts s u) (hpool : u.tickets.pool = s.tickets.pool) (hdesk : u.desk = s.desk) :
    s.PortRefused (u.push p x) p := by
  refine ⟨?_, ⟨x, [], ?_, hx⟩, (State.SameInput.of_ports hu).trans (u.push_sameInput p x), ?_⟩
  · rw [u.push_tickets, hpool]
  · rw [u.push_port]
    cases p
    · exact congrArg (fun q : PortSt => q.out ++ [x]) hu.1
    · exact congrArg (fun q : PortSt => q.out ++ [x]) hu.2
  · exact (congrArg (fun v : State => v.desk.framing) (u.push_besideEvents p x) :
      (u.push p x).besideEvents.desk.framing = u.besideEvents.desk.framing).trans
      (congrArg DeskSt.framing hdesk : u.desk.framing = s.desk.framing)

/-- The count of a block or line whose check failed. -/
def DeskSt.checkFailed (d : DeskSt) : Port → DeskSt
  | .desk => { d with checkFail := d.checkFail.inc }
  | .chute => { d with cCheckFail := d.cCheckFail.inc }

theorem State.PortRefused.checkFailed {s t : State} {p : Port} (h : s.PortRefused t p) :
    s.PortRefused { t with desk := t.desk.checkFailed p } p :=
  ⟨h.pool, h.said, h.input, by cases p <;> exact h.framing⟩

/-- A port's line is refused with an ER line. -/
theorem State.refuse_port (s : State) {l : Line} {p : Port} (h : l.origin = .port p) (e : Er) :
    s.PortRefused (s.refuse l e) p := by
  have hx : (OutLine.mk (.reply true) l.tag ([w "ER", w e.code] ++ e.detail.map w) [] 0).toks.head? = some (w "ER") := rfl
  unfold State.refuse
  simp only [h]
  split
  · refine State.PortRefused.fire (.push hx ⟨?_, ?_⟩ ?_ ?_) _ _ <;> rfl
  · split
    · cases p <;> refine State.PortRefused.fire (State.PortRefused.checkFailed (.push hx ⟨?_, ?_⟩ ?_ ?_)) _ _ <;> rfl
    · refine .push hx ⟨?_, ?_⟩ ?_ ?_ <;> rfl

/-- A block that fails takes its line with it and is answered. -/
theorem State.rejectBlock_refuses (s : State) {p : Port} (h : (s.port p).lines ≠ []) :
    ∃ u : State, u.PortRefused (s.rejectBlock p) p ∧ (u.port p).block = none ∧ (u.port p).lines = (s.port p).lines.dropLast ∧
      (u.port p).out = (s.port p).out ∧ u.tickets = s.tickets ∧ u.desk = s.desk := by
  obtain ⟨x, hx⟩ := Option.ne_none_iff_exists'.mp (mt List.getLast?_eq_none_iff.mp h)
  unfold State.rejectBlock
  simp only [hx]
  refine ⟨_, State.refuse_port _ rfl _, ?_⟩
  cases p <;> exact ⟨rfl, rfl, rfl, rfl, rfl⟩

/-! #### One octet -/

/-- An octet that the Desk hears, before the port takes it. -/
def State.heard (s : State) (low : Bool) : State :=
  { s.touched with desk := { s.desk with breakArmed := false, framing := s.desk.framing.incIf low },
                   pads := { s.pads with deskRx := !low } }

theorem exec_deskOctet_of_hears {s : State} (hp : s.portHears .desk = true) (h3 : s.pwr.state ≠ .wake 3 false) (b : Byte)
    (low : Bool) : exec (.deskOctet b low) s =
      .next (if low && s.dport.block.isSome then (s.heard low).rejectBlock .desk else (s.heard low).inputOctet .desk b low) := by
  have hexec : exec (.deskOctet b low) s = execDeskOctet b low s := rfl
  unfold execDeskOctet at hexec
  rw [if_neg (by simp [h3]), if_neg (by simp [hp])] at hexec
  exact hexec

/-- An octet that fits joins the input. -/
theorem State.inputOctet_fits (s : State) (p : Port) (b : Byte) (bad : Bool) (h : (!bad && (s.port p).overruns b) = false) :
    s.inputOctet p b bad =
      s.setPort p ((s.port p).octet (s.framed p) { b := b, drop := false, bad := bad, at_ := s.now }).settled := by
  unfold State.inputOctet
  simp only [h, if_neg Bool.false_ne_true]

/-- An octet that does not fit is counted and fires its event. -/
theorem State.inputOctet_overruns (s : State) (p : Port) (b : Byte) (h : (s.port p).overruns b = true) :
    ∃ u : State, s.inputOctet p b false = u.fire 124 [kw "port" (portName p)] ∧ u.desk = overrunCount p s.desk ∧
      u.tickets = s.tickets ∧ u.quiet = s.quiet ∧ u.part = s.part := by
  unfold State.inputOctet
  simp only [h, Bool.not_false, Bool.and_self, if_true]
  refine ⟨_, rfl, ?_⟩
  cases p <;> exact ⟨rfl, rfl, rfl, rfl⟩

/-! #### The rate of the Desk -/

theorem State.push_desk (s : State) (x : OutLine) :
    s.push .desk x = { s with dport := { s.dport with out := s.dport.out ++ [x] } } := by
  unfold State.push
  exact if_neg (by simp)

/-- DESK_CONFIG takes the word put to it, and nothing else but the edition changes. -/
theorem State.putDesk_puts (s : State) (v : Word) :
    (s.putDesk v).cfg.desk.desk = v ∧ (s.putDesk v).desk = s.desk ∧ (s.putDesk v).dport = s.dport := by
  unfold State.putDesk
  split
  next h => exact ⟨h.symm, rfl, rfl⟩
  next => exact ⟨rfl, rfl, rfl⟩

theorem rateOfStart_lt {n r : Nat} (h : rateOfStart n = some r) : r < 11 := by
  unfold rateOfStart at h
  exact List.mem_range.mp (List.mem_of_find?_eq_some h)

/-- An attempt to enter Dormant that waits for another line stays as it is. -/
theorem State.attemptNow_of_other {s : State} (h : s.pwr.attemptBy ≠ some (.port .desk)) : s.attemptNow = s := by
  unfold State.attemptNow
  refine if_neg ?_
  split
  next heq => exact absurd heq h
  next => simp

/-- What an attempt to enter Dormant changes is no matter of the Desk. -/
theorem State.attemptNow_keeps (s : State) : s.attemptNow.desk = s.desk ∧ s.attemptNow.dport = s.dport := by
  unfold State.attemptNow
  split <;> dsimp only <;> split <;> exact ⟨rfl, rfl⟩

/-- The end of an octet sent, where no rate waits and no attempt to enter Dormant. -/
theorem exec_deskTxOctetEnd_of_rate {s : State} (hv : s.pwr.vddioOk = true) (hr : s.desk.rateAtOctet = false)
    (ha : s.pwr.attemptBy ≠ some (.port .desk)) :
    exec .deskTxOctetEnd s = .next { s with dport := s.deskSent } := by
  have hexec : exec .deskTxOctetEnd s = execDeskTxOctetEnd s := rfl
  unfold execDeskTxOctetEnd at hexec
  rw [if_neg (by simp [hv])] at hexec
  dsimp only at hexec
  rw [if_neg (by simp [hr])] at hexec
  exact hexec.trans (congrArg Host.Outcome.next (State.attemptNow_of_other ha))

end Sys2Proof.Machine

/-- Settles O34: an octet is counted as lost, taken in, counted as an overrun, or refused with its block. -/
theorem deskOctetsTakeEffect : Obligations.DeskOctetsTakeEffect := by
  unfold Obligations.DeskOctetsTakeEffect
  intro s b n m
  refine ⟨fun hv h3 low => ?_, fun hp h3 low => ?_, fun hp h3 ho => ?_, fun hp h3 ho => ?_, fun hp h3 hb => ?_,
    fun x hp h3 hb hl => ?_, fun hv ha hd ht hb => ?_, fun h => ?_, fun r ha hv hr hlo hhi => ?_, fun ha hv h => ?_,
    fun hv => ?_, fun c cs hv hr ha hs => ?_, fun hv hr ha hs he => ?_, fun r hv hr hp => ?_⟩
  · show execDeskOctet b low s = _
    simp [execDeskOctet, hv, h3]
  · show execDeskOctet b low s = _
    simp [execDeskOctet, hp, h3]
  · rw [exec_deskOctet_of_hears hp h3]
    exact congrArg Host.Outcome.next ((s.heard false).inputOctet_fits .desk b false ho)
  · obtain ⟨u, hu, hdesk, htickets, hq, hpart⟩ := (s.heard false).inputOctet_overruns .desk b ho
    have hexec := exec_deskOctet_of_hears hp h3 b false
    rw [if_neg (by simp), hu] at hexec
    refine ⟨_, hexec, ?_, fun h => State.pends_fire (hq.trans h), ?_⟩
    · exact (congrArg (fun v : State => v.desk.overrun) (u.fire_besideEvents _ _) :
        (u.fire _ _).besideEvents.desk.overrun = u.besideEvents.desk.overrun).trans
        (congrArg DeskSt.overrun hdesk : u.desk.overrun = _)
    · rw [u.fire_tickets, htickets]
      rfl
  · rw [exec_deskOctet_of_hears hp h3, hb]
    refine (congrArg Host.Outcome.next ((s.heard true).inputOctet_fits .desk b true rfl)).trans ?_
    have hoct : (s.heard true).port .desk = s.dport := rfl
    rw [hoct]
    simp only [PortSt.octet, PortSt.feed, hb, Bool.not_true, Bool.and_false, if_true]
    rfl
  · have hexec := exec_deskOctet_of_hears hp h3 b true
    rw [hb] at hexec
    obtain ⟨u, hu, hblock, hlines, hout, -, hdesk⟩ := (s.heard true).rejectBlock_refuses (p := .desk) hl
    obtain ⟨y, more, hsaid, hy⟩ := hu.said
    refine ⟨_, hexec, ?_, (hu.input.block .desk).trans hblock, (hu.input.lines .desk).trans hlines, y, more, ?_, hy⟩
    · exact hu.framing.trans (congrArg DeskSt.framing hdesk)
    · exact hsaid.trans (congrArg (· ++ y :: more) hout)
  · have hexec : exec .deskBreak s = execDeskBreak s := rfl
    unfold execDeskBreak at hexec
    rw [if_neg (by simp [hv, ha, hd, ht])] at hexec
    simp only [hb] at hexec
    exact hexec
  · refine if_pos ?_
    rcases h with h | h <;> simp [h]
  · have hexec : exec (.autobaudCharacter n m) s = execAutobaudCharacter n m s := rfl
    unfold execAutobaudCharacter at hexec
    rw [if_neg (by simp [hv, ha]), hr] at hexec
    dsimp only at hexec
    rw [if_pos ⟨hlo, hhi⟩] at hexec
    rw [State.push_desk] at hexec
    obtain ⟨hcfg, hdesk, hport⟩ := State.putDesk_puts
      { State.touched { s with desk := { s.desk with breakArmed := false }, pads := { s.pads with deskRx := true } } with
        desk := { s.desk with rate := r, autobaud := true, breakArmed := false, ratePending := none, rateAtOctet := false } }
      (setFld s.cfg.desk.desk 3 0 r)
    refine ⟨_, hexec, (congrArg DeskSt.rate hdesk :), (congrArg DeskSt.autobaud hdesk :),
      (congrArg DeskSt.breakArmed hdesk :), (congrArg DeskSt.ratePending hdesk :), ?_, _,
      (congrArg (fun q : PortSt => q.out ++ _) hport :), rfl⟩
    have hr16 : r < 16 := Nat.lt_trans (rateOfStart_lt hr) (by decide)
    exact (congrArg (fun x => fld x 3 0) hcfg).trans (fld_setFld_low _ hr16)
  · have hexec : exec (.autobaudCharacter n m) s = execAutobaudCharacter n m s := rfl
    unfold execAutobaudCharacter at hexec
    rw [if_neg (by simp [hv, ha])] at hexec
    dsimp only at hexec
    cases hr : rateOfStart n with
    | none => rw [hr] at hexec; exact hexec
    | some r =>
      rw [hr] at hexec
      dsimp only at hexec
      rw [if_neg] at hexec
      · exact hexec
      · rw [hr] at h
        rintro ⟨hlo, hhi⟩
        rcases h with h | h | h
        · cases h
        · omega
        · omega
  · exact if_pos (by simp [hv])
  · have hsent : s.deskSent = { s.dport with sending := some cs } := by simp [State.deskSent, hs]
    rw [exec_deskTxOctetEnd_of_rate hv hr ha, hsent]
  · have hsent : s.deskSent = { s.dport with echo := s.dport.echo.tail } := by simp [State.deskSent, hs, he]
    rw [exec_deskTxOctetEnd_of_rate hv hr ha, hsent]
  · have hexec : exec .deskTxOctetEnd s = execDeskTxOctetEnd s := rfl
    unfold execDeskTxOctetEnd at hexec
    rw [if_neg (by simp [hv])] at hexec
    dsimp only at hexec
    rw [if_pos hr] at hexec
    simp only [State.applyRate, hp] at hexec
    obtain ⟨hdesk, hport⟩ := State.attemptNow_keeps { s with
      dport := s.deskSent, desk := { s.desk with rate := r, ratePending := none, rateAtOctet := false } }
    exact ⟨_, hexec, (congrArg DeskSt.rate hdesk :), (congrArg DeskSt.ratePending hdesk :),
      (congrArg DeskSt.rateAtOctet hdesk :), hport⟩

end

section

/-! ### Chute transactions, bad lines, absent blocks, and lines sent (04_desk R75–R79, R86, R92, R101, 06_tickets R170) -/

open Sys2Proof Sys2Proof.Machine

namespace Sys2Proof.Machine

/-! #### The octet that the Chute gives -/

/-- The Chute gives an octet. -/
def State.gives (s : State) (v : Byte) : State :=
  { s with chute := { s.chute with sdo := v, octets := s.chute.octets + 1 } }

theorem State.chuteOut_status {s : State} (h : s.chute.octets < 2) :
    s.chuteOut = s.gives (BitVec.ofNat 8 (s.chute.status.toNat / (if s.chute.octets = 0 then 256 else 1))) := by
  unfold State.chuteOut
  exact if_pos h

theorem State.chuteOut_discards {s : State} (h : 2 ≤ s.chute.octets) (hd : s.chute.discard = true) :
    s.chuteOut = s.gives 0xFF := by
  unfold State.chuteOut
  simp only []
  rw [if_neg (Nat.not_lt.mpr h), if_pos (by simp [hd])]
  rfl

theorem State.frontSent_of_empty {s : State} {p : Port} (h : (s.port p).out = []) : s.frontSent p = s := by
  unfold State.frontSent
  simp only [h]

theorem State.frontSent_of_waits {s : State} {p : Port} {x : OutLine} {rest : List OutLine}
    (h : (s.port p).out = x :: rest) (hw : s.maySend p x = false) : s.frontSent p = s := by
  unfold State.frontSent
  simp only [h, hw, Bool.not_false, if_true]

theorem State.chuteOut_empty {s : State} (h : 2 ≤ s.chute.octets) (hout : s.cport.out = []) :
    s.chuteOut = s.gives 0xFF := by
  have hnext : s.chuteNext = 0xFF := by simp [State.chuteNext, hout]
  have hcount : s.outCount .chute = 0 := by simp [State.outCount, State.port, hout, fitOctets]
  unfold State.chuteOut
  simp only []
  rw [if_neg (Nat.not_lt.mpr h), State.frontSent_of_empty (p := .chute) hout, hnext, hcount]
  split <;> rfl

theorem State.chuteOut_waits {s : State} {x : OutLine} {rest : List OutLine} (h : 2 ≤ s.chute.octets)
    (hd : s.chute.discard = false) (hs : s.sdoDriven = true) (hout : s.cport.out = x :: rest) (hdue : x.due ≤ s.day.cyc)
    (hw : s.maySend .chute x = false) (hc : s.outCount .chute ≠ 0) :
    s.chuteOut = { s.gives ((x.wire true).getD s.cport.partialRead 0xFF) with
      cport := { s.cport with partialRead := s.cport.partialRead + 1 } } := by
  have hnext : s.chuteNext = (x.wire true).getD s.cport.partialRead 0xFF := by
    simp [State.chuteNext, hout, Nat.not_lt.mpr hdue]
  unfold State.chuteOut
  simp only []
  rw [if_neg (Nat.not_lt.mpr h), if_neg (by simp [hd, hs]), State.frontSent_of_waits (p := .chute) hout hw, hnext, if_neg hc]
  rfl

/-! #### The octet that the Chute takes -/

theorem State.chuteIn_ignores {s : State} {b : Byte}
    (h : s.chute.discard = true ∨ s.cport.block = none ∧ b = 0xFF) : s.chuteIn b = s := by
  unfold State.chuteIn
  refine if_pos ?_
  rcases h with h | ⟨h, hb⟩
  · simp [h]
  · simp [h, hb]

/-- An octet other than 0xFF, from a transaction that the port hears, joins the input where it fits. -/
theorem State.chuteIn_takes {s : State} {b : Byte} (hd : s.chute.discard = false) (hp : s.portHears .chute = true)
    (hff : b ≠ 0xFF) (hv : s.cport.overruns b = false) :
    s.chuteIn b = { s.touched with
      cport := (s.cport.octet true { b := b, drop := false, bad := false, at_ := s.now }).settled } := by
  unfold State.chuteIn
  rw [if_neg (by simp [hd, hp, show b ≠ 255#8 from hff])]
  exact State.inputOctet_fits _ .chute b false hv

/-! #### Lines sent -/

/-- What a line's sending brings about leaves the input of the ports, the configuration and the stores. -/
structure State.Sent (s t : State) : Prop where
  out : s.OutLe t
  input : s.SameInput t
  cfg : t.cfg = s.cfg
  store : t.store = s.store
  chute : t.chute = s.chute

theorem State.Sent.refl (s : State) : s.Sent s := ⟨.refl s, .refl s, rfl, rfl, rfl⟩

theorem State.Sent.trans {s t u : State} (h : s.Sent t) (k : t.Sent u) : s.Sent u :=
  ⟨h.out.trans k.out, h.input.trans k.input, k.cfg.trans h.cfg, k.store.trans h.store, k.chute.trans h.chute⟩

theorem State.Sent.of_ports {s t : State} (h : SamePorts s t) (hcfg : t.cfg = s.cfg) (hstore : t.store = s.store)
    (hchute : t.chute = s.chute) : s.Sent t :=
  ⟨.of_eq h.1 h.2, .of_ports h, hcfg, hstore, hchute⟩

theorem State.fire_sent (s : State) (n : Nat) (fs : List Tok) : s.Sent (s.fire n fs) :=
  ⟨s.fire_outLe n fs, s.fire_sameInput n fs,
    (congrArg (fun u : State => u.cfg) (s.fire_besideEvents n fs) : (s.fire n fs).besideEvents.cfg = s.besideEvents.cfg),
    (congrArg (fun u : State => u.store) (s.fire_besideEvents n fs) : (s.fire n fs).besideEvents.store = s.besideEvents.store),
    (congrArg (fun u : State => u.chute) (s.fire_besideEvents n fs) : (s.fire n fs).besideEvents.chute = s.besideEvents.chute)⟩

theorem State.freeTicket_sent (s : State) (n : Nat) : s.Sent (s.freeTicket n) := by
  unfold State.freeTicket
  split <;> exact .of_ports ⟨rfl, rfl⟩ rfl rfl rfl

theorem State.returnSent_sent (s : State) (p : Port) (n : Nat) : s.Sent (s.returnSent p n) := by
  unfold State.returnSent
  split
  · exact .of_ports ⟨rfl, rfl⟩ rfl rfl rfl
  · exact s.freeTicket_sent n

theorem State.applyRate_sent (s : State) : s.Sent s.applyRate := by
  unfold State.applyRate
  split <;> exact .of_ports ⟨rfl, rfl⟩ rfl rfl rfl

theorem State.rateSoon_sent (s : State) : s.Sent s.rateSoon := by
  unfold State.rateSoon
  split
  · exact .refl s
  · split
    · exact .of_ports ⟨rfl, rfl⟩ rfl rfl rfl
    · exact s.applyRate_sent

theorem State.startMeasure_sent (s : State) (hp : Bool) : s.Sent (s.startMeasure hp) := by
  unfold State.startMeasure
  split <;> exact .of_ports ⟨rfl, rfl⟩ rfl rfl rfl

theorem State.lineSent_sent (s : State) (p : Port) (k : OutKind) : s.Sent (s.lineSent p k) := by
  unfold State.lineSent
  split
  · exact s.returnSent_sent p _
  · exact s.freeTicket_sent _
  · split
    · exact .of_ports ⟨rfl, rfl⟩ rfl rfl rfl
    · exact .refl s
  · split
    · exact .refl s
    · split <;> exact (s.fire_sent _ _).trans (State.startMeasure_sent _ _)
  · split
    · exact s.applyRate_sent
    · exact s.rateSoon_sent
  · split
    · exact .of_ports ⟨rfl, rfl⟩ rfl rfl rfl
    · exact .refl s
  · exact .refl s

/-- The front line of a port leaves it. -/
def State.frontGone (s : State) (p : Port) (x : OutLine) (rest : List OutLine) : State :=
  s.setPort p { s.port p with out := rest, partialRead := (s.port p).partialRead - s.wireLen p x, sending := none }

/-- What follows the front line of a port that has been sent. -/
def State.frontAfter (s : State) (p : Port) (k : OutKind) : State :=
  if p = .desk then ((s.promptAfter k).padFollow).attemptNow else s

theorem State.frontSent_of_sent {s : State} {p : Port} {x : OutLine} {rest : List OutLine}
    (h : (s.port p).out = x :: rest) (hw : s.maySend p x = true) :
    s.frontSent p = ((s.frontGone p x rest).lineSent p x.kind).frontAfter p x.kind := by
  unfold State.frontSent
  simp only [h, hw, Bool.not_true, Bool.false_eq_true, if_false]
  rfl

/-- What follows a line that has been sent is a matter of the prompt, the pads and the attempt to enter Dormant. -/
structure State.After (s t : State) : Prop where
  out : s.OutLe t
  cfg : t.cfg = s.cfg
  store : t.store = s.store
  tickets : t.tickets = s.tickets
  sys : t.sys = s.sys
  pend : t.events = s.events
  part : t.part = s.part
  meas : t.pwr.measBusy = s.pwr.measBusy

theorem State.After.refl (s : State) : s.After s := ⟨.refl s, rfl, rfl, rfl, rfl, rfl, rfl, rfl⟩

theorem State.After.trans {s t u : State} (h : s.After t) (k : t.After u) : s.After u :=
  ⟨h.out.trans k.out, k.cfg.trans h.cfg, k.store.trans h.store, k.tickets.trans h.tickets, k.sys.trans h.sys,
    k.pend.trans h.pend, k.part.trans h.part, k.meas.trans h.meas⟩

theorem State.After.of_out {s t : State} (hd : t.dport.out = s.dport.out) (hc : t.cport.out = s.cport.out)
    (hcfg : t.cfg = s.cfg) (hstore : t.store = s.store) (htickets : t.tickets = s.tickets) (hsys : t.sys = s.sys)
    (hev : t.events = s.events) (hpart : t.part = s.part) (hm : t.pwr.measBusy = s.pwr.measBusy) : s.After t := by
  refine ⟨fun p => ⟨[], ?_⟩, hcfg, hstore, htickets, hsys, hev, hpart, hm⟩
  rw [List.append_nil]
  cases p
  · exact hd
  · exact hc

theorem State.promptAfter_after (s : State) (k : OutKind) : s.After (s.promptAfter k) := by
  unfold State.promptAfter
  simp only []
  (repeat' split) <;> exact .of_out rfl rfl rfl rfl rfl rfl rfl rfl rfl

theorem State.padFollow_after (s : State) : s.After s.padFollow := by
  unfold State.padFollow
  split <;> exact .of_out rfl rfl rfl rfl rfl rfl rfl rfl rfl

theorem State.attemptNow_after (s : State) : s.After s.attemptNow := by
  unfold State.attemptNow
  split <;> dsimp only <;> split <;> exact .of_out rfl rfl rfl rfl rfl rfl rfl rfl rfl

theorem State.frontAfter_after (s : State) (p : Port) (k : OutKind) : s.After (s.frontAfter p k) := by
  unfold State.frontAfter
  split
  · exact ((s.promptAfter_after k).trans (State.padFollow_after _)).trans (State.attemptNow_after _)
  · exact .refl s

/-- A line sent at the Chute leaves its input and its transaction. -/
theorem State.frontSent_chute (s : State) :
    (s.frontSent .chute).chute = s.chute ∧ (s.frontSent .chute).cport.fifo = s.cport.fifo ∧
      (s.frontSent .chute).cport.lines = s.cport.lines ∧ (s.frontSent .chute).cport.block = s.cport.block := by
  rcases hout : (s.port .chute).out with _ | ⟨x, rest⟩
  · rw [State.frontSent_of_empty hout]
    exact ⟨rfl, rfl, rfl, rfl⟩
  · cases hw : s.maySend .chute x
    · rw [State.frontSent_of_waits hout hw]
      exact ⟨rfl, rfl, rfl, rfl⟩
    · rw [State.frontSent_of_sent hout hw]
      have h := (s.frontGone .chute x rest).lineSent_sent .chute x.kind
      have hin := h.input .chute
      exact ⟨h.chute, (congrArg PortSt.fifo hin :), (congrArg PortSt.lines hin :), (congrArg PortSt.block hin :)⟩

/-- The Chute's octet out counts and leaves what the port has taken in. -/
theorem State.chuteOut_keeps (s : State) :
    s.chuteOut.chute.active = s.chute.active ∧ s.chuteOut.chute.octets = s.chute.octets + 1 ∧
      s.chuteOut.cport.fifo = s.cport.fifo ∧ s.chuteOut.cport.lines = s.cport.lines ∧
      s.chuteOut.cport.block = s.cport.block := by
  obtain ⟨hchute, hfifo, hlines, hblock⟩ := s.frontSent_chute
  have hactive : (s.frontSent .chute).chute.active = s.chute.active := congrArg ChuteTx.active hchute
  unfold State.chuteOut
  simp only []
  split
  · exact ⟨rfl, rfl, rfl, rfl, rfl⟩
  · split
    · exact ⟨rfl, rfl, rfl, rfl, rfl⟩
    · split
      · exact ⟨hactive, rfl, hfifo, hlines, hblock⟩
      · exact ⟨hactive, rfl, hfifo, hlines, hblock⟩

/-! #### What each line's sending does -/

theorem State.returnSent_frees {s : State} {p : Port} (h : s.holdOn p = false) (n : Nat) :
    (s.returnSent p n).ticket? n = none := by
  unfold State.returnSent
  rw [if_neg (by simp [h])]
  exact s.freeTicket_ticket n

/-- A ticket whose result went to a port that holds results is held. -/
theorem State.returnSent_holds {s : State} {p : Port} {n : Nat} {y : Ticket} (h : s.holdOn p = true)
    (hy : s.ticket? n = some y) : ((s.returnSent p n).ticket? n).map (·.st) = some .held := by
  unfold State.returnSent
  rw [if_pos h, s.ticket_updTicket n n _ (fun _ => by rfl), hy]
  have hn : y.n = n := State.n_of_ticket hy
  simp [hn]

theorem State.startMeasure_runs (s : State) (hp : Bool) : (s.startMeasure hp).pwr.measBusy = true := by
  unfold State.startMeasure
  split
  next h => exact h
  next => rfl

theorem State.startMeasure_events (s : State) (hp : Bool) :
    (s.startMeasure hp).events = s.events ∧ (s.startMeasure hp).part = s.part := by
  unfold State.startMeasure
  split <;> exact ⟨rfl, rfl⟩

theorem State.frontGone_keeps (s : State) (p : Port) (x : OutLine) (rest : List OutLine) :
    ((s.frontGone p x rest).port p).out = rest ∧ (s.frontGone p x rest).cfg = s.cfg ∧
      (s.frontGone p x rest).store = s.store ∧ (s.frontGone p x rest).tickets = s.tickets ∧
      (s.frontGone p x rest).quiet = s.quiet := by
  cases p <;> exact ⟨rfl, rfl, rfl, rfl, rfl⟩

theorem State.holdOn_of_cfg {s t : State} (h : t.cfg = s.cfg) (p : Port) : t.holdOn p = s.holdOn p := by
  cases p
  · exact congrArg (fun c : Cfg => bit c.desk.desk 6) h
  · exact congrArg (fun c : Cfg => bit c.desk.chute 6) h

theorem State.frontSent_effects (s : State) (p : Port) (x : OutLine) (rest : List OutLine) :
    let t := ((s.frontGone p x rest).lineSent p x.kind).frontAfter p x.kind
    (∃ more, (t.port p).out = rest ++ more) ∧ t.cfg = s.cfg ∧ t.store = s.store ∧
    (∀ n, x.kind = .dn n → s.holdOn p = false → t.ticket? n = none) ∧
    (∀ n y, x.kind = .dn n → s.holdOn p = true → s.ticket? n = some y → (t.ticket? n).map (·.st) = some .held) ∧
    (∀ n, x.kind = .ret n → t.ticket? n = none) ∧
    (x.kind = .ready false → p = .desk → s.quiet = false → t.pends 0 ∧ t.pwr.measBusy = true) ∧
    (x.kind = .ready true → p = .desk → s.quiet = false → t.pends 1 ∧ t.pwr.measBusy = true) ∧
    (x.kind = .boot → p = .desk → t.sys.bootSent = true) ∧
    (x.kind = .resetReply → p = .chute → t.sys.resetReplyRead = true) := by
  dsimp only
  obtain ⟨hout, hcfg, hstore, htickets, hquiet⟩ := s.frontGone_keeps p x rest
  generalize s.frontGone p x rest = g at *
  have hsent := g.lineSent_sent p x.kind
  have hafter := (g.lineSent p x.kind).frontAfter_after p x.kind
  generalize hu : g.lineSent p x.kind = u at *
  generalize u.frontAfter p x.kind = t at *
  have hhold : g.holdOn p = s.holdOn p := State.holdOn_of_cfg hcfg p
  have hticket (n : Nat) : t.ticket? n = u.ticket? n := State.ticket_of_tickets hafter.tickets n
  have hpends {n : Nat} (h : u.pends n) : t.pends n := fun hn => by
    rw [hafter.pend]
    exact h (by rwa [State.eventPresent_of_part hafter.part] at hn)
  have hstarted {n : Nat} {fs : List Tok} (h : u = (g.fire n fs).startMeasure false) (hq : s.quiet = false) :
      t.pends n ∧ t.pwr.measBusy = true := by
    obtain ⟨hev, hpart⟩ := (g.fire n fs).startMeasure_events false
    refine ⟨hpends fun hn => ?_, ?_⟩
    · rw [h, hev]
      rw [h, State.eventPresent_of_part hpart] at hn
      exact State.pends_fire (hquiet.trans hq) hn
    · rw [hafter.meas, h]
      exact State.startMeasure_runs _ _
  refine ⟨?_, hafter.cfg.trans (hsent.cfg.trans hcfg), hafter.store.trans (hsent.store.trans hstore), fun n hk hh => ?_,
    fun n y hk hh hy => ?_, fun n hk => ?_, fun hk hp hq => ?_, fun hk hp hq => ?_, fun hk hp => ?_, fun hk hp => ?_⟩
  · obtain ⟨more, hmore⟩ := (hsent.out.trans hafter.out) p
    exact ⟨more, by rw [hmore, hout]⟩
  · rw [hticket, ← hu, hk]
    exact State.returnSent_frees (hhold.trans hh) n
  · rw [hticket, ← hu, hk]
    exact State.returnSent_holds (hhold.trans hh) ((State.ticket_of_tickets htickets n).trans hy)
  · rw [hticket, ← hu, hk]
    exact g.freeTicket_ticket n
  · subst hp
    rw [hk] at hu
    exact hstarted hu.symm hq
  · subst hp
    rw [hk] at hu
    exact hstarted hu.symm hq
  · rw [hafter.sys, ← hu, hk, hp]
    rfl
  · rw [hafter.sys, ← hu, hk, hp]
    rfl

/-! #### The octet of a transaction -/

/-- The state with SDI at the level of an octet's last bit. -/
def State.sdi (s : State) (b : Byte) : State := { s with pads := { s.pads with chuteSdi := b.getLsbD 0 } }

theorem exec_chuteOctet_first {s : State} {b : Byte} (ha : s.chute.active = true) (hn : s.chute.octets < 2) :
    exec (.chuteOctet (some b)) s = .next (s.sdi b).chuteOut := by
  have hexec : exec (.chuteOctet (some b)) s = execChuteOctet (some b) s := rfl
  unfold execChuteOctet at hexec
  rw [if_neg (by simp [ha])] at hexec
  dsimp only at hexec
  rw [if_pos hn] at hexec
  exact hexec

theorem exec_chuteOctet_later {s : State} {b : Byte} (ha : s.chute.active = true) (hn : 2 ≤ s.chute.octets) :
    exec (.chuteOctet (some b)) s = .next ((s.sdi b).chuteOut.chuteIn b) := by
  have hexec : exec (.chuteOctet (some b)) s = execChuteOctet (some b) s := rfl
  unfold execChuteOctet at hexec
  rw [if_neg (by simp [ha])] at hexec
  dsimp only at hexec
  rw [if_neg (Nat.not_lt.mpr hn)] at hexec
  exact hexec

end Sys2Proof.Machine

/-- Settles O35: the Chute's octets by the state of its transaction, refusals of bad lines and absent blocks, and the sending
of the front line with what it brings about. -/
theorem portEventsTakeEffect : Obligations.PortEventsTakeEffect := by
  unfold Obligations.PortEventsTakeEffect
  intro s p b mode3 text lost
  refine ⟨⟨fun h => ?_, fun h => ⟨?_, ?_⟩, fun h => ?_, fun ha => ?_, fun ha => ⟨?_, ?_⟩, fun ha hn => ?_, fun ha hn hd => ?_,
    fun ha hn hd hb ho hff => ?_, fun x rest ha hn hd hb hs ho hdue hw hc hff => ?_,
    fun ha hn hd hb hp ho hff hv => ?_⟩, fun hb => ?_, fun x hb hl => ?_, fun hl => ?_, fun tag e hl hx => ?_,
    fun x hl hx hv => ?_, fun hl hf hx => ?_, fun ho => ?_, fun x rest ho hw => ?_, fun x rest ho hw => ?_⟩
  · show execChuteCsFall mode3 s = _
    unfold execChuteCsFall
    rw [if_neg (by simp [h])]
    simp only [State.chuteStatus]
    cases s.cport.announced <;> rfl
  · exact if_pos (by simp [h])
  · exact if_pos (by simp [h])
  · have hexec : exec .chuteCsRise s = execChuteCsRise s := rfl
    unfold execChuteCsRise at hexec
    rw [if_neg (by simp [h])] at hexec
    refine ⟨_, hexec, ?_⟩
    split <;> exact ⟨rfl, rfl, rfl, rfl, rfl⟩
  · have hexec : exec (.chuteOctet none) s = execChuteOctet none s := rfl
    unfold execChuteOctet at hexec
    rw [if_neg (by simp [ha])] at hexec
    obtain ⟨hactive, hrest⟩ := s.chuteOut_keeps
    exact ⟨_, hexec, hactive.trans ha, hrest⟩
  · exact if_pos (by simp [ha])
  · exact if_pos (by simp [ha])
  · rw [exec_chuteOctet_first ha hn, State.chuteOut_status (s := s.sdi b) hn]
    rfl
  · rw [exec_chuteOctet_later ha hn, State.chuteOut_discards (s := s.sdi b) hn hd]
    exact congrArg Host.Outcome.next (State.chuteIn_ignores (.inl hd))
  · rw [exec_chuteOctet_later ha hn, State.chuteOut_empty (s := s.sdi b) hn ho]
    exact congrArg Host.Outcome.next (State.chuteIn_ignores (.inr ⟨hb, hff⟩))
  · rw [exec_chuteOctet_later ha hn, State.chuteOut_waits (s := s.sdi b) hn hd hs ho hdue hw hc]
    exact congrArg Host.Outcome.next (State.chuteIn_ignores (.inr ⟨hb, hff⟩))
  · rw [exec_chuteOctet_later ha hn, State.chuteOut_empty (s := s.sdi b) hn ho]
    exact congrArg Host.Outcome.next (State.chuteIn_takes (s := (s.sdi b).gives 0xFF) hd hp hff hv)
  · exact congrArg Host.Outcome.next (if_neg (by simp [hb]))
  · have hexec : exec (.blockTimeout p) s = .next (s.rejectBlock p) := congrArg Host.Outcome.next (if_pos (by simp [hb]))
    obtain ⟨u, hu, hblock, hlines, hout, htickets, -⟩ := s.rejectBlock_refuses hl
    obtain ⟨y, more, hsaid, hy⟩ := hu.said
    exact ⟨_, hexec, (hu.input.block p).trans hblock, (hu.input.lines p).trans hlines,
      hu.pool.trans (congrArg TicketsSt.pool htickets), y, more, hsaid.trans (congrArg (· ++ y :: more) hout), hy⟩
  · exact if_pos (by simp [hl])
  · have hexec : exec (.lineError p text lost) s = execLineError p text lost s := rfl
    unfold execLineError at hexec
    rw [if_neg (by simp [hl]), hx] at hexec
    exact hexec
  · have hexec : exec (.lineError p text lost) s = execLineError p text lost s := rfl
    unfold execLineError at hexec
    rw [if_neg (by simp [hl]), hx] at hexec
    simp only [State.rowFor, hv] at hexec
    exact hexec
  · have hexec : exec (.lineError p text lost) s = execLineError p text lost s := rfl
    unfold execLineError at hexec
    rw [if_neg (by simp [hl]), hx] at hexec
    refine hexec.trans (congrArg Host.Outcome.next (if_neg ?_))
    cases p <;> simp [hf]
  · exact congrArg Host.Outcome.next (State.frontSent_of_empty ho)
  · exact congrArg Host.Outcome.next (State.frontSent_of_waits ho hw)
  · have hexec : exec (.lineSent p) s = .next (s.frontSent p) := rfl
    rw [State.frontSent_of_sent ho hw] at hexec
    exact ⟨_, hexec, State.frontSent_effects s p x rest⟩

end

section

/-! ### What tuning, the end of a link operation and its resumption leave (11_radio, 15_link, 16_ledger) -/

open Sys2Proof Sys2Proof.Machine

namespace Sys2Proof.Machine

/-! #### Tuning -/

/-- The radio but for what it is tuned to. -/
def RadioSt.beyondTuning (r : RadioSt) : RadioSt :=
  { r with
    st := .idle, plan := 0, chan := 0, band := 0, word := 0, lo := 0, locked := false, tuning := false, portHp := false
    rssiNow := 0, frozen := false, afcOnce := false, spanTuned := false, ownSeen := none }

/-- The state but for what the radio is tuned to, the antenna controls, held pads, and editions. -/
def State.beyondTuning (s : State) : State :=
  { s with
    radio := s.radio.beyondTuning
    pads := { s.pads with held := 0, heldDev := 0, antA := false, antB := false }
    census := { s.census with held := true }
    ed := Vector.replicate 22 0 }

/-- The units whose editions tuning counts. -/
def tunedUnits : List EdUnit := [.radio, .modem, .frame]

/-- Between s and t the radio has been tuned. -/
structure State.Tuned (s t : State) : Prop where
  beyond : t.beyondTuning = s.beyondTuning
  held : s.HeldLe t
  edition : ∀ u ∉ tunedUnits, t.edition u = s.edition u

theorem State.edition_of_ed {s t : State} (h : t.ed = s.ed) (u : EdUnit) : t.edition u = s.edition u := by
  unfold State.edition
  rw [h]

namespace State.Tuned

theorem refl (s : State) : s.Tuned s := ⟨rfl, .refl s, fun _ _ => rfl⟩

theorem trans {s t u : State} (h : s.Tuned t) (k : t.Tuned u) : s.Tuned u :=
  ⟨k.beyond.trans h.beyond, h.held.trans k.held, fun x hx => (k.edition x hx).trans (h.edition x hx)⟩

/-- A change of what tuning changes, but for editions. -/
theorem set {s t : State} (h : t.beyondTuning = s.beyondTuning) (he : t.ed = s.ed)
    (hh : s.HeldLe t) : s.Tuned t :=
  ⟨h, hh, fun u _ => State.edition_of_ed he u⟩

theorem bump (s : State) {u : EdUnit} (hu : u ∈ tunedUnits) : s.Tuned (s.bump u) :=
  ⟨rfl, .refl s, fun _ hx => State.edition_bump_other s u _ fun h => hx (h ▸ hu)⟩

theorem ite {s a b : State} {c : Prop} [Decidable c] (h : s.Tuned a) (k : s.Tuned b) : s.Tuned (if c then a else b) := by
  split
  · exact h
  · exact k

theorem padFollow (s : State) : s.Tuned s.padFollow := by
  unfold State.padFollow
  exact .ite (refl s) (set rfl rfl (State.HeldLe.release s _))

theorem antSet (s : State) (pair : Nat) : s.Tuned (s.antSet pair) :=
  trans (t := { s with pads := { s.pads with
    antA := decide (fld s.cfg.radio.antMap (2 * pair + 1) (2 * pair) % 2 = 1)
    antB := decide (2 ≤ fld s.cfg.radio.antMap (2 * pair + 1) (2 * pair)) } }) (set rfl rfl id) (padFollow _)

theorem antFollow (s : State) : s.Tuned s.antFollow := by
  unfold State.antFollow
  split
  · exact refl s
  · split
    · exact antSet s 0
    · exact refl s
    · exact antSet s 1

theorem censusHold (s : State) : s.Tuned s.censusHold := by
  unfold State.censusHold
  exact .ite (refl s) (set rfl rfl id)

theorem radioTo (s : State) (x : RState) : s.Tuned (s.radioTo x) := by
  unfold State.radioTo
  split
  · exact antFollow s
  · extract_lets r r1 s1 s2
    have h0 : s.Tuned { s with radio := r1 } := set rfl rfl id
    have h1 : s.Tuned s1 := ((h0.trans (bump _ (by decide))).trans (bump _ (by decide))).trans (bump _ (by decide))
    have h2 : s1.Tuned s2 := .ite (set rfl rfl (.release s1 _)) (refl s1)
    exact ((h1.trans h2).trans (antFollow s2)).trans (censusHold _)

theorem tune (s : State) (p c : Nat) (tx : Bool) : s.Tuned (s.tune p c tx) := set rfl rfl id

theorem listenOn (s : State) (p c : Nat) : s.Tuned (s.listenOn p c) :=
  ((tune s p c false).trans (radioTo _ _)).trans (censusHold _)

theorem rest (s : State) (r : RadioSt) : s.Tuned (State.radioRest.rest s r) := by
  unfold State.radioRest.rest
  split
  · exact listenOn s _ _
  · split
    · exact listenOn s _ _
    · split
      · exact listenOn s _ _
      · exact radioTo s _

/-- The radio goes to what the tickets, the link and the listening want of it. -/
theorem radioRest (s : State) : s.Tuned s.radioRest := by
  unfold State.radioRest
  extract_lets r onOp
  have hop (o : LinkOp) (c : Nat) : s.Tuned (onOp o c) := listenOn s _ _
  split
  · exact refl s
  · split
    · exact radioTo s _
    · split
      · exact hop _ _
      · exact hop _ _
      · exact hop _ _
      · split
        · exact listenOn s _ _
        · split
          · exact listenOn s _ _
          · split
            · split
              · exact rest s r
              · exact hop _ _
            · exact rest s r

variable {s t : State} (h : s.Tuned t)
include h

theorem events : t.events = s.events := (congrArg State.events h.beyond : t.beyondTuning.events = _)
theorem part : t.part = s.part := (congrArg State.part h.beyond : t.beyondTuning.part = _)
theorem cfg : t.cfg = s.cfg := (congrArg State.cfg h.beyond : t.beyondTuning.cfg = _)
theorem store : t.store = s.store := (congrArg State.store h.beyond : t.beyondTuning.store = _)
theorem pwr : t.pwr = s.pwr := (congrArg State.pwr h.beyond : t.beyondTuning.pwr = _)
theorem day : t.day = s.day := (congrArg State.day h.beyond : t.beyondTuning.day = _)
theorem tickets : t.tickets = s.tickets := (congrArg State.tickets h.beyond : t.beyondTuning.tickets = _)
theorem orders : t.orders = s.orders := (congrArg State.orders h.beyond : t.beyondTuning.orders = _)
theorem link : t.link = s.link := (congrArg State.link h.beyond : t.beyondTuning.link = _)
theorem modem : t.modem = s.modem := (congrArg State.modem h.beyond : t.beyondTuning.modem = _)
theorem frame : t.frame = s.frame := (congrArg State.frame h.beyond : t.beyondTuning.frame = _)
theorem ledger : t.ledger = s.ledger := (congrArg State.ledger h.beyond : t.beyondTuning.ledger = _)
theorem trim : t.trim = s.trim := (congrArg State.trim h.beyond : t.beyondTuning.trim = _)
theorem noise : t.noise = s.noise := (congrArg State.noise h.beyond : t.beyondTuning.noise = _)
theorem rows : t.rows = s.rows := (congrArg State.rows h.beyond : t.beyondTuning.rows = _)
theorem ports : SamePorts s t :=
  ⟨(congrArg State.dport h.beyond : t.beyondTuning.dport = _), (congrArg State.cport h.beyond : t.beyondTuning.cport = _)⟩

theorem radio {α : Type} (f : RadioSt → α) (hf : ∀ x : RadioSt, f x.beyondTuning = f x := by exact fun _ => rfl) :
    f t.radio = f s.radio := by
  rw [← hf t.radio, ← hf s.radio]
  exact congrArg f (congrArg State.radio h.beyond : t.beyondTuning.radio = _)

theorem pads {α : Type} (f : PadsSt → α)
    (hf : ∀ x, f { x with held := 0, heldDev := 0, antA := false, antB := false } = f x := by exact fun _ => rfl) :
    f t.pads = f s.pads := by
  rw [← hf t.pads, ← hf s.pads]
  exact congrArg f (congrArg State.pads h.beyond : t.beyondTuning.pads = _)

theorem census {α : Type} (f : CensusSt → α) (hf : ∀ x, f { x with held := true } = f x := by exact fun _ => rfl) :
    f t.census = f s.census := by
  rw [← hf t.census, ← hf s.census]
  exact congrArg f (congrArg State.census h.beyond : t.beyondTuning.census = _)

end State.Tuned

/-! #### Link operations -/

/-- The state but for what the operations of the link change as they begin, wait, are keyed and end: what the radio is
tuned to and sends, the operation, the association, the ring of frames, the interval's account, grade-B octets. -/
def State.lasting (s : State) : State :=
  let t := s.besideTickets.beyondTuning
  { t with
    cfg := { t.cfg with frame := { t.cfg.frame with addr := 0 } }
    record := {}
    radio := { t.radio with tx := none, hpBandL := false }
    link := { t.link with st := .unassoc, assoc := none, partnerPending := false, op := none, train := none
                          ctrs := Vector.replicate 7 {} }
    frame := { t.frame with tx := [] }
    ledger := {}
    noise := { t.noise with pool := 0, refill := false, bBits := {} }
    events := { t.events with cond := t.events.cond &&& ~~~((1 : BitVec 128) <<< 65) }
    rows := []
    drawn := 0 }

/-- The units whose editions the operations of the link count. -/
def linkUnits : List EdUnit := .orders :: .link :: tunedUnits

/-- Between s and t operations of the link have gone on: no pending bit has gone, output and row writes have only been
added, and the rest is as it was. -/
structure State.Onward (s t : State) : Prop where
  out : s.OutLe t
  pend : s.PendLe t
  rows : ∀ r ∈ s.rows, r ∈ t.rows
  lasts : t.lasting = s.lasting
  edition : ∀ u ∉ linkUnits, t.edition u = s.edition u
  held : s.HeldLe t

namespace State.Onward

theorem refl (s : State) : s.Onward s := ⟨.refl s, .refl s, fun _ => id, rfl, fun _ _ => rfl, .refl s⟩

theorem trans {s t u : State} (h : s.Onward t) (k : t.Onward u) : s.Onward u :=
  ⟨h.out.trans k.out, h.pend.trans k.pend, fun r hr => k.rows r (h.rows r hr), k.lasts.trans h.lasts,
    fun x hx => (k.edition x hx).trans (h.edition x hx), h.held.trans k.held⟩

theorem ite {s a b : State} {c : Prop} [Decidable c] (h : s.Onward a) (k : s.Onward b) : s.Onward (if c then a else b) := by
  split
  · exact h
  · exact k

/-- A change of what the operations of the link change. -/
theorem of_set {s t : State} (hev : t.events.pend = s.events.pend) (hp : SamePorts s t) (hr : t.rows = s.rows)
    (hl : t.lasting = s.lasting) (he : t.ed = s.ed) (hh : s.HeldLe t) : s.Onward t :=
  ⟨.of_eq hp.1 hp.2, .of_eq hev, fun _ h => hr ▸ h, hl, fun u _ => State.edition_of_ed he u, hh⟩

theorem bump (s : State) {u : EdUnit} (hu : u ∈ linkUnits) : s.Onward (s.bump u) :=
  ⟨.of_eq rfl rfl, .of_eq rfl, fun _ => id, rfl, fun _ hx => State.edition_bump_other s u _ fun h => hx (h ▸ hu),
    .refl s⟩

theorem of_tuned {s t : State} (h : s.Tuned t) : s.Onward t := by
  have hl (u : State) : u.lasting = u.beyondTuning.lasting := rfl
  exact ⟨.of_eq h.ports.1 h.ports.2, .of_eq (congrArg EventsSt.pend h.events), fun _ hr => h.rows ▸ hr,
    by rw [hl t, h.beyond, ← hl s], fun u hu => h.edition u fun k => hu (by simp [linkUnits, k]), h.held⟩

theorem of_aside {s t : State} (h : s.Aside t) : s.Onward t := by
  have hl (u : State) : u.lasting = u.besideTickets.lasting := rfl
  exact ⟨h.out, h.pend, fun _ hr => h.rows ▸ hr, by rw [hl t, h.beside, ← hl s],
    fun u hu => h.edition fun k => hu (by simp [linkUnits, k]), h.held⟩

theorem fire (s : State) (n : Nat) (fs : List Tok) : s.Onward (s.fire n fs) := of_aside (.fire s n fs)

theorem complete (s : State) (n : Nat) (r : Result) (fs : List Tok) (b : List Byte) : s.Onward (s.complete n r fs b) :=
  of_aside (.complete s n r fs b)

/-- A row write joins the ones that wait, where what it writes is no more than a row of the Record. -/
theorem rowWrite {s : State} {r : RowWrite} (h : s.Onward (s.applyRow r.what)) : s.Onward (s.rowWrite r) := by
  unfold State.rowWrite
  split
  next hempty =>
    exact ⟨h.out, h.pend, fun x hx => absurd hx (by simp [List.isEmpty_iff.mp hempty]), h.lasts, h.edition, h.held⟩
  next => exact ⟨.refl s, .refl s, fun x hx => List.mem_append_left _ hx, rfl, fun _ _ => rfl, .refl s⟩

theorem rowWrite_twin (s : State) (i : Nat) (patch : List (Nat × List Byte)) (j : Bool) (n : Option Nat) :
    s.Onward (s.rowWrite { what := .twin i patch, journal := j, last := n }) :=
  rowWrite (.of_set rfl ⟨rfl, rfl⟩ rfl rfl rfl id)

theorem rowWrite_journal (s : State) (k : Nat) (o : List Byte) (j : Bool) (n : Option Nat) :
    s.Onward (s.rowWrite { what := .journal k o, journal := j, last := n }) :=
  rowWrite (.of_set rfl ⟨rfl, rfl⟩ rfl rfl rfl id)

theorem journal (s : State) (k : JKind) : s.Onward (s.journal k) := by
  unfold State.journal
  extract_lets g row seq r
  refine trans ?_ (rowWrite_journal _ _ _ _ _)
  exact .of_set rfl ⟨rfl, rfl⟩ rfl rfl rfl id

theorem linkTo (s : State) (x : LState) : s.Onward (s.linkTo x) := by
  unfold State.linkTo
  refine .ite (refl s) (trans ?_ (bump _ (by decide)))
  exact .of_set rfl ⟨rfl, rfl⟩ rfl rfl rfl id

theorem saveAssoc (s : State) : s.Onward s.saveAssoc := rowWrite_twin s _ _ _ _

theorem dissociate (s : State) (by_ : String) : s.Onward (s.dissociate by_) := by
  unfold State.dissociate
  extract_lets ad s1 q s2
  have h0 : s.Onward (s.cfgSet .addr ad) := .of_set rfl ⟨rfl, rfl⟩ rfl rfl rfl id
  have h1 : s.Onward s1 := .ite (refl s) (h0.trans (bump _ (by decide)))
  have h2 : s1.Onward s2 := .of_set rfl ⟨rfl, rfl⟩ rfl rfl rfl id
  exact ((h1.trans h2).trans (linkTo s2 _)).trans ((saveAssoc _).trans (fire _ _ _))

theorem ringFree (s : State) (n : Nat) : s.Onward (s.ringFree n) := .of_set rfl ⟨rfl, rfl⟩ rfl rfl rfl id

theorem countLink (s : State) (i : Nat) : s.Onward (s.countLink i) := .of_set rfl ⟨rfl, rfl⟩ rfl rfl rfl id

/-- The operation of the link ends: its frame leaves the ring, its end is counted, its ticket completes. -/
theorem linkEnd (s : State) (r : Result) (fs : List Tok) : s.Onward (s.linkEnd r fs) := by
  unfold State.linkEnd
  split
  · exact refl s
  · extract_lets q s1 s2 s3 q' s4
    have h1 : s.Onward s1 := .of_set rfl ⟨rfl, rfl⟩ rfl rfl rfl id
    have h2 : s1.Onward s2 := by
      dsimp only [s2]
      split
      · exact ringFree s1 _
      · exact refl s1
    have h3 : s2.Onward s3 := .ite (countLink s2 2) (.ite (countLink s2 3) (.ite (countLink s2 4) (refl s2)))
    have h4 : s3.Onward s4 := by
      dsimp only [s4]
      split
      · exact .ite (refl s3) (linkTo s3 _)
      · exact .ite (refl s3) (linkTo s3 _)
      · exact .ite (dissociate s3 _) (refl s3)
      · exact .of_set rfl ⟨rfl, rfl⟩ rfl rfl rfl id
      · exact refl s3
    exact ((((h1.trans h2).trans h3).trans h4).trans (of_tuned (.radioRest s4))).trans (complete _ _ _ _ _)

theorem lowCheck (s old : State) : s.Onward (s.lowCheck old) := by
  unfold State.lowCheck
  exact .ite (fire s _ _) (refl s)

theorem settleBooking (s : State) (actual : Nat) : s.Onward (s.settleBooking actual) := by
  unfold State.settleBooking
  split
  · exact refl s
  · extract_lets g cut s1
    have h1 : s.Onward s1 := .of_set rfl ⟨rfl, rfl⟩ rfl rfl rfl id
    exact (h1.trans (journal s1 _)).trans (lowCheck _ _)

theorem setOp (s : State) (f : LinkOp → LinkOp) : s.Onward (s.setOp f) := .of_set rfl ⟨rfl, rfl⟩ rfl rfl rfl id

theorem radioRest (s : State) : s.Onward s.radioRest := of_tuned (.radioRest s)

theorem linkCca (s : State) : s.Onward s.linkCca := by
  unfold State.linkCca
  extract_lets s1
  have h1 : s.Onward s1 := (setOp s _).trans (radioRest _)
  exact .ite (h1.trans (setOp s1 _)) h1

theorem poolWant (s : State) : s.Onward s.poolWant := by
  unfold State.poolWant
  exact .ite (.of_set rfl ⟨rfl, rfl⟩ rfl rfl rfl id) (refl s)

theorem drawB (s : State) (k : Nat) : s.Onward (s.drawB k).2 := by
  unfold State.drawB
  split
  · exact refl s
  · split
    · exact refl s
    · split
      · exact poolWant s
      · extract_lets r n
        show s.Onward (State.poolWant _)
        refine trans ?_ (poolWant _)
        exact .of_set rfl ⟨rfl, rfl⟩ rfl rfl rfl id

theorem of_cond {s : State} {c : BitVec 128}
    (h : c &&& ~~~((1 : BitVec 128) <<< 65) = s.events.cond &&& ~~~((1 : BitVec 128) <<< 65)) :
    s.Onward { s with events := { s.events with cond := c } } :=
  .of_set rfl ⟨rfl, rfl⟩ rfl
    (congrArg (fun d => { s.lasting with events := { s.lasting.events with cond := d } }) h) rfl id

theorem condOn (s : State) (fs : List Tok) : s.Onward (s.condOn 65 fs) := by
  have hbit (c b : BitVec 128) : (c ||| b) &&& ~~~b = c &&& ~~~b := by
    ext i hi
    simp only [BitVec.getElem_and, BitVec.getElem_or, BitVec.getElem_not, Bool.and_or_distrib_right, Bool.and_not_self,
      Bool.or_false]
  unfold State.condOn
  exact .ite (refl s) (.ite ((of_cond (hbit _ _)).trans (fire _ _ _)) (refl s))

theorem condOff (s : State) : s.Onward (s.condOff 65) := by
  have hbit (c b : BitVec 128) : c &&& ~~~b &&& ~~~b = c &&& ~~~b := by
    rw [BitVec.and_assoc, BitVec.and_self]
  exact of_cond (hbit _ _)

theorem bookRefused (s : State) (b : Nat) (ack : Bool) : s.Onward (s.bookRefused b ack) := by
  unfold State.bookRefused
  extract_lets g s1
  have h1 : s.Onward s1 := by
    dsimp only [s1]
    cases ack <;> exact .of_set rfl ⟨rfl, rfl⟩ rfl rfl rfl id
  exact h1.trans (condOn s1 _)

theorem book (s : State) (b : Nat) (ack : Bool) : s.Onward (s.book b ack) := by
  unfold State.book
  extract_lets g s1 s2 s3 q s4
  have h1 : s.Onward s1 := .of_set rfl ⟨rfl, rfl⟩ rfl rfl rfl id
  have h3 : s.Onward s3 := (h1.trans (journal s1 _)).trans (lowCheck s2 s)
  have h4 : s3.Onward s4 := .of_set rfl ⟨rfl, rfl⟩ rfl rfl rfl id
  exact .ite ((h3.trans h4).trans (fire s4 _ _)) h3

theorem txEnter (s : State) : s.Onward s.txEnter := by
  unfold State.txEnter
  refine trans ?_ (of_tuned (.radioTo _ _))
  exact .of_set rfl ⟨rfl, rfl⟩ rfl rfl rfl id

theorem txTake (s : State) (x : Tx) : s.Onward (s.txTake x) := .of_set rfl ⟨rfl, rfl⟩ rfl rfl rfl id

theorem startTx {s u : State} {x : Tx} {ack : Bool} (h : s.startTx x ack = some u) : s.Onward u := by
  unfold State.startTx at h
  split at h
  · obtain rfl := Option.some.inj h
    exact (((book s _ _).trans (of_tuned (.tune _ _ _ _))).trans (txTake _ _)).trans (txEnter _)
  · cases h

theorem linkKey (s : State) (chan : Nat) (hop : Bool) : s.Onward (s.linkKey chan hop) := by
  unfold State.linkKey
  split
  · exact refl s
  · extract_lets x
    split
    · exact linkEnd s _ _
    · split
      · exact (bookRefused s _ _).trans (linkEnd _ _ _)
      next hu => exact (startTx hu).trans (setOp _ _)

theorem linkGo (s : State) : s.Onward s.linkGo := by
  unfold State.linkGo
  split
  · exact refl s
  next o _ =>
    refine .ite ((setOp s _).trans (radioRest _)) (.ite (linkKey s _ _) (.ite (linkCca s) ?_))
    have hd := drawB s o.be
    split
    next hx => rw [hx] at hd; exact hd.trans (linkEnd _ _ _)
    next hx => rw [hx] at hd; exact (hd.trans (setOp _ _)).trans (radioRest _)
    next hx =>
      rw [hx] at hd
      exact .ite (hd.trans (linkCca _)) ((hd.trans (setOp _ _)).trans (radioRest _))

/-- What the operation of the link waited for has come, or the radio goes to what is wanted of it. -/
theorem linkResume (s : State) : s.Onward s.linkResume := by
  unfold State.linkResume
  split
  · exact radioRest s
  · refine .ite (radioRest s) ?_
    split
    · exact linkGo s
    · exact linkGo s
    · exact linkCca s
    · exact radioRest s

/-! What stays in step. -/

variable {s t : State} (h : s.Onward t)
include h

theorem part : t.part = s.part := (congrArg State.part h.lasts : t.lasting.part = _)
theorem sys {α : Type} (f : SysSt → α) (hf : ∀ x, f { x with alertEvents := [] } = f x := by exact fun _ => rfl) :
    f t.sys = f s.sys := by
  rw [← hf t.sys, ← hf s.sys]
  exact congrArg f (congrArg State.sys h.lasts : t.lasting.sys = _)
theorem pwr {α : Type} (f : PwrSt → α) (hf : ∀ x, f { x with idleSince := 0 } = f x := by exact fun _ => rfl) :
    f t.pwr = f s.pwr := by
  rw [← hf t.pwr, ← hf s.pwr]
  exact congrArg f (congrArg State.pwr h.lasts : t.lasting.pwr = _)
theorem day : t.day = s.day := (congrArg State.day h.lasts : t.lasting.day = _)
theorem modem : t.modem = s.modem := (congrArg State.modem h.lasts : t.lasting.modem = _)
theorem trim : t.trim = s.trim := (congrArg State.trim h.lasts : t.lasting.trim = _)
theorem noise {α : Type} (f : NoiseSt → α)
    (hf : ∀ x, f { x with pool := 0, refill := false, bBits := {} } = f x := by exact fun _ => rfl) :
    f t.noise = f s.noise := by
  rw [← hf t.noise, ← hf s.noise]
  exact congrArg f (congrArg State.noise h.lasts : t.lasting.noise = _)
theorem radio {α : Type} (f : RadioSt → α)
    (hf : ∀ x : RadioSt, f { x.beyondTuning with tx := none, hpBandL := false } = f x := by exact fun _ => rfl) :
    f t.radio = f s.radio := by
  rw [← hf t.radio, ← hf s.radio]
  exact congrArg f (congrArg State.radio h.lasts : t.lasting.radio = _)

theorem quiet : t.quiet = s.quiet := by
  unfold State.quiet
  rw [h.pwr PwrSt.state]

theorem pends {n : Nat} (k : s.pends n) : t.pends n := fun hn =>
  h.pend n (k (by rw [← State.eventPresent_of_part h.part]; exact hn))

end State.Onward

end Sys2Proof.Machine
end

section

/-! ### EVENT CLEAR and RAISE, MODE, CANCEL and RET (04_desk R103, 06_tickets R168–R171, 07_events R188, R189, R191) -/

open Sys2Proof Sys2Proof.Machine

namespace Sys2Proof.Machine

/-! #### A reply that events may surround -/

/-- A reply with `OK` stands behind what was queued before it, whatever is queued later. -/
theorem Said.By.of_ok {s u t : State} {l : Line} {ts : List Tok} (hu : s.OutLe u) (ht : (u.ok l ts).OutLe t) :
    Said.By s t l (okLine ts) := by
  have hended := State.ok_ended l ts [] hu
  unfold Ended at hended
  unfold Said.By
  cases ho : l.origin with
  | order k => trivial
  | port p =>
    rw [ho] at hended
    obtain ⟨mid, x, hout, hx⟩ := hended
    obtain ⟨post, hpost⟩ := ht p
    exact ⟨mid, x, post, by rw [hpost, hout]; simp, hx⟩

/-! #### Cancelling what runs adds to the output -/

theorem State.linkCancel_outLe (s : State) (by_ : String) : s.OutLe (s.linkCancel by_) := by
  unfold State.linkCancel
  extract_lets mine q r s1
  have h1 : s.OutLe s1 := by
    refine .ite ?_ (.refl s)
    refine .trans ?_ (State.Onward.settleBooking _ _).out
    exact .trans (b := { s with pads := { s.pads with paEn := false }, radio := { s.radio with tx := none } }) (.of_eq rfl rfl)
      (State.Aside.padFollow _).out
  exact h1.trans (State.Onward.linkEnd s1 _ _).out

theorem State.ceqStale_outLe (s : State) (b : Bool) : s.OutLe (s.ceqStale b) := by
  unfold State.ceqStale
  extract_lets q s1
  exact .trans (b := s1) (.of_eq rfl rfl) (.ite (State.condOn_outLe s1 _ _) (.of_eq rfl rfl))

theorem State.trimFinish_outLe (s : State) (r : Result) (fs : List Tok) : s.OutLe (s.trimFinish r fs) := by
  unfold State.trimFinish
  split
  · exact .refl s
  · extract_lets q s1 ceq s2 f
    have h1 : s.OutLe s1 := .of_eq rfl rfl
    have h2 : s1.OutLe s2 := .ite (State.ceqStale_outLe s1 _) (.refl s1)
    exact ((h1.trans h2).trans (State.Onward.linkResume s2).out).trans (State.Aside.complete _ _ _ _ _).out

theorem State.trimCancel_outLe (s : State) (by_ : String) : s.OutLe (s.trimCancel by_) := by
  unfold State.trimCancel
  split
  · exact .refl s
  · extract_lets s1
    have h1 : s.OutLe s1 := .ite (.refl s) (.of_eq rfl rfl)
    exact h1.trans (State.trimFinish_outLe s1 _ _)

theorem State.cancelPorter_outLe (s : State) (n : Nat) (by_ : String) : s.OutLe (s.cancelPorter n by_) := by
  unfold State.cancelPorter
  split
  · exact .refl s
  · exact .trans (b := s.chanStop n 3 0) (.of_eq rfl rfl) (State.Aside.complete _ _ _ _ _).out

theorem State.completeCancel_outLe (s : State) (n : Nat) (r : Result) : s.OutLe (s.completeCancel n r) := by
  unfold State.completeCancel
  split <;> exact (State.Aside.complete s _ _ _ _).out

theorem State.freeLevels_outLe (s : State) : s.OutLe s.freeLevels := by
  unfold State.freeLevels
  refine List.foldlRecOn (motive := fun u : State => s.OutLe u) _ _ (.refl s) fun u hu i _ => hu.trans ?_
  exact .of_eq rfl rfl

theorem State.scanStore_outLe (s : State) (x : Listener) : s.OutLe (s.scanStore x) := by
  unfold State.scanStore
  exact .ite (.refl s) (.of_eq rfl rfl)

theorem State.listenerEnd_outLe (s : State) (x : Listener) (r : Result) : s.OutLe (s.listenerEnd x r) := by
  unfold State.listenerEnd
  extract_lets q s1 s2
  have h2 : s.OutLe s2 := .trans (b := s1) (.of_eq rfl rfl) (State.Onward.radioRest s1).out
  refine h2.trans ?_
  split
  · have h3 : s2.OutLe (if x.windows = 0 then s2.freeLevels else s2.scanStore x) :=
      .ite (State.freeLevels_outLe s2) (State.scanStore_outLe s2 x)
    exact (h3.trans (State.fire_outLe _ _ _)).trans (State.Aside.complete _ _ _ _ _).out
  · exact (State.scanStore_outLe s2 x).trans (State.completeCancel_outLe _ _ _)
  · exact (State.Aside.complete s2 _ _ _ _).out
  · exact (State.Aside.complete s2 _ _ _ _).out
  · exact State.completeCancel_outLe s2 _ _

theorem State.listenerStop_outLe (s : State) (x : Listener) (r : Result) : s.OutLe (s.listenerStop x r) := by
  unfold State.listenerStop
  exact .ite (.of_eq rfl rfl) (s.listenerEnd_outLe x r)

theorem State.cancelRunning_outLe (s : State) (x : Ticket) (by_ : String) : s.OutLe (s.cancelRunning x by_) := by
  unfold State.cancelRunning
  split
  · exact s.linkCancel_outLe by_
  · exact s.linkCancel_outLe by_
  · exact s.trimCancel_outLe by_
  · exact s.cancelPorter_outLe _ by_
  · exact (State.Aside.complete s _ _ _ _).out
  · refine .trans ?_ (State.Aside.complete _ _ _ _ _).out
    exact .trans (b := { s with ssw := { s.ssw with limit := false } }) (.of_eq rfl rfl) (State.Aside.sswTo _ _).out
  · exact (State.Aside.complete s _ _ _ _).out
  · extract_lets s1
    have h1 : s.OutLe s1 := .of_eq rfl rfl
    split
    · exact h1.trans (s1.listenerStop_outLe _ _)
    · exact h1

theorem State.undo_outLe (s : State) (x : Ticket) (r : Result) : s.OutLe (s.undo x r) := by
  unfold State.undo
  split
  · exact .of_eq rfl rfl
  · exact .of_eq rfl rfl
  · refine .ite ?_ (.refl s)
    unfold State.unschedule
    split
    · exact .refl s
    · refine .trans (b := _) ?_ (.of_eq rfl rfl)
      exact .trans (b := { s with ledger := { s.ledger with pend := none, pendTicket := none } }) (.of_eq rfl rfl)
        (State.Onward.journal _ _).out
  · exact .ite (.of_eq rfl rfl) (.refl s)
  · exact .refl s

theorem State.cancelTicket_outLe (s : State) (x : Ticket) (by_ : String) : s.OutLe (s.cancelTicket x by_) := by
  unfold State.cancelTicket
  refine .ite ?_ (.ite (s.cancelRunning_outLe x by_) (.refl s))
  exact (s.undo_outLe x _).trans (State.Aside.complete _ _ _ _ _).out

/-! #### Completing several tickets at once -/

theorem State.fireDone_outLe (s : State) (x : Ticket) (r : Result) : s.OutLe (s.fireDone x r) := by
  unfold State.fireDone
  exact .ite (s.fire_outLe _ _) (.refl s)

theorem State.fireFail_outLe (s : State) (x : Ticket) (r : Result) : s.OutLe (s.fireFail x r) := by
  unfold State.fireFail
  exact .ite (.refl s) (s.fire_outLe _ _)

theorem State.deliver_outLe (s : State) (x : Ticket) (r : Result) (fs : List Tok) (b : List Byte) :
    s.OutLe (s.deliver x r fs b) := by
  unfold State.deliver
  split
  · exact s.push_outLe _ _
  · exact .of_eq (s.freeTicket_ports _).1 (s.freeTicket_ports _).2

theorem State.completeAll_outLe (s : State) (xs : List (Ticket × Result × List Tok)) : s.OutLe (s.completeAll xs) := by
  unfold State.completeAll
  extract_lets ys s1 host bad s2 s3 s4 s5
  have h1 : s.OutLe s1 := List.foldlRecOn (motive := fun u : State => s.OutLe u) ys _ (.refl s)
    fun u hu x _ => hu.trans (.of_eq rfl rfl)
  have h2 : s1.OutLe s2 := by
    dsimp only [s2]
    cases hc : host
    · exact .refl s1
    · exact s1.fireDone_outLe _ _
  have h3 : s2.OutLe s3 := by
    dsimp only [s3]
    cases hc : bad
    · exact .refl s2
    · exact s2.fireFail_outLe _ _
  have h4 : s3.OutLe s4 := List.foldlRecOn (motive := fun u : State => s3.OutLe u) ys _ (.refl s3)
    fun u hu x _ => hu.trans (u.deliver_outLe _ _ _ _)
  have h5 : s4.OutLe s5 := by
    dsimp only [s5]
    split
    · exact (State.Aside.lineAfter s4 _ _ _).out
    · exact .refl s4
  exact ((((h1.trans h2).trans h3).trans h4).trans h5).settled

theorem State.endAll_outLe (s : State) (ts : List Ticket) (r : Result) (fs : List Tok) : s.OutLe (s.endAll ts r fs) := by
  unfold State.endAll
  exact .trans (List.foldlRecOn (motive := fun u : State => s.OutLe u) ts _ (.refl s)
    fun u hu x _ => hu.trans (u.undo_outLe x r)) (State.completeAll_outLe _ _)

/-- Ticket n has ended with a result. -/
def State.EndedAs (s : State) (n : Nat) (r : Result) : Prop :=
  ∃ y, s.ticket? n = some y ∧ y.st = .complete ∧ y.result = some r

theorem State.EndedAs.of_tickets {s t : State} {n : Nat} {r : Result} (h : s.EndedAs n r) (k : t.tickets = s.tickets) :
    t.EndedAs n r := by
  obtain ⟨y, hy, hend⟩ := h
  exact ⟨y, (State.ticket_of_tickets k n).trans hy, hend⟩

theorem State.markDone_ticket (s : State) (x : Ticket) (r : Result) (fs : List Tok) (n : Nat) :
    (s.markDone x r fs []).ticket? n = (s.ticket? n).map (fun y => if y.n = x.n then
      { y with st := .complete, result := some r, fields := fs, block := [], doneAt := s.day.cyc, doneSeq := s.tickets.seq }
      else y) :=
  s.ticket_updTicket x.n n _ (fun _ => rfl)

theorem State.markDone_ends {s : State} {x : Ticket} (h : (s.ticket? x.n).isSome = true) (r : Result) (fs : List Tok) :
    (s.markDone x r fs []).EndedAs x.n r := by
  obtain ⟨y, hy⟩ := Option.isSome_iff_exists.mp h
  have hn : y.n = x.n := State.n_of_ticket hy
  refine ⟨_, by rw [s.markDone_ticket, hy, Option.map_some, if_pos hn], rfl, rfl⟩

theorem State.EndedAs.markDone {s : State} {n : Nat} {r : Result} (h : s.EndedAs n r) (x : Ticket) (fs : List Tok) :
    (s.markDone x r fs []).EndedAs n r := by
  obtain ⟨y, hy, hst, hres⟩ := h
  refine ⟨_, by rw [s.markDone_ticket, hy, Option.map_some], ?_⟩
  split
  · exact ⟨rfl, rfl⟩
  · exact ⟨hst, hres⟩

/-- Marking tickets of the pool ended, one after another. -/
theorem State.marks_end {r : Result} (ys : List (Ticket × Result × List Tok)) (s : State) (hr : ∀ y ∈ ys, y.2.1 = r)
    (hp : ∀ y ∈ ys, (s.ticket? y.1.n).isSome = true) :
    (∀ n, s.EndedAs n r → (ys.foldl (fun s x => s.markDone x.1 x.2.1 x.2.2 []) s).EndedAs n r) ∧
      ∀ y ∈ ys, (ys.foldl (fun s x => s.markDone x.1 x.2.1 x.2.2 []) s).EndedAs y.1.n r := by
  induction ys generalizing s with
  | nil => exact ⟨fun _ => id, fun y hy => absurd hy List.not_mem_nil⟩
  | cons x xs ih =>
    obtain ⟨hx, hxs⟩ := List.forall_mem_cons.mp hr
    obtain ⟨px, pxs⟩ := List.forall_mem_cons.mp hp
    have hpool : ∀ y ∈ xs, ((s.markDone x.1 x.2.1 x.2.2 []).ticket? y.1.n).isSome = true := fun y hy => by
      rw [s.markDone_ticket, Option.isSome_map]
      exact pxs y hy
    obtain ⟨hkeep, hall⟩ := ih (s.markDone x.1 x.2.1 x.2.2 []) hxs hpool
    rw [hx] at hkeep hall
    rw [List.foldl_cons, hx]
    exact ⟨fun n hn => hkeep n (hn.markDone x.1 _),
      List.forall_mem_cons.mpr ⟨hkeep _ (State.markDone_ends px r _), hall⟩⟩

/-- Tickets of hosts that end together are complete with their result. -/
theorem State.completeAll_ends {s : State} {xs : List (Ticket × Result × List Tok)} {r : Result}
    (hr : ∀ x ∈ xs, x.2.1 = r) (hp : ∀ x ∈ xs, (s.ticket? x.1.n).isSome = true) (hh : ∀ x ∈ xs, x.1.owner.isHost = true)
    {x : Ticket × Result × List Tok} (hx : x ∈ xs) (hl : x.1.live = true) : (s.completeAll xs).EndedAs x.1.n r := by
  unfold State.completeAll
  extract_lets ys s1 host bad s2 s3 s4 s5
  have hys : ∀ y ∈ ys, ∃ x ∈ xs, y.1 = x.1 ∧ y.2.1 = x.2.1 := by
    intro y hy
    obtain ⟨x, hx, rfl⟩ := List.mem_map.mp hy
    exact ⟨x, List.mem_of_mem_filter hx, rfl, rfl⟩
  have hry : ∀ y ∈ ys, y.2.1 = r := fun y hy => by
    obtain ⟨x, hx, -, h2⟩ := hys y hy
    rw [h2, hr x hx]
  have hpy : ∀ y ∈ ys, (s.ticket? y.1.n).isSome = true := fun y hy => by
    obtain ⟨x, hx, h1, -⟩ := hys y hy
    rw [h1, hp x hx]
  have hhy : ∀ y ∈ ys, y.1.owner.isHost = true := fun y hy => by
    obtain ⟨x, hx, h1, -⟩ := hys y hy
    rw [h1, hh x hx]
  obtain ⟨-, hall⟩ := State.marks_end ys s hry hpy
  have h2 : s2.tickets = s1.tickets := by
    dsimp only [s2]
    cases hc : host
    · rfl
    · exact s1.fireDone_tickets _ _
  have h3 : s3.tickets = s2.tickets := by
    dsimp only [s3]
    cases hc : bad
    · rfl
    · exact s2.fireFail_tickets _ _
  have h4 : s4.tickets = s3.tickets := by
    refine List.foldlRecOn (motive := fun u : State => u.tickets = s3.tickets) ys _ rfl fun u hu y hy => ?_
    unfold State.deliver
    split
    · exact (u.push_tickets _ _).trans hu
    next hne =>
      have hhost := hhy y hy
      cases ho : y.1.owner with
      | host p => exact absurd ho (hne p)
      | order k => rw [ho] at hhost; cases hhost
      | link => rw [ho] at hhost; cases hhost
  have hend : ∀ y ∈ ys, s4.EndedAs y.1.n r := fun y hy => (hall y hy).of_tickets (h4.trans (h3.trans h2))
  have h5 : s5 = s4 := by
    dsimp only [s5]
    split
    next y hy =>
      obtain ⟨z, hz, -⟩ := hend y (List.mem_of_find?_eq_some hy)
      unfold State.lineAfter
      exact if_neg (by simp [hz])
    next => rfl
  have hmem : (x.1, x.2.1, x.2.2 ++ [edTok s (queueUnit x.1.queue)]) ∈ ys :=
    List.mem_map.mpr ⟨x, List.mem_filter.mpr ⟨hx, hl⟩, rfl⟩
  rw [h5]
  exact (hend _ hmem).of_tickets (State.settled_tickets _ _)

theorem State.ticket_of_mem_pool {s : State} {x : Ticket} (h : x ∈ s.tickets.pool) : (s.ticket? x.n).isSome = true := by
  unfold State.ticket?
  rw [List.find?_isSome]
  exact ⟨x, h, beq_self_eq_true _⟩

theorem State.undos_tickets (ts : List Ticket) (r : Result) (s : State) :
    (ts.foldl (fun s t => s.undo t r) s).tickets = s.tickets :=
  List.foldlRecOn (motive := fun u : State => u.tickets = s.tickets) ts _ rfl
    fun u hu x _ => (u.undo_tickets x r).trans hu

/-- The unstarted tickets that the host cancels together end as cancelled. -/
theorem State.endAll_ends {s : State} {ts : List Ticket} {r : Result} {fs : List Tok}
    (hp : ∀ x ∈ ts, (s.ticket? x.n).isSome = true) (hh : ∀ x ∈ ts, x.owner.isHost = true) {x : Ticket} (hx : x ∈ ts)
    (hl : x.live = true) : (s.endAll ts r fs).EndedAs x.n r := by
  unfold State.endAll
  refine State.completeAll_ends (x := (x, r, fs)) ?_ ?_ ?_ (List.mem_map.mpr ⟨x, hx, rfl⟩) hl
  · exact List.forall_mem_map.mpr fun _ _ => rfl
  · refine List.forall_mem_map.mpr fun y hy => ?_
    rw [State.ticket_of_tickets (State.undos_tickets ts r s)]
    exact hp y hy
  · exact List.forall_mem_map.mpr hh

/-! #### Undoing what an unstarted ticket has done -/

theorem State.unschedule_besideReply (s : State) : s.unschedule.besideReply = s.besideReply.unschedule.besideReply := by
  unfold State.unschedule
  have hp : s.besideReply.ledger = s.ledger := rfl
  rw [hp]
  cases s.ledger.pend with
  | none => rfl
  | some b =>
    unfold State.journal State.rowWrite
    cases hrows : s.rows with
    | nil => simp only [State.besideReply, hrows]; rfl
    | cons y ys => simp only [State.besideReply, hrows]; rfl

/-- What a ticket's end undoes does not look at the ports. -/
theorem State.undo_besideReply (s : State) (x : Ticket) (r : Result) :
    (s.undo x r).besideReply = (s.besideReply.undo x r).besideReply := by
  unfold State.undo
  split
  · rfl
  · rfl
  · rw [show s.besideReply.ledger = s.ledger from rfl]
    split
    · exact s.unschedule_besideReply
    · rfl
  · cases r == Result.state <;> rfl
  · rfl

theorem State.undo_congr {s t : State} (h : t.besideReply = s.besideReply) (x : Ticket) (r : Result) :
    (t.undo x r).besideReply = (s.undo x r).besideReply := by
  rw [t.undo_besideReply, h, ← s.undo_besideReply]

/-! #### The mode of a port -/

/-- A word whose bit is set to b. -/
theorem toNat_setFld_bit5 (v : Word) (b : Bool) :
    (setFld v 5 5 (b2n b)).toNat = v.toNat - v.toNat / 32 % 2 * 32 + b2n b * 32 := by
  have hv := v.isLt
  unfold setFld fld
  cases b <;> simp only [b2n, BitVec.toNat_add, BitVec.toNat_sub, BitVec.toNat_ofNat] <;> norm_num <;> omega

theorem toNat_setFld_bit6 (v : Word) (b : Bool) :
    (setFld v 6 6 (b2n b)).toNat = v.toNat - v.toNat / 64 % 2 * 64 + b2n b * 64 := by
  have hv := v.isLt
  unfold setFld fld
  cases b <;> simp only [b2n, BitVec.toNat_add, BitVec.toNat_sub, BitVec.toNat_ofNat] <;> norm_num <;> omega

theorem bit_setFld_bit5 (v : Word) (b : Bool) : bit (setFld v 5 5 (b2n b)) 5 = b := by
  unfold bit fld
  rw [toNat_setFld_bit5]
  cases b <;> simp only [b2n] <;> norm_num <;> omega

theorem bit_setFld_bit6 (v : Word) (b : Bool) :
    bit (setFld v 6 6 (b2n b)) 6 = b ∧ bit (setFld v 6 6 (b2n b)) 5 = bit v 5 := by
  unfold bit fld
  rw [toNat_setFld_bit6]
  constructor
  · cases b <;> simp only [b2n] <;> norm_num <;> omega
  · refine decide_eq_decide.mpr ?_
    cases b <;> simp only [b2n] <;> norm_num <;> omega

/-- The mode and the hold of a port read back as they were put. -/
theorem State.putMode_reads (s : State) {p : Port} {m : Bool} (h : Bool) (hm : p = .chute → m = true) :
    (s.putMode p m h).framed p = m ∧ (s.putMode p m h).holdOn p = h := by
  cases p with
  | desk =>
    have hcfg : (s.putMode .desk m h).cfg.desk.desk = setFld (setFld s.cfg.desk.desk 5 5 (b2n m)) 6 6 (b2n h) := by
      unfold State.putMode State.newMode
      dsimp only
      split <;> exact (State.putDesk_puts s _).1
    unfold State.framed State.holdOn
    simp only [hcfg]
    exact ⟨(bit_setFld_bit6 _ h).2.trans (bit_setFld_bit5 _ m), (bit_setFld_bit6 _ h).1⟩
  | chute =>
    have hcfg : (s.putMode .chute m h).cfg.desk.chute = setFld s.cfg.desk.chute 6 6 (b2n h) := by
      unfold State.putMode
      dsimp only
      split
      next heq => exact heq.symm
      next => rfl
    refine ⟨(hm rfl).symm, ?_⟩
    unfold State.holdOn
    simp only [hcfg]
    exact (bit_setFld_bit6 _ h).1

/-- A change of mode queues nothing. -/
theorem State.putMode_out (s : State) (p : Port) (m h : Bool) (q : Port) :
    ((s.putMode p m h).port q).out = (s.port q).out := by
  cases p with
  | desk =>
    have hdesk (u : State) (was : Bool) : ((u.newMode was true).port q).out = (u.port q).out := by
      unfold State.newMode
      split
      · rfl
      · cases q with
        | desk => exact u.dport.reread_out _ _
        | chute => rfl
    refine (hdesk _ _).trans ?_
    cases q with
    | desk => exact congrArg PortSt.out (s.putDesk_ports _).1
    | chute => exact congrArg PortSt.out (s.putDesk_ports _).2
  | chute =>
    unfold State.putMode
    dsimp only
    split <;> rfl

theorem State.putMode_tickets (s : State) (p : Port) (m h : Bool) : (s.putMode p m h).tickets = s.tickets := by
  cases p with
  | desk =>
    have hput (v : Word) : (s.putDesk v).tickets = s.tickets := by
      unfold State.putDesk
      split <;> rfl
    unfold State.putMode State.newMode
    dsimp only
    split <;> exact hput _
  | chute =>
    unfold State.putMode
    dsimp only
    split <;> rfl

/-- Storing the mode queues a row write and leaves ports, tickets and registers. -/
theorem State.saveMode_keeps (s : State) (p : Port) :
    SamePorts s (s.saveMode p) ∧ (s.saveMode p).tickets = s.tickets ∧ (s.saveMode p).cfg = s.cfg := by
  have hsave (xs : List (CfgReg × Word)) :
      SamePorts s (s.saveAs xs) ∧ (s.saveAs xs).tickets = s.tickets ∧ (s.saveAs xs).cfg = s.cfg := by
    obtain ⟨r, st, pw, rows, heq⟩ := s.rowWrites_frame (regRows xs) none
    unfold State.saveAs
    rw [heq]
    exact ⟨⟨rfl, rfl⟩, rfl, rfl⟩
  cases p <;> exact hsave _

/-! #### Results that were held -/

/-- One held result is sent. -/
def State.flushOne (p : Port) (s : State) (x : Ticket) : State :=
  (s.updTicket x.n (fun t => { t with st := .complete })).push p
    { kind := .dn x.n, tag := x.tag, toks := dnToks x.n (x.result.getD .done) x.fields, block := x.block }

theorem State.holdFlush_eq (s : State) (p : Port) (was : Bool) : s.holdFlush p was =
    if was && !s.holdOn p then
      ((s.heldOf p).filter (fun t => !((s.port p).out.any (fun x => decide (x.kind = .ret t.n))))).foldl
        (State.flushOne p) s
    else s := rfl

/-- Ticket n stands complete. -/
def State.Stands (s : State) (n : Nat) : Prop := ∃ y, s.ticket? n = some y ∧ y.st = .complete

theorem State.flushOne_ticket (p : Port) (s : State) (x : Ticket) (n : Nat) :
    (State.flushOne p s x).ticket? n =
      (s.ticket? n).map (fun y => if y.n = x.n then { y with st := .complete } else y) := by
  unfold State.flushOne
  rw [State.ticket_of_tickets (State.push_tickets _ _ _)]
  exact s.ticket_updTicket x.n n _ (fun _ => rfl)

theorem State.flushes_stand (p : Port) (xs : List Ticket) (s : State)
    (hp : ∀ x ∈ xs, (s.ticket? x.n).isSome = true) :
    (∀ n, s.Stands n → (xs.foldl (State.flushOne p) s).Stands n) ∧ ∀ x ∈ xs, (xs.foldl (State.flushOne p) s).Stands x.n := by
  induction xs generalizing s with
  | nil => exact ⟨fun _ => id, fun y hy => absurd hy List.not_mem_nil⟩
  | cons x xs ih =>
    obtain ⟨px, pxs⟩ := List.forall_mem_cons.mp hp
    obtain ⟨hkeep, hall⟩ := ih (State.flushOne p s x) fun y hy => by
      rw [State.flushOne_ticket, Option.isSome_map]
      exact pxs y hy
    refine ⟨fun n hn => hkeep n ?_, List.forall_mem_cons.mpr ⟨hkeep _ ?_, hall⟩⟩
    · obtain ⟨y, hy, hst⟩ := hn
      refine ⟨_, by rw [State.flushOne_ticket, hy, Option.map_some], ?_⟩
      split
      · rfl
      · exact hst
    · obtain ⟨y, hy⟩ := Option.isSome_iff_exists.mp px
      exact ⟨_, by rw [State.flushOne_ticket, hy, Option.map_some, if_pos (State.n_of_ticket hy)], rfl⟩

/-- Sending what was held leaves all but tickets and output. -/
theorem State.holdFlush_keeps (s : State) (p : Port) (was : Bool) :
    (s.holdFlush p was).besideTickets = s.besideTickets := by
  rw [State.holdFlush_eq]
  split
  · refine List.foldlRecOn (motive := fun u : State => u.besideTickets = s.besideTickets) _ _ rfl fun u hu x _ => ?_
    exact (State.push_besideTickets _ _ _).trans hu
  · rfl

theorem State.heldOf_of_tickets {s t : State} (h : t.tickets = s.tickets) (p : Port) : t.heldOf p = s.heldOf p := by
  unfold State.heldOf
  rw [h]

theorem State.ticket_of_held {s : State} {p : Port} {x : Ticket} (h : x ∈ s.heldOf p) : (s.ticket? x.n).isSome = true := by
  unfold State.heldOf at h
  rw [List.mem_insertionSort] at h
  exact State.ticket_of_mem_pool (List.mem_of_mem_filter h)

/-- A result held, with no RET of it on its way, stands complete once HOLD is off. -/
theorem State.holdFlush_stands {s : State} {p : Port} (hoff : s.holdOn p = false) {x : Ticket} (hx : x ∈ s.heldOf p)
    (hret : (s.port p).out.any (fun o => decide (o.kind = .ret x.n)) = false) : (s.holdFlush p true).Stands x.n := by
  rw [State.holdFlush_eq, if_pos (by simp [hoff])]
  exact (State.flushes_stand p _ s fun y hy => State.ticket_of_held (List.mem_of_mem_filter hy)).2 x
    (List.mem_filter.mpr ⟨hx, by rw [hret]; rfl⟩)

/-! #### The lines -/

/-- A port's line is answered by one line behind what its port holds. -/
theorem State.ok_port {s : State} {l : Line} {p : Port} (h : l.origin = .port p) (ts : List Tok) :
    s.ok l ts = s.push p { kind := .reply true, tag := l.tag, toks := w "OK" :: ts } := by
  unfold State.ok State.replyLines
  rw [h]
  rfl

theorem State.ok_ret {s : State} {l : Line} {p : Port} (h : l.origin = .port p) (ts : List Tok) (n : Nat) :
    ((s.ok l ts).port p).out.any (fun o => decide (o.kind = .ret n)) =
      (s.port p).out.any (fun o => decide (o.kind = .ret n)) := by
  rw [State.ok_port h, State.push_port]
  simp

theorem State.ok_tickets (s : State) (l : Line) (ts : List Tok) : (s.ok l ts).tickets = s.tickets := by
  unfold State.ok State.replyLines
  split
  · rfl
  · refine List.foldlRecOn (motive := fun u : State => u.tickets = s.tickets) _ _ rfl fun u hu x _ => ?_
    exact (State.push_tickets _ _ _).trans hu

theorem State.ok_besideTickets (s : State) (l : Line) (ts : List Tok) :
    (s.ok l ts).besideTickets = s.besideTickets :=
  State.besideTickets_of_events (State.besideEvents_of_reply (s.ok_besideReply l ts []))

/-- EVENT CLEAR clears the pending bits that no condition holds, and is answered. -/
def State.eventCleared (s : State) (l : Line) (all : Bool) (n : Nat) : State :=
  (s.clearPend (if all then BitVec.allOnes 128 else (1 : BitVec 128) <<< n)).ok l
    (if all then [w "EVENT", w "CLEAR", w "ALL", kd "count" s.pendingList.length] else [w "EVENT", w "CLEAR", n' n])

theorem execEventClear_eq {l : Line} (s : State)
    (h : ((l.at? 0) == some (.word "ALL") || ((l.at? 0).bind eventOf).isSome) = true) :
    execEventClear l s = runLine { minPos := 1, pos := [("event", .any)] } l s
      (if (l.at? 0) == some (.word "ALL") then [] else s.eventErs "event" (l.at? 0))
      (fun t => (t.eventCleared l ((l.at? 0) == some (.word "ALL")) (((l.at? 0).bind eventOf).getD 0)).waitCheck) := by
  unfold execEventClear State.eventCleared
  dsimp only
  cases hall : (l.at? 0) == some (.word "ALL") with
  | true => rfl
  | false =>
    rw [hall, Bool.false_or] at h
    obtain ⟨n, hn⟩ := Option.isSome_iff_exists.mp h
    rw [hn]
    rfl

theorem State.clearPend_besideTickets (s : State) (m : BitVec 128) : (s.clearPend m).besideTickets = s.besideTickets :=
  State.besideTickets_of_events (State.attnFollow_besideEvents _)

theorem State.clearPend_outLe (s : State) (m : BitVec 128) : s.OutLe (s.clearPend m) :=
  .of_eq (s.clearPend_ports m).1 (s.clearPend_ports m).2

theorem State.waitCheck_of_none {s : State} (h : ∀ e c, s.orders.run.map (·.await) ≠ some (.waitClear e c)) :
    s.waitCheck = s := by
  unfold State.waitCheck
  split
  next e c heq => exact absurd heq (h e c)
  next => rfl

theorem State.run_of_besideReply {s t : State} (h : t.besideReply = s.besideReply) : t.orders.run = s.orders.run :=
  (congrArg (fun u : State => u.orders.run) h : t.besideReply.orders.run = s.besideReply.orders.run)

theorem State.quiet_of_besideReply {s t : State} (h : t.besideReply = s.besideReply) : t.quiet = s.quiet :=
  State.quiet_of_pwr (congrArg State.pwr h : t.besideReply.pwr = s.besideReply.pwr)

/-- EVENT CLEAR, once the line is taken. -/
theorem State.eventCleared_does (s : State) (l : Line) (all : Bool) (n : Nat) :
    let m : BitVec 128 := if all then BitVec.allOnes 128 else (1 : BitVec 128) <<< n
    let t := (s.eventCleared l all n).waitCheck
    Said.By s t l (if all then okLine [w "EVENT", w "CLEAR", w "ALL", kd "count" s.pendingList.length]
      else okLine [w "EVENT", w "CLEAR", n' n]) ∧ t.besideTickets = s.besideTickets ∧
    ((∀ e c, s.orders.run.map (·.await) ≠ some (.waitClear e c)) → t.besideReply = (s.clearPend m).besideReply) := by
  intro m t
  have hreply : (s.eventCleared l all n).besideReply = (s.clearPend m).besideReply := State.ok_besideReply _ _ _ _
  have hrest := State.Aside.waitCheck (s.eventCleared l all n)
  refine ⟨?_, ?_, fun hrun => ?_⟩
  · have hsaid := Said.By.of_ok (s.clearPend_outLe _) hrest.out
    cases all <;> exact hsaid
  · exact hrest.beside.trans ((State.ok_besideTickets _ _ _).trans (s.clearPend_besideTickets m))
  · have horders : (s.eventCleared l all n).orders.run = s.orders.run :=
      (State.run_of_besideReply hreply).trans (congrArg OrdersSt.run (State.attnFollow_orders _))
    have hw : t = s.eventCleared l all n := State.waitCheck_of_none (by rw [horders]; exact hrun)
    rw [hw]
    exact hreply

/-- A reply, and then an event. -/
theorem State.ok_fire_does (s : State) (l : Line) (ts : List Tok) (n : Nat) (fs : List Tok) :
    Said.By s ((s.ok l ts).fire n fs) l (okLine ts) ∧ (s.quiet = false → ((s.ok l ts).fire n fs).pends n) ∧
      ((s.ok l ts).fire n fs).besideEvents = s.besideEvents := by
  have hreply := s.ok_besideReply l ts []
  exact ⟨.of_ok (.refl s) (State.fire_outLe _ _ _),
    fun hq => State.pends_fire ((State.quiet_of_besideReply hreply).trans hq),
    (State.fire_besideEvents _ _ _).trans (State.besideEvents_of_reply hreply)⟩

/-- What a claim says of the output since a line was taken, it says of the output since before. -/
theorem Said.By.of_took {s t : State} {l : Line} {ts : List Tok} (h : Said.By (s.took l.origin) t l ts) :
    Said.By s t l ts := by
  unfold Said.By at h ⊢
  cases ho : l.origin with
  | order k => trivial
  | port p =>
    rw [ho] at h
    obtain ⟨mid, x, post, hout, hx⟩ := h
    exact ⟨mid, x, post, by rw [hout, s.took_out], hx⟩

/-- MODE, once the line is taken. -/
theorem State.mode_does (s : State) {l : Line} {p : Port} (ho : l.origin = .port p) {m : Bool} (h was : Bool)
    (hm : p = .chute → m = true) (ts : State → List Tok) :
    let put := s.putMode p m h
    let saved := if l.save then put.saveMode p else put
    let t := (saved.ok l (ts saved)).holdFlush p was
    Said.By s t l (okLine (ts saved)) ∧ t.framed p = m ∧ t.holdOn p = h ∧ t.besideTickets = saved.besideTickets ∧
    ((was = true → h = true) → t.besideReply = saved.besideReply) ∧
    (was = true → h = false → ∀ x, x ∈ s.heldOf p → (s.port p).out.any (fun o => decide (o.kind = .ret x.n)) = false →
      ∃ y, t.ticket? x.n = some y ∧ y.st = .complete) := by
  intro put saved t
  have hsaved : SamePorts put saved ∧ saved.tickets = put.tickets ∧ saved.cfg = put.cfg := by
    dsimp only [saved]
    split
    · exact put.saveMode_keeps p
    · exact ⟨⟨rfl, rfl⟩, rfl, rfl⟩
  obtain ⟨hports, htickets, hcfg⟩ := hsaved
  have hout (q : Port) : (saved.port q).out = (s.port q).out := by
    refine Eq.trans ?_ (s.putMode_out p m h q)
    cases q with
    | desk => exact congrArg PortSt.out hports.1
    | chute => exact congrArg PortSt.out hports.2
  have hreply := saved.ok_besideReply l (ts saved) []
  have hcfg' : (saved.ok l (ts saved)).cfg = put.cfg :=
    (congrArg State.cfg hreply : (saved.ok l (ts saved)).besideReply.cfg = saved.besideReply.cfg).trans hcfg
  have hbeside : t.besideTickets = saved.besideTickets :=
    (State.holdFlush_keeps _ _ _).trans (State.ok_besideTickets _ _ _)
  have htcfg : t.cfg = put.cfg := (congrArg State.cfg hbeside : t.besideTickets.cfg = saved.besideTickets.cfg).trans hcfg
  obtain ⟨hframed, hhold⟩ := s.putMode_reads h hm
  have hhold' : (saved.ok l (ts saved)).holdOn p = h := (State.holdOn_of_cfg hcfg' p).trans hhold
  refine ⟨.of_ok (.of_keeps hout) (State.holdFlush_outLe _ _ _), ?_, (State.holdOn_of_cfg htcfg p).trans hhold, hbeside,
    fun hw => ?_, fun hw hoff x hx hret => ?_⟩
  · exact (congrFun (State.framed_of_cfg htcfg) p).trans hframed
  · have ht : t = saved.ok l (ts saved) := by
      refine (State.holdFlush_eq _ _ _).trans (if_neg ?_)
      rw [hhold']
      cases was
      · exact Bool.false_ne_true
      · rw [hw rfl]; exact Bool.false_ne_true
    rw [ht]
    exact hreply
  · subst hw
    refine State.holdFlush_stands (hhold'.trans hoff) ?_ ?_
    · rwa [State.heldOf_of_tickets (((saved.ok_tickets l _).trans htickets).trans (s.putMode_tickets p m h))]
    · rw [State.ok_ret ho, hout]
      exact hret

/-- EVENT RAISE answers and fires its event. -/
theorem eventRaise_does (l : Line) (s : State) :
    let n := ((l.at? 0).bind eventOf).getD 0
    Does (.eventRaise l) s { minPos := 1, pos := [("event", .any)] } l
      (s.eventErs "event" (l.at? 0) ++ erIf (decide (n < 115) || decide (119 < n)) (erRange "event"))
      (fun t => Said.By s t l (okLine [w "EVENT", w "RAISE", n' n]) ∧ (s.quiet = false → t.pends n) ∧
        t.besideEvents = s.besideEvents) := by
  intro n
  have hexec : exec (.eventRaise l) s = execEventRaise l s := rfl
  unfold execEventRaise at hexec
  refine does_of_runLine hexec fun _ => ?_
  have h (fs : List Tok) := (s.took l.origin).ok_fire_does l [w "EVENT", w "RAISE", n' n] n fs
  exact ⟨(h _).1.of_took, fun hq => (h _).2.1 ((State.quiet_of_besideReply (s.took_besideReply _)).trans hq),
    (h _).2.2.trans (s.took_besideEvents _)⟩

/-- The errors of the word that MODE names. -/
def modeErs (l : Line) (p : Port) : List Er :=
  match l.at? 0 with
  | some (.word x) => erIf (!(["TYPED", "FRAMED"].contains x)) ⟨"UNKNOWN", [x]⟩ ++
      erIf (decide (p = .chute) && x == "TYPED") (erRange "TYPED")
  | some _ => [erExtra]
  | none => []

/-- At the Chute an accepted MODE is framed. -/
theorem framed_of_modeErs {l : Line} (h : modeErs l .chute = []) (s : State) :
    (match l.posWord? 0 with | some x => x == "FRAMED" | none => s.framed .chute) = true := by
  unfold modeErs at h
  unfold Line.at? at h
  unfold Line.posWord?
  cases ha : l.pos[0]? with
  | none => rfl
  | some a =>
    rw [ha] at h
    cases a with
    | word x =>
      obtain ⟨h1, h2⟩ := List.append_eq_nil_iff.mp h
      simp [erIf] at h1 h2
      simp only [Option.bind_some, argWord, beq_iff_eq]
      tauto
    | _ => cases h

/-- MODE puts the mode and the hold of its port, is answered, and sends what was held where HOLD goes off. -/
theorem mode_line_does (l : Line) (s : State) {p : Port} (hp : l.origin = .port p) :
    let m : Bool := match l.posWord? 0 with | some x => x == "FRAMED" | none => s.framed p
    let h := (l.on? "hold").getD (s.holdOn p)
    Does (.mode l) s
      { order := false, pos := [("mode", .any)], keys := [("hold", .word ["ON", "OFF"]), saveKey] } l
      (modeErs l p ++ erIf (!m && h && decide (p = .desk)) (erRange "hold"))
      (fun t =>
        let put := (s.took l.origin).putMode p m h
        let saved := if l.save then put.saveMode p else put
        Said.By s t l (okLine [w "MODE", w (if m then "FRAMED" else "TYPED"), kw "hold" (onOff h), edTok saved (portUnit p)]) ∧
        t.framed p = m ∧ t.holdOn p = h ∧ t.besideTickets = saved.besideTickets ∧
        ((s.holdOn p = true → h = true) → t.besideReply = saved.besideReply) ∧
        (s.holdOn p = true → h = false → ∀ x, x ∈ s.heldOf p →
          (s.took l.origin |>.port p).out.any (fun o => decide (o.kind = .ret x.n)) = false →
          ∃ y, t.ticket? x.n = some y ∧ y.st = .complete)) := by
  intro m h
  have hexec : exec (.mode l) s = execMode l s := rfl
  unfold execMode at hexec
  rw [hp] at hexec
  refine does_of_runLine hexec fun ha => ?_
  have hm : p = .chute → m = true := by
    rintro rfl
    exact framed_of_modeErs (List.append_eq_nil_iff.mp ha.verb).1 s
  have hhold : (s.took l.origin).holdOn p = s.holdOn p := by
    obtain ⟨d, c, k, took⟩ := s.took_eq l.origin
    rw [took]
    cases p <;> rfl
  obtain ⟨hsaid, hframed, hholds, hbeside, hreply, hflush⟩ :=
    (s.took l.origin).mode_does hp h ((s.took l.origin).holdOn p) hm
      (fun saved => [w "MODE", w (if m then "FRAMED" else "TYPED"), kw "hold" (onOff h), edTok saved (portUnit p)])
  exact ⟨hsaid.of_took, hframed, hholds, hbeside, fun hw => hreply fun hw' => hw (hhold ▸ hw'),
    fun hw hoff x hx => hflush (hhold.trans hw) hoff x (by rwa [State.heldOf_of_tickets (s.took_tickets _)])⟩

/-- CANCEL ALL is answered and ends the unstarted tickets that the line may cancel. -/
theorem cancelAll_does (l : Line) (s : State) :
    Does (.cancelAll l) s {} l []
      (fun t => Said.By s t l (okLine [w "CANCEL", w "ALL", kd "count" (s.cancellable l.origin).length]) ∧
        (∀ p x, l.origin = .port p → s.ticket? x.n = some x → x.unstarted = true → mayCancel l.origin x.owner = true →
          ∃ y, t.ticket? x.n = some y ∧ y.st = .complete ∧ y.result = some .cancelled)) := by
  have hexec : exec (.cancelAll l) s = execCancelAll l s := rfl
  unfold execCancelAll at hexec
  refine does_of_runLine hexec fun _ => ?_
  have hts : (s.took l.origin).cancellable l.origin = s.cancellable l.origin := by
    unfold State.cancellable
    rw [s.took_tickets]
  dsimp only
  rw [hts]
  refine ⟨.of_took (.of_ok (.refl _) (State.endAll_outLe _ _ _ _)), fun p x ho hx hu hm => ?_⟩
  have htickets := ((s.took l.origin).ok_tickets l
    [w "CANCEL", w "ALL", kd "count" (s.cancellable l.origin).length]).trans (s.took_tickets l.origin)
  refine State.endAll_ends (fun y hy => ?_) (fun y hy => ?_) (x := x) ?_ (Ticket.live_of_unstarted hu)
  · rw [State.ticket_of_tickets htickets]
    exact State.ticket_of_mem_pool (List.mem_of_mem_filter hy)
  · obtain ⟨-, hy⟩ := List.mem_filter.mp hy
    rw [ho, Bool.and_eq_true] at hy
    cases hown : y.owner <;> rw [hown] at hy
    · rfl
    · cases hy.2
    · cases hy.2
  · exact List.mem_filter.mpr ⟨List.mem_of_find?_eq_some hx, by rw [hu, hm]; rfl⟩

/-- The switch as the cancelling of SSW ON leaves it. -/
def State.switchedOff (s : State) : State := ({ s with ssw := { s.ssw with limit := false } }).sswTo .off

theorem State.switchedOff_keeps (s : State) :
    s.switchedOff.tickets = s.tickets ∧ s.switchedOff.ssw = { s.ssw with limit := false, st := .off, ramped := false } := by
  have hp := State.padFollow_besideEvents
    (State.bump { s with ssw := { s.ssw with limit := false, st := .off, ramped := false } } .ssw)
  exact ⟨State.padFollow_tickets _, congrArg State.ssw hp⟩

/-- What cancelling a ticket does, by what the ticket is and how it stands. -/
theorem State.cancelTicket_does {s : State} {x : Ticket} (hx : s.ticket? x.n = some x) (by_ : String) :
    (x.unstarted = true → (∃ ed, Completed (s.cancelTicket x by_) x .cancelled [kw "by" by_] ed) ∧
      (s.cancelTicket x by_).besideTickets = (s.undo x .cancelled).besideTickets) ∧
    (x.st = .running → s.interruptible x = true → match x.op with
      | .rawCapture _ => (∃ ed, Completed (s.cancelTicket x by_) x .cancelled [kw "by" by_] ed) ∧
          (s.cancelTicket x by_).besideTickets = s.besideTickets
      | .collateFeed c _ _ => (∃ ed, Completed (s.cancelTicket x by_) x .cancelled [kw "by" by_, kd "n" (s.col c).fed] ed) ∧
          (s.cancelTicket x by_).besideTickets = s.besideTickets
      | .sswOn => (∃ ed, Completed (s.cancelTicket x by_) x .cancelled [kw "by" by_] ed) ∧
          (s.cancelTicket x by_).ssw.st = .off ∧ (s.cancelTicket x by_).ssw.limit = false
      | _ => True) := by
  refine ⟨fun hu => ?_, fun hr hi => ?_⟩
  · have heq : s.cancelTicket x by_ = s.endUnstarted x .cancelled [kw "by" by_] := if_pos hu
    rw [heq]
    exact ⟨State.endUnstarted_completed _ _ hx (Ticket.live_of_unstarted hu), (State.Aside.complete _ _ _ _ _).beside⟩
  · have hl : x.live = true := by simp [Ticket.live, hr]
    have heq : s.cancelTicket x by_ = s.cancelRunning x by_ := by
      unfold State.cancelTicket
      rw [if_neg (by simp [Ticket.unstarted, hr]), if_pos (by simp [hl, hi])]
    rw [heq]
    unfold State.cancelRunning
    cases x.op <;> dsimp only <;> try trivial
    · exact ⟨⟨_, s.complete_completed x _ _ [] hx hl⟩, (State.Aside.complete _ _ _ _ _).beside⟩
    · exact ⟨⟨_, s.complete_completed x _ _ [] hx hl⟩, (State.Aside.complete _ _ _ _ _).beside⟩
    · obtain ⟨htickets, hssw⟩ := s.switchedOff_keeps
      have hdone := State.Aside.complete s.switchedOff x.n .cancelled [kw "by" by_] []
      exact ⟨⟨_, s.switchedOff.complete_completed x _ _ [] ((State.ticket_of_tickets htickets _).trans hx) hl⟩,
        (congrArg SswSt.st (hdone.ssw.trans hssw) :), (congrArg SswSt.limit (hdone.ssw.trans hssw) :)⟩

/-- The answer of one reply is the same with and without a block. -/
theorem answers_of_block {c : Instr} {s : State} {f : Form} {l : Line} {es : List Er} {act : State → State}
    {ls : State → List (List Tok)} {b : Bool} (h : Answers c s f l es false act ls b) : Answers c s f l es false act ls := by
  refine ⟨fun ha => ?_, h.2⟩
  obtain ⟨t, ht, hans, hrest⟩ := h.1 ha
  refine ⟨t, ht, ?_, hrest⟩
  unfold Answered at hans ⊢
  cases ho : l.origin <;> rw [ho] at hans <;> exact hans

/-- RET answers with the held result, whose block goes with it. -/
theorem ret_answers (l : Line) (s : State) {n : Nat} {x : Ticket} (hn : l.posNat? 0 = some n) (hx : s.ticket? n = some x) :
    Answers (.ret l) s { order := false, minPos := 1, pos := [("n", .int 0 511)] } l
      (s.noHold l.origin ++ s.retErs l.origin n) false id
      (fun _ => [[w "OK", w "RET", n' x.n, w ((x.result.map Result.name).getD "")] ++ x.fields]) := by
  have hexec : exec (.ret l) s = execRet l s := rfl
  unfold execRet at hexec
  rw [hn] at hexec
  have hact : (fun s : State => match s.ticket? n with
      | some t => s.replyLines l (.ret n) false [retToks t] t.block
      | none => s) (s.took l.origin) =
      (fun u : State => u.replyLines l (.ret n) false [retToks x] x.block) (s.took l.origin) := by
    simp only [State.ticket_of_tickets (s.took_tickets l.origin), hx]
  exact answers_of_block (runLine_answers false id (fun _ => [retToks x]) (.ret n) x.block
    (hexec.trans (runLine_congr hact)) rfl rfl (fun hm => absurd hm Bool.false_ne_true))

/-- RET ALL answers with every held result, and then their number. -/
theorem retAll_answers (l : Line) (s : State) {p : Port} (hp : l.origin = .port p) :
    Answers (.retAll l) s { noun := true, order := false } l (erIf (!s.holdOn p) (erState (portName p) "NOHOLD")) false id
      (fun _ => (s.heldOf p).map (fun x => [w "OK", w "RET", n' x.n, w ((x.result.map Result.name).getD "")] ++ x.fields) ++
        [[w "OK", w "END", n' (s.heldOf p).length]]) := by
  have hexec : exec (.retAll l) s = execRetAll l s := rfl
  unfold execRetAll State.noHold at hexec
  rw [hp] at hexec
  refine ⟨fun ha => ⟨_, hexec.trans (runLine_accepts ha _), ?_⟩, fun e hl hk he => hexec.trans (runLine_refuses hl hk he _)⟩
  dsimp only [originPort]
  rw [State.heldOf_of_tickets (s.took_tickets l.origin)]
  unfold Answered
  rw [hp]
  refine ⟨⟨?_, ?_, fun q hq => ?_⟩, ?_⟩
  · rw [State.push_port, State.pushes_port, s.took_out]
    simp [State.replyBody, OutLine.says, retToks, Function.comp_def]
  · rw [State.push_port, State.pushes_port]
    exact s.took_lines p
  · rw [State.push_other _ _ hq, State.pushes_other _ _ _ hq, s.took_other hq]
  · rw [State.push_besideReply, State.pushes_besideReply]
    rfl

/-- What a cancelled ticket undoes, by its operation. -/
theorem State.undo_cancelled (s : State) (x : Ticket) : s.undo x .cancelled = match x.op with
    | .frameSend _ _ _ e => s.ringFree e
    | .linkWake _ _ _ e => s.ringFree e
    | .tariffSched _ _ => if s.ledger.pendTicket = some x.n then s.unschedule else s
    | _ => s := by
  unfold State.undo
  cases x.op with
  | trimRun is a b c => cases is <;> rfl
  | _ => rfl

/-- CANCEL, once the line is taken. -/
theorem State.cancel_does {l : Line} (s : State) {x : Ticket} (hx : (l.posNat? 0).bind s.ticket? = some x)
    (hn : x.n = (l.posNat? 0).getD 0) (hes : s.cancelErs l = []) :
    let t := (match (l.posNat? 0).bind (s.took l.origin).ticket? with
      | none => s.took l.origin
      | some t => ((s.took l.origin).ok l [w "CANCEL", n' t.n, w t.st.name]).cancelTicket t (byName l.origin))
    Said.By s t l (okLine [w "CANCEL", n' x.n, w x.st.name]) ∧
        (x.unstarted = true → (∃ ed, Completed t x .cancelled [kw "by" (byName l.origin)] ed) ∧
          t.besideTickets = State.besideTickets (match x.op with
            | .frameSend _ _ _ e => s.ringFree e
            | .linkWake _ _ _ e => s.ringFree e
            | .tariffSched _ _ => if s.ledger.pendTicket = some x.n then s.unschedule else s
            | _ => s)) ∧
        (x.st = .running → match x.op with
          | .rawCapture _ => (∃ ed, Completed t x .cancelled [kw "by" (byName l.origin)] ed) ∧ t.besideTickets = s.besideTickets
          | .collateFeed c _ _ => (∃ ed, Completed t x .cancelled [kw "by" (byName l.origin), kd "n" (s.col c).fed] ed) ∧
              t.besideTickets = s.besideTickets
          | .sswOn => (∃ ed, Completed t x .cancelled [kw "by" (byName l.origin)] ed) ∧ t.ssw.st = .off ∧ t.ssw.limit = false
          | _ => True) := by
  obtain ⟨m, hm, hxm⟩ := Option.bind_eq_some_iff.mp hx
  have hxn : s.ticket? x.n = some x := by
    rw [hn, hm]
    exact hxm
  have htook : (l.posNat? 0).bind (s.took l.origin).ticket? = some x := by
    rw [hm, Option.bind_some, State.ticket_of_tickets (s.took_tickets l.origin), hxm]
  have hrunning : x.st = .running → s.interruptible x = true := fun hr => by
    unfold State.cancelErs at hes
    simp only [hx] at hes
    have herr := (List.append_eq_nil_iff.mp hes).2
    simp [erIf, hr] at herr
    exact herr.2
  intro t
  have ht : t = ((s.took l.origin).ok l [w "CANCEL", n' x.n, w x.st.name]).cancelTicket x (byName l.origin) := by
    dsimp only [t]
    rw [htook]
  have hreply : ((s.took l.origin).ok l [w "CANCEL", n' x.n, w x.st.name]).besideReply = s.besideReply :=
    (State.ok_besideReply _ _ _ _).trans (s.took_besideReply _)
  have htickets := ((s.took l.origin).ok_tickets l [w "CANCEL", n' x.n, w x.st.name]).trans (s.took_tickets l.origin)
  rw [ht]
  refine ⟨.of_took (.of_ok (.refl _) (State.cancelTicket_outLe _ _ _)), ?_⟩
  generalize (s.took l.origin).ok l [w "CANCEL", n' x.n, w x.st.name] = u at hreply htickets ⊢
  have hbeside {a b : State} (h : a.besideReply = b.besideReply) : a.besideTickets = b.besideTickets :=
    State.besideTickets_of_events (State.besideEvents_of_reply h)
  have hcol (c : Nat) : u.col c = s.col c :=
    (congrArg (fun v : State => v.col c) hreply : u.besideReply.col c = s.besideReply.col c)
  have hint : u.interruptible x = s.interruptible x :=
    (congrArg (fun v : State => v.interruptible x) hreply : u.besideReply.interruptible x = s.besideReply.interruptible x)
  obtain ⟨hun, hrun⟩ := State.cancelTicket_does ((State.ticket_of_tickets htickets _).trans hxn) (byName l.origin)
  refine ⟨fun hu => ?_, fun hr => ?_⟩
  · refine ⟨(hun hu).1, (hun hu).2.trans ?_⟩
    rw [hbeside (State.undo_congr hreply x _), s.undo_cancelled]
  · have h := hrun hr (hint.trans (hrunning hr))
    cases hop : x.op <;> rw [hop] at h <;> dsimp only at h ⊢
    · exact ⟨h.1, h.2.trans (hbeside hreply)⟩
    · rw [← hcol]
      exact ⟨h.1, h.2.trans (hbeside hreply)⟩
    · exact h

end Sys2Proof.Machine

open State in
/-- Settles O18: each line's own effect surrounds its reply. -/
theorem queueAndEventLinesTakeEffect : Obligations.QueueAndEventLinesTakeEffect := by
  unfold Obligations.QueueAndEventLinesTakeEffect
  intro l s
  refine ⟨?_, ?_, fun p hp => ?_, fun x hx hn => ?_, ?_, fun n x hn hx => ?_, fun p hp => ?_⟩
  · intro all n m act h
    refine does_of_runLine (execEventClear_eq s h) fun _ => ?_
    obtain ⟨d, c, k, took⟩ := s.took_eq l.origin
    obtain ⟨hsaid, hbeside, hreply⟩ := (s.took l.origin).eventCleared_does l all n
    have hpend : (s.took l.origin).pendingList = s.pendingList := by
      rw [took]
      rfl
    rw [hpend] at hsaid
    refine ⟨hsaid.of_took, hbeside.trans (s.took_besideTickets _), fun hrun => hreply ?_⟩
    rw [run_of_besideReply (s.took_besideReply _)]
    exact hrun
  · exact eventRaise_does l s
  · exact mode_line_does l s hp
  · have hexec : exec (.cancel l) s = execCancel l s := rfl
    unfold execCancel at hexec
    exact does_of_runLine hexec fun ha => s.cancel_does hx hn ha.verb
  · exact cancelAll_does l s
  · exact ret_answers l s hn hx
  · exact retAll_answers l s hp

end

section

/-! ### DAY SET, LINK ASSOC by hand, TARIFF UNSCHED, NOISE RAW ON and VAULT SEAL (05_register_file R141, R142, 15_link R400,
16_ledger R441, R443, 18_noise_vault R475, R487) -/

open Sys2Proof Sys2Proof.Machine

namespace Sys2Proof.Machine

/-! #### The journal of the Ledger -/

/-- A write of a row of two copies changes the Record and the row writes that wait. -/
theorem State.rowWrite_twin_frame (s : State) (i : Nat) (patch : List (Nat × List Byte)) (j : Bool) (n : Option Nat) :
    ∃ r rows, s.rowWrite { what := .twin i patch, journal := j, last := n } = { s with record := r, rows := rows } := by
  unfold State.rowWrite
  split <;> exact ⟨_, _, rfl⟩

/-- A journal record changes the Record, the row writes that wait, and where the journal stands. -/
theorem State.journal_frame (s : State) (k : JKind) : ∃ r rows row seq j,
    s.journal k = { s with record := r, rows := rows, ledger := { s.ledger with row := row, seq := seq, journal := j } } := by
  unfold State.journal State.rowWrite
  dsimp only
  split <;> exact ⟨_, _, _, _, _, rfl⟩

/-- What a change of the interval leaves: all but the Ledger, its row writes, and what events change. -/
structure State.IntervalSet (s t : State) : Prop where
  day : t.day = s.day
  frame : t.frame = s.frame
  cfg : t.cfg = s.cfg
  store : t.store = s.store
  tickets : t.tickets = s.tickets
  pwr : t.pwr = s.pwr
  part : t.part = s.part
  out : s.OutLe t
  pend : s.PendLe t
  edition : ∀ u, u ≠ .orders → u ≠ .ledger → t.edition u = s.edition u

namespace State.IntervalSet

theorem refl (s : State) : s.IntervalSet s := ⟨rfl, rfl, rfl, rfl, rfl, rfl, rfl, .refl s, .refl s, fun _ _ _ => rfl⟩

theorem trans {s t u : State} (h : s.IntervalSet t) (k : t.IntervalSet u) : s.IntervalSet u :=
  ⟨k.day.trans h.day, k.frame.trans h.frame, k.cfg.trans h.cfg, k.store.trans h.store, k.tickets.trans h.tickets,
    k.pwr.trans h.pwr, k.part.trans h.part, h.out.trans k.out, h.pend.trans k.pend,
    fun u hu hl => (k.edition u hu hl).trans (h.edition u hu hl)⟩

theorem journal (s : State) (k : JKind) : s.IntervalSet (s.journal k) := by
  obtain ⟨r, rows, row, seq, j, h⟩ := s.journal_frame k
  rw [h]
  exact ⟨rfl, rfl, rfl, rfl, rfl, rfl, rfl, .of_eq rfl rfl, .of_eq rfl, fun _ _ _ => rfl⟩

theorem bump (s : State) : s.IntervalSet (s.bump .ledger) :=
  ⟨rfl, rfl, rfl, rfl, rfl, rfl, rfl, .of_eq rfl rfl, .of_eq rfl, fun u _ h => s.edition_bump_other .ledger u h⟩

theorem fire (s : State) (n : Nat) (fs : List Tok) : s.IntervalSet (s.fire n fs) := by
  have h := s.fire_besideEvents n fs
  exact ⟨(congrArg State.day h : (s.fire n fs).besideEvents.day = _), (congrArg State.frame h : (s.fire n fs).besideEvents.frame = _),
    (congrArg State.cfg h : (s.fire n fs).besideEvents.cfg = _), (congrArg State.store h : (s.fire n fs).besideEvents.store = _),
    s.fire_tickets n fs, (congrArg State.pwr h : (s.fire n fs).besideEvents.pwr = _),
    (congrArg State.part h : (s.fire n fs).besideEvents.part = _), s.fire_outLe n fs, s.fire_pendLe n fs,
    fun u hu _ => (State.Aside.fire s n fs).edition hu⟩

theorem ledger (s : State) (g : LedgerSt) : s.IntervalSet { s with ledger := g } :=
  ⟨rfl, rfl, rfl, rfl, rfl, rfl, rfl, .of_eq rfl rfl, .of_eq rfl, fun _ _ _ => rfl⟩

theorem condOff (s : State) (n : Nat) : s.IntervalSet (s.condOff n) :=
  ⟨rfl, rfl, rfl, rfl, rfl, rfl, rfl, .of_eq rfl rfl, .of_eq rfl, fun _ _ _ => rfl⟩

theorem closeInterval (s : State) : s.IntervalSet s.closeInterval := by
  unfold State.closeInterval
  exact (ledger s _).trans (journal _ _)

theorem openInterval (s : State) (spent : Nat) (recovered : Bool) : s.IntervalSet (s.openInterval spent recovered) := by
  unfold State.openInterval
  extract_lets len s1 q s2
  have h1 : s.IntervalSet s1 := by
    dsimp only [s1]
    split
    · exact refl s
    · exact condOff s 65
  have h2 : s1.IntervalSet s2 := ledger s1 _
  exact (((h1.trans h2).trans (journal s2 _)).trans (bump _)).trans (fire _ _ _)

theorem ledgerDaySet (s : State) : s.IntervalSet s.ledgerDaySet := by
  unfold State.ledgerDaySet
  split
  · exact (closeInterval s).trans (openInterval _ _ _)
  · exact refl s

end State.IntervalSet

/-! #### DAY SET -/

theorem State.scheduleOrders_frame (s : State) : ∃ next, s.scheduleOrders = { s with orders := { s.orders with next := next } } := by
  unfold State.scheduleOrders
  refine List.foldlRecOn (motive := fun u : State => ∃ next, u = { s with orders := { s.orders with next := next } }) _ _
    ⟨_, rfl⟩ fun u ⟨next, hu⟩ k _ => ?_
  rw [hu]
  exact ⟨_, rfl⟩

/-- The time that a DAY SET gives, before what hangs on it is set again. -/
def State.daySet (s : State) (v : Nat) : State :=
  ({ s with day := { s.day with slew := 0, cont := true } }).applySet (BitVec.ofNat 64 v)

theorem State.setDay_does (s : State) {v : Nat} (hv : v < 2 ^ 64) :
    let t := s.setDay v
    t.day.now.toNat = v ∧ t.day.slew = 0 ∧ t.day.cont = true ∧ t.edition .daybook = s.edition .daybook ∧
      t.frame.tx.length = s.frame.tx.length ∧ t.cfg = s.cfg ∧ t.tickets = s.tickets ∧ t.store = s.store ∧ s.OutLe t := by
  intro t
  have h := State.IntervalSet.ledgerDaySet (s.daySet v)
  obtain ⟨next, hnext⟩ := (s.daySet v).ledgerDaySet.scheduleOrders_frame
  have ht : t = (State.schedPoll { (s.daySet v).ledgerDaySet with
      orders := { (s.daySet v).ledgerDaySet.orders with next := next } }) := congrArg State.schedPoll hnext
  have hnow : (s.daySet v).day.now.toNat = v := Nat.mod_eq_of_lt hv
  rw [ht]
  refine ⟨(congrArg (fun d : DaySt => d.now.toNat) h.day).trans hnow, (congrArg DaySt.slew h.day :),
    (congrArg DaySt.cont h.day :), h.edition _ (by decide) (by decide), (congrArg (fun f : FrameSt => f.tx.length) h.frame :),
    h.cfg, h.tickets, h.store, ?_⟩
  exact (State.OutLe.trans (b := s.daySet v) (.of_eq rfl rfl) h.out).trans (.of_eq rfl rfl)

/-- DAY SET answers and sets the Daybook. -/
theorem daySet_does (l : Line) (s : State) {v : Nat} (hv : (l.at? 0).bind (s.timeOf l) = some v) :
    Does (.daySet l) s { minPos := 1, pos := [("value", .time)] } l
      (erIf (decide (2 ^ 64 ≤ v)) (erRange "value") ++ erIf (decide (s.radio.st ≠ .idle)) (erState "DAYBOOK" "RADIO") ++
        erIf (s.tickets.pool.any (·.scheduled)) (erState "DAYBOOK" "SCHEDULED"))
      (fun t => Said.By s t l (okLine [w "DAY", w "SET", .w (.time v), kd "ed" (s.edition .daybook + 1).toNat]) ∧
        t.day.now.toNat = v ∧ t.day.slew = 0 ∧ t.day.cont = true ∧ t.edition .daybook = s.edition .daybook + 1 ∧
        t.frame.tx.length = s.frame.tx.length ∧ t.cfg = s.cfg ∧ t.tickets = s.tickets ∧ t.store = s.store) := by
  have hexec : exec (.daySet l) s = execDaySet l s := rfl
  unfold execDaySet at hexec
  rw [hv] at hexec
  refine does_of_runLine hexec fun ha => ?_
  have hlt : v < 2 ^ 64 := by
    have he := (List.append_eq_nil_iff.mp (List.append_eq_nil_iff.mp ha.verb).1).1
    simp only [erIf, decide_eq_true_eq] at he
    by_contra hge
    rw [if_pos (Nat.le_of_not_lt hge)] at he
    cases he
  have hbump : ((s.took l.origin).bump .daybook).besideReply = (s.bump .daybook).besideReply :=
    (congrArg (fun u : State => u.bump .daybook) (s.took_besideReply l.origin) :
      (s.took l.origin).besideReply.bump .daybook = s.besideReply.bump .daybook)
  have hed (x : State) (hx : x.besideReply = (s.bump .daybook).besideReply) :
      x.edition .daybook = s.edition .daybook + 1 :=
    ((congrArg (fun u : State => u.edition .daybook) hx :
      x.besideReply.edition .daybook = (s.bump .daybook).besideReply.edition .daybook)).trans
      (s.edition_bump_same .daybook)
  have hreply := (((s.took l.origin).bump .daybook).ok_besideReply l
    [w "DAY", w "SET", .w (.time v), edTok ((s.took l.origin).bump .daybook) .daybook] []).trans hbump
  have htok : edTok ((s.took l.origin).bump .daybook) .daybook = kd "ed" (s.edition .daybook + 1).toNat := by
    unfold edTok
    rw [hed _ hbump]
  have htook : (s.took l.origin).OutLe ((s.took l.origin).bump .daybook) := .of_eq rfl rfl
  obtain ⟨hnow, hslew, hcont, hedition, htx, hcfg, htickets, hstore, hout⟩ := State.setDay_does
    (((s.took l.origin).bump .daybook).ok l
      [w "DAY", w "SET", .w (.time v), edTok ((s.took l.origin).bump .daybook) .daybook]) hlt
  refine ⟨.of_took (.of_ok htook ?_), hnow, hslew, hcont, hedition.trans (hed _ hreply), htx.trans ?_, hcfg.trans ?_,
    htickets.trans ?_, hstore.trans ?_⟩
  · rw [← htok]
    exact hout
  · exact (congrArg (fun u : State => u.frame.tx.length) hreply :)
  · exact (congrArg State.cfg hreply :)
  · exact (congrArg State.tickets hreply :)
  · exact (congrArg State.store hreply :)

/-! #### LINK ASSOC by hand -/

/-- An association taken, its edition counted, before it is stored. -/
def State.linked (s : State) (a : Assoc) : State :=
  State.linkTo (State.partnerClear { s with
    link := { s.link with assoc := some a, partnerPending := false }, frame := { s.frame with fcIn := 0, dups := [] } })
    .associated

/-- An association taken, stored and told. -/
def State.associated (s : State) (a : Assoc) : State :=
  (s.linked a).saveAssoc.fire 51
    [.kv "pan" (.hex 4 a.pan.toNat), .kv "short" (.hex 4 a.own.toNat), .kv "parent" (.hex 4 a.parent.toNat)]

theorem State.linked_links (s : State) (a : Assoc) (hst : s.link.st ≠ .associated) :
    let t := s.linked a
    t.link.st = .associated ∧ t.link.assoc = some a ∧ t.edition .link = s.edition .link + 1 ∧ t.cfg = s.cfg ∧
    t.frame.dups = [] ∧ t.frame.fcIn = 0 ∧ t.tickets = s.tickets ∧ t.radio = s.radio ∧ t.pwr = s.pwr ∧ SamePorts s t := by
  have heq : s.linked a = State.bump (State.bump { s with
      link := { s.link with assoc := some a, partnerPending := false, st := .associated }
      frame := { s.frame with fcIn := 0, dups := [] }, day := s.day.noPartner } .daybook) .link := if_neg hst
  intro t
  dsimp only [t]
  rw [heq]
  refine ⟨rfl, rfl, ?_, rfl, rfl, rfl, rfl, rfl, rfl, rfl, rfl⟩
  rw [State.edition_bump_same, State.edition_bump_other _ .daybook .link (by decide)]
  rfl

/-- The PAN and the address of an association go to the registers. -/
def State.addressed (s : State) (a : Assoc) : State :=
  let f : Word := BitVec.ofNat 32 (fld s.cfg.frame.filter 31 16 * 65536 + a.pan.toNat)
  let ad : Word := BitVec.ofNat 32 a.own.toNat
  if s.cfg.frame.filter = f ∧ s.cfg.frame.addr = ad then s
  else ((s.cfgSet .filter f).cfgSet .addr ad).bump .frame

theorem State.associate_eq (s : State) (a : Assoc) : s.associate a = (s.addressed a).associated a := rfl

theorem State.addressed_keeps (s : State) (a : Assoc) :
    let t := s.addressed a
    t.link = s.link ∧ t.tickets = s.tickets ∧ t.radio = s.radio ∧ t.pwr = s.pwr ∧ t.edition .link = s.edition .link ∧
      SamePorts s t := by
  intro t
  dsimp only [t]
  unfold State.addressed
  dsimp only
  split
  · exact ⟨rfl, rfl, rfl, rfl, rfl, rfl, rfl⟩
  · exact ⟨rfl, rfl, rfl, rfl, State.edition_bump_other _ .frame .link (by decide), rfl, rfl⟩

theorem State.addressed_reads (s : State) (a : Assoc) :
    (s.addressed a).cfg.frame.addr = BitVec.ofNat 32 a.own.toNat ∧
      fld (s.addressed a).cfg.frame.filter 15 0 = a.pan.toNat := by
  have hfld : fld (BitVec.ofNat 32 (fld s.cfg.frame.filter 31 16 * 65536 + a.pan.toNat)) 15 0 = a.pan.toNat := by
    have hp := a.pan.isLt
    unfold fld
    rw [BitVec.toNat_ofNat]
    omega
  unfold State.addressed
  dsimp only
  split
  next h => exact ⟨h.2, (congrArg (fun v => fld v 15 0) h.1).trans hfld⟩
  next => exact ⟨rfl, hfld⟩

/-- What an association brings. -/
theorem State.associate_does (s : State) (a : Assoc) (hst : s.link.st ≠ .associated) :
    let t := s.associate a
    t.link.st = .associated ∧ t.link.assoc = some a ∧ t.edition .link = s.edition .link + 1 ∧
    t.cfg.frame.addr = BitVec.ofNat 32 a.own.toNat ∧ fld t.cfg.frame.filter 15 0 = a.pan.toNat ∧
    t.frame.dups = [] ∧ t.frame.fcIn = 0 ∧ (s.quiet = false → t.pends 51) ∧
    t.tickets = s.tickets ∧ t.radio = s.radio ∧ s.OutLe t := by
  intro t
  obtain ⟨hlink, htickets, hradio, hpwr, hed, hports⟩ := s.addressed_keeps a
  obtain ⟨haddr, hfilter⟩ := s.addressed_reads a
  obtain ⟨hst', hassoc, hed', hcfg', hdups, hfcIn, htickets', hradio', hpwr', hports'⟩ :=
    (s.addressed a).linked_links a (by rwa [hlink])
  obtain ⟨r, rows, hrow⟩ := ((s.addressed a).linked a).rowWrite_twin_frame 8
    [(1, assocRow ((s.addressed a).linked a).link.assoc)] false none
  have hsave : ((s.addressed a).linked a).saveAssoc = { (s.addressed a).linked a with record := r, rows := rows } := hrow
  have ht : t = ((s.addressed a).linked a).saveAssoc.fire 51
    [.kv "pan" (.hex 4 a.pan.toNat), .kv "short" (.hex 4 a.own.toNat), .kv "parent" (.hex 4 a.parent.toNat)] := rfl
  clear_value t
  subst ht
  generalize ((s.addressed a).linked a).saveAssoc = v at hsave ⊢
  generalize (s.addressed a).linked a = u at *
  generalize s.addressed a = z at *
  have hfire := State.Aside.fire v 51
    [.kv "pan" (.hex 4 a.pan.toNat), .kv "short" (.hex 4 a.own.toNat), .kv "parent" (.hex 4 a.parent.toNat)]
  subst hsave
  have hq : u.quiet = s.quiet := State.quiet_of_pwr (hpwr'.trans hpwr)
  have hcfg := hfire.cfg.trans hcfg'
  refine ⟨(hfire.link LinkSt.st).trans hst', (hfire.link LinkSt.assoc).trans hassoc,
    (hfire.edition (by decide)).trans (hed'.trans (congrArg (· + 1) hed)),
    (congrArg (fun c : Cfg => c.frame.addr) hcfg).trans haddr, (congrArg (fun c : Cfg => fld c.frame.filter 15 0) hcfg).trans hfilter,
    (congrArg FrameSt.dups hfire.frame).trans hdups, (congrArg FrameSt.fcIn hfire.frame).trans hfcIn,
    fun h => State.pends_fire (hq.trans h), (State.fire_tickets _ _ _).trans (htickets'.trans htickets),
    hfire.radio.trans (hradio'.trans hradio), .trans ?_ hfire.out⟩
  exact .trans (.of_eq (hports'.1.trans hports.1) (hports'.2.trans hports.2)) (.of_eq rfl rfl)

/-- LINK ASSOC by hand answers and associates. -/
theorem linkAssocLocal_does (l : Line) (s : State) :
    let own := (l.nat? "short").getD 0
    let a : Assoc :=
      {
        pan := BitVec.ofNat 16 ((l.nat? "pan").getD 0), own := BitVec.ofNat 16 own
        parent := BitVec.ofNat 16 ((l.nat? "parent").getD 0), eui := BitVec.ofNat 64 ((l.nat? "parent_eui").getD 0)
      }
    Does (.linkAssocLocal l) s { order := false, keys := assocKeys } l
      (erIf (!(l.has "pan" && l.has "parent" && l.has "parent_eui" && l.has "short")) erMissing ++
        erIf (l.has "chan" || l.has "plan") erExtra ++
        erIf (decide (65535 < (l.nat? "parent").getD 0)) (erRange "parent") ++
        erIf (decide (0xFFFE ≤ own)) (erRange "short") ++ s.needRole 1 ++
        erIf (decide (s.link.st ≠ .unassoc)) (erState "LINK" s.link.st.name))
      (fun t => Said.By s t l (okLine [w "LINK", w "ASSOC", .kv "short" (.hex 4 own), kd "ed" (s.edition .link + 1).toNat]) ∧
        t.link.st = .associated ∧ t.link.assoc = some a ∧ t.edition .link = s.edition .link + 1 ∧
        t.cfg.frame.addr = BitVec.ofNat 32 own ∧ fld t.cfg.frame.filter 15 0 = (l.nat? "pan").getD 0 % 65536 ∧
        t.frame.dups = [] ∧ t.frame.fcIn = 0 ∧ (s.quiet = false → t.pends 51) ∧
        t.tickets = s.tickets ∧ t.radio = s.radio) := by
  intro own a
  have hexec : exec (.linkAssocLocal l) s = execLinkAssocLocal l s := rfl
  unfold execLinkAssocLocal at hexec
  refine does_of_runLine hexec fun ha => ?_
  obtain ⟨hrest, hst⟩ := List.append_eq_nil_iff.mp ha.verb
  have hown : own < 0xFFFE := by
    have he := (List.append_eq_nil_iff.mp (List.append_eq_nil_iff.mp hrest).1).2
    by_contra hge
    rw [erIf, if_pos (by simpa using hge)] at he
    cases he
  have hunassoc : s.link.st = .unassoc := by
    by_contra hne
    rw [erIf, if_pos (by simpa using hne)] at hst
    cases hst
  have hreply (ts : List Tok) : ((s.took l.origin).ok l ts).besideReply = s.besideReply :=
    (State.ok_besideReply _ _ _ _).trans (s.took_besideReply _)
  have hed (x : State) (hx : x.besideReply = s.besideReply) : x.edition .link = s.edition .link :=
    (congrArg (fun u : State => u.edition .link) hx : x.besideReply.edition .link = s.besideReply.edition .link)
  dsimp only
  rw [hed _ (s.took_besideReply _)]
  have hr := hreply [w "LINK", w "ASSOC", .kv "short" (.hex 4 own), kd "ed" (s.edition .link + 1).toNat]
  have hlink : ((s.took l.origin).ok l
      [w "LINK", w "ASSOC", .kv "short" (.hex 4 own), kd "ed" (s.edition .link + 1).toNat]).link = s.link :=
    (congrArg State.link hr :)
  obtain ⟨hst', hassoc, hed', haddr, hfilter, hdups, hfcIn, hpends, htickets, hradio, hout⟩ :=
    State.associate_does ((s.took l.origin).ok l
      [w "LINK", w "ASSOC", .kv "short" (.hex 4 own), kd "ed" (s.edition .link + 1).toNat]) a (by rw [hlink, hunassoc]; decide)
  refine ⟨.of_took (.of_ok (.refl _) hout), hst', hassoc, hed'.trans (congrArg (· + 1) (hed _ hr)), haddr.trans ?_,
    hfilter.trans (BitVec.toNat_ofNat _ _), hdups, hfcIn, fun hq => hpends ((State.quiet_of_besideReply hr).trans hq),
    htickets.trans (congrArg State.tickets hr :), hradio.trans (congrArg State.radio hr :)⟩
  refine congrArg (BitVec.ofNat 32) ?_
  show (BitVec.ofNat 16 own).toNat = own
  rw [BitVec.toNat_ofNat]
  omega

/-! #### TARIFF UNSCHED -/

theorem State.unschedule_ports (s : State) : SamePorts s s.unschedule := by
  unfold State.unschedule
  split
  · exact ⟨rfl, rfl⟩
  · obtain ⟨r, rows, row, seq, j, h⟩ :=
      State.journal_frame { s with ledger := { s.ledger with pend := none, pendTicket := none } } .sched
    rw [h]
    exact ⟨rfl, rfl⟩

theorem State.pendVal_of {s : State} {i b : Nat} (h : s.ledger.pend = some (i, b)) :
    s.pendVal = .word (Nat.repr i ++ "@" ++ timeText b) := by
  unfold State.pendVal
  rw [h]

theorem State.took_ledger (s : State) (o : Origin) : (s.took o).ledger = s.ledger :=
  (congrArg State.ledger (s.took_besideReply o) : (s.took o).besideReply.ledger = s.besideReply.ledger)

/-- With no change booked, TARIFF UNSCHED says so. -/
theorem tariffUnsched_none (l : Line) (s : State) (h : s.ledger.pend = none) :
    Answers (.tariffUnsched l) s { order := false } l [] false id (fun _ => [okLine [w "TARIFF", w "UNSCHED", w "NONE"]]) := by
  have hexec : exec (.tariffUnsched l) s = execTariffUnsched l s := rfl
  refine runLine_answers false id (fun _ => [okLine [w "TARIFF", w "UNSCHED", w "NONE"]]) (.reply true) []
    (hexec.trans (runLine_congr ?_)) rfl rfl (fun hm => absurd hm Bool.false_ne_true)
  simp only [s.took_ledger, h]
  rfl

/-- A change that no ticket waits for is taken back. -/
theorem tariffUnsched_alone (l : Line) (s : State) {i b : Nat} (h : s.ledger.pend = some (i, b))
    (hn : s.ledger.pendTicket = none) :
    Answers (.tariffUnsched l) s { order := false } l [] false State.unschedule
      (fun _ => [okLine [w "TARIFF", w "UNSCHED", .w (.word (Nat.repr i ++ "@" ++ timeText b))]]) := by
  have hexec : exec (.tariffUnsched l) s = execTariffUnsched l s := rfl
  have hval : (s.took l.origin).pendVal = _ := State.pendVal_of ((congrArg LedgerSt.pend (s.took_ledger l.origin)).trans h)
  refine runLine_answers false State.unschedule
    (fun _ => [okLine [w "TARIFF", w "UNSCHED", .w (.word (Nat.repr i ++ "@" ++ timeText b))]]) (.reply true) []
    (hexec.trans (runLine_congr ?_)) (State.unschedule_ports _).1 (State.unschedule_ports _).2
    (fun hm => absurd hm Bool.false_ne_true)
  simp only [hval, s.took_ledger, h, hn]
  rfl

/-- A change that a ticket waits for is taken back, and its ticket ends as cancelled. -/
theorem tariffUnsched_ticket (l : Line) (s : State) {i b n : Nat} {x : Ticket} (h : s.ledger.pend = some (i, b))
    (hn : s.ledger.pendTicket = some n) (hx : s.ticket? n = some x) (hl : x.live = true) :
    Does (.tariffUnsched l) s { order := false } l [] (fun t =>
      Said.By s t l (okLine [w "TARIFF", w "UNSCHED", .w (.word (Nat.repr i ++ "@" ++ timeText b))]) ∧
      (∃ ed, Completed t x .cancelled [kw "by" "HOST"] ed) ∧ t.besideTickets = s.unschedule.besideTickets) := by
  have hexec : exec (.tariffUnsched l) s = execTariffUnsched l s := rfl
  have hval : (s.took l.origin).pendVal = _ := State.pendVal_of ((congrArg LedgerSt.pend (s.took_ledger l.origin)).trans h)
  unfold execTariffUnsched at hexec
  refine does_of_runLine hexec fun _ => ?_
  simp only [hval, s.took_ledger, h, hn]
  have hreply : ((s.took l.origin).unschedule.ok l
      [w "TARIFF", w "UNSCHED", .w (.word (Nat.repr i ++ "@" ++ timeText b))]).besideReply = s.unschedule.besideReply := by
    rw [State.ok_besideReply, State.unschedule_besideReply, s.took_besideReply, ← State.unschedule_besideReply]
  have htickets := (((s.took l.origin).unschedule.ok_tickets l
    [w "TARIFF", w "UNSCHED", .w (.word (Nat.repr i ++ "@" ++ timeText b))]).trans
      (State.unschedule_tickets _)).trans (s.took_tickets l.origin)
  have hdone := State.Aside.complete ((s.took l.origin).unschedule.ok l
    [w "TARIFF", w "UNSCHED", .w (.word (Nat.repr i ++ "@" ++ timeText b))]) n .cancelled [kw "by" "HOST"] []
  have hxn : x.n = n := State.n_of_ticket hx
  refine ⟨.of_took (.of_ok (.of_eq (State.unschedule_ports _).1 (State.unschedule_ports _).2) hdone.out), ?_,
    hdone.beside.trans (State.besideTickets_of_events (State.besideEvents_of_reply hreply))⟩
  rw [← hxn]
  exact ⟨_, State.complete_completed _ x _ _ [] ((State.ticket_of_tickets htickets _).trans (hxn ▸ hx)) hl⟩

/-! #### NOISE RAW ON -/

/-- In the raw state NOISE RAW ON only answers. -/
theorem noiseRawOn_raw (l : Line) (s : State) (h : s.noise.st = .raw) :
    Answers (.noiseRawOn l) s { order := false } l (s.noiseErs [.startup, .failed]) false id
      (fun t => [okLine [w "NOISE", w "RAW", w "ON", edTok t .noise]]) := by
  have hexec : exec (.noiseRawOn l) s = execNoiseRawOn l s := rfl
  refine runLine_answers false id (fun t => [okLine [w "NOISE", w "RAW", w "ON", edTok t .noise]]) (.reply true) []
    (hexec.trans (runLine_congr ?_)) rfl rfl (fun hm => absurd hm Bool.false_ne_true)
  have hst : (s.took l.origin).noise.st = .raw :=
    (congrArg (fun u : State => u.noise.st) (s.took_besideReply l.origin) :
      (s.took l.origin).besideReply.noise.st = s.besideReply.noise.st).trans h
  simp only [hst, if_true]
  rfl

/-- The end of a link operation is no matter of the noise source. -/
theorem State.linkEnd_noise (s : State) (r : Result) (fs : List Tok) :
    (s.linkEnd r fs).noise = s.noise ∧ (s.linkEnd r fs).edition .noise = s.edition .noise := by
  refine ⟨?_, (State.Onward.linkEnd s r fs).edition _ (by decide)⟩
  have hto (u : State) (x : LState) : (u.linkTo x).noise = u.noise := by
    unfold State.linkTo
    split <;> rfl
  have hleave (u : State) (by_ : String) : (u.dissociate by_).noise = u.noise := by
    unfold State.dissociate
    extract_lets ad s1 q s2
    have h1 : s1.noise = u.noise := by
      dsimp only [s1]
      split <;> rfl
    refine (State.Aside.fire _ _ _).noise.trans ?_
    obtain ⟨r, rows, hrow⟩ := (s2.linkTo .unassoc).rowWrite_twin_frame 8 [(1, assocRow (s2.linkTo .unassoc).link.assoc)] false none
    exact (congrArg State.noise hrow).trans ((hto s2 _).trans h1)
  unfold State.linkEnd
  split
  · rfl
  · extract_lets q s1 s2 s3 q' s4
    have h2 : s2.noise = s1.noise := by
      dsimp only [s2]
      split <;> rfl
    have h3 : s3.noise = s2.noise := by
      dsimp only [s3]
      (repeat' split) <;> rfl
    have h4 : s4.noise = s3.noise := by
      dsimp only [s4]
      split
      · split
        · rfl
        · exact hto s3 _
      · split
        · rfl
        · exact hto s3 _
      · split
        · exact hleave s3 _
        · rfl
      · rfl
      · rfl
    exact (State.Aside.complete _ _ _ _ _).noise.trans
      ((State.Tuned.radioRest s4).noise.trans (h4.trans (h3.trans h2)))

/-- The noise source goes raw. -/
def State.rawSet (s : State) : State :=
  State.bump { s with noise :=
    { s.noise with st := .raw, pool := 0, refill := false, due := s.noise.due || s.noise.reseeding
                   reseeding := false, seed := none } } .noise

theorem State.enterRaw_eq {s : State} (h : s.noise.st ≠ .raw) :
    s.enterRaw = ((s.rawSet.fire 81 []).failRand "NORNG").failDraw := by
  unfold State.enterRaw State.noiseTo
  dsimp only
  rw [if_neg h]
  rfl

theorem State.Aside.failRand (s : State) (why : String) : s.Aside (s.failRand why) := by
  unfold State.failRand
  exact .ite (.completeRunning s _ _ _) (.refl s)

theorem State.Onward.failDraw (s : State) : s.Onward s.failDraw := by
  unfold State.failDraw
  exact .ite (.linkEnd s _ _) (.refl s)

theorem State.failDraw_noise (s : State) :
    s.failDraw.noise = s.noise ∧ s.failDraw.edition .noise = s.edition .noise := by
  unfold State.failDraw
  split
  · exact s.linkEnd_noise _ _
  · exact ⟨rfl, rfl⟩

theorem State.enterRaw_does {s : State} (h : s.noise.st ≠ .raw) :
    let t := s.enterRaw
    t.noise = s.rawSet.noise ∧ t.edition .noise = s.edition .noise + 1 ∧ (s.quiet = false → t.pends 81) ∧ s.OutLe t ∧
    (s.randRuns = false → s.link.op.map (·.phase) ≠ some .draw → t.besideEvents = s.rawSet.besideEvents) := by
  intro t
  dsimp only [t]
  rw [State.enterRaw_eq h]
  have hfire := State.Aside.fire s.rawSet 81 []
  have hrand := hfire.trans (State.Aside.failRand (s.rawSet.fire 81 []) "NORNG")
  obtain ⟨hnoise, hed⟩ := ((s.rawSet.fire 81 []).failRand "NORNG").failDraw_noise
  have hdraw := State.Onward.failDraw ((s.rawSet.fire 81 []).failRand "NORNG")
  refine ⟨hnoise.trans hrand.noise, ?_, fun hq => ?_, ?_, fun hr hd => ?_⟩
  · exact (hed.trans (hrand.edition (by decide))).trans (State.edition_bump_same _ _)
  · exact hdraw.pends ((State.Aside.failRand _ _).pends (State.pends_fire (s := s.rawSet) hq))
  · exact (State.OutLe.trans (b := s.rawSet) (.of_eq rfl rfl) hrand.out).trans hdraw.out
  · have hruns : (s.rawSet.fire 81 []).randRuns = false := by
      unfold State.randRuns State.vaultOp
      rw [State.running_of_tickets (State.fire_tickets s.rawSet 81 [])]
      exact hr
    have h1 : (s.rawSet.fire 81 []).failRand "NORNG" = s.rawSet.fire 81 [] := if_neg (by rw [hruns]; exact Bool.false_ne_true)
    have hop : (s.rawSet.fire 81 []).link.op = s.link.op := hfire.link LinkSt.op
    have h2 : (s.rawSet.fire 81 []).failDraw = s.rawSet.fire 81 [] := if_neg (by rw [hop]; exact hd)
    rw [h1, h2, State.fire_besideEvents]

/-- NOISE RAW ON answers and takes the source to the raw state. -/
theorem noiseRawOn_does (l : Line) (s : State) (h : s.noise.st ≠ .raw) :
    Does (.noiseRawOn l) s { order := false } l (s.noiseErs [.startup, .failed]) (fun t =>
      Said.By s t l (okLine [w "NOISE", w "RAW", w "ON", kd "ed" (s.edition .noise + 1).toNat]) ∧
      t.noise.st = .raw ∧ t.noise.pool = 0 ∧ t.noise.refill = false ∧ t.noise.reseeding = false ∧
      t.noise.due = (s.noise.due || s.noise.reseeding) ∧ t.edition .noise = s.edition .noise + 1 ∧
      (s.quiet = false → t.pends 81) ∧
      (s.randRuns = false → s.link.op.map (·.phase) ≠ some .draw → t.besideEvents = s.rawSet.besideEvents)) := by
  have hexec : exec (.noiseRawOn l) s = execNoiseRawOn l s := rfl
  unfold execNoiseRawOn at hexec
  refine does_of_runLine hexec fun _ => ?_
  have htook := s.took_besideReply l.origin
  have hnoise : (s.took l.origin).noise = s.noise :=
    (congrArg State.noise htook : (s.took l.origin).besideReply.noise = s.besideReply.noise)
  have hed (x : State) (hx : x.besideReply = s.besideReply) : x.edition .noise = s.edition .noise :=
    (congrArg (fun u : State => u.edition .noise) hx : x.besideReply.edition .noise = s.besideReply.edition .noise)
  rw [if_neg (by rwa [hnoise]), hed _ htook]
  have hreply := ((s.took l.origin).ok_besideReply l
    [w "NOISE", w "RAW", w "ON", kd "ed" (s.edition .noise + 1).toNat] []).trans htook
  have htickets := ((s.took l.origin).ok_tickets l
    [w "NOISE", w "RAW", w "ON", kd "ed" (s.edition .noise + 1).toNat]).trans (s.took_tickets l.origin)
  refine (fun k => ⟨.of_took (.of_ok (.refl _) k.1), k.2⟩ : _ ∧ _ → _) ?_
  generalize (s.took l.origin).ok l [w "NOISE", w "RAW", w "ON", kd "ed" (s.edition .noise + 1).toNat] = u at hreply htickets ⊢
  have hun : u.noise = s.noise := (congrArg State.noise hreply : u.besideReply.noise = s.besideReply.noise)
  obtain ⟨hn, he, hp, hout, hrest⟩ := State.enterRaw_does (s := u) (by rwa [hun])
  refine ⟨hout, (congrArg NoiseSt.st hn :), (congrArg NoiseSt.pool hn :), (congrArg NoiseSt.refill hn :),
    (congrArg NoiseSt.reseeding hn :), ?_, he.trans (congrArg (· + 1) (hed u hreply)),
    fun hq => hp ((State.quiet_of_besideReply hreply).trans hq), fun hr hd => ?_⟩
  · rw [hn, ← hun]
    rfl
  · have hruns : u.randRuns = s.randRuns := by
      unfold State.randRuns State.vaultOp
      rw [State.running_of_tickets htickets]
    have hlink : u.link = s.link := (congrArg State.link hreply : u.besideReply.link = s.besideReply.link)
    refine (hrest (hruns.trans hr) (by rwa [hlink])).trans (State.besideEvents_of_reply ?_)
    exact (congrArg State.rawSet hreply : u.besideReply.rawSet = s.besideReply.rawSet)

/-! #### VAULT SEAL -/

/-- The Vault sealed, and that stored. -/
def State.seal (s : State) : State :=
  (State.bump { s with vault := { s.vault with sealed := true } } .vault).saveVault

theorem State.sealed_keeps (s : State) :
    s.seal.vault.sealed = true ∧ s.seal.edition .vault = s.edition .vault + 1 ∧ SamePorts s s.seal := by
  obtain ⟨r, rows, h⟩ := (State.bump { s with vault := { s.vault with sealed := true } } .vault).rowWrite_twin_frame 19
    [(0, controlRow true s.vault.eraseMask)] false none
  have heq : s.seal = _ := h
  rw [heq]
  exact ⟨rfl, State.edition_bump_same _ _, rfl, rfl⟩

theorem State.seal_quiet (s : State) : s.seal.quiet = s.quiet := by
  obtain ⟨r, rows, h⟩ := (State.bump { s with vault := { s.vault with sealed := true } } .vault).rowWrite_twin_frame 19
    [(0, controlRow true s.vault.eraseMask)] false none
  have heq : s.seal = _ := h
  rw [heq]
  rfl

theorem State.seal_besideReply (s : State) : s.seal.besideReply = s.besideReply.seal.besideReply := by
  unfold State.seal State.saveVault State.rowWrite
  cases hrows : s.rows with
  | nil => simp only [State.besideReply, State.bump, hrows]; rfl
  | cons y ys => simp only [State.besideReply, State.bump, hrows]; rfl

theorem State.seal_congr {s t : State} (h : t.besideReply = s.besideReply) : t.seal.besideReply = s.seal.besideReply := by
  rw [t.seal_besideReply, h, ← s.seal_besideReply]

theorem Said.By.of_ports {s u t : State} {l : Line} {ts : List Tok} (h : Said.By u t l ts) (k : SamePorts s u) :
    Said.By s t l ts := by
  unfold Said.By at h ⊢
  cases ho : l.origin with
  | order j => trivial
  | port p =>
    rw [ho] at h
    obtain ⟨mid, x, post, hout, hx⟩ := h
    have hp : (u.port p).out = (s.port p).out := by
      cases p
      · exact congrArg PortSt.out k.1
      · exact congrArg PortSt.out k.2
    exact ⟨mid, x, post, by rw [hout, hp], hx⟩

/-- VAULT SEAL seals the Vault, stores that, answers, and fires its event. -/
theorem vaultSeal_does (l : Line) (s : State) :
    Does (.vaultSeal l) s { feat := some .vault, order := false, keys := [("confirm", .int 0 65535)] } l
      (erIf (!l.has "confirm") erMissing ++
        erIf (l.has "confirm" && l.nat? "confirm" != some (s.eui.toNat % 65536)) (erRange "confirm") ++
        erIf (s.slotKey 0).isNone ⟨"DENIED", ["NOKEK"]⟩ ++ erIf (s.slotKey 1).isNone ⟨"DENIED", ["NOTRANSPORT"]⟩ ++
        s.tamperErs ++ erIf s.vault.sealed (erState "VAULT" "SEALED"))
      (fun t =>
        let t1 := (State.bump { s with vault := { s.vault with sealed := true } } .vault).rowWrite
          { what := .twin 19 [(0, [0x5A, s.vault.eraseMask])] }
        Said.By s t l (okLine [w "VAULT", w "SEAL", kd "ed" (s.edition .vault + 1).toNat]) ∧ t.vault.sealed = true ∧
        (s.quiet = false → t.pends 84) ∧ t.besideEvents = t1.besideEvents) := by
  have hexec : exec (.vaultSeal l) s = execVaultSeal l s := rfl
  unfold execVaultSeal at hexec
  refine does_of_runLine hexec fun _ => ?_
  have hseal := State.seal_congr (s.took_besideReply l.origin)
  obtain ⟨hsealed, hed, hports⟩ := (s.took l.origin).sealed_keeps
  have hed' : (s.took l.origin).edition .vault = s.edition .vault :=
    (congrArg (fun u : State => u.edition .vault) (s.took_besideReply l.origin) :
      (s.took l.origin).besideReply.edition .vault = s.besideReply.edition .vault)
  obtain ⟨hsaid, hpends, hbeside⟩ := (s.took l.origin).seal.ok_fire_does l
    [w "VAULT", w "SEAL", edTok (s.took l.origin).seal .vault] 84 []
  have htok : edTok (s.took l.origin).seal .vault = kd "ed" (s.edition .vault + 1).toNat := by
    unfold edTok
    rw [hed, hed']
  have hq : (s.took l.origin).seal.quiet = s.quiet :=
    (State.quiet_of_besideReply hseal).trans s.seal_quiet
  refine ⟨?_, ?_, fun h => hpends (hq.trans h), hbeside.trans (State.besideEvents_of_reply hseal)⟩
  · rw [← htok]
    exact (hsaid.of_ports hports).of_took
  · exact (congrArg (fun u : State => u.vault.sealed) hbeside :).trans hsealed

end Sys2Proof.Machine

/-- Settles O19: each line's reply, and then the change of its unit. -/
theorem unitLinesTakeEffect : Obligations.UnitLinesTakeEffect := by
  unfold Obligations.UnitLinesTakeEffect
  intro l s
  exact ⟨fun v hv => daySet_does l s hv, linkAssocLocal_does l s, fun h => tariffUnsched_none l s h,
    fun i b h hn => tariffUnsched_alone l s h hn, fun i b n x h hn hx hl => tariffUnsched_ticket l s h hn hx hl,
    fun h => noiseRawOn_raw l s h, fun h => noiseRawOn_does l s h, vaultSeal_does l s⟩

end

section

/-! ### ORDER STOP, WAIT, WAIT CLEAR, SKIP and CAT REMOVE (21_orders R548, R552, R554, R555, 15_link R407) -/

open Sys2Proof Sys2Proof.Machine

namespace Sys2Proof.Machine

/-! #### ORDER STOP -/

/-- With no order and no ticket to tell, discarding the pending orders takes them from their list. -/
theorem State.discardPending_untold {s : State} (h : ∀ p, p ∈ s.orders.pending → p.runTicket = none) (drop : Nat → Bool) :
    s.discardPending drop =
      { s with orders := { s.orders with pending := s.orders.pending.filter (fun p => !drop p.k) } } := by
  unfold State.discardPending
  dsimp only
  refine List.foldlRecOn (motive := fun u : State => u = _) _ _ rfl fun u hu p hp => ?_
  rw [h p (List.mem_of_mem_filter hp)]
  exact hu

theorem State.took_orders (s : State) (o : Origin) : (s.took o).orders = s.orders := by
  obtain ⟨d, c, k, took⟩ := s.took_eq o
  rw [took]

/-- Output reads nothing of the orders, so that a change of theirs may come before it or after. -/
theorem State.push_setOrders (s : State) (p : Port) (x : OutLine) (o : OrdersSt) :
    State.push { s with orders := o } p x = { s.push p x with orders := o } := by
  cases p with
  | desk => rfl
  | chute =>
    unfold State.push
    dsimp only
    split
    · rename_i h
      exact (if_pos h).symm ▸ rfl
    · rename_i h
      exact (if_neg h).symm ▸ rfl

theorem State.ok_pending (s : State) (l : Line) (ts : List Tok) (x : List PendingRun) :
    State.ok { s with orders := { s.orders with pending := x } } l ts =
      { s.ok l ts with orders := { (s.ok l ts).orders with pending := x } } := by
  cases ho : l.origin with
  | order k =>
    unfold State.ok State.replyLines
    rw [ho]
  | port p => rw [State.ok_port ho, State.ok_port ho, State.push_setOrders, State.push_orders]

theorem State.ok_run (s : State) (l : Line) (ts : List Tok) (x : Option Run) :
    State.ok { s with orders := { s.orders with run := x } } l ts =
      { s.ok l ts with orders := { (s.ok l ts).orders with run := x } } := by
  cases ho : l.origin with
  | order k =>
    unfold State.ok State.replyLines
    rw [ho]
  | port p => rw [State.ok_port ho, State.ok_port ho, State.push_setOrders, State.push_orders]

theorem State.ok_orders (s : State) (l : Line) (ts : List Tok) :
    (s.ok l ts).orders.run = s.orders.run ∧ (s.ok l ts).orders.pending = s.orders.pending := by
  have h := s.ok_besideReply l ts []
  exact ⟨(congrArg (fun u : State => u.orders.run) h : (s.ok l ts).besideReply.orders.run = s.besideReply.orders.run),
    (congrArg (fun u : State => u.orders.pending) h :
      (s.ok l ts).besideReply.orders.pending = s.besideReply.orders.pending)⟩

theorem State.ok_discardPending {s : State} (h : ∀ p, p ∈ s.orders.pending → p.runTicket = none) (l : Line) (ts : List Tok)
    (drop : Nat → Bool) : (s.ok l ts).discardPending drop =
      State.ok { s with orders := { s.orders with pending := s.orders.pending.filter (fun p => !drop p.k) } } l ts := by
  have hpend := (s.ok_orders l ts).2
  have hall : ∀ p, p ∈ (s.ok l ts).orders.pending → p.runTicket = none := fun p hp => h p (hpend ▸ hp)
  have hdrop := State.discardPending_untold hall drop
  rw [hpend] at hdrop
  exact hdrop.trans (State.ok_pending s l ts _).symm

theorem State.stopOrder_idle {s : State} (h : s.orders.run = none) (res : OrderResult) : s.stopOrder res = s := by
  unfold State.stopOrder
  rw [h]

/-- The form of ORDER STOP's line. -/
abbrev stopForm (l : Line) : Form :=
  { order := false, minPos := 1, pos := [("k", if l.posWord? 0 == some "ALL" then .word ["ALL"] else .int 0 31)] }

/-- The errors of ORDER STOP's line. -/
abbrev stopErs (l : Line) (s : State) : List Er := if l.posWord? 0 == some "ALL" then [] else s.emptyErs l

/-- ORDER STOP of orders that wait, with none running, takes them from their list. -/
theorem orderStop_pending (l : Line) (s : State) (hr : s.orders.run = none)
    (hp : ∀ p, p ∈ s.orders.pending → p.runTicket = none)
    (ha : (l.posWord? 0 == some "ALL" || s.orders.pending.any (fun p => p.k == lineOrder l)) = true) :
    Answers (.orderStop l) s (stopForm l) l (stopErs l s) false
      (fun t => { t with orders := { t.orders with
        pending := t.orders.pending.filter (fun p => !(l.posWord? 0 == some "ALL" || p.k == lineOrder l)) } })
      (fun _ => [if l.posWord? 0 == some "ALL" then okLine [w "ORDER", w "STOP", w "ALL", kd "count" s.orders.pending.length]
        else okLine [w "ORDER", w "STOP", n' (lineOrder l), w "PENDING"]]) := by
  have hexec : exec (.orderStop l) s = execOrderStop l s := rfl
  unfold execOrderStop at hexec
  refine answers_effect false _ _ (.reply true) hexec (fun d c k => ?_) (fun t => ⟨rfl, rfl⟩) nofun
  intro t
  have hrun : t.orders.run = none := hr
  have hpend : ∀ p, p ∈ t.orders.pending → p.runTicket = none := hp
  cases hall : l.posWord? 0 == some "ALL" with
  | true =>
    have hcount : t.orders.pending.length + b2n t.orders.run.isSome = t.orders.pending.length := by rw [hrun]; rfl
    simp only [if_true, hcount]
    rw [State.ok_discardPending hpend]
    refine (State.stopOrder_idle ?_ _).trans rfl
    refine (State.ok_orders _ _ _).1.trans ?_
    exact hrun
  | false =>
    rw [hall, Bool.false_or] at ha
    have hany : t.orders.pending.any (fun p => p.k == lineOrder l) = true := ha
    have hruns : (t.orders.run.map (·.k) == some (lineOrder l)) = false := by rw [hrun]; rfl
    simp only [Bool.false_eq_true, if_false, hruns, hany, if_true]
    rw [State.ok_discardPending hpend]
    rfl

/-- ORDER STOP of an order that neither runs nor waits changes nothing. -/
theorem orderStop_idle (l : Line) (s : State) (hall : (l.posWord? 0 == some "ALL") = false)
    (hr : s.orders.run.map (·.k) ≠ some (lineOrder l)) (hp : s.orders.pending.any (fun p => p.k == lineOrder l) = false) :
    Answers (.orderStop l) s (stopForm l) l (stopErs l s) false id
      (fun _ => [okLine [w "ORDER", w "STOP", n' (lineOrder l), w "IDLE"]]) := by
  have hexec : exec (.orderStop l) s = execOrderStop l s := rfl
  unfold execOrderStop at hexec
  refine answers_effect false _ _ (.reply true) hexec (fun d c k => ?_) (fun t => ⟨rfl, rfl⟩) nofun
  intro t
  have hrun : t.orders.run.map (·.k) ≠ some (lineOrder l) := hr
  have hany : t.orders.pending.any (fun p => p.k == lineOrder l) = false := hp
  simp only [hall, Bool.false_eq_true, if_false, beq_iff_eq, hrun, hany]
  rfl

/-- ORDER STOP of the order that runs, beside what its line awaits. -/
theorem orderStop_runs {l : Line} {s : State} {r : Run} (hall : (l.posWord? 0 == some "ALL") = false)
    (hr : s.orders.run = some r) (hk : r.k = lineOrder l) : exec (.orderStop l) s =
      runLine (stopForm l) l s (stopErs l s) (fun t =>
        (t.ok l [w "ORDER", w "STOP", n' (lineOrder l), w "RUNNING"]).stopOrder .stopped) := by
  have hexec : exec (.orderStop l) s = execOrderStop l s := rfl
  unfold execOrderStop at hexec
  refine hexec.trans (runLine_congr ?_)
  have hrun : (((s.took l.origin).orders.run.map (·.k)) == some (lineOrder l)) = true := by
    rw [State.took_orders, hr, Option.map_some, hk, beq_self_eq_true]
  simp only [hall, Bool.false_eq_true, if_false, hrun, if_true]

/-- An order named by a stored line has a number below 32. -/
theorem lineOrder_lt {l : Line} {s : State} (hc : s.orders.checking = none) (h : s.emptyErs l = []) : lineOrder l < 32 := by
  unfold State.emptyErs State.late at h
  simp only [hc, Option.isSome_none, Bool.false_eq_true, if_false, erIf] at h
  by_cases hpos : l.pos.isEmpty = true
  · rw [List.isEmpty_iff] at hpos
    have h0 : lineOrder l = 0 := by
      unfold lineOrder Line.posNat? Line.posInt?
      rw [hpos]
      rfl
    omega
  · simp only [hpos, Bool.not_false, Bool.true_and] at h
    by_contra hlt
    have hnone : s.slot (lineOrder l) = none := by
      unfold State.slot vget
      split
      · rfl
      · rw [Vector.getElem?_eq_none (Nat.le_of_not_lt hlt)]
        rfl
    simp [hnone] at h

/-- ORDER STOP of the order that runs, whose line awaits no ticket, ends the run. -/
theorem orderStop_ends (l : Line) (s : State) {r : Run} (hall : (l.posWord? 0 == some "ALL") = false)
    (hr : s.orders.run = some r) (hk : r.k = lineOrder l) (hw : ∀ n, r.await ≠ .ticket n) :
    Does (.orderStop l) s (stopForm l) l (stopErs l s) (fun t =>
      Said.By s t l (okLine [w "ORDER", w "STOP", n' (lineOrder l), w "RUNNING"]) ∧
      vget t.orders.last (lineOrder l) none = some
        { result := .stopped, line := (r.lastErr.map (·.1)).getD r.line, code := (r.lastErr.map (·.2)).getD 0, errors := r.errors } ∧
      (s.quiet = false → t.pends 113) ∧ t.besideTickets = s.besideTickets) := by
  refine does_of_runLine (orderStop_runs hall hr hk) fun ha => ?_
  have hlt : r.k < 32 := by
    have hes : s.emptyErs l = [] := by simpa only [stopErs, hall, Bool.false_eq_true, if_false] using ha.verb
    exact hk ▸ lineOrder_lt ha.runs hes
  have hbeside : (State.ok (s.took l.origin) l [w "ORDER", w "STOP", n' (lineOrder l), w "RUNNING"]).besideReply = s.besideReply :=
    (State.ok_besideReply _ _ _ _).trans (s.took_besideReply _)

  generalize hu : State.ok (s.took l.origin) l [w "ORDER", w "STOP", n' (lineOrder l), w "RUNNING"] = u at hbeside ⊢
  have hrun : u.orders.run = some r :=
    (congrArg (fun v : State => v.orders.run) hbeside : u.besideReply.orders.run = s.besideReply.orders.run).trans hr
  have hstop : u.stopOrder .stopped =
      State.orderEnd { u with orders := { u.orders with run := some { r with stopping := some .stopped } } } .stopped := by
    unfold State.stopOrder
    rw [hrun]
    dsimp only
    split
    · rename_i n hn
      exact absurd hn (hw n)
    · rfl
  rw [hstop]
  have hend := State.Aside.orderEnd { u with orders := { u.orders with run := some { r with stopping := some .stopped } } } .stopped {}
  obtain ⟨hlast, -, hpends⟩ := State.orderEnd_ends (z := {}) (res := .stopped)
    (s := { u with orders := { u.orders with run := some { r with stopping := some .stopped } } }) rfl
  have hset : u.OutLe { u with orders := { u.orders with run := some { r with stopping := some .stopped } } } := .of_eq rfl rfl
  refine ⟨.of_took (.of_ok (.refl _) (hu ▸ hset.trans hend.out)), hk ▸ hlast hlt, fun hq => ?_, ?_⟩
  · have hquiet : u.quiet = s.quiet := State.quiet_of_besideReply hbeside
    exact hpends (hquiet.trans hq)
  · have hkeep : u.besideTickets = s.besideTickets := State.besideTickets_of_events (State.besideEvents_of_reply hbeside)
    exact hend.beside.trans hkeep

theorem State.interruptible_congr {s t : State} (hr : t.radio = s.radio) (hl : t.link = s.link) (x : Ticket) :
    t.interruptible x = s.interruptible x := by
  unfold State.interruptible State.unkeyed
  rw [hr, hl]

/-- A run whose line awaits a ticket that cannot be broken off stops with the ticket. -/
theorem State.stopOrder_waits {s : State} {r : Run} {n : Nat} {x : Ticket} (hr : s.orders.run = some r)
    (hw : r.await = .ticket n) (hx : s.ticket? n = some x) (hun : x.unstarted = false) (hi : s.interruptible x = false)
    (res : OrderResult) : s.stopOrder res =
      { s with orders := { s.orders with run := some { r with stopping := some res } } } := by
  unfold State.stopOrder
  rw [hr]
  dsimp only
  rw [hw]
  dsimp only
  generalize hs1 : ({ s with orders := _ } : State) = s1
  have hx1 : s1.ticket? n = some x := by subst hs1; exact hx
  have hi1 : s1.interruptible x = false := by subst hs1; exact hi
  rw [hx1]
  dsimp only
  unfold State.cancelTicket
  rw [hun, hi1, Bool.and_false]
  simp only [Bool.false_eq_true, if_false]

/-- ORDER STOP of the order that runs, whose line awaits a ticket that cannot be broken off, waits for the ticket. -/
theorem orderStop_waits (l : Line) (s : State) {r : Run} {n : Nat} {x : Ticket} (hall : (l.posWord? 0 == some "ALL") = false)
    (hr : s.orders.run = some r) (hk : r.k = lineOrder l) (hw : r.await = .ticket n) (hx : s.ticket? n = some x)
    (hun : x.unstarted = false) (hi : s.interruptible x = false) :
    Answers (.orderStop l) s (stopForm l) l (stopErs l s) false
      (fun t => { t with orders := { t.orders with run := some { r with stopping := some .stopped } } })
      (fun _ => [okLine [w "ORDER", w "STOP", n' (lineOrder l), w "RUNNING"]]) := by
  refine answers_effect false _ _ (.reply true) (orderStop_runs hall hr hk) (fun d c k => ?_) (fun t => ⟨rfl, rfl⟩) nofun
  intro t
  have hbeside := State.ok_besideReply t l [w "ORDER", w "STOP", n' (lineOrder l), w "RUNNING"] []
  have hradio := (congrArg State.radio hbeside : State.radio (State.besideReply _) = t.besideReply.radio)
  have hlink := (congrArg State.link hbeside : State.link (State.besideReply _) = t.besideReply.link)
  have htick := (congrArg State.tickets hbeside : State.tickets (State.besideReply _) = t.besideReply.tickets)
  refine (State.stopOrder_waits ((t.ok_orders l _).1.trans hr) hw ((State.ticket_of_tickets htick n).trans hx) hun ?_ _).trans
    (State.ok_run t l _ _).symm
  exact (State.interruptible_congr hradio hlink x).trans hi

/-! #### WAIT, WAIT CLEAR and SKIP -/

theorem State.took_order (s : State) (k : Nat) : s.took (.order k) = s := rfl

/-- WAIT sets what the running order's line awaits. -/
theorem wait_awaits (l : Line) (s : State) {k : Nat} (ho : l.origin = .order k) :
    Does (.wait l) s { port := false, minPos := 1, pos := [("ms", .int 1 600000)] } l []
      (fun t => t = { s with orders := { s.orders with said := .nothing, run := s.orders.run.map (fun r =>
        { r with await := .waitUntil (s.day.cyc + (l.posNat? 0).getD 0 * tickMs) }) } }) := by
  have hexec : exec (.wait l) s = execWait l s := rfl
  refine does_of_runLine hexec fun _ => ?_
  rw [ho]
  rfl

/-- WAIT CLEAR of an event that is pending sets what the running order's line awaits. -/
theorem waitClear_awaits (l : Line) (s : State) {k n : Nat} (ho : l.origin = .order k)
    (hn : (l.at? 0).bind eventOf = some n) (hp : s.events.pend.getLsbD n = true) :
    Does (.waitClear l) s { port := false, minPos := 1, pos := [("event", .any)], keys := [("max", .int 1 600000)] } l
      (s.eventErs "event" (l.at? 0))
      (fun t => t = { s with orders := { s.orders with said := .nothing, run := s.orders.run.map (fun r =>
        { r with await := .waitClear n (s.day.cyc + (l.nat? "max").getD 600000 * tickMs) }) } }) := by
  have hexec : exec (.waitClear l) s = execWaitClear l s := rfl
  unfold execWaitClear at hexec
  refine does_of_runLine hexec fun _ => ?_
  rw [ho, hn, State.took_order]
  dsimp only
  generalize hu : s.orderAwait _ = u
  have hpend : u.events.pend = s.events.pend := by subst hu; rfl
  have hrun : u.orders.run.map (·.await) =
      s.orders.run.map (fun _ => Await.waitClear n (s.day.cyc + (l.nat? "max").getD 600000 * tickMs)) := by
    subst hu
    unfold State.orderAwait
    rw [Option.map_map]
    rfl
  have hstay : u.waitCheck = u := by
    unfold State.waitCheck
    rw [hrun]
    cases s.orders.run with
    | none => rfl
    | some r => exact if_pos (hpend ▸ hp)
  rw [hstay]
  exact hu.symm

/-- SKIP goes on past the lines it names, or ends the run. -/
theorem skip_passes (l : Line) (s : State) {k : Nat} {r : Run} (ho : l.origin = .order k) (hr : s.orders.run = some r)
    (hs : r.stopping = none) :
    let n := (l.posNat? 0).getD 0
    let nextLine := r.line + (if s.skipHolds l then n else 0) + 1
    Does (.skip l) s
      { port := false, minPos := 1, pos := [("n", .int 1 15)],
        keys := [("pin", .any), ("level", .word ["H", "L"]), ("pending", .any), ("unit", .any), ("state", .any),
                 ("last", .word ["DONE", "NOTDONE"])] } l
      (s.skipErs l ++ erIf (!l.pos.isEmpty && decide (r.slot.lines.length ≤ r.line + n)) (erRange "n"))
      (fun t =>
        (nextLine < r.slot.lines.length → t = { s with orders := { s.orders with
          said := .nothing
          run := some { r with line := nextLine, lastOk := true, await := .next, ready := s.day.cyc + 1 } } }) ∧
        (r.slot.lines.length ≤ nextLine → t.besideTickets = s.besideTickets ∧ (s.quiet = false → t.pends 112))) := by
  intro n nextLine
  have hexec : exec (.skip l) s = execSkip l s := rfl
  unfold execSkip at hexec
  rw [ho] at hexec
  have hpast (hc : s.orders.checking = none) : s.skipAt = (r.line, r.slot.lines.length) := by
    unfold State.skipAt
    rw [hc, hr]
  refine ⟨fun ha => ?_, fun e hl hc he => ?_⟩
  · dsimp only at hexec
    rw [hpast ha.runs] at hexec
    refine ⟨_, hexec.trans (runLine_accepts ha _), ?_⟩
    rw [ho, State.took_order, hr]
    refine ⟨fun hlt => ?_, fun hle => ?_⟩
    · exact State.orderLineDone_next (r := { r with line := r.line + (if s.skipHolds l then n else 0) }) rfl hs hlt
    · have hlast := State.orderLineDone_last (s := { s with orders := { s.orders with
        said := .nothing, run := some { r with line := r.line + (if s.skipHolds l then n else 0) } } }) (z := {}) rfl hs hle
      have hend := State.Aside.orderLineDone { s with orders := { s.orders with
        said := .nothing, run := some { r with line := r.line + (if s.skipHolds l then n else 0) } } } none {}
      refine ⟨hend.beside, fun hq => ?_⟩
      obtain ⟨-, -, hpends⟩ := State.orderEnd_ends (z := {}) (res := .done) (s := { s with orders := { s.orders with
        said := .nothing, run := some { r with
          line := r.line + (if s.skipHolds l then n else 0), lastOk := true, await := .next } } }) rfl
      exact Eq.mpr (congrArg (fun u : State => u.pends 112) hlast) (hpends hq)
  · dsimp only at hexec
    rw [hpast hc] at hexec
    rw [hexec]
    exact runLine_refuses hl hc he _

/-! #### CAT REMOVE -/

/-- The pool's check sets its condition and fires the event of it; nothing else. -/
theorem State.poolCheck_aside (s : State) :
    ∃ c, State.Aside { s with events := { s.events with cond := c } } s.poolCheck := by
  unfold State.poolCheck
  split
  · obtain ⟨c, -, h⟩ := s.condOn_aside 55 []
    exact ⟨c, h⟩
  · exact ⟨_, .refl _⟩

theorem State.poolCheck_tickets (s : State) : s.poolCheck.tickets = s.tickets := by
  unfold State.poolCheck
  split
  · exact State.condOn_tickets _ _ _
  · rfl

/-- The TX ring without a child: the frames held for it wait for no child. -/
def State.childFrames (s : State) (i : Nat) : List TxEntry :=
  s.frame.tx.map (fun e => if e.child = some i then { e with child := some goneChild } else e)

theorem State.child_of_childFrames {s : State} {i : Nat} {x : TxEntry} (hx : x ∈ s.childFrames i) (hc : x.child = some i) :
    i = goneChild := by
  obtain ⟨y, -, hy⟩ := List.mem_map.mp hx
  by_cases h : y.child = some i
  · rw [if_pos h] at hy
    subst hy
    exact (Option.some.inj hc).symm
  · rw [if_neg h] at hy
    exact absurd (hy ▸ hc) h

theorem State.touch_quiet (s : State) (n : Nat) : (s.touch n).quiet = s.quiet := by
  unfold State.touch
  dsimp only
  repeat' split
  all_goals rfl

theorem State.saveCat_quiet (s : State) : s.saveCat.quiet = s.quiet := by
  unfold State.saveCat State.rowWrite State.beginRow
  split
  · exact s.touch_quiet 8
  · rfl

/-- A child that has gone has no row in the Catalogue and no frame held for it. -/
theorem State.dropEntry_drops (s : State) (i : Nat) : let t := s.dropEntry i
    t.link.cat = s.link.cat.filter (fun c => !(c.idx == i)) ∧ t.frame.tx = s.childFrames i ∧ t.tickets = s.tickets ∧
      t.cfg = s.cfg ∧ t.quiet = s.quiet ∧ s.OutLe t := by
  unfold State.dropEntry
  dsimp only
  generalize hx : ({ s with link := _, frame := _ } : State) = x
  obtain ⟨r, st, pw, rows, hrow⟩ : ∃ r st pw rows, x.saveCat = { x with record := r, store := st, pwr := pw, rows := rows } :=
    x.rowWrite_frame _
  obtain ⟨c, hpool⟩ := x.saveCat.poolCheck_aside
  have htick := x.saveCat.poolCheck_tickets
  have hout : x.OutLe x.saveCat := x.rowWrite_outLe _
  have hquiet := x.saveCat_quiet
  rw [hrow] at hpool htick hout hquiet ⊢
  subst hx
  refine ⟨hpool.link LinkSt.cat, congrArg FrameSt.tx hpool.frame, htick, hpool.cfg, hpool.quiet.trans hquiet, ?_⟩
  exact (hout.trans (.of_eq rfl rfl)).trans hpool.out

/-- A notice held for a child, and the row of the child written, leave the ports. -/
theorem State.notice_ports (s : State) (e x : CatEntry) :
    SamePorts s (((s.hold (s.noticeFrame e) e.idx .notice).1).setEntry x) := by
  unfold State.setEntry State.saveCat
  generalize hu : (s.hold (s.noticeFrame e) e.idx .notice).1 = u
  have hports : SamePorts s u := by
    have hhold : u = (s.nextSeq.2.ringPut { s.noticeFrame e with seq := s.frame.seq } (some e.idx) .notice
        (s.nextSeq.2.airOctets { s.noticeFrame e with seq := s.frame.seq })).1 := by
      subst hu
      rfl
    obtain ⟨y, p, hput⟩ := s.nextSeq.2.ringPut_frame { s.noticeFrame e with seq := s.frame.seq } (some e.idx) .notice
      (s.nextSeq.2.airOctets { s.noticeFrame e with seq := s.frame.seq })
    rw [hhold, hput]
    exact ⟨rfl, rfl⟩
  obtain ⟨hd, hc⟩ := State.rowWrite_ports { u with link := { u.link with
    cat := u.link.cat.map (fun (e : CatEntry) => if e.idx = x.idx then x else e) } }
    { what := .cat (u.link.cat.map (fun (e : CatEntry) => if e.idx = x.idx then x else e)) }
  exact ⟨hd.trans hports.1, hc.trans hports.2⟩

/-- CAT REMOVE with a notice holds the notice for the child, which is marked as leaving. -/
theorem catRemove_tells (l : Line) (s : State) (hw : l.word? "notify" ≠ some "NO") :
    let e := (s.lineEntry l).getD noEntry
    Answers (.catRemove l) s
      { feat := some .parent, order := false, minPos := 1, pos := [("short", .int 0 65535)],
        keys := [("notify", .word ["YES", "NO"])] } l
      (s.late (erIf (!l.pos.isEmpty && (s.lineEntry l).isNone) (erRange "short")) ++ s.needRole 2 ++
        erIf (decide (s.txFree < ringSize (s.noticeFrame e).ringOctets)) ⟨"FULL", ["TXRING"]⟩) false
      (fun t => (((t.hold (t.noticeFrame e) e.idx .notice).1).setEntry { e with leaving := true }).bump .link)
      (fun t => [okLine (t.entryToks { e with leaving := true })]) := by
  intro e
  have hexec : exec (.catRemove l) s = execCatRemove l s := rfl
  have htell : (l.word? "notify" != some "NO") = true := bne_iff_ne.mpr hw
  unfold execCatRemove at hexec
  simp only [htell, Bool.true_and, if_true] at hexec
  refine answers_effect false _ _ (.reply true) hexec (fun d c k => rfl)
    (fun t => t.notice_ports e { e with leaving := true }) nofun

/-- CAT REMOVE without a notice takes the child's row away at once. -/
theorem catRemove_drops (l : Line) (s : State) (hw : l.word? "notify" = some "NO") :
    let e := (s.lineEntry l).getD noEntry
    Does (.catRemove l) s
      { feat := some .parent, order := false, minPos := 1, pos := [("short", .int 0 65535)],
        keys := [("notify", .word ["YES", "NO"])] } l
      (s.late (erIf (!l.pos.isEmpty && (s.lineEntry l).isNone) (erRange "short")) ++ s.needRole 2)
      (fun t => Said.By s t l (okLine (s.entryToks e)) ∧
        t.link.cat = s.link.cat.filter (fun c => !(c.idx == e.idx)) ∧
        (∀ x ∈ t.frame.tx, x.child = some e.idx → e.idx = goneChild) ∧ (s.quiet = false → t.pends 54) ∧
        t.tickets = s.tickets ∧ t.cfg = s.cfg) := by
  intro e
  have hexec : exec (.catRemove l) s = execCatRemove l s := rfl
  have htell : (l.word? "notify" != some "NO") = false := by rw [hw]; rfl
  unfold execCatRemove at hexec
  simp only [htell, Bool.false_and, erIf, Bool.false_eq_true, if_false, List.append_nil] at hexec
  refine does_of_runLine hexec fun ha => ?_
  have hbump : ((s.took l.origin).bump .link).besideReply = (s.bump .link).besideReply :=
    congrArg (fun u : State => u.bump .link) (s.took_besideReply l.origin)
  have hbeside : (((s.took l.origin).bump .link).ok l ((s.took l.origin).entryToks e)).besideReply =
      (s.bump .link).besideReply := (State.ok_besideReply _ _ _ _).trans hbump
  have htoks : (s.took l.origin).entryToks e = s.entryToks e := by
    obtain ⟨d, c, k, took⟩ := s.took_eq l.origin
    rw [took]
    rfl
  unfold State.childLeave
  rw [htoks] at hbeside ⊢
  have hsaid : (s.took l.origin).OutLe ((s.took l.origin).bump .link) := .of_eq rfl rfl
  generalize hu : State.ok _ l (s.entryToks e) = u at hbeside ⊢
  obtain ⟨hcat, htx, htick, hcfg, hquiet, hout⟩ := u.dropEntry_drops e.idx
  have hlink : u.link = s.link := (congrArg State.link hbeside : u.besideReply.link = (s.bump .link).besideReply.link)
  have hframe : u.frame = s.frame := (congrArg State.frame hbeside : u.besideReply.frame = (s.bump .link).besideReply.frame)
  have hutick : u.tickets = s.tickets :=
    (congrArg State.tickets hbeside : u.besideReply.tickets = (s.bump .link).besideReply.tickets)
  have hucfg : u.cfg = s.cfg := (congrArg State.cfg hbeside : u.besideReply.cfg = (s.bump .link).besideReply.cfg)
  have huquiet : u.quiet = s.quiet := State.quiet_of_besideReply (s := s.bump .link) hbeside
  have hfire := State.Aside.fire ((u.dropEntry e.idx).countCat 1) 54
    [.kv "short" (.hex 4 e.short.toNat), kw "by" "PARENT"]
  have hcount : (u.dropEntry e.idx).OutLe ((u.dropEntry e.idx).countCat 1) := .of_eq rfl rfl
  refine ⟨.of_took (.of_ok hsaid (hu ▸ (hout.trans hcount).trans hfire.out)), ?_, fun x hx hc => ?_, fun hq => ?_, ?_, ?_⟩
  · rw [← hlink]
    exact (hfire.link LinkSt.cat).trans hcat
  · have hin := (congrArg FrameSt.tx hfire.frame).trans htx
    rw [hin] at hx
    exact State.child_of_childFrames hx hc
  · have hcounted : ((u.dropEntry e.idx).countCat 1).quiet = false := (hquiet.trans huquiet).trans hq
    exact State.pends_fire hcounted
  · exact (State.fire_tickets _ _ _).trans (htick.trans hutick)
  · exact hfire.cfg.trans (hcfg.trans hucfg)

end Sys2Proof.Machine

/-- Settles O20: a stopped run ends through `orderEnd`, a skipped line through `orderLineDone`, and a child that goes through
`dropEntry`. -/
theorem orderLinesTakeEffect : Obligations.OrderLinesTakeEffect := by
  intro l s
  refine ⟨⟨fun hr hp ha => orderStop_pending l s hr hp ha, fun hall hr hp => ?idle, fun r hall hr hk hw => ?ends,
    fun r n x hall hr hk hw hx _ hun hi => ?waits⟩,
    fun k ho => ⟨wait_awaits l s ho, fun n hn hp => waitClear_awaits l s ho hn hp, fun r hr hs => skip_passes l s ho hr hs⟩,
    fun e he => ⟨fun hw => he ▸ catRemove_tells l s hw, fun hw => ?drops⟩⟩
  case idle => exact orderStop_idle l s hall hr hp
  case ends => exact hk ▸ orderStop_ends l s hall hr hk hw
  case waits => exact orderStop_waits l s hall hr hk hw hx hun hi
  case drops => exact he ▸ catRemove_drops l s hw

end

section

/-! ### The noise source and the ends of the Vault's tickets (18_noise_vault R469–R478, R482, R486, R489, R492) -/

open Sys2Proof Sys2Proof.Machine

namespace Sys2Proof.Machine

/-! #### Events of the source outside of Run, and those that find nothing to do -/

theorem noise_of_not_inRun {s : State} {apt : Bool} (h : s.inRun = false) :
    ∀ c ∈ [Instr.noiseStartupTestEnd true apt, .noiseStartupTestEnd false apt, .noiseHealthFail apt,
      .gradeBRefillDone, .seedBlockDone, .drbgReseedDone], exec c s = .next s := by
  simp only [List.mem_cons, List.not_mem_nil, or_false, forall_eq_or_imp, forall_eq]
  refine ⟨?_, ?_, ?_, ?_, ?_, ?_⟩
  · exact if_pos (by rw [h]; rfl)
  · exact if_pos (by rw [h]; rfl)
  · exact if_pos (by rw [h]; rfl)
  · exact if_pos (by rw [h]; rfl)
  · exact if_neg (by rw [h]; exact Bool.false_ne_true)
  · show execDrbgReseedDone s = _
    unfold execDrbgReseedDone
    rw [h]
    rfl

/-- In Run, events are not held back. -/
theorem State.loud_of_inRun {s : State} (h : s.inRun = true) : s.quiet = false :=
  State.loud_of_awake (State.awake_of_inRun h)

/-! #### The startup test -/

/-- A startup test that passes. -/
theorem startupTest_passes {s : State} {apt : Bool} (hr : s.inRun = true) (hst : s.noise.st = .startup) (y : Ticket) :
    Leads (.noiseStartupTestEnd true apt) s (fun t => t.noise.st = .ready ∧ t.noise.refill = true ∧
      t.noise.rawBits = s.noise.rawBits.add 1024 ∧ t.edition .noise = s.edition .noise + 1 ∧
      (s.running .noise = some y → s.ticket? y.n = some y → y.live = true → ∃ ed, Completed t y .done [] ed)) := by
  have hexec : exec (.noiseStartupTestEnd true apt) s = execNoiseStartupTestEnd true apt s := rfl
  unfold execNoiseStartupTestEnd at hexec
  simp only [hr, hst, decide_true, Bool.and_self, Bool.not_true, Bool.false_eq_true, if_false, if_true] at hexec
  generalize hu : ({ s.startupBits.noiseTo .ready with noise := _ } : State) = u at hexec
  have hready : s.startupBits.noiseTo .ready =
      State.bump { s.startupBits with noise := { s.startupBits.noise with st := .ready } } .noise :=
    if_neg (by show ¬ s.noise.st = _; rw [hst]; decide)
  rw [hready] at hu
  have hdone := State.Aside.completeRunning u .noise .done []
  have htick : u.tickets = s.tickets := by subst hu; rfl
  refine ⟨_, hexec, ?_, ?_, ?_, ?_, fun hy ht hl => ?_⟩
  · rw [hdone.noise]; subst hu; rfl
  · rw [hdone.noise]; subst hu; rfl
  · rw [hdone.noise]; subst hu; rfl
  · rw [hdone.edition (by decide)]
    subst hu
    exact State.edition_bump_same _ _
  · unfold State.completeRunning
    rw [State.running_of_tickets htick, hy]
    exact State.complete_of_ticket _ _ _ ((State.ticket_of_tickets htick _).trans ht) hl

/-! #### A source that fails -/

/-- The source failed by a test, before its condition comes true. -/
def State.sourceFailed (s : State) (test : Nat) : State :=
  State.bump { s with noise := { s.noise with
    st := .failed, pool := 0, refill := false, drbg := none, reseeding := false, due := false, seed := none
    requests := 0, failTest := test } } .noise

theorem State.noiseFail_eq {s : State} (h : s.noise.st ≠ .failed) (test : Nat) : s.noiseFail test =
    (((s.sourceFailed test).condOn 80 [kw "test" (testName test)]).failRand "HEALTH").failDraw := by
  unfold State.noiseFail State.noiseTo
  dsimp only
  rw [if_neg h]
  rfl

/-- A source that fails has no pool, no generator and no refill, and its condition comes true. -/
theorem State.noiseFail_fails {s : State} (h : s.noise.st ≠ .failed) (test : Nat) (hq : s.quiet = false) :
    let t := s.noiseFail test
    t.noise = (s.sourceFailed test).noise ∧ (s.events.cond.getLsbD 80 = false → t.pends 80) := by
  intro t
  have ht : t = _ := State.noiseFail_eq h test
  obtain ⟨c, -, hcond⟩ := (s.sourceFailed test).condOn_aside 80 [kw "test" (testName test)]
  have hrand := State.Aside.failRand ((s.sourceFailed test).condOn 80 [kw "test" (testName test)]) "HEALTH"
  obtain ⟨hdraw, -⟩ := (((s.sourceFailed test).condOn 80 [kw "test" (testName test)]).failRand "HEALTH").failDraw_noise
  have hon := State.Onward.failDraw (((s.sourceFailed test).condOn 80 [kw "test" (testName test)]).failRand "HEALTH")
  rw [ht]
  refine ⟨hdraw.trans (hrand.noise.trans hcond.noise), fun hc => ?_⟩
  exact hon.pends (hrand.pends (State.condOn_pends hq hc))

theorem startupTest_fails {s : State} {apt : Bool} (hr : s.inRun = true) (hst : s.noise.st = .startup) :
    Leads (.noiseStartupTestEnd false apt) s (fun t => t.noise.st = .failed ∧ t.noise.failTest = 3 ∧ t.noise.drbg = none ∧
      t.noise.pool = 0 ∧ t.noise.rawBits = s.noise.rawBits.add 1024 ∧
      (s.events.cond.getLsbD 80 = false → t.pends 80)) := by
  have hexec : exec (.noiseStartupTestEnd false apt) s = execNoiseStartupTestEnd false apt s := rfl
  unfold execNoiseStartupTestEnd at hexec
  simp only [hr, hst, decide_true, Bool.and_self, Bool.not_true, Bool.false_eq_true, if_false] at hexec
  generalize hu : State.rawFailed _ 1024 apt = u at hexec
  have hust : u.noise.st = .startup := by subst hu; cases apt <;> rfl
  have hbits : u.noise.rawBits = s.noise.rawBits.add 1024 := by subst hu; cases apt <;> rfl
  have hcond : u.events.cond = s.events.cond := by subst hu; rfl
  have hquiet : u.quiet = false := by subst hu; exact State.loud_of_inRun hr
  obtain ⟨hnoise, hpends⟩ := State.noiseFail_fails (by rw [hust]; decide) 3 hquiet
  have hdone := State.Aside.completeRunning (u.noiseFail 3) .noise .fail
    [kw "why" "HEALTH", kw "test" (if apt then "APT" else "RCT")]
  refine ⟨_, hexec, ?_⟩
  beta_reduce
  rw [hdone.noise, hnoise]
  exact ⟨rfl, rfl, rfl, rfl, hbits, fun hc => hdone.pends (hpends (hcond ▸ hc))⟩

/-- A health test that fails while the source runs fails the source. -/
theorem healthTest_fails {s : State} {apt : Bool} (hr : s.inRun = true) (hs : s.sourceRuns = true) :
    Leads (.noiseHealthFail apt) s (fun t => t.noise.st = .failed ∧
      t.noise.failTest = (if apt then 2 else 1) ∧ t.noise.drbg = none ∧ t.noise.pool = 0 ∧ t.noise.refill = false ∧
      (s.events.cond.getLsbD 80 = false → t.pends 80)) := by
  have hexec : exec (.noiseHealthFail apt) s = execNoiseHealthFail apt s := rfl
  have hst : s.noise.st = .ready := by
    unfold State.sourceRuns at hs
    exact of_decide_eq_true (Bool.and_eq_true_iff.mp hs).1
  unfold execNoiseHealthFail at hexec
  simp only [hr, hst, hs, Bool.not_true, Bool.false_eq_true, if_false, if_true, reduceCtorEq] at hexec
  generalize hu : State.rawFailed _ _ apt = u at hexec
  have hust : u.noise.st = .ready := by subst hu; cases apt <;> exact hst
  have hcond : u.events.cond = s.events.cond := by subst hu; rfl
  have hquiet : u.quiet = false := by subst hu; exact State.loud_of_inRun hr
  obtain ⟨hnoise, hpends⟩ := State.noiseFail_fails (by rw [hust]; decide) (if apt then 2 else 1) hquiet
  refine ⟨_, hexec, ?_⟩
  beta_reduce
  rw [hnoise]
  exact ⟨rfl, rfl, rfl, rfl, rfl, fun hc => hpends (hcond ▸ hc)⟩

/-! #### Refills and seeds -/

/-- A refill ends with a full pool. -/
theorem refill_ends {s : State} (hr : s.inRun = true) (hf : s.noise.refill = true) (hst : s.noise.st = .ready)
    (hop : s.link.op = none) : Leads .gradeBRefillDone s (fun t => t.noise.pool = 64 ∧ t.noise.refill = false ∧
      t.noise.st = .ready ∧ t.drawn = s.drawn + 2 ∧ t.tickets = s.tickets) := by
  have hexec : exec .gradeBRefillDone s = execGradeBRefillDone s := rfl
  unfold execGradeBRefillDone at hexec
  have hlink : s.refillPool.link.op = none := hop
  simp only [hr, hf, hst, decide_true, Bool.and_self, Bool.not_true, Bool.false_eq_true, if_false, hlink, Option.map_none,
    reduceCtorEq] at hexec
  exact ⟨_, hexec, rfl, rfl, hst, rfl, rfl⟩

theorem State.seedNext_sees (s : State) :
    s.seedNext.2.noise.rawBits = s.noise.rawBits.add 512 ∧ s.seedNext.2.tickets = s.tickets := by
  have h : s.seedNext.2 = State.rawSeen { s with drawn := s.drawn + 4 } 512 := by
    unfold State.seedNext State.draw
    rfl
  rw [h]
  exact ⟨rfl, rfl⟩

theorem seedBlock_ends {s : State} (hr : s.inRun = true) (hs : s.noise.reseeding = true) (hn : s.noise.seed = none) :
    Leads .seedBlockDone s (fun t => t.noise.seed.isSome = true ∧ t.noise.rawBits = s.noise.rawBits.add 512 ∧
      t.tickets = s.tickets) := by
  have hexec : exec .seedBlockDone s = execSeedBlockDone s := rfl
  unfold execSeedBlockDone at hexec
  simp only [hr, hs, hn, Option.isNone_none, Bool.and_self, if_true] at hexec
  obtain ⟨hbits, htick⟩ := s.seedNext_sees
  exact ⟨_, hexec, Option.isSome_some, hbits, htick⟩

/-- The generator reseeded, before the event of it. -/
def State.reseeded (s : State) (z : BitVec 128) : State :=
  { s with noise := { s.noise with
    drbg := s.noise.drbg.map (fun d => Drbg.reseed d (keyN z)), reseeding := false, seed := none
    requests := 0, reseeds := s.noise.reseeds.inc } }

/-- A seed block collected reseeds the generator. -/
theorem reseed_ends {s : State} {z : BitVec 128} (hr : s.inRun = true) (hs : s.noise.reseeding = true)
    (hz : s.noise.seed = some z) (d : Drbg) : Leads .drbgReseedDone s (fun t =>
      t.noise.reseeding = false ∧ t.noise.seed = none ∧ t.noise.requests = 0 ∧
      (s.noise.drbg = some d → t.noise.drbg = some (d.reseed (keyN z))) ∧ t.noise.reseeds = s.noise.reseeds.inc ∧
      t.pends 82) := by
  have hexec : exec .drbgReseedDone s =
      .next ((s.reseeded z).fire 82 [kd "count" (s.reseeded z).noise.reseeds.val.toNat]) := by
    show execDrbgReseedDone s = _
    unfold execDrbgReseedDone
    rw [hr, hs, hz]
    rfl
  have hfire := State.Aside.fire (s.reseeded z) 82 [kd "count" (s.reseeded z).noise.reseeds.val.toNat]
  have hquiet : (s.reseeded z).quiet = false := State.loud_of_inRun hr
  refine ⟨_, hexec, ?_⟩
  beta_reduce
  rw [hfire.noise]
  exact ⟨rfl, rfl, rfl, fun hd => congrArg (Option.map _) hd, rfl, State.pends_fire hquiet⟩

theorem seeds_idle {s : State} (h : s.noise.reseeding = false) :
    exec .seedBlockDone s = .next s ∧ exec .drbgReseedDone s = .next s := by
  refine ⟨if_neg (by rw [h, Bool.and_false]; exact Bool.false_ne_true), ?_⟩
  show execDrbgReseedDone s = _
  unfold execDrbgReseedDone
  rw [h, Bool.and_false]

/-! #### Data from the source and the generator -/

theorem State.drawOctets_eq (n : Nat) (s : State) : (State.drawOctets n s).2 = { s with drawn := s.drawn + n } := by
  induction n generalizing s with
  | zero => rfl
  | succ n ih =>
    refine (ih s.draw.2).trans ?_
    show ({ s with drawn := s.drawn + 1 + n } : State) = _
    rw [Nat.add_assoc, Nat.add_comm 1 n]

/-- A ticket that brings data completes; lines of data behind its reply change nothing else. -/
theorem State.completeData_ends (s : State) (y : Ticket) (fs ln : List Tok) (o : List Byte) :
    ∃ b, (s.completeData y fs ln o).besideReply = (s.complete y.n .done fs b).besideReply := by
  unfold State.completeData
  split
  · split
    · exact ⟨o, rfl⟩
    · exact ⟨[], State.pushes_besideReply _ _ _ _⟩
  · exact ⟨[], rfl⟩

/-- A capture of raw data ends with the octets drawn. -/
theorem rawCapture_ends {s : State} {y : Ticket} {n : Nat} (hy : s.running .noise = some y) (hop : y.op = .rawCapture n)
    (hst : s.noise.st = .raw) (ht : s.ticket? y.n = some y) (hl : y.live = true) :
    Leads .rawCaptureDone s (fun t => t.noise = s.noise ∧ t.drawn = s.drawn + n ∧
      ∃ ed, Completed t y .done [kd "n" n, kd "alarms" s.noise.capAlarms] ed) := by
  have hexec : exec .rawCaptureDone s = .next (State.completeData (State.drawOctets n s).2 y
      [kd "n" n, kd "alarms" s.noise.capAlarms] [w "OK", w "NOISE", w "RAW", w "DATA"] (State.drawOctets n s).1) := by
    show execRawCaptureDone s = _
    unfold execRawCaptureDone
    rw [hy]
    dsimp only
    rw [hop]
    exact if_neg (not_not.mpr hst)
  rw [State.drawOctets_eq] at hexec
  generalize hu : ({ s with drawn := s.drawn + n } : State) = u at hexec
  obtain ⟨b, hdata⟩ := u.completeData_ends y [kd "n" n, kd "alarms" s.noise.capAlarms] [w "OK", w "NOISE", w "RAW", w "DATA"]
    (State.drawOctets n s).1
  have hdone := State.Aside.complete u y.n .done [kd "n" n, kd "alarms" s.noise.capAlarms] b
  have htick : u.ticket? y.n = some y := by subst hu; exact ht
  obtain ⟨ed, hc⟩ := State.complete_of_ticket (s := u) .done [kd "n" n, kd "alarms" s.noise.capAlarms] b htick hl
  refine ⟨_, hexec, ?_, ?_, ed, hc.of_tickets (congrArg State.tickets hdata : State.tickets (State.besideReply _) = _)⟩
  · refine ((congrArg State.noise hdata : State.noise (State.besideReply _) = _).trans hdone.noise).trans ?_
    subst hu
    rfl
  · refine ((congrArg State.drawn hdata : State.drawn (State.besideReply _) = _).trans
      (congrArg State.drawn hdone.beside : State.drawn (State.besideTickets _) = _)).trans ?_
    subst hu
    rfl

/-- A request of the Vault for random octets ends with those that the generator gives. -/
theorem vaultRand_ends {s : State} {y : Ticket} {n : Nat} {d : Drbg} (hy : s.running .vault = some y)
    (hop : y.op = .vaultRand n) (hr : s.noise.reseeding = false) (hg : s.gradeA = true) (hd : s.noise.drbg = some d)
    (ht : s.ticket? y.n = some y) (hl : y.live = true) : Leads .vaultRandDone s (fun t =>
      t.noise.requests = s.noise.requests + 1 ∧ t.noise.aRequests = s.noise.aRequests.inc ∧
      t.noise.reseeding = decide (4096 ≤ s.noise.requests + 1) ∧ t.noise.drbg = some (d.generate n).2 ∧
      ∃ ed, Completed t y .done [kd "n" n, .w (.octets (toB (d.generate n).1))] ed) := by
  have hexec : exec .vaultRandDone s = .next ((State.countRequest { s with noise := { s.noise with
      drbg := some (d.generate n).2 } }).complete y.n .done [kd "n" n, .w (.octets (toB (d.generate n).1))]) := by
    show execVaultRandDone s = _
    unfold execVaultRandDone
    rw [hy]
    dsimp only
    rw [hop]
    dsimp only
    rw [if_neg (by rw [hr, hg]; exact Bool.false_ne_true)]
    unfold State.generate
    rw [hd]
  generalize hu : State.countRequest { s with noise := { s.noise with drbg := some (d.generate n).2 } } = u at hexec
  have hdone := State.Aside.complete u y.n .done [kd "n" n, .w (.octets (toB (d.generate n).1))] []
  have htick : u.ticket? y.n = some y := by subst hu; exact ht
  refine ⟨_, hexec, ?_⟩
  beta_reduce
  rw [hdone.noise]
  refine ⟨?_, ?_, ?_, ?_, State.complete_of_ticket _ _ _ htick hl⟩
  · subst hu; rfl
  · subst hu; rfl
  · subst hu
    unfold State.countRequest
    dsimp only
    rw [hr, Bool.false_or]
  · subst hu; rfl

theorem vaultRand_waits {s : State} {y : Ticket} {n : Nat} (hy : s.running .vault = some y) (hop : y.op = .vaultRand n)
    (h : s.noise.reseeding = true ∨ s.gradeA = false) : exec .vaultRandDone s = .next s := by
  show execVaultRandDone s = _
  unfold execVaultRandDone
  rw [hy]
  dsimp only
  rw [hop]
  refine if_pos ?_
  rcases h with h | h
  · rw [h, Bool.true_or]
  · rw [h, Bool.not_false, Bool.or_true]

/-! #### Keys and CCM -/

/-- The rows that the load of a key writes. -/
def State.keyRows (s : State) (k : Nat) : List RowWhat :=
  [s.keyRow k] ++ (if k < 2 then [] else [s.fcRowWhat] ++ (if s.isParent then [.cat s.link.cat] else []))

/-- A plain key is written to its slot, and its row and those of the frame counters to the Record. -/
theorem plainLoad_ends {s : State} {y : Ticket} {k : Nat} {octets : List Byte} (hy : s.running .vault = some y)
    (hop : y.op = .vaultLoad k octets false) (hf : y.fields = []) (hk : k < 8) (h2 : 2 ≤ k) (ht : s.ticket? y.n = some y) :
    Leads .vaultLoadDone s (fun t => t.slotKey k = some (BitVec.ofNat 128 (beNat octets)) ∧
      (∀ j, j ≠ k → t.slotKey j = s.slotKey j) ∧ t.vault.loads = s.vault.loads.inc ∧ vget t.frame.fc k 1 = 0 ∧
      t.edition .vault = s.edition .vault + 1 ∧
      (t.ticket? y.n).map (·.fields) =
        some [kd "slot" k, .kv "kcv" (.hex 6 (kcv (BitVec.ofNat 128 (beNat octets))))]) := by
  generalize hx : BitVec.ofNat 128 (beNat octets) = x
  let fs : List Tok := [kd "slot" k, .kv "kcv" (.hex 6 (kcv x))]
  have hexec : exec .vaultLoadDone s = .next (((s.installKey k x).updTicket y.n (fun t => { t with fields := fs })).rowWrites
      (((s.installKey k x).updTicket y.n (fun t => { t with fields := fs })).keyRows k) (some y.n)) := by
    show execVaultLoadDone s = _
    unfold execVaultLoadDone
    rw [hy]
    dsimp only
    rw [hop]
    dsimp only
    rw [if_neg (by rw [hf]; exact Bool.false_ne_true)]
    unfold State.loadedKey
    rw [if_neg Bool.false_ne_true, hx]
    rfl
  obtain ⟨r, st, pw, rows, hrows⟩ :=
    State.rowWrites_frame ((s.installKey k x).updTicket y.n (fun t => { t with fields := fs }))
      (((s.installKey k x).updTicket y.n (fun t => { t with fields := fs })).keyRows k) (some y.n)
  rw [hrows] at hexec
  have hin : s.installKey k x = _ := if_neg (Nat.not_lt.mpr h2)
  refine ⟨_, hexec, ?_, fun j hj => ?_, ?_, ?_, ?_, ?_⟩
  · rw [hin]
    exact vget_vset_same _ _ _ _ hk
  · rw [hin]
    exact vget_vset_other _ _ _ _ _ hj
  · rw [hin]
    rfl
  · rw [hin]
    exact vget_vset_same _ _ _ _ hk
  · rw [hin]
    exact State.edition_bump_same _ _
  · have htick : (s.installKey k x).ticket? y.n = some y := by rw [hin]; exact ht
    have hupd := State.ticket_updTicket (s.installKey k x) y.n y.n (fun t => { t with fields := fs }) (fun _ => rfl)
    rw [htick, Option.map_some, if_pos rfl] at hupd
    exact congrArg (Option.map (·.fields)) hupd

/-- A wrapped key that does not unwrap fails its ticket. -/
theorem wrappedLoad_fails {s : State} {y : Ticket} {k : Nat} {octets : List Byte} (hy : s.running .vault = some y)
    (hop : y.op = .vaultLoad k octets true) (hf : y.fields = []) (hn : s.loadedKey octets true = none)
    (ht : s.ticket? y.n = some y) (hl : y.live = true) : Leads .vaultLoadDone s (fun t => t.vault.slots = s.vault.slots ∧
      t.vault.unwrapFails = s.vault.unwrapFails.inc ∧ (s.quiet = false → t.pends 85) ∧
      ∃ ed, Completed t y .fail [kw "why" "UNWRAP"] ed) := by
  have hexec : exec .vaultLoadDone s = .next ((State.fire { s with vault := { s.vault with
      unwrapFails := s.vault.unwrapFails.inc } } 85 [kd "slot" k]).complete y.n .fail [kw "why" "UNWRAP"]) := by
    show execVaultLoadDone s = _
    unfold execVaultLoadDone
    rw [hy]
    dsimp only
    rw [hop]
    dsimp only
    rw [if_neg (by rw [hf]; exact Bool.false_ne_true), hn]
  generalize hu : ({ s with vault := _ } : State) = u at hexec
  have hfire := State.Aside.fire u 85 [kd "slot" k]
  have hdone := State.Aside.complete (u.fire 85 [kd "slot" k]) y.n .fail [kw "why" "UNWRAP"] []
  have htick : (u.fire 85 [kd "slot" k]).ticket? y.n = some y := by
    rw [State.ticket_of_tickets (u.fire_tickets _ _)]
    subst hu
    exact ht
  refine ⟨_, hexec, ?_⟩
  beta_reduce
  rw [hdone.vault, hfire.vault]
  refine ⟨?_, ?_, fun hq => ?_, State.complete_of_ticket _ _ _ htick hl⟩
  · subst hu; rfl
  · subst hu; rfl
  · have hquiet : u.quiet = false := by subst hu; exact hq
    exact hdone.pends (State.pends_fire hquiet)

section
variable {s : State} {y : Ticket} {dec blk : Bool} {slot level : Nat} {nonce aad data : List Byte}
  (hy : s.running .vault = some y) (hop : y.op = .vaultCcm dec slot level nonce aad data blk)
  (ht : s.ticket? y.n = some y) (hl : y.live = true)
include hy hop ht hl

theorem ccm_noKey (hk : s.slotKey slot = none) :
    Leads .vaultCcmDone s (fun t => ∃ ed, Completed t y .fail [kw "why" "KEY"] ed) := by
  have hexec : exec .vaultCcmDone s = .next (s.complete y.n .fail [kw "why" "KEY"]) := by
    show execVaultCcmDone s = _
    unfold execVaultCcmDone
    rw [hy]
    dsimp only
    rw [hop]
    dsimp only
    rw [hk]
  exact ⟨_, hexec, State.complete_of_ticket _ _ _ ht hl⟩

theorem ccm_gives {key : BitVec 128} (hk : s.slotKey slot = some key) {o : List Nat}
    (ho : (if dec then ccmDec (keyN key) (toN nonce) (toN aad) (toN data) level
      else some (ccmEnc (keyN key) (toN nonce) (toN aad) (toN data) level)) = some o) :
    Leads .vaultCcmDone s (fun t => t.vault = s.vault ∧
      ∃ ed, Completed t y .done (kd "n" (toB o).length :: if blk then [] else [.w (.octets (toB o))]) ed) := by
  have hexec : ∃ b, exec .vaultCcmDone s =
      .next (s.complete y.n .done (kd "n" (toB o).length :: if blk then [] else [.w (.octets (toB o))]) b) := by
    refine ⟨if blk then toB o else [], ?_⟩
    show execVaultCcmDone s = _
    unfold execVaultCcmDone
    rw [hy]
    dsimp only
    rw [hop]
    dsimp only
    rw [hk]
    cases dec with
    | true =>
      rw [if_pos rfl] at ho
      dsimp only
      rw [if_pos rfl, ho]
      cases blk <;> rfl
    | false =>
      rw [if_neg Bool.false_ne_true] at ho
      obtain rfl := Option.some.inj ho
      cases blk <;> rfl
  obtain ⟨b, hexec⟩ := hexec
  exact ⟨_, hexec, (State.Aside.complete _ _ _ _ _).vault, State.complete_of_ticket _ _ _ ht hl⟩

theorem ccm_fails {key : BitVec 128} (hk : s.slotKey slot = some key) (hdec : dec = true)
    (ho : ccmDec (keyN key) (toN nonce) (toN aad) (toN data) level = none) :
    Leads .vaultCcmDone s (fun t => t.vault.ccmFails = s.vault.ccmFails.inc ∧
      ∃ ed, Completed t y .fail [kw "why" "MIC"] ed) := by
  have hexec : exec .vaultCcmDone s = .next (State.complete { s with vault := { s.vault with
      ccmFails := s.vault.ccmFails.inc } } y.n .fail [kw "why" "MIC"]) := by
    show execVaultCcmDone s = _
    unfold execVaultCcmDone
    rw [hy]
    dsimp only
    rw [hop]
    dsimp only
    rw [hk]
    dsimp only
    rw [if_pos hdec, ho]
  refine ⟨_, hexec, congrArg VaultSt.ccmFails (State.Aside.complete _ _ _ _ _).vault, ?_⟩
  exact State.complete_of_ticket _ _ _ ht hl

end

end Sys2Proof.Machine

/-- Settles O47: the failing source through `noiseFail`, and the ends of tickets through `complete`. -/
theorem noiseAndVaultEventsTakeEffect : Obligations.NoiseAndVaultEventsTakeEffect := by
  intro s y apt n k octets nonce aad data blk d z
  refine ⟨noise_of_not_inRun, fun hr hst => ⟨startupTest_passes hr hst y, startupTest_fails hr hst⟩, fun hst => ?early,
    fun hr hst => ?raw, healthTest_fails, refill_ends, fun h => ?full, seedBlock_ends, fun hr hs hz => reseed_ends hr hs hz d,
    seeds_idle, fun h => ?noCapture, rawCapture_ends, fun h => ?noVault, vaultRand_ends, vaultRand_waits,
    fun hy hop hf hk h2 ht => plainLoad_ends hy hop hf hk h2 ht, wrappedLoad_fails, fun dec slot level hy hop ht hl => ?ccm⟩
  case early => exact if_pos (by simp [hst])
  case raw =>
    show execNoiseHealthFail apt s = _
    unfold execNoiseHealthFail
    rw [hr, if_neg (by decide), if_pos hst]
  case full => exact if_pos (by simp [h])
  case noCapture =>
    show execRawCaptureDone s = _
    unfold execRawCaptureDone
    rw [h]
  case noVault =>
    refine ⟨?_, ?_, ?_⟩
    · show execVaultLoadDone s = _
      unfold execVaultLoadDone
      rw [h]
    · show execVaultRandDone s = _
      unfold execVaultRandDone
      rw [h]
    · show execVaultCcmDone s = _
      unfold execVaultCcmDone
      rw [h]
  case ccm =>
    exact ⟨fun hk => ccm_noKey hy hop ht hl hk, fun key hk =>
      ⟨fun o ho => ccm_gives hy hop ht hl hk ho, fun hdec ho => ccm_fails hy hop ht hl hk hdec ho⟩⟩

end

section

/-! ### The interval boundary and the passes of a trim item (16_ledger R437–R441, 17_trim R455–R458, R462) -/

open Sys2Proof Sys2Proof.Machine

namespace Sys2Proof.Machine

/-! #### The interval boundary -/

/-- The Ledger but for where its journal stands. -/
def LedgerSt.book (g : LedgerSt) : LedgerSt := { g with row := 0, seq := 0, journal := Vector.replicate 32 none }

/-- The Ledger with an interval opened. -/
def LedgerSt.opened (g : LedgerSt) (start spent : Nat) : LedgerSt :=
  { g with isOpen := true, start := start, spent := spent, recovered := false }

theorem LedgerSt.opened_congr {g h : LedgerSt} (k : g.book = h.book) (a n : Nat) : (g.opened a n).book = (h.opened a n).book :=
  (congrArg (fun g : LedgerSt => (g.opened a n).book) k : (g.book.opened a n).book = (h.book.opened a n).book)

theorem LedgerSt.of_book {α : Type} (f : LedgerSt → α) {g h : LedgerSt} {x : α} (k : g.book = h.book)
    (hf : ∀ g : LedgerSt, f g.book = f g := by intro; rfl) (hx : f h = x := by rfl) : f g = x :=
  (hf g).symm.trans ((congrArg f k).trans ((hf h).trans hx))

theorem State.journal_book (s : State) (k : JKind) : (s.journal k).ledger.book = s.ledger.book := by
  obtain ⟨r, rows, row, seq, j, h⟩ := s.journal_frame k
  rw [h]
  rfl

theorem State.closeInterval_book (s : State) :
    s.closeInterval.ledger.book = LedgerSt.book { s.ledger with isOpen := false } := State.journal_book _ _

theorem State.fire_ledger (s : State) (n : Nat) (fs : List Tok) : (s.fire n fs).ledger = s.ledger :=
  (State.Aside.fire s n fs).ledger

theorem State.openInterval_book (s : State) (spent : Nat) :
    ∃ a, (s.openInterval spent false).ledger.book = (s.ledger.opened a spent).book := by
  unfold State.openInterval
  extract_lets len s1 q s2
  refine ⟨s.now / len * len, ?_⟩
  rw [State.fire_ledger]
  exact s2.journal_book .open

theorem State.IntervalSet.pends {s t : State} (h : s.IntervalSet t) {n : Nat} (k : s.pends n) : t.pends n := fun hn =>
  h.pend n (k (State.eventPresent_of_part h.part ▸ hn))

/-- A new interval is told by its event. -/
theorem State.openInterval_pends {s : State} (spent : Nat) (hq : s.quiet = false) : (s.openInterval spent false).pends 68 := by
  unfold State.openInterval
  extract_lets len s1 q s2
  have hjournal : s2.IntervalSet ((s2.journal .open).bump .ledger) := (State.IntervalSet.journal s2 _).trans (.bump _)
  have hquiet : s2.quiet = s.quiet := rfl
  exact State.pends_fire ((State.quiet_of_pwr hjournal.pwr).trans (hquiet.trans hq))

theorem State.openInterval_edition (s : State) (spent : Nat) :
    (s.openInterval spent false).edition .ledger = s.edition .ledger + 1 := by
  unfold State.openInterval
  extract_lets len s1 q s2
  obtain ⟨r, rows, row, seq, j, h⟩ := s2.journal_frame .open
  rw [(State.Aside.fire _ _ _).edition (by decide), h]
  exact State.edition_bump_same _ _

theorem State.closeInterval_edition (s : State) : s.closeInterval.edition .ledger = s.edition .ledger := by
  unfold State.closeInterval
  obtain ⟨r, rows, row, seq, j, h⟩ := State.journal_frame { s with ledger := { s.ledger with isOpen := false } } .close
  rw [h]
  rfl

/-- A change that applies takes the tariff booked, leaves no change booked, and is told by its event. -/
theorem State.applyChange_applies {s : State} {i b : Nat} (h : s.ledger.pend = some (i, b)) : let t := s.applyChange
    t.ledger.book = LedgerSt.book { s.ledger with active := i, pend := none } ∧ s.IntervalSet t ∧
      (s.quiet = false → t.pends 67) := by
  unfold State.applyChange
  rw [h]
  dsimp only
  generalize hx : ({ s with ledger := _ } : State) = x
  have hset : s.IntervalSet x := by subst hx; exact .ledger s _
  have hjournal : x.IntervalSet ((x.journal .tariff).bump .ledger) := (State.IntervalSet.journal x _).trans (.bump _)
  refine ⟨?_, (hset.trans hjournal).trans (.fire _ _ _), fun hq => ?_⟩
  · rw [State.fire_ledger]
    refine (x.journal_book .tariff).trans ?_
    subst hx
    rfl
  · exact State.pends_fire ((State.quiet_of_pwr (hset.trans hjournal).pwr).trans hq)

/-- The boundary, before a ticket of a change that applies completes. -/
def State.crossed (s : State) : State :=
  State.openInterval (if s.changeDue && s.ledger.pend.isSome then s.closeInterval.applyChange else s.closeInterval)
    (if decide (s.intervalEnd ≤ s.now) then 0 else s.ledger.spent) false

theorem State.boundary_stands {s : State} (h : s.changeDue = false) : s.boundary s.changeDue = s.crossed := by
  rw [h]
  unfold State.boundary State.crossed
  rw [h]
  rfl

theorem State.boundary_applies {s : State} {i b : Nat} (h : s.changeDue = true) (hp : s.ledger.pend = some (i, b)) :
    (s.ledger.pendTicket = none → s.boundary s.changeDue = s.crossed) ∧
    (∀ n, s.ledger.pendTicket = some n → s.boundary s.changeDue =
      State.complete { s.crossed with ledger := { s.crossed.ledger with pendTicket := none } } n
        .done [kd "tariff" i, .kv "at" (.time b), kd "budget" s.crossed.budget]) := by
  rw [h]
  unfold State.boundary State.crossed
  rw [h, hp]
  exact ⟨fun hn => by rw [hn]; rfl, fun n hn => by rw [hn]; rfl⟩

/-- The Ledger past a boundary. -/
theorem State.crossed_spent (s : State) {x : State}
    (hx : x = if s.changeDue && s.ledger.pend.isSome then s.closeInterval.applyChange else s.closeInterval) (hs : s.IntervalSet x) :
    s.IntervalSet s.crossed ∧ (s.quiet = false → s.crossed.pends 68) ∧ s.crossed.edition .ledger = x.edition .ledger + 1 ∧
      ∃ a, s.crossed.ledger.book = (x.ledger.opened a (if s.intervalEnd ≤ s.now then 0 else s.ledger.spent)).book := by
  have hc : s.crossed = x.openInterval (if decide (s.intervalEnd ≤ s.now) then 0 else s.ledger.spent) false := by
    subst hx
    rfl
  rw [hc]
  simp only [decide_eq_true_eq]
  exact ⟨hs.trans (.openInterval _ _ _), fun hq => State.openInterval_pends _ ((State.quiet_of_pwr hs.pwr).trans hq),
    State.openInterval_edition _ _, State.openInterval_book _ _⟩

/-- A boundary at which no change applies. -/
theorem State.crossed_stands {s : State} (h : s.changeDue = false) : let t := s.crossed
    (s.quiet = false → t.pends 68) ∧ t.edition .ledger = s.edition .ledger + 1 ∧
      ∃ a, t.ledger.book = (s.ledger.opened a (if s.intervalEnd ≤ s.now then 0 else s.ledger.spent)).book := by
  obtain ⟨-, hpends, hed, a, hbook⟩ := s.crossed_spent (x := s.closeInterval) (by rw [h]; rfl) (.closeInterval s)
  have hclose : s.closeInterval.ledger.book = _ := s.closeInterval_book
  refine ⟨hpends, hed.trans (congrArg (· + 1) s.closeInterval_edition), a, hbook.trans (LedgerSt.opened_congr hclose a _)⟩

/-- A boundary at which a change applies. -/
theorem State.crossed_applies {s : State} {i b : Nat} (h : s.changeDue = true) (hp : s.ledger.pend = some (i, b)) :
    let t := s.crossed
    (s.quiet = false → t.pends 68) ∧ (s.quiet = false → t.pends 67) ∧ t.tickets = s.tickets ∧
      ∃ a, t.ledger.book = (LedgerSt.opened { s.ledger with active := i, pend := none } a
        (if s.intervalEnd ≤ s.now then 0 else s.ledger.spent)).book := by
  have hclose := s.closeInterval_book
  have hpend : s.closeInterval.ledger.pend = some (i, b) := (congrArg LedgerSt.pend hclose).trans hp
  have hset := State.IntervalSet.closeInterval s
  obtain ⟨hbook, happly, htold⟩ := State.applyChange_applies hpend
  obtain ⟨hall, hpends, -, a, hcross⟩ := s.crossed_spent (x := s.closeInterval.applyChange) (by rw [h, hp]; rfl) (hset.trans happly)
  refine ⟨hpends, fun hq => ?_, hall.tickets, a, hcross.trans ((LedgerSt.opened_congr hbook a _).trans ?_)⟩
  · have hx : s.crossed = s.closeInterval.applyChange.openInterval
        (if decide (s.intervalEnd ≤ s.now) then 0 else s.ledger.spent) false := by
      unfold State.crossed
      rw [h, hp]
      rfl
    have hopen := State.IntervalSet.openInterval s.closeInterval.applyChange
      (if decide (s.intervalEnd ≤ s.now) then 0 else s.ledger.spent) false
    rw [hx]
    exact State.IntervalSet.pends hopen (htold ((State.quiet_of_pwr hset.pwr).trans hq))
  · exact (congrArg (fun g : LedgerSt => (LedgerSt.opened { g with active := i, pend := none } a
      (if s.intervalEnd ≤ s.now then 0 else s.ledger.spent)).book) hclose :
        (LedgerSt.opened { s.closeInterval.ledger.book with active := i, pend := none } a _).book = _)

/-- The boundary of an interval that is due. -/
theorem boundary_crosses {s : State} (hb : s.awake = true) (hd : s.boundaryDue = true) (y : Ticket) :
    Leads .intervalBoundary s (fun t =>
      t.ledger.isOpen = true ∧ t.ledger.recovered = false ∧ t.ledger.total = s.ledger.total ∧
      t.ledger.spent = (if s.intervalEnd ≤ s.now then 0 else s.ledger.spent) ∧ (s.quiet = false → t.pends 68) ∧
      (s.changeDue = false → t.ledger.active = s.ledger.active ∧ t.ledger.pend = s.ledger.pend ∧
        t.edition .ledger = s.edition .ledger + 1) ∧
      (∀ i b, s.changeDue = true → s.ledger.pend = some (i, b) → t.ledger.active = i ∧ t.ledger.pend = none ∧
        (s.quiet = false → t.pends 67) ∧
        (∀ n, s.ledger.pendTicket = some n → s.ticket? n = some y → y.n = n → y.live = true → t.ledger.pendTicket = none ∧
          ∃ fs ed, Completed t y .done fs ed))) := by
  have hexec : exec .intervalBoundary s = .next (s.boundary s.changeDue) := if_pos (by rw [hb, hd]; rfl)
  refine ⟨_, hexec, ?_⟩
  cases hc : s.changeDue with
  | false =>
    obtain ⟨hpends, hed, a, hbook⟩ := State.crossed_stands hc
    have hstands := State.boundary_stands hc
    rw [hc] at hstands
    rw [hstands]
    exact ⟨LedgerSt.of_book LedgerSt.isOpen hbook, LedgerSt.of_book LedgerSt.recovered hbook, LedgerSt.of_book LedgerSt.total hbook,
      LedgerSt.of_book LedgerSt.spent hbook, hpends,
      fun _ => ⟨LedgerSt.of_book LedgerSt.active hbook, LedgerSt.of_book LedgerSt.pend hbook, hed⟩, nofun⟩
  | true =>
    obtain ⟨⟨i, b⟩, hp⟩ : ∃ x, s.ledger.pend = some x := by
      unfold State.changeDue at hc
      cases hp : s.ledger.pend with
      | none => rw [hp] at hc; cases hc
      | some x => exact ⟨x, rfl⟩
    obtain ⟨hpends, happlied, htick, a, hbook⟩ := State.crossed_applies hc hp
    obtain ⟨huntold, htold⟩ := State.boundary_applies hc hp
    rw [hc] at huntold htold
    cases hn : s.ledger.pendTicket with
    | none =>
      rw [huntold hn]
      refine ⟨LedgerSt.of_book LedgerSt.isOpen hbook, LedgerSt.of_book LedgerSt.recovered hbook, LedgerSt.of_book LedgerSt.total hbook,
        LedgerSt.of_book LedgerSt.spent hbook, hpends, nofun, fun i' b' _ hp' => ?_⟩
      obtain ⟨rfl, rfl⟩ := Prod.mk.inj (Option.some.inj (hp.symm.trans hp'))
      exact ⟨LedgerSt.of_book LedgerSt.active hbook, LedgerSt.of_book LedgerSt.pend hbook, happlied, nofun⟩
    | some n =>
      rw [htold n hn]
      generalize hu : ({ s.crossed with ledger := _ } : State) = u
      have hdone := State.Aside.complete u n .done [kd "tariff" i, .kv "at" (.time b), kd "budget" s.crossed.budget] []
      have hub : u.ledger.book = ({ LedgerSt.opened { s.ledger with active := i, pend := none } a
          (if s.intervalEnd ≤ s.now then 0 else s.ledger.spent) with pendTicket := none } : LedgerSt).book := by
        subst hu
        exact congrArg (fun g : LedgerSt => ({ g with pendTicket := none } : LedgerSt)) hbook
      have hupend : ∀ k, s.crossed.pends k → u.pends k := by subst hu; exact fun _ h => h
      have hutick : u.tickets = s.tickets := by subst hu; exact htick
      rw [hdone.ledger]
      refine ⟨LedgerSt.of_book LedgerSt.isOpen hub,
        LedgerSt.of_book LedgerSt.recovered hub,
        LedgerSt.of_book LedgerSt.total hub,
        LedgerSt.of_book LedgerSt.spent hub, fun hq => hdone.pends (hupend _ (hpends hq)), nofun,
        fun i' b' _ hp' => ?_⟩
      obtain ⟨rfl, rfl⟩ := Prod.mk.inj (Option.some.inj (hp.symm.trans hp'))
      refine ⟨LedgerSt.of_book LedgerSt.active hub,
        LedgerSt.of_book LedgerSt.pend hub, fun hq => hdone.pends (hupend _ (happlied hq)),
        fun m hm hy hyn hl => ⟨LedgerSt.of_book LedgerSt.pendTicket hub, ?_⟩⟩
      obtain rfl := Option.some.inj hm
      exact ⟨_, State.complete_of_ticket _ _ _ ((State.ticket_of_tickets hutick _).trans hy) hl⟩

/-! #### The passes of a trim item -/

/-- What the run of trim items leaves: the selections committed, their counts, the pending bits and the row writes. -/
structure State.TrimGoes (s t : State) : Prop where
  sel : t.trim.sel = s.trim.sel
  commits : t.trim.commits = s.trim.commits
  disagrees : t.trim.disagrees = s.trim.disagrees
  part : t.part = s.part
  pend : s.PendLe t
  rows : ∀ r ∈ s.rows, r ∈ t.rows

namespace State.TrimGoes

theorem refl (s : State) : s.TrimGoes s := ⟨rfl, rfl, rfl, rfl, .refl s, fun _ => id⟩

theorem trans {s t u : State} (h : s.TrimGoes t) (k : t.TrimGoes u) : s.TrimGoes u :=
  ⟨k.sel.trans h.sel, k.commits.trans h.commits, k.disagrees.trans h.disagrees, k.part.trans h.part, h.pend.trans k.pend,
    fun r hr => k.rows r (h.rows r hr)⟩

theorem ite {s a b : State} {c : Prop} [Decidable c] (h : s.TrimGoes a) (k : s.TrimGoes b) :
    s.TrimGoes (if c then a else b) := by
  split
  · exact h
  · exact k

theorem onward {s t : State} (h : s.Onward t) : s.TrimGoes t :=
  ⟨congrArg TrimSt.sel h.trim, congrArg TrimSt.commits h.trim, congrArg TrimSt.disagrees h.trim, h.part, h.pend, h.rows⟩

theorem pends {s t : State} (h : s.TrimGoes t) {n : Nat} (k : s.pends n) : t.pends n := fun hn =>
  h.pend n (k (State.eventPresent_of_part h.part ▸ hn))

theorem setRun (s : State) (f : TrimRun → TrimRun) : s.TrimGoes (s.setRun f) :=
  ⟨rfl, rfl, rfl, rfl, .refl _, fun _ => id⟩

theorem ceqStale (s : State) (b : Bool) : s.TrimGoes (s.ceqStale b) := by
  unfold State.ceqStale
  generalize hx : State.bump { s with census := { s.census with stale := b } } .census = x
  have hset : s.TrimGoes x := by subst hx; exact ⟨rfl, rfl, rfl, rfl, .of_eq rfl, fun _ => id⟩
  refine hset.trans (ite ?_ ⟨rfl, rfl, rfl, rfl, .of_eq rfl, fun _ => id⟩)
  obtain ⟨c, -, hcond⟩ := x.condOn_aside 75 []
  have hbit : x.TrimGoes { x with events := { x.events with cond := c } } := ⟨rfl, rfl, rfl, rfl, .of_eq rfl, fun _ => id⟩
  exact hbit.trans (onward (.of_aside hcond))

theorem trimFinish (s : State) (r : Result) (fs : List Tok) : s.TrimGoes (s.trimFinish r fs) := by
  unfold State.trimFinish
  split
  · exact refl s
  · extract_lets q s1 ceq s2 f
    have h1 : s.TrimGoes s1 := ⟨rfl, rfl, rfl, rfl, .of_eq rfl, fun _ => id⟩
    have h2 : s1.TrimGoes s2 := ite (ceqStale s1 false) (refl s1)
    exact ((h1.trans h2).trans (onward (.linkResume s2))).trans (onward (.complete _ _ _ _ _))

theorem trimItem (s : State) : s.TrimGoes s.trimItem := by
  unfold State.trimItem
  have hrun (u : State) : u.TrimGoes { u with trim := { u.trim with runs := u.trim.runs.inc } } :=
    ⟨rfl, rfl, rfl, rfl, .of_eq rfl, fun _ => id⟩
  split
  · exact refl s
  · split
    · split
      · exact (setRun s _).trans (trimFinish _ _ _)
      · exact ((hrun s).trans (ceqStale _ true)).trans (onward (.linkResume _))
    · dsimp only
      split
      · exact hrun s
      · exact (hrun s).trans (onward (.of_tuned ((State.Tuned.tune _ _ _ _).trans (.radioTo _ _))))

theorem trimNext (s : State) (fs : List Tok) (wrote : Bool) : s.TrimGoes (s.trimNext fs wrote) := by
  have hstale (x : TrimRun) : s.TrimGoes (if x.item = .censuseq then s.ceqStale false else s) := ite (ceqStale s false) (refl s)
  unfold State.trimNext
  split
  · exact refl s
  next x _ =>
    split
    · exact ((hstale x).trans (setRun _ _)).trans (trimItem _)
    · split
      · exact ((hstale x).trans (setRun _ _)).trans (onward (.linkResume _))
      · exact trimFinish s _ _

end State.TrimGoes

/-- A row write stands among those that wait. -/
theorem State.rowWrite_waits (s : State) (r : RowWrite) : ∃ x ∈ (s.rowWrite r).rows, x.what = r.what := by
  unfold State.rowWrite State.beginRow
  split
  · dsimp only
    cases s.rowFollows r.what with
    | nil => exact ⟨r, by simp [rowChain], rfl⟩
    | cons y ys => exact ⟨{ r with last := none }, by simp [rowChain], rfl⟩
  · exact ⟨r, by simp, rfl⟩

section
variable {s : State} {sel stats : List Int} {x : TrimRun} (hx : s.trim.run = some x) (hw : x.writing = none)
include hx hw

/-- The trim with a selection committed, before the event of it. -/
def State.trimCommitted (s : State) (x : TrimRun) (v : TrimSel) : State :=
  (State.bump { s with trim := { s.trim with sel := v, commits := s.trim.commits.inc } } .trim).trimLast x.item 0 0 x.peak

/-- The trim with an item that disagreed, before the event of it. -/
def State.trimDisagreed (s : State) (x : TrimRun) (cause : Nat) : State :=
  State.trimLast { s with trim := { s.trim with disagrees := s.trim.disagrees.inc } } x.item 1 cause x.peak

/-- A second pass that agrees with the first commits its selection and writes its row. -/
theorem trimItem_commits (h2 : x.second = true) (hv : selValid x.item sel stats = true) (hd1 : x.dirty1 = false)
    (hd2 : x.dirty2 = false) (ha : passesAgree x.item x.sel1 x.stat1 sel stats = true) :
    Leads (.trimItemEnd sel stats) s (fun t => t.trim.sel = putSel s.trim.sel x.item (s.trimBand x) sel stats ∧
      (∃ r ∈ t.rows, r.what = .twin 17 [(0, t.trim.sel.body)]) ∧ t.trim.commits = s.trim.commits.inc ∧
      t.trim.disagrees = s.trim.disagrees ∧ (s.quiet = false → t.pends 72)) := by
  have hexec : exec (.trimItemEnd sel stats) s = execTrimItemEnd sel stats s := rfl
  unfold execTrimItemEnd at hexec
  rw [hx] at hexec
  simp only [hw, h2, hv, hd1, hd2, ha, Option.isSome_none, Bool.not_true, Bool.or_self, Bool.false_eq_true, if_false,
    Bool.not_false, Bool.and_self, if_true] at hexec
  generalize putSel s.trim.sel x.item (s.trimBand x) sel stats = v at hexec ⊢
  obtain ⟨fs, f, n, gs, hexec⟩ : ∃ fs f n gs, exec (.trimItemEnd sel stats) s =
      .next (((((s.trimCommitted x v).fire 72 fs).setRun f).trimSlot n).trimNext gs true) := ⟨_, _, _, _, hexec⟩
  have hfire : (s.trimCommitted x v).TrimGoes ((s.trimCommitted x v).fire 72 fs) := .onward (.fire _ _ _)
  have hset := hfire.trans (.setRun _ f)
  have hslot : State.TrimGoes _ ((((s.trimCommitted x v).fire 72 fs).setRun f).trimSlot n) :=
    .onward (.rowWrite_twin (((s.trimCommitted x v).fire 72 fs).setRun f) 17 _ false n)
  have hall := (hset.trans hslot).trans (.trimNext _ gs true)
  refine ⟨_, hexec, hall.sel, ?_, hall.commits, hall.disagrees, fun hq => ?_⟩
  · obtain ⟨r, hr, hwhat⟩ := State.rowWrite_waits (((s.trimCommitted x v).fire 72 fs).setRun f)
      { what := .twin 17 [(0, (((s.trimCommitted x v).fire 72 fs).setRun f).trim.sel.body)], last := n }
    rw [hall.sel]
    rw [hset.sel] at hwhat
    exact ⟨r, (State.TrimGoes.trimNext _ gs true).rows r hr, hwhat⟩
  · have hpend : ((s.trimCommitted x v).fire 72 fs).pends 72 := State.pends_fire hq
    exact ((State.TrimGoes.setRun _ f).trans (hslot.trans (.trimNext _ gs true))).pends hpend

/-- A second pass that disagrees, or a pass that was disturbed, commits nothing. -/
theorem trimItem_disagrees (h2 : x.second = true) (hv : selValid x.item sel stats = true)
    (hd : x.dirty1 = true ∨ x.dirty2 = true ∨ passesAgree x.item x.sel1 x.stat1 sel stats = false) :
    Leads (.trimItemEnd sel stats) s (fun t => t.trim.sel = s.trim.sel ∧
      t.trim.commits = s.trim.commits ∧ t.trim.disagrees = s.trim.disagrees.inc ∧ (s.quiet = false → t.pends 73)) := by
  have hexec : exec (.trimItemEnd sel stats) s = execTrimItemEnd sel stats s := rfl
  have hcond : (!(x.dirty1 || x.dirty2) && passesAgree x.item x.sel1 x.stat1 sel stats) = false := by
    rcases hd with h | h | h <;> simp [h]
  unfold execTrimItemEnd at hexec
  rw [hx] at hexec
  simp only [hw, h2, hv, hcond, Option.isSome_none, Bool.not_true, Bool.or_self, Bool.false_eq_true, if_false] at hexec
  obtain ⟨c, fs, f, gs, hexec⟩ : ∃ c fs f gs, exec (.trimItemEnd sel stats) s =
      .next ((((s.trimDisagreed x c).fire 73 fs).setRun f).trimNext gs false) := ⟨_, _, _, _, hexec⟩
  have hfire : (s.trimDisagreed x c).TrimGoes ((s.trimDisagreed x c).fire 73 fs) := .onward (.fire _ _ _)
  have hrest := (State.TrimGoes.setRun ((s.trimDisagreed x c).fire 73 fs) f).trans (.trimNext _ gs false)
  have hall := hfire.trans hrest
  have hpend (hq : s.quiet = false) : ((s.trimDisagreed x c).fire 73 fs).pends 73 := State.pends_fire hq
  exact ⟨_, hexec, hall.sel, hall.commits, hall.disagrees, fun hq => hrest.pends (hpend hq)⟩

end

theorem State.ceqStale_false_eq (s : State) : s.ceqStale false =
    (State.bump { s with census := { s.census with stale := false } } .census).condOff 75 := by
  unfold State.ceqStale
  exact if_neg Bool.false_ne_true

/-- With no operation of the link, the end of a run of one item completes its ticket and leaves no run. -/
theorem State.trimFinish_alone {s : State} {x : TrimRun} (hx : s.trim.run = some x) (hall : x.all = false)
    (hop : s.link.op = none) (r : Result) (fs : List Tok) : ∃ u : State, s.trimFinish r fs = u.complete x.ticket r fs ∧
      u.trim = { s.trim with run := none } ∧ u.tickets = s.tickets := by
  unfold State.trimFinish
  rw [hx]
  dsimp only
  rw [hall, Bool.false_and, if_neg Bool.false_ne_true]
  generalize hx2 : (if x.item = .censuseq ∧ s.census.stale then State.ceqStale _ false else _) = s2
  have hs2 : s2.link = s.link ∧ s2.trim = { s.trim with run := none } ∧ s2.tickets = s.tickets := by
    subst hx2
    split
    · rw [State.ceqStale_false_eq]
      exact ⟨rfl, rfl, rfl⟩
    · exact ⟨rfl, rfl, rfl⟩
  obtain ⟨hlink, htrim, htick⟩ := hs2
  have hresume : s2.linkResume = s2.radioRest := by
    unfold State.linkResume
    rw [hlink, hop]
  have hrest := State.Tuned.radioRest s2
  rw [hresume]
  exact ⟨s2.radioRest, rfl, hrest.trim.trans htrim, hrest.tickets.trans htick⟩

/-- CENSUSEQ that has not ended in time fails its ticket and commits nothing. -/
theorem censuseq_lapses {s : State} {x : TrimRun} {y : Ticket} (hx : s.trim.run = some x) (hc : s.ceqRuns = true)
    (hall : x.all = false) (hop : s.link.op = none) (hy : s.ticket? x.ticket = some y) (hl : y.live = true) :
    Leads .censuseqTimeout s (fun t => t.trim.run = none ∧ t.trim.sel = s.trim.sel ∧
      ∃ ed, Completed t y .fail [kw "why" "TIMEOUT"] ed) := by
  obtain ⟨u, hexec, hrun, hsel, htick⟩ : ∃ u : State, exec .censuseqTimeout s =
      .next (u.complete x.ticket .fail [kw "why" "TIMEOUT"]) ∧ u.trim.run = none ∧ u.trim.sel = s.trim.sel ∧
        u.tickets = s.tickets := by
    have hexec : exec .censuseqTimeout s = execCensuseqTimeout s := rfl
    unfold execCensuseqTimeout at hexec
    rw [hx] at hexec
    dsimp only at hexec
    rw [if_pos hc] at hexec
    generalize hv : (s.trimLast .censuseq 3 0 x.peak).setRun _ = v at hexec
    have hrun : v.trim.run = some { x with failed := true } := by
      subst hv
      exact congrArg (Option.map _) hx
    have hsel : v.trim.sel = s.trim.sel := by subst hv; rfl
    have hlink : v.link.op = none := by subst hv; exact hop
    have htick : v.tickets = s.tickets := by subst hv; rfl
    obtain ⟨u, hu, htrim, hutick⟩ := State.trimFinish_alone hrun hall hlink .fail [kw "why" "TIMEOUT"]
    exact ⟨u, hexec.trans (congrArg _ hu), congrArg TrimSt.run htrim, (congrArg TrimSt.sel htrim).trans hsel, hutick.trans htick⟩
  have hdone := State.Aside.complete u x.ticket .fail [kw "why" "TIMEOUT"] []
  refine ⟨_, hexec, ?_, ?_, ?_⟩
  · rw [hdone.trim, hrun]
  · rw [hdone.trim, hsel]
  · have hn := State.n_of_ticket hy
    rw [← hn] at hy ⊢
    exact State.complete_of_ticket _ _ _ ((State.ticket_of_tickets htick _).trans hy) hl

end Sys2Proof.Machine

/-- Settles O46: a boundary through `crossed`, and what follows an item through `trimNext` and `trimFinish`. -/
theorem ledgerAndTrimEventsTakeEffect : Obligations.LedgerAndTrimEventsTakeEffect := by
  intro s sel stats x y
  refine ⟨fun h => ?notDue, fun hb hd => boundary_crosses hb hd y, fun h => ?noRun, fun hx hw =>
    ⟨fun h2 hv => ?first, fun h => ?notFirst, fun h => ?notSecond, fun h2 hv =>
      ⟨trimItem_commits hx hw h2 hv, trimItem_disagrees hx hw h2 hv⟩⟩,
    fun hx hc hall hop hy _ hl => censuseq_lapses hx hc hall hop hy hl⟩
  case notDue => exact if_neg (by rw [h]; exact Bool.false_ne_true)
  case noRun =>
    refine ⟨?_, ?_, ?_⟩
    · show execTrimPassEnd sel stats s = _
      unfold execTrimPassEnd
      rw [h]
    · show execTrimItemEnd sel stats s = _
      unfold execTrimItemEnd
      rw [h]
    · show execCensuseqTimeout s = _
      unfold execCensuseqTimeout
      rw [h]
  case first =>
    show execTrimPassEnd sel stats s = _
    unfold execTrimPassEnd
    rw [hx]
    dsimp only
    rw [if_neg (by simp [hw, h2, hv])]
    unfold State.setRun
    rw [hx]
    rfl
  case notFirst =>
    show execTrimPassEnd sel stats s = _
    unfold execTrimPassEnd
    rw [hx]
    refine if_pos ?_
    rcases h with h | h <;> simp [h]
  case notSecond =>
    show execTrimItemEnd sel stats s = _
    unfold execTrimItemEnd
    rw [hx]
    refine if_pos ?_
    rcases h with h | h <;> simp [h]

end

section

/-! ### Waits, polls, exchanges and schedules of the link (15_link R397–R423) -/

open Sys2Proof Sys2Proof.Machine

namespace Sys2Proof.Machine

/-! #### The end of an operation of the link -/

/-- The operation of the link, its counters and the tickets stay. -/
structure State.SameOp (s t : State) : Prop where
  op : t.link.op = s.link.op
  ctrs : t.link.ctrs = s.link.ctrs
  tickets : t.tickets = s.tickets

namespace State.SameOp

theorem refl (s : State) : s.SameOp s := ⟨rfl, rfl, rfl⟩

theorem trans {s t u : State} (h : s.SameOp t) (k : t.SameOp u) : s.SameOp u :=
  ⟨k.op.trans h.op, k.ctrs.trans h.ctrs, k.tickets.trans h.tickets⟩

theorem ite {s a b : State} {c : Prop} [Decidable c] (h : s.SameOp a) (k : s.SameOp b) : s.SameOp (if c then a else b) := by
  split
  · exact h
  · exact k

theorem tuned {s t : State} (h : s.Tuned t) : s.SameOp t :=
  ⟨congrArg LinkSt.op h.link, congrArg LinkSt.ctrs h.link, h.tickets⟩

theorem fire (s : State) (n : Nat) (fs : List Tok) : s.SameOp (s.fire n fs) :=
  ⟨(State.Aside.fire s n fs).link LinkSt.op, (State.Aside.fire s n fs).link LinkSt.ctrs, s.fire_tickets n fs⟩

theorem linkTo (s : State) (x : LState) : s.SameOp (s.linkTo x) := by
  unfold State.linkTo
  exact ite (refl s) ⟨rfl, rfl, rfl⟩

theorem dissociate (s : State) (by_ : String) : s.SameOp (s.dissociate by_) := by
  unfold State.dissociate
  extract_lets ad s1 q s2
  have h1 : s.SameOp s1 := ite (refl s) ⟨rfl, rfl, rfl⟩
  have h2 : s1.SameOp s2 := ⟨rfl, rfl, rfl⟩
  obtain ⟨r, rows, hrow⟩ := (s2.linkTo .unassoc).rowWrite_twin_frame 8 [(1, assocRow (s2.linkTo .unassoc).link.assoc)] false none
  have hsave : (s2.linkTo .unassoc).SameOp (s2.linkTo .unassoc).saveAssoc := by
    unfold State.saveAssoc
    rw [hrow]
    exact ⟨rfl, rfl, rfl⟩
  exact (((h1.trans h2).trans (linkTo s2 _)).trans hsave).trans (fire _ _ _)

end State.SameOp

theorem State.linkTo_st (s : State) (x : LState) : (s.linkTo x).link.st = x := by
  unfold State.linkTo
  split
  next h => exact h
  next => rfl

/-- The end of an operation, counted by its result. -/
def State.endCounted (s : State) (r : Result) : State :=
  if r = .noack then s.countLink 2 else if r = .chanbusy then s.countLink 3 else if r = .norng then s.countLink 4 else s

theorem State.endCounted_keeps (s : State) (r : Result) :
    (s.endCounted r).link.op = s.link.op ∧ (s.endCounted r).tickets = s.tickets := by
  unfold State.endCounted
  repeat' split
  all_goals exact ⟨rfl, rfl⟩

theorem State.endCounted_ctrs {s u : State} (h : u.link.ctrs = s.link.ctrs) (r : Result) :
    (u.endCounted r).link.ctrs = (s.endCounted r).link.ctrs := by
  have hcount (i : Nat) : (u.countLink i).link.ctrs = (s.countLink i).link.ctrs :=
    congrArg (fun v : Vector Counter 7 => vset v i (vget v i {}).inc) h
  unfold State.endCounted
  split
  · exact hcount 2
  · split
    · exact hcount 3
    · split
      · exact hcount 4
      · exact h

/-- An operation that ends leaves none, is counted by its result, and completes its ticket; an association that it did not
complete is none. -/
theorem State.linkEnd_leads {s : State} {o : LinkOp} (hop : s.link.op = some o) (r : Result) (fs : List Tok) :
    ∃ u : State, s.linkEnd r fs = u.complete o.ticket r fs ∧ u.link.op = none ∧ u.link.ctrs = (s.endCounted r).link.ctrs ∧
      u.tickets = s.tickets ∧ (o.kind = .assocData → r ≠ .done → u.link.st = .unassoc) := by
  unfold State.linkEnd
  split
  next h => exact absurd (hop.symm.trans h) (Option.some_ne_none o)
  next o' h =>
    obtain rfl := Option.some.inj (hop.symm.trans h)
    extract_lets q s1 s2 s3 q' s4
    have h2 : s1.SameOp s2 := by
      dsimp only [s2]
      split <;> exact ⟨rfl, rfl, rfl⟩
    have h3 : s3.link.op = s2.link.op ∧ s3.tickets = s2.tickets := s2.endCounted_keeps r
    have hctrs3 : s3.link.ctrs = (s.endCounted r).link.ctrs := State.endCounted_ctrs (s := s) h2.ctrs r
    have hto (x : LState) : s3.SameOp (if (r == Result.done) then s3 else s3.linkTo x) := .ite (.refl s3) (.linkTo s3 x)
    have h4 : s3.SameOp s4 := by
      dsimp only [s4]
      split
      · exact hto _
      · exact hto _
      · exact .ite (.dissociate s3 _) (.refl s3)
      · exact ⟨rfl, rfl, rfl⟩
      · exact .refl s3
    have h5 := h4.trans (.tuned (.radioRest s4))
    refine ⟨s4.radioRest, rfl, h5.op.trans (h3.1.trans h2.op), h5.ctrs.trans hctrs3, h5.tickets.trans (h3.2.trans h2.tickets),
      fun hk hr => ?_⟩
    have hst : s4.link.st = .unassoc := by
      dsimp only [s4]
      rw [hk]
      exact (congrArg (fun u : State => u.link.st) (if_neg (by simpa using hr))).trans (s3.linkTo_st _)
    exact (congrArg LinkSt.st (State.Tuned.radioRest s4).link).trans hst

theorem State.linkEnd_ends {s : State} {o : LinkOp} {y : Ticket} (hop : s.link.op = some o) (r : Result) (fs : List Tok)
    (hy : s.ticket? o.ticket = some y) (hl : y.live = true) : let t := s.linkEnd r fs
    t.link.op = none ∧ t.link.ctrs = (s.endCounted r).link.ctrs ∧ (o.kind = .assocData → r ≠ .done → t.link.st = .unassoc) ∧
      ∃ ed, Completed t y r fs ed := by
  obtain ⟨u, hu, hnone, hctrs, htick, hst⟩ := State.linkEnd_leads hop r fs
  have hdone := State.Aside.complete u o.ticket r fs []
  have hn := State.n_of_ticket hy
  rw [hu]
  refine ⟨(hdone.link LinkSt.op).trans hnone, (hdone.link LinkSt.ctrs).trans hctrs,
    fun hk hr => (hdone.link LinkSt.st).trans (hst hk hr), ?_⟩
  rw [← hn] at hy ⊢
  exact State.complete_of_ticket _ _ _ ((State.ticket_of_tickets htick _).trans hy) hl

theorem State.linkEnd_op {s : State} (r : Result) (fs : List Tok) : (s.linkEnd r fs).link.op = none := by
  cases hop : s.link.op with
  | none =>
    unfold State.linkEnd
    rw [hop]
    exact hop
  | some o =>
    obtain ⟨u, hu, hnone, -⟩ := State.linkEnd_leads hop r fs
    rw [hu]
    exact ((State.Aside.complete u o.ticket r fs []).link LinkSt.op).trans hnone

/-! #### Waits -/

section
variable {s : State} {o : LinkOp}

/-- A wait for an acknowledgement that lapses while a frame is heard is late. -/
theorem State.setOp_eq (hop : s.link.op = some o) (f : LinkOp → LinkOp) :
    s.setOp f = { s with link := { s.link with op := some (f o) } } := by
  unfold State.setOp
  rw [hop]
  rfl

theorem ackWait_lapses (hr : s.inRun = true) (hop : s.link.op = some o) (hw : o.phase = .ackWait) :
    exec .ackWaitTimeout s = .next (if s.radio.rx.isSome then s.setOp (fun o => { o with late := true }) else s.linkNoAck) := by
  show execAckWaitTimeout s = _
  unfold execAckWaitTimeout
  rw [hr, hop, Option.map_some, hw]
  rfl

/-- An operation whose retries are used up ends without an acknowledgement. -/
theorem noAck_ends (hop : s.link.op = some o) (hn : s.linkRetries ≤ o.retries) :
    s.linkNoAck = s.linkEnd .noack [kd "retries" o.retries] := by
  unfold State.linkNoAck
  rw [hop]
  exact if_neg (Nat.not_lt.mpr hn)

/-- A wake that may be sent again waits for its child's next sniff. -/
theorem noAck_wakes (hop : s.link.op = some o) (hn : o.retries < s.linkRetries) (hk : o.kind = .wake) :
    let t := s.linkNoAck
    t.link.op = some { o with retries := o.retries + 1, phase := .wakeWait } ∧
      (vget t.link.ctrs 1 {}) = (vget s.link.ctrs 1 {}).inc ∧ t.tickets = s.tickets := by
  unfold State.linkNoAck
  rw [hop]
  dsimp only
  rw [if_pos hn, if_pos hk]
  generalize hu : State.setOp _ (fun o : LinkOp => { o with phase := .wakeWait }) = u
  have hrest := State.Tuned.radioRest u
  rw [hrest.link, hrest.tickets]
  subst hu
  refine ⟨?_, vget_vset_same _ _ _ _ (by decide), rfl⟩
  unfold State.countLink State.setOp
  rw [hop]
  rfl

/-- The end of an exchange leaves none, and the link a parent's. -/
theorem State.exchEnd_ends (hop : s.link.op = none) : let t := s.exchEnd
    t.link.exch = none ∧ t.link.st = .parent ∧ t.tickets = s.tickets := by
  unfold State.exchEnd
  generalize hu : State.linkTo { s with link := { s.link with exch := none } } .parent = u
  have hsame := State.SameOp.linkTo { s with link := { s.link with exch := none } } .parent
  have hst := State.linkTo_st { s with link := { s.link with exch := none } } .parent
  have hexch : u.link.exch = none := by
    subst hu
    unfold State.linkTo
    split <;> rfl
  rw [hu] at hsame hst
  have hresume : u.linkResume = u.radioRest := by
    unfold State.linkResume
    rw [hsame.op.trans hop]
  have hrest := State.Tuned.radioRest u
  dsimp only
  rw [hresume, hrest.link, hrest.tickets]
  exact ⟨hexch, hst, hsame.tickets⟩

/-- A wait of an exchange for an acknowledgement. -/
theorem exchWait_lapses {x : Exch} (hr : s.inRun = true) (hop : s.link.op = none) (hx : s.link.exch = some x)
    (hw : x.phase = .ackWait) : exec .ackWaitTimeout s =
      .next (if s.radio.rx.isSome then { s with link := { s.link with exch := some { x with late := true } } } else s.exchEnd) := by
  show execAckWaitTimeout s = _
  unfold execAckWaitTimeout
  rw [hr, hop, hx]
  dsimp only [Option.map_none]
  rw [if_neg (by decide), if_neg nofun, if_pos hw]

theorem State.linkCca_waits (hop : s.link.op = some o) : let t := s.linkCca
    (∃ c, t.link.op = some { o with phase := .cca, cca := c }) ∧ t.tickets = s.tickets := by
  unfold State.linkCca
  generalize hu : s.setOp (fun o => { o with phase := .cca, cca := {} }) = u
  have huop : u.link.op = some { o with phase := .cca, cca := {} } := by
    subst hu
    exact congrArg (Option.map _) hop
  have hutick : u.tickets = s.tickets := by subst hu; rfl
  have hrest := State.Tuned.radioRest u
  have hrop : u.radioRest.link.op = some { o with phase := .cca, cca := {} } := (congrArg LinkSt.op hrest.link).trans huop
  dsimp only
  split
  · exact ⟨⟨_, congrArg (Option.map _) hrop⟩, hrest.tickets.trans hutick⟩
  · exact ⟨⟨_, hrop⟩, hrest.tickets.trans hutick⟩

/-- The end of a backoff. -/
theorem backoff_ends {c : Nat} (hr : s.inRun = true) (hop : s.link.op = some o) (hw : o.phase = .backoff c) :
    exec .backoffEnd s = .next (if s.linkBlocked then s.setOp (fun o => { o with phase := .extended }) else s.linkCca) := by
  show execBackoffEnd s = _
  unfold execBackoffEnd
  rw [hop, Option.map_some, hw, hr]
  rfl

/-- An operation goes on or ends; it keeps its kind. -/
def State.KeepsKind (s t : State) : Prop := t.link.op = none ∨ t.link.op.map (·.kind) = s.link.op.map (·.kind)

theorem State.drawB_keeps (s : State) (k : Nat) :
    (s.drawB k).2.link = s.link ∧ (s.drawB k).2.tickets = s.tickets := by
  have hwant (u : State) : u.poolWant.link = u.link ∧ u.poolWant.tickets = u.tickets := by
    unfold State.poolWant
    split <;> exact ⟨rfl, rfl⟩
  unfold State.drawB
  split
  · exact ⟨rfl, rfl⟩
  · split
    · exact ⟨rfl, rfl⟩
    · split
      · exact hwant s
      · exact hwant _

theorem State.setOp_radioRest_keepsKind {u : State} (hu : u.link = s.link) (f : LinkOp → LinkOp) (hf : ∀ o, (f o).kind = o.kind) :
    s.KeepsKind (u.setOp f).radioRest := by
  right
  rw [(State.Tuned.radioRest (u.setOp f)).link]
  unfold State.setOp
  dsimp only
  rw [hu, Option.map_map]
  exact congrArg (fun g => s.link.op.map g) (funext hf)

theorem State.linkCca_keepsKind {u : State} (hop : s.link.op = some o) (hu : u.link = s.link) : s.KeepsKind u.linkCca := by
  obtain ⟨⟨c, hc⟩, -⟩ := State.linkCca_waits (s := u) (o := o) ((congrArg LinkSt.op hu).trans hop)
  right
  rw [hc, hop]
  rfl

/-- An operation that carries a frame goes on to its backoff, or ends. -/
theorem State.linkGo_keepsKind (hop : s.link.op = some o) (hk : o.kind ≠ .cw) : s.KeepsKind s.linkGo := by
  unfold State.linkGo
  rw [hop]
  dsimp only
  rw [if_neg hk]
  split
  · exact State.setOp_radioRest_keepsKind rfl _ fun _ => rfl
  · split
    · exact State.linkCca_keepsKind hop rfl
    · have hdraw := (s.drawB_keeps o.be).1
      generalize s.drawB o.be = d at hdraw ⊢
      obtain ⟨d, s1⟩ := d
      cases d with
      | stopped => exact .inl (State.linkEnd_op _ _)
      | wait => exact State.setOp_radioRest_keepsKind hdraw _ fun _ => rfl
      | got k =>
        dsimp only
        split
        · exact State.linkCca_keepsKind hop hdraw
        · exact State.setOp_radioRest_keepsKind hdraw _ fun _ => rfl

/-- A wait for a response that ends is followed by the request for it, or by the end of the association. -/
theorem respWait_ends (hr : s.inRun = true) (hop : s.link.op = some o) (hw : o.phase = .respWait) :
    Leads .assocResponseWaitEnd s (fun t => t.link.op = none ∨ t.link.op.map (·.kind) = some .assocData) := by
  have hexec : exec .assocResponseWaitEnd s = execAssocResponseWaitEnd s := rfl
  unfold execAssocResponseWaitEnd at hexec
  rw [hop] at hexec
  dsimp only at hexec
  rw [if_pos (by rw [hr, hw]; rfl)] at hexec
  refine ⟨_, hexec, ?_⟩
  beta_reduce
  generalize hu : s.setOp _ = u
  have huop : u.link.op = some { o with kind := .assocData, retries := 0 } := by
    subst hu
    exact congrArg (Option.map _) hop
  have hnum : (u.number { u.pollFrame { o with kind := .assocData } with fcs4 := u.fcs4 }).2.link = u.link := rfl
  generalize hv : u.buildOp (u.pollFrame { o with kind := .assocData }) = v
  obtain ⟨x, hvop, hxk⟩ : ∃ x, v.link.op = some x ∧ x.kind = .assocData := by
    subst hv
    unfold State.buildOp State.setOp
    dsimp only
    rw [hnum, huop]
    exact ⟨_, rfl, rfl⟩
  unfold State.linkAttempt
  have hset : (v.setOp (fun o => { o with nb := 0, be := v.linkMinBe })).link.op =
      some { x with nb := 0, be := v.linkMinBe } := congrArg (Option.map _) hvop
  refine (State.linkGo_keepsKind hset (by rw [hxk]; decide)).imp_right fun h => ?_
  rw [h, hset, Option.map_some, hxk]

/-- The end of a window, with nothing heard in it. -/
theorem window_ends {b : Bool} (hr : s.inRun = true) (hop : s.link.op = some o) (hw : o.phase = .window b) :
    exec .pollWindowEnd s = .next (if s.radio.rx.isSome || s.radio.tx.isSome then
      s.setOp (fun o => { o with phase := .window true }) else s.windowEnd) := by
  show execPollWindowEnd s = _
  unfold execPollWindowEnd
  rw [hop, Option.map_some, hw, hr]
  rfl

section
variable {y : Ticket} {b : Bool} (hr : s.inRun = true) (hop : s.link.op = some o) (hw : o.phase = .window b)
  (hrx : s.radio.rx = none) (htx : s.radio.tx = none) (hy : s.ticket? o.ticket = some y) (hl : y.live = true)
include hr hop hw hrx htx

theorem window_closes : exec .pollWindowEnd s = .next (
    if o.kind = .assocData then s.linkEnd .fail [kw "why" "NORESPONSE"]
    else if o.frames = 0 then s.linkEnd .fail [kw "why" "NODATA"]
    else s.linkEnd .done [kd "pending" (b2n o.pendBit), kd "frames" o.frames, kd "tries" o.tries]) := by
  rw [window_ends hr hop hw, hrx, htx]
  unfold State.windowEnd
  rw [hop]
  rfl

include hy hl

theorem window_noResponse (hk : o.kind = .assocData) : Leads .pollWindowEnd s (fun t => t.link.op = none ∧
    t.link.st = .unassoc ∧ ∃ ed, Completed t y .fail [kw "why" "NORESPONSE"] ed) := by
  have hexec := window_closes hr hop hw hrx htx
  rw [if_pos hk] at hexec
  obtain ⟨hnone, -, hst, hdone⟩ := State.linkEnd_ends hop .fail [kw "why" "NORESPONSE"] hy hl
  exact ⟨_, hexec, hnone, hst hk (by decide), hdone⟩

theorem window_noData (hk : o.kind = .poll) (hf : o.frames = 0) : Leads .pollWindowEnd s (fun t => t.link.op = none ∧
    ∃ ed, Completed t y .fail [kw "why" "NODATA"] ed) := by
  have hexec := window_closes hr hop hw hrx htx
  rw [if_neg (by rw [hk]; decide), if_pos hf] at hexec
  obtain ⟨hnone, -, -, hdone⟩ := State.linkEnd_ends hop .fail [kw "why" "NODATA"] hy hl
  exact ⟨_, hexec, hnone, hdone⟩

theorem window_done (hk : o.kind = .poll) (hf : o.frames ≠ 0) : Leads .pollWindowEnd s (fun t => t.link.op = none ∧
    ∃ ed, Completed t y .done [kd "pending" (b2n o.pendBit), kd "frames" o.frames, kd "tries" o.tries] ed) := by
  have hexec := window_closes hr hop hw hrx htx
  rw [if_neg (by rw [hk]; decide), if_neg hf] at hexec
  obtain ⟨hnone, -, -, hdone⟩ := State.linkEnd_ends hop .done
    [kd "pending" (b2n o.pendBit), kd "frames" o.frames, kd "tries" o.tries] hy hl
  exact ⟨_, hexec, hnone, hdone⟩

end

/-- The time between sniffs of the child that a wake is for. -/
def State.sniffEvery (s : State) (o : LinkOp) : Nat :=
  match s.entry o.child with | some e => e.sniffEvery.toNat * tickMs | none => 0

/-- A wake whose child's next sniff has come goes on to listen to the channel. -/
theorem nextSniff_goes (hr : s.inRun = true) (hop : s.link.op = some o) (hw : o.phase = .wakeWait) (hk : o.kind = .wake) :
    Leads .linkWakeNextSniff s (fun t => t.link.op.map (·.sniffAt) = some (o.sniffAt +
      (match s.entry o.child with | some e => e.sniffEvery.toNat * tickMs | none => 0)) ∧ t.tickets = s.tickets) := by
  have hexec : exec .linkWakeNextSniff s = execLinkWakeNextSniff s := rfl
  unfold execLinkWakeNextSniff at hexec
  rw [hop] at hexec
  dsimp only at hexec
  rw [if_pos (by rw [hr, hw]; rfl)] at hexec
  show Leads .linkWakeNextSniff s (fun t => t.link.op.map (·.sniffAt) = some (o.sniffAt + s.sniffEvery o) ∧ t.tickets = s.tickets)
  replace hexec : exec .linkWakeNextSniff s =
    .next (s.setOp (fun p => { p with sniffAt := p.sniffAt + s.sniffEvery o })).linkGo := hexec
  generalize s.sniffEvery o = every at hexec ⊢
  generalize hu : s.setOp (fun p => { p with sniffAt := p.sniffAt + every }) = u at hexec
  have huop : u.link.op = some { o with sniffAt := o.sniffAt + every } := by
    subst hu
    exact congrArg (Option.map _) hop
  have hutick : u.tickets = s.tickets := by subst hu; rfl
  refine ⟨_, hexec, ?_⟩
  unfold State.linkGo
  rw [huop]
  dsimp only
  split
  · have hrest := State.Tuned.radioRest (u.setOp (fun o => { o with phase := .wait }))
    rw [hrest.link, hrest.tickets]
    refine ⟨?_, hutick⟩
    unfold State.setOp
    rw [huop]
    rfl
  · rw [if_neg (by rw [hk]; decide)]
    obtain ⟨⟨c, hc⟩, htick⟩ := State.linkCca_waits huop
    rw [hc, htick]
    exact ⟨rfl, hutick⟩

end

/-! #### Exchanges -/

/-- Outside of Run, the waits of the link do nothing. -/
theorem link_of_not_inRun {s : State} (h : s.inRun = false) : ∀ c ∈ [Instr.ackWaitTimeout, .backoffEnd, .assocResponseWaitEnd,
    .pollWindowEnd, .exchangeLapse, .heldFrameExpiry, .linkWakeNextSniff], exec c s = .next s := by
  simp only [List.mem_cons, List.not_mem_nil, or_false, forall_eq_or_imp, forall_eq]
  refine ⟨if_pos (by rw [h]; rfl), ?_, ?_, ?_, ?_, if_neg (by rw [h]; exact Bool.false_ne_true), ?_⟩
  · show execBackoffEnd s = _
    unfold execBackoffEnd
    rw [h]
    split <;> rfl
  · show execAssocResponseWaitEnd s = _
    unfold execAssocResponseWaitEnd
    rw [h]
    split <;> rfl
  · show execPollWindowEnd s = _
    unfold execPollWindowEnd
    rw [h]
    split <;> rfl
  · show execExchangeLapse s = _
    unfold execExchangeLapse
    rw [h]
    split <;> rfl
  · show execLinkWakeNextSniff s = _
    unfold execLinkWakeNextSniff
    rw [h]
    split <;> rfl

/-- Without an operation, the waits of one do nothing. -/
theorem link_of_no_op {s : State} (h : s.link.op = none) : exec .backoffEnd s = .next s ∧
    exec .assocResponseWaitEnd s = .next s ∧ exec .pollWindowEnd s = .next s ∧ exec .linkWakeNextSniff s = .next s := by
  refine ⟨?_, ?_, ?_, ?_⟩
  · show execBackoffEnd s = _
    unfold execBackoffEnd
    rw [h]
    rfl
  · show execAssocResponseWaitEnd s = _
    unfold execAssocResponseWaitEnd
    rw [h]
  · show execPollWindowEnd s = _
    unfold execPollWindowEnd
    rw [h]
    rfl
  · show execLinkWakeNextSniff s = _
    unfold execLinkWakeNextSniff
    rw [h]

/-- What the operations of the link leave of the link's own state. -/
theorem State.Onward.link {s t : State} (h : s.Onward t) {α : Type} (f : LinkSt → α)
    (hf : ∀ x : LinkSt, f { x with st := .unassoc, assoc := none, partnerPending := false, op := none, train := none
                                   ctrs := Vector.replicate 7 {}, lastPoll := (0, false, 0) } = f x := by exact fun _ => rfl) :
    f t.link = f s.link := by
  rw [← hf t.link, ← hf s.link]
  exact congrArg f (congrArg State.link h.lasts : t.lasting.link = _)

theorem State.exchEnd_onward (s : State) : State.Onward { s with link := { s.link with exch := none } } s.exchEnd :=
  (State.Onward.linkTo _ _).trans (.linkResume _)

/-- An exchange that lapses is counted and told by its event. -/
theorem exchange_lapses {s : State} {x : Exch} (hr : s.inRun = true) (hx : s.link.exch = some x) (htx : s.radio.tx = none)
    (hst : s.radio.st ≠ .receive) : Leads .exchangeLapse s (fun t =>
      t.link.exch = none ∧ t.pends 56 ∧ vget t.link.catCtrs 3 {} = (vget s.link.catCtrs 3 {}).inc) := by
  have hexec : exec .exchangeLapse s = execExchangeLapse s := rfl
  unfold execExchangeLapse at hexec
  rw [hx] at hexec
  dsimp only at hexec
  rw [if_pos (by simp [hr, htx, hst])] at hexec
  have hquiet : (s.countCat 3).quiet = false := State.loud_of_inRun hr
  have hfire := State.Aside.fire (s.countCat 3) 56 [.kv "child" (.hex 4 x.short.toNat)]
  have hpend : ((s.countCat 3).fire 56 [.kv "child" (.hex 4 x.short.toNat)]).pends 56 := State.pends_fire hquiet
  generalize hu : (s.countCat 3).fire 56 [.kv "child" (.hex 4 x.short.toNat)] = u at hexec hfire hpend
  have hend := u.exchEnd_onward
  have hctrs : u.link.catCtrs = vset s.link.catCtrs 3 (vget s.link.catCtrs 3 {}).inc := hfire.link LinkSt.catCtrs
  refine ⟨_, hexec, hend.link LinkSt.exch, hend.pends hpend, ?_⟩
  have hkeep : u.exchEnd.link.catCtrs = u.link.catCtrs := hend.link LinkSt.catCtrs
  rw [hkeep, hctrs]
  exact vget_vset_same _ _ _ _ (by decide)

/-! #### The poll schedule -/

/-- The poll schedule, where it is the only thing due. -/
theorem pollSchedule_alone {s : State} {v : Nat} (ha : s.awake = true) (hp : s.pollDue = true) (hl : s.dueList = [(v, 2, 0)]) :
    exec .pollScheduleDue s = .next (s.pollIssue.settled s) := by
  show execPollScheduleDue s = _
  unfold execPollScheduleDue
  simp only [ha, hp, Bool.and_self, if_true]
  unfold State.dueNow State.dueAll
  rw [hl]
  simp only [List.insertionSort, List.foldr, List.orderedInsert, List.foldl, State.dueGo]

/-- The poll schedule past its time. -/
def State.pollTaken (s : State) : State :=
  { s with link := { s.link with nextPoll := s.link.nextPoll.map (fun t => t + s.cfg.link.pollEvery.toNat * tickMs) } }

section
variable {s : State} {v : Nat} (ha : s.awake = true) (hp : s.pollDue = true) (hn : s.link.nextPoll = some v)
  (hl : s.dueList = [(v, 2, 0)])
include ha hp hn hl

theorem poll_skipped (hr : s.pollRuns = true) : Leads .pollScheduleDue s (fun t => t.tickets = s.tickets ∧
    t.link.nextPoll = some (v + s.cfg.link.pollEvery.toNat * tickMs) ∧
    vget t.link.ctrs 5 {} = (vget s.link.ctrs 5 {}).inc) := by
  refine ⟨_, pollSchedule_alone ha hp hl, ?_⟩
  unfold State.pollIssue
  dsimp only
  rw [if_pos hr, hn]
  exact ⟨rfl, rfl, vget_vset_same _ _ _ _ (by decide)⟩

omit hn in
theorem poll_noTicket (hr : s.pollRuns = false) (ht : s.noTicketFor .link = true) :
    Leads .pollScheduleDue s (fun t => t.tickets.pool = s.tickets.pool ∧
      t.tickets.noTicket = s.tickets.noTicket.inc ∧ vget t.link.ctrs 5 {} = (vget s.link.ctrs 5 {}).inc ∧
      (s.quiet = false → t.pends 123)) := by
  have hissue : s.pollIssue = (State.countLink { s.pollTaken with
      tickets := { s.tickets with noTicket := s.tickets.noTicket.inc } } 5).fire 123 [kw "from" "LINK"] := by
    unfold State.pollIssue
    rw [hr, ht, if_neg Bool.false_ne_true, if_pos rfl]
    rfl
  generalize hw : State.countLink { s.pollTaken with tickets := { s.tickets with noTicket := s.tickets.noTicket.inc } } 5 = u
    at hissue
  have hfire := State.Aside.fire u 123 [kw "from" "LINK"]
  have htick := u.fire_tickets 123 [kw "from" "LINK"]
  have hpend (hq : s.quiet = false) : (u.fire 123 [kw "from" "LINK"]).pends 123 :=
    State.pends_fire (by subst hw; exact hq)
  rw [← hissue] at hfire htick hpend
  refine ⟨_, pollSchedule_alone ha hp hl, ?_, ?_, ?_, fun hq => State.pends_congr rfl rfl (hpend hq)⟩
  · refine (congrArg TicketsSt.pool htick).trans ?_
    subst hw
    rfl
  · refine (congrArg TicketsSt.noTicket htick).trans ?_
    subst hw
    rfl
  · refine (congrArg (fun c : Vector Counter 7 => vget c 5 {}) (hfire.link LinkSt.ctrs)).trans ?_
    subst hw
    exact vget_vset_same _ _ _ _ (by decide)

theorem poll_issued (hr : s.pollRuns = false) (ht : s.noTicketFor .link = false) : Leads .pollScheduleDue s (fun t =>
    t.link.nextPoll = some (v + s.cfg.link.pollEvery.toNat * tickMs) ∧ ∃ n, s.nextNumber = some n ∧
    t.ticket? n = some { n := n, queue := .link, owner := .link, op := .poll (fld s.cfg.link.config 20 18) }) := by
  obtain ⟨n, hnum⟩ := s.nextNumber_some (s.noTicketFor_room _ ht)
  have hunum : s.pollTaken.nextNumber = some n := hnum
  obtain ⟨t, hissue, hnew, -, -, hbeside⟩ :=
    s.pollTaken.issue_spec { queue := .link, op := .poll (fld s.cfg.link.config 20 18), owner := .link } n hunum
  have hpoll : s.pollIssue = t := by
    unfold State.pollIssue
    rw [hr, ht, if_neg Bool.false_ne_true, if_neg Bool.false_ne_true]
    exact congrArg Prod.fst hissue
  have hnext : t.link.nextPoll = s.pollTaken.link.nextPoll :=
    (congrArg (fun v : State => v.link.nextPoll) hbeside : t.besideTickets.link.nextPoll = s.pollTaken.besideTickets.link.nextPoll)
  refine ⟨_, pollSchedule_alone ha hp hl, ?_⟩
  rw [hpoll]
  exact ⟨hnext.trans (congrArg (Option.map _) hn), n, hnum, hnew⟩

end

/-! #### Held frames -/

/-- The TX ring has no frame under another number than before. -/
def State.RingWithin (s t : State) : Prop := ∀ z ∈ t.frame.tx, ∃ y ∈ s.frame.tx, y.id = z.id

theorem State.RingWithin.of_tx {s t : State} (h : t.frame.tx = s.frame.tx) : s.RingWithin t := fun z hz => ⟨z, h ▸ hz, rfl⟩

theorem State.RingWithin.trans {s t u : State} (h : s.RingWithin t) (k : t.RingWithin u) : s.RingWithin u := fun z hz => by
  obtain ⟨y, hy, hyz⟩ := k z hz
  obtain ⟨x, hx, hxy⟩ := h y hy
  exact ⟨x, hx, hxy.trans hyz⟩

theorem State.dropEntry_ring (s : State) (i : Nat) : s.RingWithin (s.dropEntry i) := fun z hz => by
  obtain ⟨-, htx, -⟩ := s.dropEntry_drops i
  rw [htx] at hz
  obtain ⟨y, hy, rfl⟩ := List.mem_map.mp hz
  refine ⟨y, hy, ?_⟩
  split <;> rfl

theorem State.setEntry_frame (s : State) (x : CatEntry) : (s.setEntry x).frame = s.frame := by
  unfold State.setEntry State.saveCat
  generalize hu : ({ s with link := _ } : State) = u
  obtain ⟨r, st, pw, rows, h⟩ := u.rowWrite_frame { what := .cat u.link.cat }
  have hkeep : (u.rowWrite { what := .cat u.link.cat }).frame = u.frame := by rw [h]
  subst hu
  exact hkeep

/-- A held frame that is lost puts no other into the ring. -/
theorem State.heldLost_ring (s : State) (x : TxEntry) : s.RingWithin (s.heldLost x) := by
  unfold State.heldLost
  split
  · exact .of_tx rfl
  · split
    · unfold State.responseLost
      split
      · exact .of_tx rfl
      · split
        · exact .of_tx (congrArg FrameSt.tx (s.setEntry_frame _))
        · exact s.dropEntry_ring _
    next e _ _ =>
      have hfire := State.Aside.fire ((s.dropEntry e.idx).countCat 1) 54 [.kv "short" (.hex 4 e.short.toNat), kw "by" "PARENT"]
      have hleave : (s.dropEntry e.idx).RingWithin (s.childLeave e "PARENT") := .of_tx (congrArg FrameSt.tx hfire.frame)
      exact (s.dropEntry_ring e.idx).trans hleave
    · exact .of_tx rfl

/-- A held frame whose time has passed. -/
def State.heldGone (s : State) (e : TxEntry) : State := ((s.ringFree e.id).countCat 5).heldLost e

theorem State.heldGone_frees (s : State) (e : TxEntry) :
    s.RingWithin (s.heldGone e) ∧ ∀ z ∈ (s.heldGone e).frame.tx, z.id ≠ e.id := by
  have hlost := ((s.ringFree e.id).countCat 5).heldLost_ring e
  have hfree : ∀ y ∈ ((s.ringFree e.id).countCat 5).frame.tx, y ∈ s.frame.tx ∧ (!(y.id == e.id)) = true :=
    fun y hy => List.mem_filter.mp hy
  refine ⟨fun z hz => ?_, fun z hz => ?_⟩
  · obtain ⟨y, hy, hyz⟩ := hlost z hz
    exact ⟨y, (hfree y hy).1, hyz⟩
  · obtain ⟨y, hy, hyz⟩ := hlost z hz
    have hne := (hfree y hy).2
    rw [hyz] at hne
    exact bne_iff_ne.mp hne

/-- The frames whose time has passed have gone from the ring. -/
theorem State.heldGone_all (s : State) (old : List TxEntry) : let t := old.foldl State.heldGone s
    s.RingWithin t ∧ ∀ e ∈ old, ∀ z ∈ t.frame.tx, z.id ≠ e.id := by
  induction old generalizing s with
  | nil => exact ⟨fun z hz => ⟨z, hz, rfl⟩, fun e he => absurd he List.not_mem_nil⟩
  | cons e es ih =>
    obtain ⟨hin, hfree⟩ := ih (s.heldGone e)
    obtain ⟨hring, hgone⟩ := s.heldGone_frees e
    refine ⟨hring.trans hin, fun x hx z hz => ?_⟩
    rcases List.mem_cons.mp hx with he | hx
    · obtain ⟨y, hy, hyz⟩ := hin z hz
      rw [he, ← hyz]
      exact hgone y hy
    · exact hfree x hx z hz

end Sys2Proof.Machine

/-- Settles O45: the ends of operations through `linkEnd`, what goes on through `linkGo`, and the schedule through
`pollIssue`. -/
theorem linkEventsTakeEffect : Obligations.LinkEventsTakeEffect := by
  intro s o y x
  refine ⟨fun hr => ?asleep, fun hr hop hw => ⟨fun hrx => ?late, fun hrx hn hy _ hl => ?ends, fun hrx hn hk => ?wakes⟩,
    fun hr hop hx hw => ⟨fun hrx => ?exchLate, fun hrx => ?exchEnds⟩, fun hop hx => ?noWait,
    fun c hr hop hw => ⟨fun hb => ?extended, fun hb => ?cca⟩, fun hop => ?noOp, respWait_ends,
    fun b hr hop hw => ⟨fun h => ?held, fun hrx htx hy _ hl => ⟨window_noResponse hr hop hw hrx htx hy hl,
      window_noData hr hop hw hrx htx hy hl, window_done hr hop hw hrx htx hy hl⟩⟩,
    fun hx => ?noExchange, exchange_lapses, fun h => ?notDue, fun v ha hp hn hl => ⟨poll_skipped ha hp hn hl,
      poll_noTicket ha hp hl, poll_issued ha hp hn hl⟩, fun hr => ?expires, nextSniff_goes⟩
  case asleep => exact link_of_not_inRun hr
  case late => rw [ackWait_lapses hr hop hw, if_pos hrx, State.setOp_eq hop]
  case ends =>
    have hexec := ackWait_lapses hr hop hw
    rw [hrx, if_neg (by decide), noAck_ends hop hn] at hexec
    obtain ⟨hnone, hctrs, -, hdone⟩ := State.linkEnd_ends hop .noack [kd "retries" o.retries] hy hl
    refine ⟨_, hexec, hnone, ?_, hdone⟩
    rw [hctrs]
    exact vget_vset_same _ _ _ _ (by decide)
  case wakes =>
    have hexec := ackWait_lapses hr hop hw
    rw [hrx, if_neg (by decide)] at hexec
    exact ⟨_, hexec, noAck_wakes hop hn hk⟩
  case exchLate => rw [exchWait_lapses hr hop hx hw, if_pos hrx]
  case exchEnds =>
    have hexec := exchWait_lapses hr hop hx hw
    rw [hrx, if_neg (by decide)] at hexec
    exact ⟨_, hexec, State.exchEnd_ends hop⟩
  case noWait =>
    show execAckWaitTimeout s = _
    unfold execAckWaitTimeout
    rw [hop, hx]
    simp
  case extended => rw [backoff_ends hr hop hw, if_pos hb, State.setOp_eq hop]
  case cca =>
    have hexec := backoff_ends hr hop hw
    rw [hb, if_neg Bool.false_ne_true] at hexec
    obtain ⟨⟨c, hc⟩, htick⟩ := State.linkCca_waits hop
    exact ⟨_, hexec, by rw [hc]; rfl, htick⟩
  case noOp => exact link_of_no_op hop
  case held => rw [window_ends hr hop hw, if_pos (by simpa using h), State.setOp_eq hop]
  case noExchange =>
    show execExchangeLapse s = _
    unfold execExchangeLapse
    rw [hx]
  case notDue =>
    show execPollScheduleDue s = _
    unfold execPollScheduleDue
    rw [h]
    rfl
  case expires =>
    have hexec : exec .heldFrameExpiry s = .next s.expireHeld := if_pos hr
    refine ⟨_, hexec, fun e he hc hlife hbusy => ?_⟩
    refine (State.heldGone_all s _).2 e (List.mem_filter.mpr ⟨he, ?_⟩)
    exact Bool.and_eq_true_iff.mpr ⟨Bool.and_eq_true_iff.mpr ⟨hc, decide_eq_true hlife⟩, congrArg (!·) hbusy⟩

end

section

/-! ### Lock and its loss, and the phases of a transmission (11_radio R289–R296, R304) -/

open Sys2Proof Sys2Proof.Machine

namespace Sys2Proof.Machine

/-! #### What follows an unlock -/

/-- What follows an unlock leaves the count of unlocks and the pending bits. -/
structure State.AfterUnlock (s t : State) : Prop where
  unlocks : t.radio.unlocks = s.radio.unlocks
  part : t.part = s.part
  pend : s.PendLe t

namespace State.AfterUnlock

theorem refl (s : State) : s.AfterUnlock s := ⟨rfl, rfl, .refl s⟩

theorem trans {s t u : State} (h : s.AfterUnlock t) (k : t.AfterUnlock u) : s.AfterUnlock u :=
  ⟨k.unlocks.trans h.unlocks, k.part.trans h.part, h.pend.trans k.pend⟩

theorem ite {s a b : State} {c : Prop} [Decidable c] (h : s.AfterUnlock a) (k : s.AfterUnlock b) :
    s.AfterUnlock (if c then a else b) := by
  split
  · exact h
  · exact k

theorem set {s t : State} (hu : t.radio.unlocks = s.radio.unlocks) (hp : t.part = s.part)
    (he : t.events.pend = s.events.pend) : s.AfterUnlock t := ⟨hu, hp, .of_eq he⟩

theorem onward {s t : State} (h : s.Onward t) : s.AfterUnlock t := ⟨h.radio RadioSt.unlocks, h.part, h.pend⟩

theorem aside {s t : State} (h : s.Aside t) : s.AfterUnlock t := onward (.of_aside h)

theorem pends {s t : State} (h : s.AfterUnlock t) {n : Nat} (k : s.pends n) : t.pends n := fun hn =>
  h.pend n (k (State.eventPresent_of_part h.part ▸ hn))

theorem rowWrite (s : State) (x : RowWrite) : s.AfterUnlock (s.rowWrite x) := by
  obtain ⟨r, st, pw, rows, h⟩ := s.rowWrite_frame x
  rw [h]
  exact set rfl rfl rfl

theorem number (s : State) (f : TxFrame) : s.AfterUnlock (s.number f).2 := by
  have hseq : s.AfterUnlock s.nextSeq.2 := set rfl rfl rfl
  unfold State.number
  dsimp only
  split
  · exact hseq
  · refine hseq.trans ?_
    unfold State.nextCounter
    dsimp only
    split
    · exact refl _
    · generalize hx : ({ s.nextSeq.2 with frame := _ } : State) = x
      have h1 : s.nextSeq.2.AfterUnlock x := by subst hx; exact set rfl rfl rfl
      have h2 : x.AfterUnlock x.saveFc := rowWrite x _
      exact (h1.trans h2).trans (ite (aside (.fire _ _ _)) (refl _))

theorem exchEnd (s : State) : s.AfterUnlock s.exchEnd :=
  trans (t := { s with link := { s.link with exch := none } }) (set rfl rfl rfl) (onward s.exchEnd_onward)

theorem linkNoAck (s : State) : s.AfterUnlock s.linkNoAck := by
  unfold State.linkNoAck
  split
  · exact refl s
  · split
    · extract_lets s1
      have h1 : s.AfterUnlock s1 := set rfl rfl rfl
      refine h1.trans (ite (onward ((State.Onward.setOp _ _).trans (.radioRest _))) ?_)
      exact onward ((State.Onward.setOp s1 _).trans (.linkGo _))
    · exact onward (.linkEnd s _ _)

theorem windowEnd (s : State) : s.AfterUnlock s.windowEnd := by
  unfold State.windowEnd
  split
  · exact refl s
  · exact ite (onward (.linkEnd s _ _)) (ite (onward (.linkEnd s _ _)) (onward (.linkEnd s _ _)))

theorem listenAgain (s : State) (o : LinkOp) : s.AfterUnlock (s.listenAgain o) := by
  unfold State.listenAgain
  split
  · exact ite (linkNoAck s) (onward (.linkResume s))
  · exact windowEnd s
  · exact onward (.linkResume s)

theorem completeCancel (s : State) (n : Nat) (r : Result) : s.AfterUnlock (s.completeCancel n r) := by
  unfold State.completeCancel
  split <;> exact aside (.complete s _ _ _ _)

theorem freeLevels (s : State) : s.AfterUnlock s.freeLevels := by
  unfold State.freeLevels
  refine List.foldlRecOn (motive := fun u : State => s.AfterUnlock u) _ _ (refl s) fun u hu i _ => hu.trans ?_
  exact set rfl rfl rfl

theorem scanStore (s : State) (x : Listener) : s.AfterUnlock (s.scanStore x) := by
  unfold State.scanStore
  exact ite (refl s) (set rfl rfl rfl)

theorem listenerEnd (s : State) (x : Listener) (r : Result) : s.AfterUnlock (s.listenerEnd x r) := by
  unfold State.listenerEnd
  extract_lets q s1 s2
  have h2 : s.AfterUnlock s2 := trans (t := s1) (set rfl rfl rfl) (onward (.radioRest s1))
  refine h2.trans ?_
  split
  · have h3 : s2.AfterUnlock (if x.windows = 0 then s2.freeLevels else s2.scanStore x) := ite (freeLevels s2) (scanStore s2 x)
    exact (h3.trans (aside (.fire _ _ _))).trans (aside (.complete _ _ _ _ _))
  · exact (scanStore s2 x).trans (completeCancel _ _ _)
  · exact aside (.complete s2 _ _ _ _)
  · exact aside (.complete s2 _ _ _ _)
  · exact completeCancel s2 _ _

theorem sniffStop (s : State) : s.AfterUnlock s.sniffStop := by
  unfold State.sniffStop
  extract_lets s1
  have h0 : s.AfterUnlock (setRad (fun r => { r with sniff := none, handed := none, rx := none, failed := false }) s) :=
    set rfl rfl rfl
  have h1 : s.AfterUnlock s1 := h0.trans (onward (.of_tuned (.radioTo _ _)))
  exact h1.trans (set rfl rfl rfl)

theorem relock (s : State) : s.AfterUnlock s.relock := by
  unfold State.relock
  exact ite (set rfl rfl rfl) (onward (.linkResume s))

theorem ceqStale (s : State) (b : Bool) : s.AfterUnlock (s.ceqStale b) := by
  unfold State.ceqStale
  generalize hx : State.bump { s with census := { s.census with stale := b } } .census = x
  have hset : s.AfterUnlock x := by subst hx; exact set rfl rfl rfl
  refine hset.trans (ite ?_ (set rfl rfl rfl))
  obtain ⟨c, -, hcond⟩ := x.condOn_aside 75 []
  exact trans (t := { x with events := { x.events with cond := c } }) (set rfl rfl rfl) (aside hcond)

theorem trimFinish (s : State) (r : Result) (fs : List Tok) : s.AfterUnlock (s.trimFinish r fs) := by
  unfold State.trimFinish
  split
  · exact refl s
  · extract_lets q s1 ceq s2 f
    have h1 : s.AfterUnlock s1 := set rfl rfl rfl
    have h2 : s1.AfterUnlock s2 := ite (ceqStale s1 false) (refl s1)
    exact ((h1.trans h2).trans (onward (.linkResume s2))).trans (aside (.complete _ _ _ _ _))

theorem unlockListen (s : State) : s.AfterUnlock s.unlockListen := by
  unfold State.unlockListen
  extract_lets s1 opHolds s2
  have h1 : s.AfterUnlock s1 := set rfl rfl rfl
  split
  next o _ _ =>
    have hset : s1.AfterUnlock (s1.setOp (fun o => { o with failed := true })) := set rfl rfl rfl
    exact h1.trans (ite (onward (.linkEnd s1 _ _)) (hset.trans (listenAgain _ o)))
  next x _ _ =>
    have hset : s1.AfterUnlock (s1.setListener x.ticket (fun y => { y with failed := true })) := set rfl rfl rfl
    exact h1.trans (ite (listenerEnd s1 x _) (ite (listenerEnd s1 x _) (hset.trans (onward (.linkResume _)))))
  · have hset : s1.AfterUnlock (setRad (fun r => { r with failed := true }) s1) := set rfl rfl rfl
    have h2 : s1.AfterUnlock s2 := set rfl rfl rfl
    refine h1.trans (ite (exchEnd s1) (ite (hset.trans (relock _)) (h2.trans ?_)))
    exact ite (sniffStop s2) (ite (exchEnd s2) (ite (trimFinish s2 _ _) (onward (.linkResume s2))))

theorem associate (s : State) (a : Assoc) : s.AfterUnlock (s.associate a) := by
  unfold State.associate
  extract_lets f ad s1 q q' s2 s3
  have h1 : s.AfterUnlock s1 := ite (refl s) (set rfl rfl rfl)
  have h2 : s1.AfterUnlock s2 := set rfl rfl rfl
  have h3 : s2.AfterUnlock s3 :=
    trans (t := s2.partnerClear) (set rfl rfl rfl) ((onward (.linkTo _ _)).trans (onward (.saveAssoc _)))
  exact ((h1.trans h2).trans h3).trans (aside (.fire _ _ _))

theorem pollNext (s : State) : s.AfterUnlock s.pollNext := by
  unfold State.pollNext
  split
  · exact refl s
  next o _ =>
    refine ite ?_ (onward (.linkEnd s _ _))
    generalize hx : s.setOp (fun o => { o with repolls := o.repolls + 1, retries := 0 }) = x
    have h1 : s.AfterUnlock x := by subst hx; exact set rfl rfl rfl
    have h2 : x.AfterUnlock (x.buildOp (x.pollFrame o)) := by
      unfold State.buildOp
      exact (number x _).trans (set rfl rfl rfl)
    have h3 : (x.buildOp (x.pollFrame o)).AfterUnlock (x.buildOp (x.pollFrame o)).linkAttempt :=
      onward ((State.Onward.setOp _ _).trans (.linkGo _))
    exact (h1.trans h2).trans h3

theorem afterAck (s : State) : s.AfterUnlock s.afterAck := by
  unfold State.afterAck
  split
  · exact onward (.linkResume s)
  next o _ =>
    split
    · extract_lets s1
      have h1 : s.AfterUnlock s1 := by
        dsimp only [s1]
        split
        · exact associate s _
        · exact refl s
      refine h1.trans ?_
      split
      · exact onward (.linkEnd s1 _ _)
      · exact pollNext s1
    · exact onward (.linkResume s)

end State.AfterUnlock

/-! #### The end of a transmission -/

/-- A booking settled leaves the rest of the part, and may tell that the budget is low. -/
theorem State.settleBooking_low (s : State) (n : Nat) : s.settleBooking n = s ∨ ∃ u : State, s.settleBooking n = u.lowCheck s ∧
    u.radio = s.radio ∧ u.pads = s.pads ∧ u.link = s.link ∧ u.tickets = s.tickets ∧ u.pwr = s.pwr := by
  unfold State.settleBooking
  split
  · exact .inl rfl
  · extract_lets g cut s1
    obtain ⟨r, rows, row, seq, j, h⟩ := s1.journal_frame .check
    exact .inr ⟨s1.journal .check, rfl, by rw [h], by rw [h], by rw [h], by rw [h], by rw [h]⟩

theorem State.settleBooking_keeps (s : State) (n : Nat) :
    (s.settleBooking n).radio = s.radio ∧ (s.settleBooking n).pads.paEn = s.pads.paEn ∧
      (s.settleBooking n).link.op = s.link.op ∧ (s.settleBooking n).tickets = s.tickets ∧
      (s.settleBooking n).pwr.vddpa = s.pwr.vddpa := by
  rcases s.settleBooking_low n with h | ⟨u, h, hradio, hpads, hlink, htick, hpwr⟩
  · rw [h]
    exact ⟨rfl, rfl, rfl, rfl, rfl⟩
  · have hlow : u.Aside (u.lowCheck s) := by
      unfold State.lowCheck
      exact .ite (.fire _ _ _) (.refl u)
    have hltick : (u.lowCheck s).tickets = u.tickets := by
      unfold State.lowCheck
      split
      · exact u.fire_tickets _ _
      · rfl
    rw [h]
    exact ⟨hlow.radio.trans hradio, (hlow.pads PadsSt.paEn).trans (congrArg PadsSt.paEn hpads),
      (hlow.link LinkSt.op).trans (congrArg LinkSt.op hlink), hltick.trans htick,
      (hlow.pwr PwrSt.vddpa).trans (congrArg PwrSt.vddpa hpwr)⟩

/-- The part as a transmission ends: PA_EN low, nothing keyed, and the booking settled. -/
def State.txDown (s : State) (x : Tx) : State :=
  (State.padFollow { s with
    pads := { s.pads with paEn := false }
    radio := { s.radio with tx := none, antLag := true, locked := s.radio.locked && !x.cut } }).settleBooking x.actual

theorem State.txDown_down (s : State) (x : Tx) : let t := s.txDown x
    t.radio.tx = none ∧ t.radio.antLag = true ∧ t.pads.paEn = false ∧ t.link.op = s.link.op ∧ t.tickets = s.tickets ∧
      t.pwr.vddpa = s.pwr.vddpa := by
  unfold State.txDown
  generalize hu : ({ s with pads := _, radio := _ } : State) = u
  obtain ⟨hradio, hpads, hop, htick, hpwr⟩ := u.padFollow.settleBooking_keeps x.actual
  have hpad := State.Tuned.padFollow u
  dsimp only
  rw [hradio, hpads, hop, htick, hpwr, hpad.radio RadioSt.tx, hpad.radio RadioSt.antLag, hpad.pads PadsSt.paEn, hpad.link,
    hpad.tickets, hpad.pwr]
  subst hu
  exact ⟨rfl, rfl, rfl, rfl, rfl, rfl⟩

theorem State.txDown_afterUnlock (s : State) (x : Tx) : s.AfterUnlock (s.txDown x) := by
  unfold State.txDown
  generalize hu : ({ s with pads := _, radio := _ } : State) = u
  have hset : s.AfterUnlock u := by subst hu; exact .set rfl rfl rfl
  exact (hset.trans (.onward (.of_tuned (.padFollow u)))).trans (.onward (.settleBooking _ _))

/-- A transmission that was cut ends its operation, its exchange, or the wait behind it. -/
theorem State.txEnd_cut {s : State} {x : Tx} (hx : s.radio.tx = some x) (hc : x.cut = true) : s.AfterUnlock s.txEnd := by
  have hdown := s.txDown_afterUnlock x
  unfold State.txEnd
  split
  · exact .refl s
  next t ht =>
    obtain rfl := Option.some.inj (hx.symm.trans ht)
    extract_lets p r s0 s1 sent
    have h1 : s.AfterUnlock s1 := hdown
    have hend : s.AfterUnlock (s1.linkEnd .fail [kw "why" "UNLOCK"]) := h1.trans (.onward (.linkEnd s1 _ _))
    have hack (u : State) (hu : s.AfterUnlock u) (b : Bool) : s.AfterUnlock (match u.link.exch with
        | some y => if y.phase = .ack then (if b && !x.cut then u.heldStart y else u.exchEnd) else u.afterAck
        | none => u.afterAck) := by
      simp only [hc, Bool.not_true, Bool.and_false, Bool.false_eq_true, if_false]
      split
      · exact hu.trans (.ite (.exchEnd u) (.afterAck u))
      · exact hu.trans (.afterAck u)
    have hsent : sent s1 = s1.linkEnd .fail [kw "why" "UNLOCK"] := if_pos hc
    split
    · rw [if_pos hc]
      exact hend
    · rw [hsent]
      exact hend
    · rw [hsent]
      exact hend
    · refine hack _ ?_ _
      show s.AfterUnlock (if x.cut = true then s1 else s1.countFrame 12)
      rw [if_pos hc]
      exact h1
    · split
      · rw [if_pos hc]
        exact h1.trans (.exchEnd s1)
      · exact h1.trans (.onward (.linkResume s1))

/-! #### Unlocks -/

/-- The radio unlocked, before its event. -/
def State.unlocked (s : State) : State :=
  { s with radio := { s.radio with locked := false, tuning := false, unlocks := s.radio.unlocks.inc } }

/-- The event of an unlock. -/
def State.unlockTold (s : State) : State :=
  s.unlocked.fire 32 [.kv "word" (.hex 8 s.radio.word), kw "state" s.radio.st.name]

theorem State.unlockTold_radio (s : State) : s.unlockTold.radio = s.unlocked.radio := (State.Aside.fire _ _ _).radio

/-- An unlock is counted and told, whatever it ends. -/
theorem State.unlock_counts (s : State) : s.unlockTold.AfterUnlock s.unlock := by
  unfold State.unlock
  extract_lets s1
  have hs1 : s1 = s.unlockTold := rfl
  rw [← hs1]
  split
  next t ht =>
    split
    · exact .set rfl rfl rfl
    · exact .set rfl rfl rfl
    · exact .set rfl rfl rfl
    · have hset : s1.AfterUnlock (setRad (fun r => { r with tx := some { t with cut := true, actual := 0 } }) s1) :=
        .set rfl rfl rfl
      exact hset.trans (State.txEnd_cut rfl rfl)
  · exact .unlockListen s1

theorem State.unlock_unlocks (s : State) : s.unlock.radio.unlocks = s.radio.unlocks.inc ∧ (s.quiet = false → s.unlock.pends 32) := by
  have hcount := s.unlock_counts
  refine ⟨hcount.unlocks.trans (congrArg RadioSt.unlocks s.unlockTold_radio), fun hq => hcount.pends ?_⟩
  exact State.pends_fire (s := s.unlocked) hq

/-- An unlock while a transmission is keyed ramps it down, cut. -/
theorem State.unlock_ramps {s : State} {x : Tx} (hx : s.radio.tx = some x)
    (hp : x.phase = .rampUp ∨ x.phase = .symbols ∨ x.phase = .rampDown) :
    ∃ y, s.unlock.radio.tx = some y ∧ y.phase = .rampDown ∧ y.cut = true := by
  have htx : s.unlockTold.radio.tx = some x := (congrArg RadioSt.tx s.unlockTold_radio).trans hx
  have hu : s.unlock = (match s.unlockTold.radio.tx with
    | some t =>
      (match t.phase with
      | .rampUp => setRad (fun r => { r with tx := some { t with phase := .rampDown, cut := true, actual := 0 } }) s.unlockTold
      | .symbols => setRad (fun r => { r with tx := some { t with
          phase := .rampDown, cut := true, actual := min (s.unlockTold.day.cyc - t.symCyc) t.air } }) s.unlockTold
      | .rampDown => setRad (fun r => { r with tx := some { t with cut := true } }) s.unlockTold
      | _ => (setRad (fun r => { r with tx := some { t with cut := true, actual := 0 } }) s.unlockTold).txEnd)
    | none => s.unlockTold.unlockListen) := rfl
  rw [hu, htx]
  rcases hp with hp | hp | hp
  · dsimp only
    rw [hp]
    exact ⟨_, rfl, rfl, rfl⟩
  · dsimp only
    rw [hp]
    exact ⟨_, rfl, rfl, rfl⟩
  · dsimp only
    rw [hp]
    exact ⟨_, rfl, rfl, rfl⟩

/-! #### Lock and the leads of keying -/

/-- What the start of a listening leaves: the radio but for its listeners, and all but the link's operation and the census. -/
theorem State.ccaBegin_keeps (s : State) (c : Nat) : let t := (s.ccaBegin c).censusHold
    t.radio.locked = s.radio.locked ∧ t.radio.tuning = s.radio.tuning ∧ t.radio.st = s.radio.st ∧ t.tickets = s.tickets ∧
      t.events = s.events := by
  intro t
  have hhold := State.Tuned.censusHold (s.ccaBegin c)
  have hradio : t.radio = (s.ccaBegin c).radio := by
    show (s.ccaBegin c).censusHold.radio = _
    unfold State.censusHold
    split <;> rfl
  have hbegin : (s.ccaBegin c).radio.locked = s.radio.locked ∧ (s.ccaBegin c).radio.tuning = s.radio.tuning ∧
      (s.ccaBegin c).radio.st = s.radio.st ∧ (s.ccaBegin c).tickets = s.tickets ∧ (s.ccaBegin c).events = s.events := by
    unfold State.ccaBegin
    repeat' split
    all_goals exact ⟨rfl, rfl, rfl, rfl, rfl⟩
  rw [hradio]
  exact ⟨hbegin.1, hbegin.2.1, hbegin.2.2.1, hhold.tickets.trans hbegin.2.2.2.1, hhold.events.trans hbegin.2.2.2.2⟩

theorem synthLock_locks {s : State} (h : (s.onAir && s.radio.tuning) = true) :
    (∀ x, s.radio.tx = some x → exec .synthLock s = .next { s with radio := { s.radio with
      locked := true, tuning := false, tx := some { x with phase := .lead } } }) ∧
    (s.radio.tx = none → Leads .synthLock s (fun t =>
      t.radio.locked = true ∧ t.radio.tuning = false ∧ t.radio.st = s.radio.st ∧ t.tickets = s.tickets ∧
        t.events = s.events)) := by
  have hexec : exec .synthLock s = execSynthLock s := rfl
  unfold execSynthLock at hexec
  rw [h, Bool.not_true, if_neg Bool.false_ne_true] at hexec
  refine ⟨fun x hx => ?_, fun hx => ?_⟩
  · rw [hexec]
    dsimp only
    rw [hx]
    rfl
  · rw [hx] at hexec
    exact ⟨_, hexec, State.ccaBegin_keeps (setRad (fun r => { r with locked := true, tuning := false }) s) _⟩

theorem State.antSet_sets (s : State) (pair : Nat) : let v := fld s.cfg.radio.antMap (2 * pair + 1) (2 * pair)
    (s.antSet pair).pads.antA = decide (v % 2 = 1) ∧ (s.antSet pair).pads.antB = decide (2 ≤ v) ∧ (s.antSet pair).radio = s.radio := by
  have hpad (u : State) : u.padFollow.pads.antA = u.pads.antA ∧ u.padFollow.pads.antB = u.pads.antB ∧
      u.padFollow.radio = u.radio := by
    unfold State.padFollow
    split <;> exact ⟨rfl, rfl, rfl⟩
  exact hpad _

theorem State.paOn_ups (s : State) : s.paOn.radio = s.radio ∧ s.paOn.tickets = s.tickets ∧
    (bit s.cfg.radio.txConfig 13 = true → s.paOn.pads.paEn = true) ∧ (bit s.cfg.radio.txConfig 13 = false → s.paOn = s) := by
  have hpad (u : State) : u.padFollow.radio = u.radio := by
    unfold State.padFollow
    split <;> rfl
  unfold State.paOn
  split
  next h =>
    have hup := State.Tuned.padFollow { s with pads := { s.pads with paEn := true } }
    exact ⟨hpad _, hup.tickets, fun _ => hup.pads PadsSt.paEn, fun hn => absurd (h.symm.trans hn) (by decide)⟩
  next h => exact ⟨rfl, rfl, fun hn => absurd hn h, fun _ => rfl⟩

theorem keyingLead_leads {s : State} {x : Tx} (hx : s.radio.tx = some x) (hp : x.phase = .lead) (pa : Bool) :
    exec (.keyingLead pa) s = .next (if pa then s.paOn else s.antSet (txPair x)) := by
  show execKeyingLead pa s = _
  unfold execKeyingLead
  rw [hx]
  exact if_pos hp

/-- Keying counts, and the ramp begins. -/
theorem State.keyUp_keys (s : State) (x : Tx) : let t := s.keyUp x
    t.radio.keyings = s.radio.keyings.inc ∧ t.radio.tx = some { x with phase := .rampUp } ∧ t.tickets = s.tickets ∧
      t.radio.st = s.radio.st := by
  unfold State.keyUp
  extract_lets s1 s2 mine t
  have h2 : s2.radio = s1.radio := (s1.antSet (txPair x)).paOn_ups.1.trans (s1.antSet_sets _).2.2
  have ht2 : s2.tickets = s.tickets :=
    (s1.antSet (txPair x)).paOn_ups.2.1.trans (State.Tuned.antSet s1 (txPair x)).tickets
  have ht : t.radio = s2.radio ∧ t.tickets = s2.tickets := by
    dsimp only [t]
    cases mine <;> exact ⟨rfl, rfl⟩
  rw [ht.1, ht.2, h2, ht2]
  exact ⟨rfl, rfl, rfl, rfl⟩

theorem keyed_keys {s : State} {x : Tx} {c : Instr} (hx : s.radio.tx = some x) (hp : x.phase = .lead)
    (hc : (c = .keying ∧ x.turn = false ∧ s.keyWaits = false) ∨
      (c = .heldFrameTurnaround ∧ s.journalBusy = false ∧ ∃ id, x.kind = .held id) ∨
      (c = .ackTurnaround ∧ s.journalBusy = false ∧ ∃ b, x.kind = .ack b)) : exec c s = .next (s.keyUp x) := by
  rcases hc with ⟨rfl, ht, hk⟩ | ⟨rfl, hj, id, hkind⟩ | ⟨rfl, hj, b, hkind⟩
  · show execKeying s = _
    unfold execKeying
    rw [hx]
    exact if_pos (by rw [hp, ht, hk]; rfl)
  · show execHeldFrameTurnaround s = _
    unfold execHeldFrameTurnaround
    rw [hx]
    dsimp only
    rw [hkind]
    exact if_pos (by rw [hp, hj]; rfl)
  · show execAckTurnaround s = _
    unfold execAckTurnaround
    rw [hx]
    dsimp only
    rw [hkind]
    exact if_pos (by rw [hp, hj]; rfl)

/-- Without a transmission, its phases do nothing. -/
theorem phases_of_no_tx {s : State} {pa : Bool} (h : s.radio.tx = none) : ∀ c ∈ [Instr.keyingLead pa, .keying, .rampUpEnd,
    .txSymbolsEnd, .rampDownEnd, .ackTurnaround, .heldFrameTurnaround], exec c s = .next s := by
  simp only [List.mem_cons, List.not_mem_nil, or_false, forall_eq_or_imp, forall_eq]
  refine ⟨?_, ?_, ?_, ?_, ?_, ?_, ?_⟩
  · show execKeyingLead pa s = _
    unfold execKeyingLead
    rw [h]
  · show execKeying s = _
    unfold execKeying
    rw [h]
  · show execRampUpEnd s = _
    unfold execRampUpEnd
    rw [h]
  · show execTxSymbolsEnd s = _
    unfold execTxSymbolsEnd
    rw [h]
  · show execRampDownEnd s = _
    unfold execRampDownEnd
    rw [h]
  · show execAckTurnaround s = _
    unfold execAckTurnaround
    rw [h]
  · show execHeldFrameTurnaround s = _
    unfold execHeldFrameTurnaround
    rw [h]

/-- The first symbol begins a supply measurement, of the high-power supply where the level is one. -/
theorem rampUp_ends {s : State} {x : Tx} (hx : s.radio.tx = some x) (hp : x.phase = .rampUp) :
    exec .rampUpEnd s = .next { s with
      radio := { s.radio with tx := some { x with phase := .symbols, symCyc := s.day.cyc } }
      pwr := { s.pwr with measBusy := true
                          measHp := (s.pwr.measBusy && s.pwr.measHp) || (x.hp && decide (20 < x.level)) } } := by
  show execRampUpEnd s = _
  unfold execRampUpEnd
  rw [hx]
  dsimp only
  rw [if_pos hp]
  have hmeas (u : State) (hp : Bool) : u.startMeasure hp =
      { u with pwr := { u.pwr with measBusy := true, measHp := (u.pwr.measBusy && u.pwr.measHp) || hp } } := by
    unfold State.startMeasure
    split
    next h => rw [h, Bool.true_and, ← h]
    next h => rw [Bool.eq_false_iff.mpr h, Bool.false_and, Bool.false_or]
  exact congrArg _ (hmeas _ _)

/-- The end of a carrier's operation leaves what is keyed. -/
theorem State.linkEnd_carrier {s : State} {o : LinkOp} (hop : s.link.op = some o) (hk : o.kind = .cw) (r : Result)
    (fs : List Tok) : (s.linkEnd r fs).radio.tx = s.radio.tx := by
  unfold State.linkEnd
  split
  · rfl
  next o' h =>
    obtain rfl := Option.some.inj (hop.symm.trans h)
    extract_lets q s1 s2 s3 q' s4
    have h2 : s2.radio = s1.radio := by
      dsimp only [s2]
      split <;> rfl
    have h3 : s3.radio = s2.radio := by
      show (s2.endCounted r).radio = _
      unfold State.endCounted
      repeat' split
      all_goals rfl
    have h4 : s4.radio = s3.radio := by
      dsimp only [s4]
      rw [hk]
    have hrest := (State.Tuned.radioRest s4).radio RadioSt.tx
    have hdone := (State.Aside.complete s4.radioRest o.ticket r fs []).radio
    exact (congrArg RadioSt.tx hdone).trans (hrest.trans (congrArg RadioSt.tx (h4.trans (h3.trans h2))))

theorem State.Onward.paEn {s t : State} (h : s.Onward t) : t.pads.paEn = s.pads.paEn :=
  (congrArg (fun u : State => u.pads.paEn) h.lasts : t.lasting.pads.paEn = s.lasting.pads.paEn)

/-- A continuous carrier that ends completes its ticket with the level and the supply. -/
theorem carrier_ends {s : State} {x : Tx} {o : LinkOp} {y : Ticket} (hx : s.radio.tx = some x) (hp : x.phase = .rampDown)
    (hk : x.kind = .cw) (hc : x.cut = false) (hop : s.link.op = some o) (hy : s.ticket? o.ticket = some y)
    (hl : y.live = true) (hok : o.kind = .cw) :
    Leads .rampDownEnd s (fun t => t.pads.paEn = false ∧ t.radio.tx = none ∧ t.radio.antLag = true ∧ t.link.op = none ∧
      ∃ ed, Completed t y .done [kd "level" x.level, kd "vddpa" s.pwr.vddpa.toNat] ed) := by
  obtain ⟨htx, hlag, hpa, hdop, hdtick, hvdd⟩ := s.txDown_down x
  have hexec : exec .rampDownEnd s =
      .next ((s.txDown x).linkEnd .done [kd "level" x.level, kd "vddpa" (s.txDown x).pwr.vddpa.toNat]) := by
    show execRampDownEnd s = _
    unfold execRampDownEnd
    rw [hx]
    dsimp only
    rw [if_pos hp]
    unfold State.txEnd
    rw [hx]
    dsimp only
    rw [hk]
    exact congrArg _ (if_neg (by rw [hc]; exact Bool.false_ne_true))
  rw [hvdd] at hexec
  have hown : (s.txDown x).link.op = some o := hdop.trans hop
  have hend := State.Onward.linkEnd (s.txDown x) .done [kd "level" x.level, kd "vddpa" s.pwr.vddpa.toNat]
  obtain ⟨hnone, -, -, hdone⟩ := State.linkEnd_ends hown .done [kd "level" x.level, kd "vddpa" s.pwr.vddpa.toNat]
    ((State.ticket_of_tickets hdtick _).trans hy) hl
  exact ⟨_, hexec, hend.paEn.trans hpa, (State.linkEnd_carrier hown hok _ _).trans htx,
    (hend.radio RadioSt.antLag).trans hlag, hnone, hdone⟩

/-- The lag of the antenna controls ends with the mapping of the radio's state. -/
theorem antennaLag_ends {s : State} (hl : s.radio.antLag = true) (hst : s.radio.st ≠ .transmit) :
    Leads .antennaLagEnd s (fun t =>
      let pair := if s.radio.st = .idle then 0 else 1
      let v := fld s.cfg.radio.antMap (2 * pair + 1) (2 * pair)
      t.radio.antLag = false ∧ t.pads.antA = decide (v % 2 = 1) ∧ t.pads.antB = decide (2 ≤ v)) := by
  have hexec : exec .antennaLagEnd s = .next (State.antFollow { s with radio := { s.radio with antLag := false } }) := if_pos hl
  generalize hu : ({ s with radio := { s.radio with antLag := false } } : State) = u at hexec
  have hst' : u.radio.st = s.radio.st := by subst hu; rfl
  have hlag : u.radio.antLag = false := by subst hu; rfl
  have hfollow : u.antFollow = u.antSet (if s.radio.st = .idle then 0 else 1) := by
    unfold State.antFollow
    rw [hlag, if_neg Bool.false_ne_true, hst']
    cases h : s.radio.st with
    | idle => rfl
    | transmit => exact absurd h hst
    | _ => rfl
  rw [hfollow] at hexec
  obtain ⟨ha, hb, hr⟩ := u.antSet_sets (if s.radio.st = .idle then 0 else 1)
  have hcfg : u.cfg = s.cfg := by subst hu; rfl
  rw [hcfg] at ha hb
  exact ⟨_, hexec, (congrArg RadioSt.antLag hr).trans hlag, ha, hb⟩

end Sys2Proof.Machine

/-- Settles O42: an unlock through `unlock`, keying through `keyUp`, and the end of a carrier through `txEnd`. -/
theorem transmissionsPassTheirPhases : Obligations.TransmissionsPassTheirPhases := by
  intro s x pa
  refine ⟨fun h => ?noTuning, fun h hx => (synthLock_locks h).1 x hx, fun h hx => (synthLock_locks h).2 hx, fun h => ?lockTimeout,
    fun ha hl hst => ?lockLost, fun h => ?noLock, phases_of_no_tx, fun hx hp => ⟨fun hb => ?paOn, fun hb => ?paOff, ?antOn,
      fun h => ?waits⟩, fun c hx hp hc => ⟨_, keyed_keys hx hp hc, s.keyUp_keys x⟩, rampUp_ends, fun hx hp => ?symbols,
    fun o y hx hp hk hc hop hy _ hl hok => carrier_ends hx hp hk hc hop hy hl hok, fun hx hp => ?noRamp, fun h => if_neg ?noLag,
    antennaLag_ends⟩
  case noTuning =>
    exact ⟨if_pos (by rw [h]; rfl), if_neg (by rw [h]; exact Bool.false_ne_true)⟩
  case lockTimeout =>
    have hexec : exec .lockTimeout s = .next s.unlock := if_pos h
    exact ⟨_, hexec, s.unlock_unlocks⟩
  case lockLost =>
    have hexec : exec .lockLost s = .next s.unlock := if_pos (by rw [ha, hl, decide_eq_true hst]; rfl)
    exact ⟨_, hexec, s.unlock_unlocks.1, s.unlock_unlocks.2, State.unlock_ramps⟩
  case noLock => exact if_neg (by rw [h, Bool.and_false, Bool.false_and]; exact Bool.false_ne_true)
  case paOn =>
    have hexec := keyingLead_leads hx hp true
    exact ⟨_, hexec, s.paOn_ups.2.2.1 hb, s.paOn_ups.1⟩
  case paOff =>
    rw [keyingLead_leads hx hp true]
    exact congrArg _ (s.paOn_ups.2.2.2 hb)
  case antOn =>
    have hexec := keyingLead_leads hx hp false
    exact ⟨_, hexec, s.antSet_sets (txPair x)⟩
  case waits =>
    show execKeying s = _
    unfold execKeying
    rw [hx]
    refine if_neg ?_
    rcases h with h | h <;> simp [h]
  case symbols =>
    show execTxSymbolsEnd s = _
    unfold execTxSymbolsEnd
    rw [hx]
    exact if_pos hp
  case noRamp =>
    show execRampDownEnd s = _
    unfold execRampDownEnd
    rw [hx]
    exact if_neg hp
  case noLag => rw [h]; exact Bool.false_ne_true

end

section

/-! ### The stages of bring-up (08_bringup R212–R218, 17_trim R458, 18_noise_vault R470, 21_orders R538) -/

open Sys2Proof Sys2Proof.Machine

namespace Sys2Proof.Machine

/-! #### What rows and reports leave -/

theorem State.rowDone_frame (s : State) :
    ∃ r st pw rows, s.rowDone.1 = { s with record := r, store := st, pwr := pw, rows := rows } := by
  unfold State.rowDone
  split
  · exact ⟨_, _, _, _, rfl⟩
  · rename_i x rs _
    cases rs with
    | nil => exact ⟨_, _, _, _, rfl⟩
    | cons y ys =>
      obtain ⟨r, st, pw, h⟩ := State.applyRow_frame _ y.what
      dsimp only
      unfold State.beginRow
      rw [h]
      exact ⟨_, _, _, _, rfl⟩

theorem State.flushRows_frame (s : State) :
    ∃ r st pw rows, s.flushRows = { s with record := r, store := st, pwr := pw, rows := rows } := by
  have fold (l : List Nat) (s : State) : ∃ r st pw rows, l.foldl (fun s _ => s.rowDone.1) s =
      { s with record := r, store := st, pwr := pw, rows := rows } := by
    induction l generalizing s with
    | nil => exact ⟨_, _, _, _, rfl⟩
    | cons a l ih =>
      obtain ⟨r, st, pw, rows, h⟩ := s.rowDone_frame
      obtain ⟨r', st', pw', rows', h'⟩ := ih s.rowDone.1
      exact ⟨r', st', pw', rows', by rw [List.foldl_cons, h', h]⟩
  exact fold _ s

/-- Clearing a bit leaves the others. -/
theorem getLsbD_andNot_bit (c : BitVec 128) {i m : Nat} (h : i ≠ m) :
    (c &&& ~~~((1 : BitVec 128) <<< m)).getLsbD i = c.getLsbD i := by
  have hbit : ((1 : BitVec 128) <<< m).getLsbD i = false := by
    rw [BitVec.getLsbD_shiftLeft]
    rcases Nat.lt_or_gt_of_ne h with hlt | hgt
    · simp [hlt]
    · have hn : i - m ≠ 0 := Nat.sub_ne_zero_of_lt hgt
      simp [BitVec.getLsbD_one, hn]
  by_cases hi : i < 128
  · rw [BitVec.getLsbD_and, BitVec.getLsbD_not, hbit]
    simp [hi]
  · rw [BitVec.getLsbD_of_ge _ _ (Nat.le_of_not_lt hi), BitVec.getLsbD_of_ge _ _ (Nat.le_of_not_lt hi)]

/-- Between s and t, work of bring-up has written rows, reported them, and told its events and conditions. -/
structure State.Boots (s t : State) : Prop where
  part : t.part = s.part
  boots : t.sys.bootCount = s.sys.bootCount
  alert : ∀ i, s.sys.alert.getLsbD i = true → t.sys.alert.getLsbD i = true
  cond : ∀ i, i ≠ 55 → s.events.cond.getLsbD i = true → t.events.cond.getLsbD i = true
  day : t.day = s.day
  cfg : t.cfg = s.cfg
  noise : t.noise = s.noise
  tamper : t.tamper = s.tamper
  seals : t.vault.sealed = s.vault.sealed ∧ t.vault.eraseMask = s.vault.eraseMask

namespace State.Boots

theorem refl (s : State) : s.Boots s :=
  ⟨rfl, rfl, fun _ => id, fun _ _ => id, rfl, rfl, rfl, rfl, rfl, rfl⟩

theorem trans {s t u : State} (h : s.Boots t) (k : t.Boots u) : s.Boots u :=
  ⟨k.part.trans h.part, k.boots.trans h.boots, fun i hi => k.alert i (h.alert i hi),
    fun i hi hc => k.cond i hi (h.cond i hi hc), k.day.trans h.day, k.cfg.trans h.cfg, k.noise.trans h.noise,
    k.tamper.trans h.tamper, k.seals.1.trans h.seals.1, k.seals.2.trans h.seals.2⟩

theorem ite {s a b : State} {c : Prop} [Decidable c] (h : s.Boots a) (k : s.Boots b) : s.Boots (if c then a else b) := by
  split
  · exact h
  · exact k

/-- A fold of steps that each leave what bring-up leaves. -/
theorem fold {α : Type} {f : State → α → State} (hf : ∀ (s : State) (a : α), s.Boots (f s a)) (l : List α) (s : State) :
    s.Boots (l.foldl f s) := by
  induction l generalizing s with
  | nil => exact refl s
  | cons a l ih => exact (hf s a).trans (ih _)

theorem aside {s t : State} (h : s.Aside t) : s.Boots t :=
  ⟨h.part, h.sys (·.bootCount), fun i hi => by rw [h.sys (·.alert)]; exact hi, fun i _ hi => by rw [h.cond]; exact hi, h.day,
    h.cfg, h.noise, h.tamper, by rw [h.vault], by rw [h.vault]⟩

theorem rowWrite (s : State) (x : RowWrite) : s.Boots (s.rowWrite x) := by
  obtain ⟨r, st, pw, rows, h⟩ := s.rowWrite_frame x
  rw [h]
  exact ⟨rfl, rfl, fun _ => id, fun _ _ => id, rfl, rfl, rfl, rfl, rfl, rfl⟩

theorem rowWrites (s : State) (ws : List RowWhat) (n : Option Nat) : s.Boots (s.rowWrites ws n) := by
  obtain ⟨r, st, pw, rows, h⟩ := s.rowWrites_frame ws n
  rw [h]
  exact ⟨rfl, rfl, fun _ => id, fun _ _ => id, rfl, rfl, rfl, rfl, rfl, rfl⟩

theorem flushRows (s : State) : s.Boots s.flushRows := by
  obtain ⟨r, st, pw, rows, h⟩ := s.flushRows_frame
  rw [h]
  exact ⟨rfl, rfl, fun _ => id, fun _ _ => id, rfl, rfl, rfl, rfl, rfl, rfl⟩

theorem fire {s u : State} (h : s.Boots u) (n : Nat) (fs : List Tok) : s.Boots (u.fire n fs) := h.trans (aside (.fire u n fs))

theorem reported (s : State) (x : BitVec 8) (st : StoreSt) :
    s.Boots { s with sys := { s.sys with alert := s.sys.alert ||| x }, store := st } :=
  ⟨rfl, rfl, fun i hi => by rw [BitVec.getLsbD_or, hi, Bool.true_or], fun _ _ => id, rfl, rfl, rfl, rfl, rfl, rfl⟩

theorem reportRepair (s : State) (x : Region × Nat) : s.Boots (s.reportRepair x) := by
  unfold State.reportRepair
  refine fire ?_ _ _
  exact reported s _ _

theorem reportFail (s : State) (x : Region × Nat) : s.Boots (s.reportFail x) := by
  unfold State.reportFail
  refine fire ?_ _ _
  exact reported s _ _

theorem condOn (s : State) (n : Nat) (fs : List Tok) : s.Boots (s.condOn n fs) := by
  obtain ⟨c, hc, h⟩ := s.condOn_aside n fs
  have hset : s.Boots { s with events := { s.events with cond := c } } :=
    ⟨rfl, rfl, fun _ => id, fun i _ hi => hc i hi, rfl, rfl, rfl, rfl, rfl, rfl⟩
  exact hset.trans (aside h)

/-- The condition of the pool is the only one that work of bring-up ends. -/
theorem condOff_pool (s : State) : s.Boots (s.condOff 55) := by
  refine ⟨rfl, rfl, fun _ => id, fun i hi hc => ?_, rfl, rfl, rfl, rfl, rfl, rfl⟩
  exact (getLsbD_andNot_bit _ hi).trans hc

theorem poolCheck (s : State) : s.Boots s.poolCheck := .ite (.condOn _ _ _) (.condOff_pool _)

theorem loadLatch (s : State) : s.Boots s.loadLatch := .ite (.refl _) (.condOn _ _ _)

theorem archRecover (s : State) : s.Boots s.archRecover := by
  unfold State.archRecover
  split
  · exact refl s
  · refine .ite (trans (t := { s with store := _ }) ?_ (.rowWrite _ _)) (refl s)
    exact ⟨rfl, rfl, fun _ => id, fun _ _ => id, rfl, rfl, rfl, rfl, rfl, rfl⟩

theorem push (s : State) (p : Port) (l : OutLine) : s.Boots (s.push p l) := aside (.push s p l)

theorem sendBoot (s : State) : s.Boots s.sendBoot := by
  unfold State.sendBoot
  extract_lets l d s1 s2
  have h1 : s.Boots s1 := ⟨rfl, rfl, fun _ => id, fun _ _ => id, rfl, rfl, rfl, rfl, rfl, rfl⟩
  have h2 : s1.Boots (if s.has .chute then s2.push .chute l else s2) := .ite ((push _ _ _).trans (push _ _ _)) (push _ _ _)
  exact h1.trans (h2.trans ⟨rfl, rfl, fun _ => id, fun _ _ => id, rfl, rfl, rfl, rfl, rfl, rfl⟩)

theorem loadKeys (s : State) : s.Boots s.loadKeys := by
  have one (s : State) (k : Nat) : s.Boots (s.loadKey k) := by
    unfold State.loadKey
    dsimp only
    split
    · exact ⟨rfl, rfl, fun _ => id, fun _ _ => id, rfl, rfl, rfl, rfl, rfl, rfl⟩
    · exact ite (refl s) (reportFail _ _)
  exact ite (fold one _ _) (refl s)

end State.Boots

/-- A condition other than that of the budget is kept by the operations of the link. -/
theorem State.Onward.condBit {s t : State} (h : s.Onward t) {n : Nat} (hn : n ≠ 65) (k : s.events.cond.getLsbD n = true) :
    t.events.cond.getLsbD n = true := by
  have hmask : t.events.cond &&& ~~~((1 : BitVec 128) <<< 65) = s.events.cond &&& ~~~((1 : BitVec 128) <<< 65) :=
    (congrArg (fun u : State => u.events.cond) h.lasts : t.lasting.events.cond = s.lasting.events.cond)
  rw [← getLsbD_andNot_bit _ hn, hmask, getLsbD_andNot_bit _ hn, k]

/-! #### POWER and RECORD -/

theorem powerStage_ends {s : State} (h : s.inStage .power = true) (temp : Int) (keeper ticks : Nat) :
    Leads (.powerStageEnd temp keeper ticks) s (fun t =>
      t.sys.stage = .record ∧ t.sys.oscOn = true ∧ t.day.keeper = keeper % 2 ^ 48 ∧ t.day.temp = temp ∧
      (s.sys.continuous = false → t.day.now = s.day.now) ∧ t.record = s.record ∧ t.store = s.store) := by
  refine ⟨_, (if_pos h : execPowerStageEnd temp keeper ticks s = _), rfl, rfl, rfl, rfl, fun hc => ?_, ?_, ?_⟩
  · dsimp only
    rw [hc]
    rfl
  · by_cases hc : s.sys.continuous = true
    · rw [if_pos hc]; rfl
    · rw [if_neg hc]; rfl
  · by_cases hc : s.sys.continuous = true
    · rw [if_pos hc]; rfl
    · rw [if_neg hc]; rfl

/-- The configuration that the Record gives, or that of a first boot. -/
def State.configured (s : State) : State := if s.blank then s.firstBoot else s.loadRecord

/-- What else the Record keeps. -/
def State.recollected (s : State) : State := s.countBoot.loadDay.loadLink.archRecover

/-- The settings that come into force with the configuration. -/
def State.settingsTaken (s : State) : State :=
  { s with pwr := { s.pwr with powered := BitVec.ofNat 8 (fld s.cfg.sys.dorm 15 8) }
           census := { s.census with hop := s.hopOn, allow := s.cfg.census.allow } }

/-- The condition of a keeper that does not run. -/
def State.keeperTold (s : State) : State := if s.day.keeperOk then s else s.condOn 20 []

theorem execBringupRecord_eq {s : State} (h : s.inStage .record = true) (found : RecordFindings) :
    exec (.bringupRecord found) s = .next
      ((s.damaged found).takeUp.configured.recollected.settingsTaken.poolCheck.keeperTold.loadLatch.flushRows.toStage .trim) :=
  (if_pos h : execBringupRecord found s = _)

/-- From the loaded settings on, the stage leaves what bring-up leaves. -/
theorem State.Boots.told (s : State) : s.Boots s.settingsTaken.poolCheck.keeperTold.loadLatch.flushRows := by
  have h1 : s.Boots s.settingsTaken := ⟨rfl, rfl, fun _ => id, fun _ _ => id, rfl, rfl, rfl, rfl, rfl, rfl⟩
  have h2 : s.settingsTaken.poolCheck.Boots s.settingsTaken.poolCheck.keeperTold := .ite (.refl _) (.condOn _ _ _)
  exact ((((h1.trans (.poolCheck _)).trans h2).trans (.loadLatch _)).trans (.flushRows _))

theorem State.firstBoot_boots (s : State) : ∃ u : State, u.Boots s.firstBoot ∧ u.part = s.part ∧
    u.sys.bootCount = s.sys.bootCount ∧ u.cfg = s.newCfg ∧ u.sys.alert.getLsbD 3 = true ∧ u.vault.sealed = false ∧
    u.vault.eraseMask = 0 := by
  unfold State.firstBoot
  extract_lets s1
  refine ⟨_, (State.Boots.sendBoot _).trans (.rowWrites _ _ _), rfl, rfl, rfl, ?_, rfl, rfl⟩
  show (s.sys.alert ||| 8).getLsbD 3 = true
  rw [BitVec.getLsbD_or]
  simp

theorem State.checkRows_frame (s : State) : ∃ c, s.checkRows.1 = { s with cfg := c } := by
  have row (rs : List CfgReg) (new : Cfg) (a : State × Bool) : ∃ c, (rs.foldl (fun acc x =>
      if acc.1.badReg x then (acc.1.cfgSet x (new.get x), true) else acc) a).1 = { a.1 with cfg := c } := by
    induction rs generalizing a with
    | nil => exact ⟨_, rfl⟩
    | cons x xs ih =>
      rw [List.foldl_cons]
      split
      · obtain ⟨c, hc⟩ := ih (a.1.cfgSet x (new.get x), true)
        exact ⟨c, hc⟩
      · exact ih a
  have rows (l : List Nat) (a : State × List Nat) : ∃ c, (l.foldl (fun acc i =>
      let r := acc.1.checkRow (twinRegs i)
      (r.1, if r.2 then acc.2 ++ [i] else acc.2)) a).1 = { a.1 with cfg := c } := by
    induction l generalizing a with
    | nil => exact ⟨_, rfl⟩
    | cons i l ih =>
      rw [List.foldl_cons]
      obtain ⟨c, hc⟩ := row (twinRegs i) a.1.newCfg (a.1, false)
      obtain ⟨c', hc'⟩ := ih ((a.1.checkRow (twinRegs i)).1,
        if (a.1.checkRow (twinRegs i)).2 then a.2 ++ [i] else a.2)
      exact ⟨c', hc'.trans (congrArg (fun u : State => { u with cfg := c' }) hc)⟩
  exact rows _ _

theorem State.loadRecord_boots (s : State) : ∃ u : State, u.Boots s.loadRecord ∧ u.part = s.part ∧
    u.sys.bootCount = s.sys.bootCount := by
  unfold State.loadRecord
  extract_lets c mend bad s1 s2
  obtain ⟨g, hg⟩ := State.checkRows_frame { s with cfg := s.stored }.loadDrift
  have h1 : c.1.Boots s1 := (State.Boots.sendBoot _).trans (.fold .reportRepair _ _)
  have h2 : s1.Boots s2 := .fold .reportFail _ _
  exact ⟨c.1, (h1.trans h2).trans (.rowWrites _ _ _), by rw [show c.1 = _ from hg]; rfl, by rw [show c.1 = _ from hg]; rfl⟩

theorem State.configured_keeps (s : State) :
    s.configured.part = s.part ∧ s.configured.sys.bootCount = s.sys.bootCount := by
  unfold State.configured
  split
  · obtain ⟨u, hu, hp, hb, -⟩ := s.firstBoot_boots
    exact ⟨hu.part.trans hp, hu.boots.trans hb⟩
  · obtain ⟨u, hu, hp, hb⟩ := s.loadRecord_boots
    exact ⟨hu.part.trans hp, hu.boots.trans hb⟩

/-- The bring-up counted, before its count is written. -/
def State.bootCounted (s : State) : State :=
  { s with
    sys := { s.sys with bootCount := s.sys.bootCount.inc }
    pwr := { s.pwr with
      borRun := s.pwr.borRun.incIf (decide (s.sys.cause = Cause.borRun))
      borDormant := s.pwr.borDormant.incIf s.pwr.borDormantLatch
      borDormantLatch := false
      wakeLate := s.pwr.wakeLate.incIf (decide (s.sys.cause = Cause.wakeLate)) } }

theorem State.countBoot_boots (s : State) : s.bootCounted.Boots s.countBoot := .rowWrite _ _

theorem State.loadDay_frame (s : State) : ∃ d, s.loadDay = { s with day := d } := by
  unfold State.loadDay
  split <;> exact ⟨_, rfl⟩

/-- Without the End role the link's load leaves the settings. -/
theorem State.loadLink_frame (s : State) :
    ∃ c l, s.loadLink = { s with cfg := c, link := l } ∧ (s.isEnd = false → c = s.cfg) := by
  unfold State.loadLink
  split
  · rename_i he _
    exact ⟨_, _, rfl, fun h => absurd (h.symm.trans he) Bool.false_ne_true⟩
  · exact ⟨_, _, rfl, fun _ => rfl⟩

theorem State.recollected_keeps (s : State) : s.recollected.part = s.part ∧
    s.recollected.sys.bootCount = s.sys.bootCount.inc ∧ (s.isEnd = false → s.recollected.cfg = s.cfg) ∧
    (s.sys.alert.getLsbD 3 = true → s.recollected.sys.alert.getLsbD 3 = true) ∧
    s.recollected.vault.sealed = s.vault.sealed ∧ s.recollected.vault.eraseMask = s.vault.eraseMask := by
  have h1 := s.countBoot_boots
  obtain ⟨d, h2⟩ := s.countBoot.loadDay_frame
  obtain ⟨c, l, h3, hc⟩ := s.countBoot.loadDay.loadLink_frame
  have h4 : s.countBoot.loadDay.loadLink.Boots s.recollected := .archRecover _
  have hcfg : s.countBoot.loadDay.cfg = s.cfg := by rw [h2]; exact h1.cfg
  refine ⟨?_, ?_, fun he => ?_, fun ha => h4.alert 3 ?_, ?_, ?_⟩
  · rw [h4.part, h3, h2]; exact h1.part
  · rw [h4.boots, h3, h2]; exact h1.boots
  · rw [h4.cfg, h3]
    refine (hc ?_).trans hcfg
    unfold State.isEnd State.role at he ⊢
    rw [hcfg]
    exact he
  · rw [h3, h2]; exact h1.alert 3 ha
  · rw [h4.seals.1, h3, h2]; exact h1.seals.1
  · rw [h4.seals.2, h3, h2]; exact h1.seals.2

theorem State.damage_part (s : State) (second : Bool) (x : Region × Nat) : (s.damage second x).part = s.part := by
  obtain ⟨r, k⟩ := x
  cases r <;> unfold State.damage <;> dsimp only <;> (repeat' split) <;> rfl

theorem State.damaged_part (s : State) (found : RecordFindings) : (s.damaged found).part = s.part := by
  have fold (b : Bool) (l : List (Region × Nat)) (s : State) : (l.foldl (fun s x => s.damage b x) s).part = s.part := by
    induction l generalizing s with
    | nil => rfl
    | cons x l ih => exact (ih _).trans (s.damage_part b x)
  exact (fold _ _ _).trans (fold _ _ _)

theorem bringupRecord_ends {s : State} (h : s.inStage .record = true) (found : RecordFindings) :
    Leads (.bringupRecord found) s (fun t =>
      t.sys.stage = .trim ∧ t.sys.bootCount = (countersOf ((s.damaged found).twinData 2)).boots.inc ∧
      (t.day.keeperOk = false → s.eventPresent 20 = true → t.events.cond.getLsbD 20 = true)) := by
  obtain ⟨hcp, hcb⟩ := (s.damaged found).takeUp.configured_keeps
  obtain ⟨hrp, hrb, -⟩ := (s.damaged found).takeUp.configured.recollected_keeps
  have htold := State.Boots.told (s.damaged found).takeUp.configured.recollected
  refine ⟨_, execBringupRecord_eq h found, rfl, ?_, fun hk hp => ?_⟩
  · exact htold.boots.trans (hrb.trans (congrArg Counter.inc hcb))
  · have hpart := htold.part.trans (hrp.trans (hcp.trans (s.damaged_part found)))
    revert hk hpart
    generalize (s.damaged found).takeUp.configured.recollected.settingsTaken.poolCheck = u
    have hlast : u.keeperTold.Boots u.keeperTold.loadLatch.flushRows := (State.Boots.loadLatch _).trans (.flushRows _)
    intro hk hpart
    have htold : u.Boots u.keeperTold := .ite (.refl _) (.condOn _ _ _)
    have hu : u.day.keeperOk = false := by rw [← htold.day, ← hlast.day]; exact hk
    have hupart : u.part = s.part := (htold.trans hlast).part.symm.trans hpart
    refine hlast.cond 20 (by decide) ?_
    rw [show u.keeperTold = u.condOn 20 [] from if_neg (by rw [hu]; exact Bool.false_ne_true)]
    exact State.condOn_cond (by rw [State.eventPresent_of_part hupart]; exact hp)

theorem bringupRecord_first {s : State} (h : s.inStage .record = true) (hb : s.blank = true) :
    Leads (.bringupRecord ⟨[], []⟩) s (fun t =>
      t.sys.stage = .trim ∧ t.cfg = s.newCfg ∧ t.sys.alert.getLsbD 3 = true ∧ t.vault.sealed = false ∧
      t.vault.eraseMask = 0) := by
  have hd : s.damaged ⟨[], []⟩ = s := rfl
  have hconf : s.takeUp.configured = s.takeUp.firstBoot := if_pos hb
  obtain ⟨u, hu, -, -, hcfg, halert, hseal, hmask⟩ := s.takeUp.firstBoot_boots
  obtain ⟨-, -, hrc, hra, hrs, hrm⟩ := s.takeUp.configured.recollected_keeps
  have htold := State.Boots.told s.takeUp.configured.recollected
  have hc : s.takeUp.configured.cfg = s.newCfg := by rw [hconf, hu.cfg]; exact hcfg
  refine ⟨_, execBringupRecord_eq h _, rfl, ?_, ?_, ?_, ?_⟩
  · rw [hd]
    refine htold.cfg.trans ((hrc ?_).trans hc)
    unfold State.isEnd State.role
    rw [hc]
    show decide (fld ({} : LinkCfg).config 17 16 = 1) = false
    decide
  · rw [hd]
    exact htold.alert 3 (hra (by rw [hconf]; exact hu.alert 3 halert))
  · rw [hd]
    refine htold.seals.1.trans (hrs.trans ?_)
    rw [hconf, hu.seals.1, hseal]
  · rw [hd]
    refine htold.seals.2.trans (hrm.trans ?_)
    rw [hconf, hu.seals.2, hmask]

/-! #### TRIM and LEDGER -/

theorem bringupTrim_ends {s : State} (h : s.inStage .trim = true) :
    Leads .bringupTrim s (fun t =>
      t.sys.stage = .ledger ∧ t = State.bump
        { s with trim := { s.trim with sel := trimOf (s.twinData 17) }, sys := { s.sys with stage := .ledger } } .sys) :=
  ⟨_, (if_pos h : execBringupTrim s = _), rfl, rfl⟩

theorem State.flushRows_ledger (s : State) : s.flushRows.ledger = s.ledger := by
  obtain ⟨r, st, pw, rows, h⟩ := s.flushRows_frame
  rw [h]

theorem bringupLedger_first {s : State} (h : s.inStage .ledger = true) (ha : s.sys.alert.getLsbD 3 = true) :
    Leads .bringupLedger s (fun t =>
      t.sys.stage = .vault ∧ vget t.ledger.tariffs 0 none = some ⟨100, 3600⟩ ∧ t.ledger.active = 0 ∧
      t.ledger.isOpen = true ∧ t.ledger.spent = 0 ∧ t.ledger.recovered = false) := by
  have hrun : execBringupLedger s = .next (s.ledgerFirst.flushRows.toStage .vault) := by
    unfold execBringupLedger
    rw [if_pos h, if_pos ha]
  refine ⟨_, hrun, rfl, ?_⟩
  show vget s.ledgerFirst.flushRows.ledger.tariffs 0 none = _ ∧ s.ledgerFirst.flushRows.ledger.active = _ ∧
    s.ledgerFirst.flushRows.ledger.isOpen = _ ∧ s.ledgerFirst.flushRows.ledger.spent = _ ∧
    s.ledgerFirst.flushRows.ledger.recovered = _
  rw [State.flushRows_ledger]
  unfold State.ledgerFirst
  extract_lets q s1
  obtain ⟨a, hbook⟩ := s1.openInterval_book 0
  exact ⟨(congrArg (vget · 0 none) (LedgerSt.of_book LedgerSt.tariffs hbook)).trans rfl,
    LedgerSt.of_book LedgerSt.active hbook, LedgerSt.of_book LedgerSt.isOpen hbook,
    LedgerSt.of_book LedgerSt.spent hbook, LedgerSt.of_book LedgerSt.recovered hbook⟩

theorem State.openInterval_isOpen (s : State) (spent : Nat) (recovered : Bool) :
    (s.openInterval spent recovered).ledger.isOpen = true := by
  unfold State.openInterval
  extract_lets len s1 q s2
  rw [State.fire_ledger]
  exact LedgerSt.of_book LedgerSt.isOpen (s2.journal_book .open)

theorem State.condOn_ledger (s : State) (n : Nat) (fs : List Tok) : (s.condOn n fs).ledger = s.ledger := by
  obtain ⟨c, -, h⟩ := s.condOn_aside n fs
  exact h.ledger

/-- Whatever the journal holds, an interval is open afterwards. -/
theorem State.ledgerRecover_isOpen (s : State) (cont : Bool) : (s.ledgerRecover cont).ledger.isOpen = true := by
  unfold State.ledgerRecover
  split
  · extract_lets s1
    rw [State.condOn_ledger]
    exact State.openInterval_isOpen _ _ _
  · extract_lets p s1 len full q a b s2 s3 l s4
    show s4.ledger.isOpen = true
    by_cases h3 : s3.ledger.isOpen = true
    · rw [show s4 = s3 from if_pos h3]
      exact h3
    · refine (congrArg (fun u : State => u.ledger.isOpen) (if_neg h3 : s4 = _)).trans ?_
      split
      · rw [State.condOn_ledger]
        exact State.openInterval_isOpen _ _ _
      · exact State.openInterval_isOpen _ _ _

theorem bringupLedger_later {s : State} (h : s.inStage .ledger = true) (ha : s.sys.alert.getLsbD 3 = false) :
    Leads .bringupLedger s (fun t => t.sys.stage = .vault ∧ t.ledger.isOpen = true) := by
  have hrun : execBringupLedger s =
      .next ((s.journalAt.reportJournal.ledgerRecover s.sys.continuous).flushRows.toStage .vault) := by
    unfold execBringupLedger
    rw [if_pos h, if_neg (by rw [ha]; exact Bool.false_ne_true)]
  refine ⟨_, hrun, rfl, ?_⟩
  exact (congrArg LedgerSt.isOpen (State.flushRows_ledger _)).trans (State.ledgerRecover_isOpen _ _)

/-! #### VAULT -/

theorem State.tamperEntry_loud (s : State) (r : TamperResp) :
    (s.tamperEntry r).noise = s.noise ∧ (s.tamperEntry r).events.cond = s.events.cond := by
  rw [State.tamperEntry_eq]
  have h := State.Aside.firesLost (s.logged r) (vget s.tamper.log (s.tamper.nextSeq % 32) none).isSome s.tamper.nextSeq
  revert h
  generalize State.firesLost _ _ _ = y
  intro h
  obtain ⟨rc, st, pw, rows, hrow⟩ := y.rowWrite_frame
    { what := .tamperLog (s.tamper.nextSeq % 32) (r.entry s.tamper.nextSeq).octets }
  rw [hrow]
  exact ⟨h.noise, h.cond⟩

/-- The response that begins leaves the source and the conditions. -/
theorem State.tamperRespond_loud (s : State) :
    s.tamperRespond.noise = s.noise ∧ s.tamperRespond.events.cond = s.events.cond := by
  unfold State.tamperRespond
  split
  · extract_lets ks r q s1 s2
    split
    · exact s1.tamperEntry_loud r
    · have h : s2.noise = s.noise ∧ s2.events.cond = s.events.cond := by
        by_cases he : ks.isEmpty = true
        · rw [show s2 = s1 from if_pos he]
          exact ⟨rfl, rfl⟩
        · obtain ⟨rc, st, pw, rows, hrow⟩ := State.rowWrites_frame ((s1.eraseSlots ks).bump .vault)
            (ks.map (fun k => .key k none)) none
          rw [show s2 = _ from (if_neg he).trans hrow]
          exact ⟨rfl, rfl⟩
      exact h
  · exact ⟨rfl, rfl⟩

theorem State.tamperRespond_none {s : State} (ho : s.tamper.owed = none) : s.tamperRespond = s := by
  unfold State.tamperRespond
  rw [ho]

/-- A response that ends with no other owed leaves none, nor does it touch the source or the conditions. -/
theorem State.finish_finishes {s : State} {r : TamperResp} (hr : s.tamper.resp = some r) (ho : s.tamper.owed = none) :
    let t := s.tamperFinish
    t.tamper.owed = none ∧ t.tamper.resp = none ∧ t.noise = s.noise ∧ t.events.cond = s.events.cond := by
  dsimp only
  obtain ⟨y, hy, hyt, hyn, hyc⟩ : ∃ y : State, s.tamperFinish = (y.tamperEntry r).tamperRespond ∧
      y.tamper = { s.tamper with resp := none } ∧ y.noise = s.noise ∧ y.events.cond = s.events.cond := by
    unfold State.tamperFinish
    rw [hr]
    dsimp only
    refine ⟨_, rfl, ?_⟩
    split
    · exact ⟨rfl, rfl, rfl⟩
    · generalize hx : ({ s with tamper := _, vault := _ } : State) = x
      have h := State.Aside.fire x 83 [.kv "slots" (.hex 2 r.erased.toNat)]
      rw [h.tamper, h.noise, h.cond]
      subst hx
      exact ⟨rfl, rfl, rfl⟩
  obtain ⟨h1, -⟩ := y.tamperEntry_enters r
  obtain ⟨h2, h3⟩ := y.tamperEntry_loud r
  have howed : (y.tamperEntry r).tamper.owed = none := by rw [h1, hyt]; exact ho
  rw [hy, State.tamperRespond_none howed]
  exact ⟨howed, by rw [h1, hyt], h2.trans hyn, h3.trans hyc⟩

/-- The response that is owed at the end of the stage ends with it, and leaves the source and the conditions. -/
theorem State.respond_finishes {s : State} (hr : s.tamper.resp = none) :
    let t := s.tamperRespond.tamperFinish
    t.tamper.owed = none ∧ t.tamper.resp = none ∧ t.noise = s.noise ∧ t.events.cond = s.events.cond := by
  dsimp only
  obtain ⟨hn, hc⟩ := s.tamperRespond_loud
  have alone {u : State} (h : u.tamper.resp = none) : u.tamperFinish = u := by
    unfold State.tamperFinish
    rw [h]
  cases ho : s.tamper.owed with
  | none =>
    rw [State.tamperRespond_none ho, alone hr]
    exact ⟨ho, hr, rfl, rfl⟩
  | some x =>
    by_cases hv : s.has .vault = true
    · obtain ⟨ht, -⟩ := State.tamperRespond_erases ho hr hv
      have howed : s.tamperRespond.tamper.owed = none := by rw [ht]
      have hresp : s.tamperRespond.tamper.resp = some
          { what := x, at_ := s.now, erased := BitVec.ofNat 8 (maskOf (s.eraseList x)) } := by rw [ht]
      obtain ⟨f1, f2, f3, f4⟩ := State.finish_finishes hresp howed
      exact ⟨f1, f2, f3.trans hn, f4.trans hc⟩
    · have hno : s.has .vault = false := by simpa using hv
      have hent := State.tamperRespond_enters ho hr hno
      obtain ⟨ht, -⟩ := State.tamperEntry_enters { s with tamper := { s.tamper with owed := none } }
        { what := x, at_ := s.now, erased := 0 }
      have howed : s.tamperRespond.tamper.owed = none := by rw [hent, ht]
      have hresp : s.tamperRespond.tamper.resp = none := by rw [hent, ht]; exact hr
      rw [alone hresp]
      exact ⟨howed, hresp, hn, hc⟩

theorem State.makeKek_keeps (s : State) : s.makeKek.noise.st = s.noise.st ∧
    (s.noise.drbg.isSome = true → s.makeKek.noise.drbg.isSome = true) ∧ s.makeKek.tamper = s.tamper := by
  have hgen : (s.generate 16).2.noise.st = s.noise.st ∧
      (s.noise.drbg.isSome = true → (s.generate 16).2.noise.drbg.isSome = true) ∧ (s.generate 16).2.tamper = s.tamper := by
    unfold State.generate
    split
    · exact ⟨rfl, id, rfl⟩
    · exact ⟨rfl, fun _ => rfl, rfl⟩
  unfold State.makeKek
  split
  · exact ⟨rfl, id, rfl⟩
  · extract_lets r p q s1
    obtain ⟨rc, st, pw, rows, hrow⟩ := s1.rowWrite_frame { what := s1.keyRow 0 }
    rw [hrow]
    exact hgen

/-- A failed source has no generator, its condition is true, and the tamper input is as it was. -/
theorem State.noiseFail_leaves (s : State) (test : Nat) : (s.noiseFail test).noise.st = .failed ∧
    (s.noiseFail test).noise.failTest = test ∧ (s.noiseFail test).noise.drbg = none ∧
    (s.eventPresent 80 = true → (s.noiseFail test).events.cond.getLsbD 80 = true) ∧
    (s.noiseFail test).tamper = s.tamper := by
  unfold State.noiseFail
  extract_lets q s1
  have hto : (s1.noiseTo .failed).noise.st = .failed ∧ (s1.noiseTo .failed).noise.failTest = test ∧
      (s1.noiseTo .failed).noise.drbg = none ∧ (s1.noiseTo .failed).tamper = s.tamper ∧ (s1.noiseTo .failed).part = s.part := by
    unfold State.noiseTo
    split
    · rename_i h
      exact ⟨h, rfl, rfl, rfl, rfl⟩
    · exact ⟨rfl, rfl, rfl, rfl, rfl⟩
  revert hto
  generalize s1.noiseTo .failed = u
  intro hto
  obtain ⟨t1, t2, t3, t4, t5⟩ := hto
  have hcond := State.Boots.condOn u 80 [kw "test" (testName test)]
  have hbit : u.eventPresent 80 = true → (u.condOn 80 [kw "test" (testName test)]).events.cond.getLsbD 80 = true :=
    State.condOn_cond
  revert hcond hbit
  generalize u.condOn 80 [kw "test" (testName test)] = v
  intro hcond hbit
  have hrand := State.Boots.aside (State.Aside.failRand v "HEALTH")
  obtain ⟨hdraw, -⟩ := (v.failRand "HEALTH").failDraw_noise
  have hon := State.Onward.failDraw (v.failRand "HEALTH")
  have hnoise : ((v.failRand "HEALTH").failDraw).noise = u.noise := hdraw.trans (hrand.noise.trans hcond.noise)
  rw [hnoise]
  refine ⟨t1, t2, t3, fun hp => ?_, ?_⟩
  · exact hon.condBit (by decide) (hrand.cond 80 (by decide) (hbit (by rw [State.eventPresent_of_part t5]; exact hp)))
  · exact (congrArg State.tamper hon.lasts : _).trans (hrand.tamper.trans (hcond.tamper.trans t4))

/-- Between s and t octets have been drawn from the source. -/
structure State.Draws (s t : State) : Prop where
  st : t.noise.st = s.noise.st
  part : t.part = s.part
  tamper : t.tamper = s.tamper

theorem State.Draws.trans {s t u : State} (h : s.Draws t) (k : t.Draws u) : s.Draws u :=
  ⟨k.st.trans h.st, k.part.trans h.part, k.tamper.trans h.tamper⟩

theorem State.Draws.rawSeen (s : State) (n : Nat) : s.Draws (s.rawSeen n) := ⟨rfl, rfl, rfl⟩

theorem State.Draws.startupBits (s : State) : s.Draws s.startupBits := ⟨rfl, rfl, rfl⟩

theorem State.Draws.refillPool (s : State) : s.Draws s.refillPool := ⟨rfl, rfl, rfl⟩

theorem State.Draws.seedNext (s : State) : s.Draws s.seedNext.2 := by
  have h : s.seedNext.2 = State.rawSeen { s with drawn := s.drawn + 4 } 512 := by
    unfold State.seedNext State.draw
    rfl
  rw [h]
  exact ⟨rfl, rfl, rfl⟩

theorem State.Draws.rawFailed (s : State) (n : Nat) (apt : Bool) : s.Draws (s.rawFailed n apt) := by
  have h := State.Draws.rawSeen s n
  unfold State.rawFailed
  revert h
  generalize s.rawSeen n = u
  intro h
  cases apt
  · exact h.trans ⟨rfl, rfl, rfl⟩
  · exact h.trans ⟨rfl, rfl, rfl⟩

/-- The start-up test that has passed leaves the source ready and, in a variant with the Vault, a generator. -/
theorem State.noiseUp_readies (s : State) : s.noiseUp.noise.st = .ready ∧
    (s.has .vault = true → s.noiseUp.noise.drbg.isSome = true) ∧ s.noiseUp.tamper = s.tamper := by
  have hto : (s.startupBits.noiseTo .ready).noise.st = .ready ∧ (s.startupBits.noiseTo .ready).tamper = s.tamper ∧
      (s.startupBits.noiseTo .ready).part = s.part := by
    unfold State.noiseTo
    split
    · rename_i h
      exact ⟨h, (State.Draws.startupBits s).tamper, (State.Draws.startupBits s).part⟩
    · exact ⟨rfl, rfl, rfl⟩
  unfold State.noiseUp
  revert hto
  generalize s.startupBits.noiseTo .ready = v
  intro hto
  obtain ⟨hst, htamper, hpart⟩ := hto
  have hfill := State.Draws.refillPool v
  have hhas : v.refillPool.has .vault = s.has .vault := by unfold State.has; rw [hfill.part, hpart]
  revert hfill hhas
  generalize v.refillPool = u
  intro hfill hhas
  dsimp only
  have hseeds := (hfill.trans (.seedNext u)).trans (.seedNext u.seedNext.2)
  revert hseeds
  generalize u.seedNext.2.seedNext.2 = x
  intro hseeds
  by_cases hv : s.has .vault = true
  · rw [hv, if_neg (by decide)]
    generalize hy : ({ x with noise := _ } : State) = y
    obtain ⟨k1, k2, k3⟩ := y.makeKek_keeps
    subst hy
    exact ⟨k1.trans (hseeds.st.trans hst), fun _ => k2 rfl, k3.trans (hseeds.tamper.trans htamper)⟩
  · rw [Bool.not_eq_true] at hv
    rw [hv, if_pos (by decide)]
    exact ⟨hfill.st.trans hst, fun h => absurd h (by decide), hfill.tamper.trans htamper⟩

theorem State.execBringupVault_eq {s : State} (h : s.inStage .vault = true) (b : Bool) : exec (.bringupVault b) s =
    .next ((if b then s.loadKeys.noiseUp else
      (s.loadKeys.draw.2.rawFailed 1024 (s.loadKeys.draw.1.getLsbD 0)).noiseFail 3).tamperRespond.tamperFinish.flushRows.toStage
        .orders) :=
  (if_pos h : execBringupVault b s = _)

theorem State.flushRows_loud (s : State) : s.flushRows.noise = s.noise ∧ s.flushRows.tamper = s.tamper ∧
    s.flushRows.events.cond = s.events.cond := by
  obtain ⟨r, st, pw, rows, h⟩ := s.flushRows_frame
  rw [h]
  exact ⟨rfl, rfl, rfl⟩

theorem bringupVault_passes {s : State} (h : s.inStage .vault = true) (hr : s.tamper.resp = none) :
    Leads (.bringupVault true) s (fun t =>
      t.sys.stage = .orders ∧ t.noise.st = .ready ∧ (s.has .vault = true → t.noise.drbg.isSome = true) ∧
      t.tamper.owed = none ∧ t.tamper.resp = none) := by
  have hkeys := State.Boots.loadKeys s
  have hhas : s.loadKeys.has .vault = s.has .vault := by unfold State.has; rw [hkeys.part]
  obtain ⟨u1, u2, u3⟩ := s.loadKeys.noiseUp_readies
  obtain ⟨r1, r2, r3, -⟩ := State.respond_finishes (s := s.loadKeys.noiseUp) (by rw [u3, hkeys.tamper]; exact hr)
  obtain ⟨f1, f2, -⟩ := s.loadKeys.noiseUp.tamperRespond.tamperFinish.flushRows_loud
  have hnoise := f1.trans r3
  refine ⟨_, State.execBringupVault_eq h true, rfl, ?_, fun hv => ?_, ?_, ?_⟩
  · exact (congrArg NoiseSt.st hnoise).trans u1
  · exact (congrArg (fun n : NoiseSt => n.drbg.isSome) hnoise).trans (u2 (hhas.trans hv))
  · exact (congrArg TamperSt.owed f2).trans r1
  · exact (congrArg TamperSt.resp f2).trans r2

theorem bringupVault_fails {s : State} (h : s.inStage .vault = true) (hr : s.tamper.resp = none) :
    Leads (.bringupVault false) s (fun t =>
      t.sys.stage = .orders ∧ t.noise.st = .failed ∧ t.noise.failTest = 3 ∧ t.noise.drbg = none ∧
      (s.eventPresent 80 = true → t.events.cond.getLsbD 80 = true) ∧ t.tamper.owed = none ∧ t.tamper.resp = none) := by
  have hkeys := State.Boots.loadKeys s
  generalize hu : s.loadKeys.draw.2.rawFailed 1024 (s.loadKeys.draw.1.getLsbD 0) = u
  have hdraw : s.loadKeys.Draws s.loadKeys.draw.2 := ⟨rfl, rfl, rfl⟩
  have hraw := hdraw.trans (.rawFailed _ 1024 (s.loadKeys.draw.1.getLsbD 0))
  rw [hu] at hraw
  have hpart : u.part = s.part := hraw.part.trans hkeys.part
  have htamper : u.tamper = s.tamper := hraw.tamper.trans hkeys.tamper
  obtain ⟨u1, u2, u3, u4, u5⟩ := u.noiseFail_leaves 3
  obtain ⟨r1, r2, r3, r4⟩ := State.respond_finishes (s := u.noiseFail 3) (by rw [u5, htamper]; exact hr)
  obtain ⟨f1, f2, f3⟩ := (u.noiseFail 3).tamperRespond.tamperFinish.flushRows_loud
  have hnoise := f1.trans r3
  have hexec := State.execBringupVault_eq h false
  rw [hu] at hexec
  refine ⟨_, hexec, rfl, ?_, ?_, ?_, fun hp => ?_, ?_, ?_⟩
  · exact (congrArg NoiseSt.st hnoise).trans u1
  · exact (congrArg NoiseSt.failTest hnoise).trans u2
  · exact (congrArg NoiseSt.drbg hnoise).trans u3
  · exact (congrArg (BitVec.getLsbD · 80) (f3.trans r4)).trans (u4 (by rw [State.eventPresent_of_part hpart]; exact hp))
  · exact (congrArg TamperSt.owed f2).trans r1
  · exact (congrArg TamperSt.resp f2).trans r2

/-! #### ORDERS and READY -/

theorem State.ordersOn_none {s : State} (h : s.sys.stage ≠ .ready) (n : Nat) : s.ordersOn n = [] := if_neg h

/-- Before READY events start no orders. -/
theorem State.fire_orders {s : State} (h : s.sys.stage ≠ .ready) (n : Nat) (fs : List Tok) :
    (s.fire n fs).orders = s.orders := by
  have hcore : (s.fireCore n fs).sys.stage ≠ .ready := by
    have hst : (s.fireCore n fs).sys.stage = s.sys.stage :=
      (congrArg (fun u : State => u.sys.stage) (s.fireCore_besideEvents n fs) :
        (s.fireCore n fs).besideEvents.sys.stage = s.besideEvents.sys.stage)
    rw [hst]
    exact h
  unfold State.fire
  split
  · split
    · rw [State.eventTriggers_of_ordersOn_nil (State.ordersOn_none hcore n)]
      exact s.fireCore_orders n fs
    · rw [State.eventTriggers_of_ordersOn_nil (State.ordersOn_none h n)]
      exact s.fireCore_orders n fs
  · rfl

theorem State.reportFails_orders {s : State} (h : s.sys.stage = .orders) (ks : List Nat) :
    (ks.foldl (fun s k => s.reportFail (.orders, k)) s).orders = s.orders ∧
    (ks.foldl (fun s k => s.reportFail (.orders, k)) s).sys.stage = .orders := by
  have one (s : State) (h : s.sys.stage = .orders) (k : Nat) :
      (s.reportFail (.orders, k)).orders = s.orders ∧ (s.reportFail (.orders, k)).sys.stage = .orders := by
    unfold State.reportFail
    refine ⟨State.fire_orders ?_ _ _, ?_⟩
    · exact fun hr => absurd (h.symm.trans hr) (by decide)
    · exact ((State.Aside.fire _ _ _).sys SysSt.stage).trans h
  induction ks generalizing s with
  | nil => exact ⟨rfl, h⟩
  | cons k ks ih =>
    obtain ⟨h1, h2⟩ := one s h k
    obtain ⟨i1, i2⟩ := ih h2
    exact ⟨i1.trans h1, i2⟩

/-- The mask of the numbers below n that satisfy p has the bits of those. -/
theorem maskOf_filter_range (p : Nat → Bool) (n : Nat) : maskOf ((List.range n).filter p) < 2 ^ n ∧
    ∀ k, (maskOf ((List.range n).filter p)).testBit k = (decide (k < n) && p k) := by
  induction n with
  | zero => exact ⟨Nat.one_pos, fun k => by simp [maskOf]⟩
  | succ n ih =>
    obtain ⟨hlt, hbit⟩ := ih
    have hsum : maskOf ((List.range (n + 1)).filter p) =
        if p n then 2 ^ n + maskOf ((List.range n).filter p) else maskOf ((List.range n).filter p) := by
      unfold maskOf
      rw [List.range_succ, List.filter_append, List.foldl_append]
      by_cases hp : p n = true
      · simp [hp, Nat.add_comm]
      · simp [hp]
    by_cases hp : p n = true
    · rw [hsum, if_pos hp]
      refine ⟨by rw [Nat.pow_succ]; omega, fun k => ?_⟩
      rcases Nat.lt_trichotomy k n with hk | rfl | hk
      · rw [Nat.testBit_two_pow_add_gt hk, hbit, decide_eq_true hk, decide_eq_true (Nat.lt_succ_of_lt hk)]
      · rw [Nat.testBit_two_pow_add_eq, hbit, decide_eq_true (Nat.lt_succ_self k), hp]
        simp
      · have hover : 2 ^ n + maskOf ((List.range n).filter p) < 2 ^ k :=
          Nat.lt_of_lt_of_le (by rw [Nat.pow_succ]; omega) (Nat.pow_le_pow_right (by decide) hk : 2 ^ (n + 1) ≤ 2 ^ k)
        rw [Nat.testBit_lt_two_pow hover, decide_eq_false (by omega)]
        rfl
    · rw [hsum, if_neg hp]
      refine ⟨Nat.lt_of_lt_of_le hlt (Nat.pow_le_pow_right (by decide) (Nat.le_succ n)), fun k => ?_⟩
      rw [hbit]
      by_cases hk : k = n
      · subst hk
        simp [hp]
      · rw [decide_eq_decide.mpr (by omega : k < n ↔ k < n + 1)]

/-- The Record with the orders that do not read back. -/
def State.ordersHit (s : State) (damaged : Word) : State :=
  { s with record := { s.record with orders := Vector.ofFn (fun k : Fin 32 =>
      if damaged.getLsbD k.val then ([0xFF], (vget s.record.orders k.val ([], [])).2)
      else vget s.record.orders k.val ([], [])) } }

/-- The orders that the Record holds, loaded. -/
def State.ordersRead (s : State) : State :=
  { s with orders := { s.orders with
    slots := Vector.ofFn (fun k : Fin 32 => s.recordOrder k.val)
    damaged := BitVec.ofNat 32 (maskOf s.badOrders), loaded := true } }

theorem State.ordersHit_order (s : State) (damaged : Word) {k : Nat} (hk : k < 32) :
    vget (s.ordersHit damaged).record.orders k ([], []) =
      if damaged.getLsbD k then ([0xFF], (vget s.record.orders k ([], [])).2) else vget s.record.orders k ([], []) := by
  simp [State.ordersHit, vget, hk]

theorem State.ordersRead_slot (s : State) {k : Nat} (hk : k < 32) :
    vget s.ordersRead.orders.slots k none = s.recordOrder k ∧ s.ordersRead.orders.damaged.getLsbD k =
      (octetAt (vget s.record.orders k ([], [])).1 0 != 0 && (s.recordOrder k).isNone) := by
  refine ⟨by simp [State.ordersRead, vget, hk], ?_⟩
  show (BitVec.ofNat 32 (maskOf s.badOrders)).getLsbD k = _
  rw [BitVec.getLsbD_ofNat, State.badOrders, (maskOf_filter_range _ 32).2, decide_eq_true hk]
  rfl

theorem bringupOrders_loads {s : State} (h : s.inStage .orders = true) (hl : s.orders.loaded = false) (damaged : Word) :
    Leads (.bringupOrders damaged) s (fun t =>
      t.sys.stage = .orders ∧ t.orders.loaded = true ∧ ∀ k, k < 32 →
        (damaged.getLsbD k = true → vget t.orders.slots k none = none ∧ t.orders.damaged.getLsbD k = true) ∧
        (damaged.getLsbD k = false → vget t.orders.slots k none = s.recordOrder k ∧
          t.orders.damaged.getLsbD k = (octetAt (vget s.record.orders k ([], [])).1 0 != 0 && (s.recordOrder k).isNone))) := by
  have hcond : (s.inStage .orders && !s.orders.loaded) = true := by rw [h, hl]; rfl
  have hrun : exec (.bringupOrders damaged) s =
      .next ((s.ordersHit damaged).badOrders.foldl (fun s k => s.reportFail (.orders, k)) (s.ordersHit damaged).ordersRead) :=
    (if_pos hcond : execBringupOrders damaged s = _)
  have hstage : (s.ordersHit damaged).ordersRead.sys.stage = .orders := by
    unfold State.inStage at h
    rw [Bool.and_eq_true] at h
    exact of_decide_eq_true h.2
  obtain ⟨ho, hst⟩ := State.reportFails_orders hstage (s.ordersHit damaged).badOrders
  refine ⟨_, hrun, hst, ?_⟩
  rw [ho]
  refine ⟨rfl, fun k hk => ?_⟩
  obtain ⟨hslot, hbit⟩ := (s.ordersHit damaged).ordersRead_slot hk
  have horder := s.ordersHit_order damaged hk
  rw [hslot, hbit]
  unfold State.recordOrder
  dsimp only
  rw [horder]
  refine ⟨fun hd => ?_, fun hd => ?_⟩
  · rw [if_pos hd]
    exact ⟨rfl, rfl⟩
  · rw [if_neg (by rw [hd]; exact Bool.false_ne_true)]
    exact ⟨rfl, rfl⟩

theorem State.push_sys (s : State) (p : Port) (l : OutLine) : (s.push p l).sys = s.sys :=
  (congrArg (fun u : State => u.sys) (s.push_besideReply p l) : (s.push p l).besideReply.sys = s.besideReply.sys)

theorem State.pushEv_sys (s : State) (p : Port) (n : Nat) (l : OutLine) : (s.pushEv p n l).sys = s.sys := by
  unfold State.pushEv
  split
  · rfl
  · split
    · exact s.push_sys p l
    · cases p <;> dsimp only <;> split <;> rfl

theorem State.attnFollow_sys (s : State) : s.attnFollow.sys = s.sys := by
  unfold State.attnFollow State.padFollow
  dsimp only
  (repeat' split) <;> rfl

/-- From READY on no event is kept for later. -/
theorem State.fire_sys {s : State} (h : s.sys.stage = .ready) (n : Nat) (fs : List Tok) : (s.fire n fs).sys = s.sys := by
  have core {u : State} (h : u.sys.stage = .ready) (n : Nat) (fs : List Tok) : (u.fireCore n fs).sys = u.sys := by
    have hb : u.booting = false := by simp [State.booting, h]
    unfold State.fireCore
    split
    · rfl
    · dsimp only
      rw [State.attnFollow_sys]
      split
      · rfl
      · rw [if_neg (by rw [show State.booting _ = u.booting from rfl, hb]; exact Bool.false_ne_true), State.pushEv_sys,
          State.pushEv_sys]
  have trig (u : State) (n : Nat) : (u.eventTriggers n).1.sys = u.sys := by
    unfold State.eventTriggers
    refine List.foldlRecOn (motive := fun a : State × List (Nat × String) => a.1.sys = u.sys) _ _ rfl
      fun a ha j _ => ?_
    refine Eq.trans ?_ ha
    show (a.1.triggerCore j none false).sys = a.1.sys
    unfold State.triggerCore
    (repeat' split) <;> rfl
  have miss {u : State} (h : u.sys.stage = .ready) (ms : List (Nat × String)) : (u.fireMissed ms).sys = u.sys := by
    unfold State.fireMissed
    split
    · rfl
    · rw [trig, core h]
  unfold State.fire
  split
  · split
    · dsimp only
      rw [miss (by rw [trig, core h]; exact h), trig, core h]
    · dsimp only
      rw [core (by rw [miss (by rw [trig]; exact h), trig]; exact h), miss (by rw [trig]; exact h), trig]
  · rfl

/-- Between s and t, work at READY has kept no event for later, and only added output. -/
structure State.Serves (s t : State) : Prop where
  ready : s.sys.stage = .ready → t.sys.stage = .ready ∧ t.sys.alertEvents = s.sys.alertEvents
  out : s.OutLe t

namespace State.Serves

theorem refl (s : State) : s.Serves s := ⟨fun h => ⟨h, rfl⟩, .refl s⟩

theorem trans {s t u : State} (h : s.Serves t) (k : t.Serves u) : s.Serves u :=
  ⟨fun hr => ⟨(k.ready (h.ready hr).1).1, (k.ready (h.ready hr).1).2.trans (h.ready hr).2⟩,
    h.out.trans k.out⟩

/-- A change of other parts of the state. -/
theorem of_set {s t : State} (hs : t.sys = s.sys) (hd : t.dport = s.dport) (hc : t.cport = s.cport) : s.Serves t :=
  ⟨fun h => ⟨by rw [hs]; exact h, by rw [hs]⟩, .of_eq hd hc⟩

theorem fire (s : State) (n : Nat) (fs : List Tok) : s.Serves (s.fire n fs) := by
  have h := State.Aside.fire s n fs
  exact ⟨fun hr => by rw [State.fire_sys hr]; exact ⟨hr, rfl⟩, h.out⟩

theorem rowWrite (s : State) (x : RowWrite) : s.Serves (s.rowWrite x) :=
  ⟨fun hr => by obtain ⟨r, st, pw, rows, h⟩ := s.rowWrite_frame x; rw [h]; exact ⟨hr, rfl⟩, s.rowWrite_outLe x⟩

theorem rowWrites (s : State) (ws : List RowWhat) (n : Option Nat) : s.Serves (s.rowWrites ws n) := by
  induction ws generalizing s with
  | nil => exact refl s
  | cons x xs ih =>
    cases xs with
    | nil => exact rowWrite s _
    | cons y ys => exact (rowWrite s _).trans (ih _)

theorem tamperEntry (s : State) (r : TamperResp) : s.Serves (s.tamperEntry r) := by
  rw [State.tamperEntry_eq]
  have h1 : s.Serves (s.logged r) := of_set rfl rfl rfl
  refine trans (h1.trans ?_) (rowWrite _ _)
  unfold State.firesLost
  split
  · exact fire _ _ _
  · exact refl _

theorem tamperRespond (s : State) : s.Serves s.tamperRespond := by
  unfold State.tamperRespond
  split
  · extract_lets ks r q s1 s2
    have h1 : s.Serves s1 := of_set rfl rfl rfl
    split
    · exact h1.trans (tamperEntry _ _)
    · have h2 : s1.Serves s2 := by
        by_cases he : ks.isEmpty = true
        · rw [show s2 = s1 from if_pos he]
          exact refl _
        · rw [show s2 = _ from if_neg he]
          exact trans (t := (s1.eraseSlots ks).bump .vault) (of_set rfl rfl rfl) (rowWrites _ _ _)
      exact (h1.trans h2).trans (of_set rfl rfl rfl)
  · exact refl s

theorem firstSeq (s : State) : s.Serves s.firstSeq := by
  have hdraw : s.Serves (s.drawB 8).2 := by
    have hwant (u : State) : u.Serves u.poolWant := by
      unfold State.poolWant
      split
      · exact of_set rfl rfl rfl
      · exact refl u
    unfold State.drawB
    split
    · exact refl s
    · split
      · exact refl s
      · split
        · exact hwant s
        · exact trans (t := { s.draw.2 with noise := _ }) (of_set rfl rfl rfl) (hwant _)
  unfold State.firstSeq
  revert hdraw
  generalize s.drawB 8 = d
  intro hdraw
  split
  · exact hdraw.trans (of_set rfl rfl rfl)
  · exact of_set rfl rfl rfl

theorem ledgerReissue (s : State) : s.Serves s.ledgerReissue := by
  unfold State.ledgerReissue State.issue
  split
  · dsimp only
    split <;> exact of_set rfl rfl rfl
  · exact refl s

theorem scheduleOrders (s : State) : s.Serves s.scheduleOrders := by
  obtain ⟨next, h⟩ := s.scheduleOrders_frame
  rw [h]
  exact of_set rfl rfl rfl

theorem antFollow (s : State) : s.Serves s.antFollow := by
  refine of_set ?_ (State.Tuned.antFollow s).ports.1 (State.Tuned.antFollow s).ports.2
  exact (congrArg State.sys (State.Tuned.antFollow s).beyond : s.antFollow.beyondTuning.sys = s.beyondTuning.sys)

theorem attnFollow (s : State) : s.Serves s.attnFollow :=
  of_set s.attnFollow_sys s.attnFollow_keeps.2.1 s.attnFollow_keeps.2.2

end State.Serves

/-- Nothing latched is left of WAKE_IN. -/
theorem State.latchedWakeIn_serves (s : State) : s.Serves s.latchedWakeIn ∧ s.latchedWakeIn.pwr.wakeInEdge = none := by
  have hset : s.Serves { s with pwr := { s.pwr with wakeInEdge := none } } := .of_set rfl rfl rfl
  unfold State.latchedWakeIn
  dsimp only
  split
  · split
    · exact ⟨hset.trans (.fire _ _ _), (State.Aside.fire _ _ _).pwr PwrSt.wakeInEdge⟩
    · exact ⟨hset, rfl⟩
  · exact ⟨hset, rfl⟩

/-- `+READY BOOT` goes out on the Desk, then the lines kept for it. -/
theorem State.sendReady_sends (s : State) : s.sendReady.sys.alertEvents = [] ∧
    ∃ more, s.sendReady.dport.out = s.dport.out ++ [{ kind := .ready false, toks := [w "+READY", w "BOOT",
      kw "cause" s.sys.cause.name] }] ++ more := by
  unfold State.sendReady
  extract_lets l s1 s2 s3 p
  refine ⟨rfl, ?_⟩
  show ∃ more, s3.dport.out = _
  have h1 : s1.dport.out = s.dport.out ++ [l] := congrArg PortSt.out (s.push_port .desk l)
  have h2 : s1.OutLe s2 := .ite (s1.push_outLe _ _) (.refl s1)
  have h3 : s2.OutLe s3 := by
    refine List.foldlRecOn (motive := fun u : State => s2.OutLe u) _ _ (.refl s2) fun u hu e _ => hu.trans ?_
    exact (State.pushEv_evLe _ _ _ _ rfl).outLe.trans (State.pushEv_evLe _ _ _ _ rfl).outLe
  obtain ⟨more, hmore⟩ := (h2.trans h3) .desk
  exact ⟨more, by rw [← h1]; exact hmore⟩

/-- READY entered, its line sent. -/
def State.readied (s : State) : State :=
  let t := s.sendReady.toStage .ready
  { t with pwr := { t.pwr with idleSince := t.day.cyc } }

theorem bringupReady_serves {s : State} (h : s.inStage .orders = true) (hl : s.orders.loaded = true) :
    Leads .bringupReady s (fun t =>
      t.sys.stage = .ready ∧ t.sys.alertEvents = [] ∧ t.pwr.wakeInEdge = none ∧
      (∃ more, t.dport.out = s.dport.out ++ [{ kind := .ready false, toks := [w "+READY", w "BOOT",
        kw "cause" s.sys.cause.name] }] ++ more)) := by
  have hcond : (s.inStage .orders && s.orders.loaded) = true := by rw [h, hl]; rfl
  have hrun : exec .bringupReady s = .next (s.readied.firstSeq.ledgerReissue.scheduleOrders.schedPoll.tamperRespond
      |>.latchedWakeIn.antFollow.attnFollow) := (if_pos hcond : execBringupReady s = _)
  have hstage : s.readied.sys.stage = .ready := rfl
  have halert : s.readied.sys.alertEvents = s.sendReady.sys.alertEvents := rfl
  have hout : s.readied.dport.out = s.sendReady.dport.out := rfl
  revert hrun hstage halert hout
  generalize s.readied = u
  intro hrun hstage halert hout
  have hsched (v : State) : v.Serves v.schedPoll := .of_set rfl rfl rfl
  have hbefore : u.Serves u.firstSeq.ledgerReissue.scheduleOrders.schedPoll.tamperRespond :=
    ((((State.Serves.firstSeq u).trans (.ledgerReissue _)).trans (.scheduleOrders _)).trans (hsched _)).trans
      (.tamperRespond _)
  revert hbefore hrun
  generalize u.firstSeq.ledgerReissue.scheduleOrders.schedPoll.tamperRespond = v
  intro hrun hbefore
  obtain ⟨hlatch, hedge⟩ := v.latchedWakeIn_serves
  have hall := ((hbefore.trans hlatch).trans (.antFollow _)).trans (.attnFollow _)
  obtain ⟨ha, more, hmore⟩ := s.sendReady_sends
  obtain ⟨after, hafter⟩ := hall.out .desk
  refine ⟨_, hrun, (hall.ready hstage).1, (hall.ready hstage).2.trans (halert.trans ha), ?_, more ++ after, ?_⟩
  · rw [(State.attnFollow_keeps _).1, (State.Tuned.antFollow _).pwr]
    exact hedge
  · refine hafter.trans ?_
    show u.dport.out ++ after = _
    rw [hout, hmore, List.append_assoc]

end Sys2Proof.Machine

/-- Settles O33: each stage's end leads to the next, and what follows its own work leaves that work. -/
theorem bringupPassesStages : Obligations.BringupPassesStages := by
  unfold Obligations.BringupPassesStages
  intro s temp keeper ticks found damaged
  exact ⟨fun h => powerStage_ends h temp keeper ticks, fun h => bringupRecord_ends h found, bringupRecord_first,
    bringupTrim_ends, bringupLedger_first, bringupLedger_later, bringupVault_passes, bringupVault_fails,
    fun h hl => bringupOrders_loads h hl damaged, bringupReady_serves⟩

end

section

/-! ### Entry into Dormant (09_dormant R233–R238, R245, R247, R252, Table 9.2) -/

open Sys2Proof Sys2Proof.Machine

namespace Sys2Proof.Machine

/-! #### The power of the arrays -/

/-- The power state but for what the arrays draw. -/
def PwrSt.besideArrays (p : PwrSt) : PwrSt := { p with powered := 0, stacksOn := false, stacksLast := 0, stall := [] }

theorem State.touch_arrays (s : State) (n : Nat) : (s.touch n).pwr.besideArrays = s.pwr.besideArrays := by
  unfold State.touch
  dsimp only
  (repeat' split) <;> rfl

theorem State.applyRow_arrays (s : State) (x : RowWhat) : (s.applyRow x).pwr.besideArrays = s.pwr.besideArrays := by
  match x with
  | .mirror i =>
    unfold State.applyRow
    dsimp only
    split <;> rfl
  | .stacks _ _ | .cat _ => exact s.touch_arrays 8
  | .twin .. | .twinEnd .. | .counters .. | .drift .. | .journal .. | .key .. | .tamperLog .. | .scratch .. | .order ..
  | .archFirst _ | .archNext _ => rfl

theorem State.rowWrite_arrays (s : State) (x : RowWrite) : (s.rowWrite x).pwr.besideArrays = s.pwr.besideArrays := by
  unfold State.rowWrite State.beginRow
  split
  · exact s.applyRow_arrays x.what
  · rfl

theorem State.rowDone_arrays (s : State) : s.rowDone.1.pwr.besideArrays = s.pwr.besideArrays := by
  unfold State.rowDone
  split
  · rfl
  · rename_i x rs _
    cases rs with
    | nil => rfl
    | cons y ys => exact State.applyRow_arrays _ y.what

theorem State.flushRows_arrays (s : State) : s.flushRows.pwr.besideArrays = s.pwr.besideArrays := by
  unfold State.flushRows
  exact List.foldlRecOn (motive := fun u : State => u.pwr.besideArrays = s.pwr.besideArrays) _ _ rfl
    fun u hu _ _ => u.rowDone_arrays.trans hu

/-! #### The attempt -/

/-- What a completed attempt leaves. -/
def State.Entered (s : State) (temp : Int) (t : State) : Prop :=
  t.pwr = { s.pwr with state := .entry false false, attemptBy := none, attemptDue := false, armed := false } ∧
  t.day.temp = temp ∧ t.day.tempEntry = temp ∧ t.day.window = false ∧ t.day.now = s.day.now ∧
  t.edition .pwr = s.edition .pwr + 1 ∧ t.radio.st = .idle ∧ t.pads.paEn = false ∧ t.tickets = s.tickets ∧
  t.dport = s.dport ∧ t.cport = s.cport ∧ t.cfg = s.cfg ∧ t.store = s.store

/-- What is charged back never brings the interval's account below its mark. -/
theorem State.settleBooking_frame (s : State) (n : Nat) : ∃ r rows g, s.settleBooking n =
    { s with record := r, rows := rows, ledger := g } := by
  unfold State.settleBooking
  split
  · exact ⟨_, _, _, rfl⟩
  · extract_lets g cut s1
    obtain ⟨r, rows, row, seq, j, h⟩ := s1.journal_frame .check
    have hlow : (s1.journal .check).lowCheck s = s1.journal .check := by
      refine if_neg fun hc => ?_
      rw [Bool.and_eq_true, Bool.not_eq_true'] at hc
      obtain ⟨hold, hnew⟩ := hc
      rw [h] at hnew
      unfold State.aboveLow State.budgetLeft at hold hnew
      rw [decide_eq_true_eq] at hold
      rw [decide_eq_false_iff_not] at hnew
      refine hnew (Int.lt_of_lt_of_le hold (Int.mul_le_mul_of_nonneg_left ?_ (by decide)))
      exact Int.sub_le_sub_left (Int.ofNat_le.mpr (Nat.sub_le s.ledger.spent cut)) _
    exact ⟨_, _, _, hlow.trans h⟩

theorem State.antSet_frame (s : State) (pair : Nat) : ∃ a b h d, s.antSet pair =
    { s with pads := { s.pads with antA := a, antB := b, held := h, heldDev := d } } := by
  unfold State.antSet State.padFollow
  dsimp only
  split <;> exact ⟨_, _, _, _, rfl⟩

/-- The radio and the pads with the carrier down. -/
def State.carrierOff (s : State) : State :=
  { s with
    pads := { s.pads with paEn := false }
    radio := { s.radio with
      st := .idle, locked := false, tuning := false, failed := false, rssiNow := -280, portHp := false
      antLag := false, tx := none, rx := none, handed := none } }

/-- The radio powered down changes pads, the radio, and what the interval's account is charged. -/
theorem State.radioOff_frame (s : State) : ∃ r rows g a b h d, s.radioOff =
    { s.carrierOff with
      record := r, rows := rows, ledger := g
      pads := { s.carrierOff.pads with antA := a, antB := b, held := h, heldDev := d } } := by
  have hdef : s.radioOff = match s.radio.tx with
      | some t => (s.carrierOff.antSet 0).settleBooking (s.sentSoFar t)
      | none => s.carrierOff.antSet 0 := rfl
  obtain ⟨a, b, h, d, hs⟩ := s.carrierOff.antSet_frame 0
  rw [hdef]
  split
  · obtain ⟨r, rows, g, hg⟩ := (s.carrierOff.antSet 0).settleBooking_frame (s.sentSoFar ‹_›)
    rw [hg, hs]
    exact ⟨_, _, _, _, _, _, _, rfl⟩
  · rw [hs]
    exact ⟨_, _, _, _, _, _, _, rfl⟩

theorem State.beginEntry_enters (s : State) (temp : Int) : s.Entered temp (s.beginEntry temp) := by
  unfold State.beginEntry State.alarmSet
  generalize hu : State.bump { s with pwr := _, day := _ } .pwr = u
  obtain ⟨r, rows, g, a, b, h, d, hoff⟩ := u.radioOff_frame
  dsimp only
  rw [hoff]
  subst hu
  exact ⟨rfl, rfl, rfl, rfl, rfl, State.edition_bump_same _ _, rfl, rfl, rfl, rfl, rfl, rfl, rfl⟩

theorem idle_of_conditions {s : State} (hr : s.inRun = true) (hst : s.pwr.state = .run) (hk : s.day.keeperOk = true)
    (hno : s.refusers.any id = false) (hpool : ∀ x ∈ s.tickets.pool, x.st ≠ .running) : s.idle = true := by
  have hrun : s.tickets.pool.any (fun t => decide (t.st = .running)) = false := by
    rw [List.any_eq_false]
    exact fun x hx => by rw [decide_eq_true_eq]; exact hpool x hx
  unfold State.idle
  rw [hr, hst, hk, hno, hrun]
  rfl

theorem State.refuser_lt {s : State} (h : s.refusers.any id = true) : s.refusers.idxOf true < 16 := by
  have hmem : true ∈ s.refusers := by
    obtain ⟨b, hb, ht⟩ := List.any_eq_true.mp h
    rw [id] at ht
    rw [← ht]
    exact hb
  exact List.idxOf_lt_length_of_mem hmem

/-- An attempt that is refused stays in Run, and counts for the first of the conditions. -/
theorem State.refuseEntry_refuses (s : State) {present : List Bool} (hlt : present.idxOf true < 16) :
    let t := s.refuseEntry present
    t.pwr.state = .run ∧ t.pwr.refusals = s.pwr.refusals.inc ∧ t.pwr.refCode = present.idxOf true ∧ t.pwr.refValid = true ∧
    t.pwr.refAbort = false ∧
    vget t.pwr.refuser (present.idxOf true) {} = (vget s.pwr.refuser (present.idxOf true) {}).inc ∧
    t.pends 18 ∧ t.day = s.day := by
  unfold State.refuseEntry
  extract_lets code p mask s1
  have hquiet : s1.quiet = false := rfl
  have h := State.Aside.fire s1 18 [kw "by" (refuserNames.getD code ""), kd "count" s1.pwr.refusals.val.toNat]
  exact ⟨h.pwr PwrSt.state, h.pwr PwrSt.refusals, h.pwr PwrSt.refCode, h.pwr PwrSt.refValid, h.pwr PwrSt.refAbort,
    (congrArg (vget · code {}) (h.pwr PwrSt.refuser)).trans (vget_vset_same _ _ _ _ hlt), State.pends_fire hquiet, h.day⟩

theorem autoDormant_not_due {s : State} {temp : Int}
    (h : s.inRun = false ∨ bit s.cfg.sys.dorm 0 = false ∨ s.refusers.any id = true ∨
      s.day.cyc < s.pwr.idleSince + fld s.cfg.sys.dorm 31 16 * tickMs) : exec (.autoDormant temp) s = .next s := by
  refine (if_neg fun hc => ?_ : execAutoDormant temp s = _)
  unfold State.idle at hc
  simp only [Bool.and_eq_true, Bool.not_eq_true', decide_eq_true_eq] at hc
  obtain ⟨⟨⟨⟨⟨⟨⟨hrun, -⟩, -⟩, hno⟩, -⟩, hdorm⟩, -⟩, hdue⟩ := hc
  rcases h with h | h | h | h
  · exact absurd (hrun.symm.trans h) (by decide)
  · exact absurd (hdorm.symm.trans h) (by decide)
  · exact absurd (hno.symm.trans h) (by decide)
  · exact absurd hdue (Nat.not_le_of_lt h)

/-! #### The pads latch, and the entry completes -/

theorem padLatch_latches {s : State} (h : s.pwr.state = .entry false false) (lag : Nat) :
    Leads (.entryPadLatch lag) s (fun t =>
      let s1 : State := { s with pwr := { s.pwr with state := .entry true false } }
      t.pwr.state = .entry true false ∧ t.pads.deskTx = true ∧ (∀ i : Fin 24, t.pads.heldDrive[i] = s1.padDrive i.val) ∧
      t.pads.held = s1.holdMasks.1 ||| s.pads.held ∧ t.pads.heldLevel = padMask s1.padLevel ∧
      t.day.checkpoint = some (s.day.now + BitVec.ofNat 64 lag) ∧ t.day.driftSeq = (s.day.driftSeq + 1) % 2 ^ 32 ∧
      t.dport = s.dport ∧ t.cport = s.cport) := by
  have hexec : exec (.entryPadLatch lag) s = execEntryPadLatch lag s := rfl
  unfold execEntryPadLatch at hexec
  rw [h] at hexec
  refine ⟨_, hexec, ?_⟩
  unfold State.driftRowAt
  dsimp only
  generalize hx : ({ what := _ } : RowWrite) = x
  generalize hu : ({ State.latchPads _ with pads := _, day := _ } : State) = u
  have hst : (u.rowWrite x).pwr.state = u.pwr.state :=
    (congrArg PwrSt.state (u.rowWrite_arrays x) : (u.rowWrite x).pwr.besideArrays.state = u.pwr.besideArrays.state)
  obtain ⟨r, st, pw, rows, hrow⟩ := u.rowWrite_frame x
  refine ⟨hst.trans ?_, ?_⟩
  · subst hu; rfl
  · rw [hrow]
    subst hu
    exact ⟨rfl, fun i => by simp [State.latchPads], rfl, rfl, rfl, rfl, rfl, rfl⟩

/-- A row that is not one of two copies is the last of its write. -/
theorem State.rowDone_single {s : State} (h : ∀ r ∈ s.rows, r.what.twin? = none) : s.rowDone.1.rows = s.rows.tail := by
  unfold State.rowDone
  split
  · rename_i hnil
    rw [hnil]
    rfl
  · rename_i x rs hrows
    rw [hrows]
    cases rs with
    | nil => rfl
    | cons y ys =>
      have hy : y.what.twin? = none := h y (by rw [hrows]; simp)
      dsimp only
      unfold State.beginRow State.rowFollows
      rw [hy]
      rfl

theorem State.flushRows_single {s : State} (h : ∀ r ∈ s.rows, r.what.twin? = none) : s.flushRows.rows = [] := by
  have fold (l : List Nat) (s : State) (h : ∀ r ∈ s.rows, r.what.twin? = none) (hl : s.rows.length ≤ l.length) :
      (l.foldl (fun s _ => s.rowDone.1) s).rows = [] := by
    induction l generalizing s with
    | nil => exact List.eq_nil_of_length_eq_zero (Nat.le_zero.mp hl)
    | cons a l ih =>
      have htail := State.rowDone_single h
      refine ih _ (fun r hr => h r (List.mem_of_mem_tail (htail ▸ hr))) ?_
      rw [htail, List.length_tail]
      exact Nat.sub_le_of_le_add hl
  exact fold _ s h (by rw [List.length_range]; exact Nat.le_mul_of_pos_left _ (by decide))

/-- Dormant entered, before ATTN follows. -/
def State.entered (s : State) (q : Bool) : State :=
  { s with
    pwr := { s.pwr with
      state := .dormant, entries := s.pwr.entries.incIf (!q)
      powered := if q then s.pwr.powered else BitVec.ofNat 8 (fld s.cfg.sys.dorm 15 8)
      stacksOn := false, stall := [] }
    noise := { s.noise with pool := 0, refill := false } }

theorem entryComplete_ends {s : State} {q : Bool} (h : s.pwr.state = .entry true q) : Leads .entryComplete s (fun t =>
    t.pwr.state = .dormant ∧ ((∀ r ∈ s.rows, r.what.twin? = none) → t.rows = []) ∧
    t.pwr.entries = s.pwr.entries.incIf (!q) ∧ t.pwr.stacksOn = false ∧
    t.pwr.stall = [] ∧ t.noise.pool = 0 ∧ t.noise.refill = false ∧
    (q = false → t.pwr.powered = BitVec.ofNat 8 (fld s.cfg.sys.dorm 15 8))) := by
  have hexec : exec .entryComplete s = .next (s.flushRows.entered q).attnFollow := by
    show execEntryComplete s = _
    unfold execEntryComplete
    rw [h]
    rfl
  have hattn := (s.flushRows.entered q).attnFollow_besideEvents
  have hrows : (s.flushRows.entered q).attnFollow.rows = s.flushRows.rows :=
    (congrArg (fun u : State => u.rows) hattn :
      (s.flushRows.entered q).attnFollow.besideEvents.rows = (s.flushRows.entered q).besideEvents.rows)
  have hnoise : (s.flushRows.entered q).attnFollow.noise = (s.flushRows.entered q).noise :=
    (congrArg (fun u : State => u.noise) hattn :
      (s.flushRows.entered q).attnFollow.besideEvents.noise = (s.flushRows.entered q).besideEvents.noise)
  have hentries : s.flushRows.pwr.entries = s.pwr.entries :=
    (congrArg PwrSt.entries s.flushRows_arrays : s.flushRows.pwr.besideArrays.entries = s.pwr.besideArrays.entries)
  obtain ⟨r, st, pw, rows, hflush⟩ := s.flushRows_frame
  have hcfg : s.flushRows.cfg = s.cfg := by rw [hflush]
  refine ⟨_, hexec, ?_⟩
  dsimp only
  rw [hrows, hnoise, (State.attnFollow_keeps _).1]
  refine ⟨rfl, State.flushRows_single, ?_, rfl, rfl, rfl, rfl, fun hq => ?_⟩
  · exact congrArg (Counter.incIf · (!q)) hentries
  · subst hq
    exact congrArg (fun c : Cfg => BitVec.ofNat 8 (fld c.sys.dorm 15 8)) hcfg

end Sys2Proof.Machine

/-- Settles O39: every way in goes through `beginEntry`, whose effects are those of `State.Entered`. -/
theorem entryPassesToDormant : Obligations.EntryPassesToDormant := by
  unfold Obligations.EntryPassesToDormant
  intro s temp lag q
  refine ⟨⟨fun h => ?_, fun h hno => ?_, fun h hany => ?_, fun hr hst hd hk hb hno hpool hdue => ?_, autoDormant_not_due⟩,
    fun h => ?_, fun h => padLatch_latches h lag, entryComplete_ends, fun h => ?_, fun h => ?_⟩
  · exact (if_neg (by rw [h]; exact Bool.false_ne_true) : execDormantAttempt temp s = _)
  · have hexec : execDormantAttempt temp s = .next (s.beginEntry temp) := by
      unfold execDormantAttempt
      rw [if_pos h, if_neg (by rw [hno]; exact Bool.false_ne_true)]
    exact ⟨_, hexec, s.beginEntry_enters temp⟩
  · have hexec : execDormantAttempt temp s = .next (s.refuseEntry s.refusers) := by
      unfold execDormantAttempt
      rw [if_pos h, if_pos hany]
    exact ⟨_, hexec, s.refuseEntry_refuses (State.refuser_lt hany)⟩
  · have hidle := idle_of_conditions hr hst hk hno hpool
    have hexec : execAutoDormant temp s = .next (s.beginEntry temp) := by
      refine if_pos ?_
      rw [hidle, hd, hb, decide_eq_true hdue]
      rfl
    exact ⟨_, hexec, s.beginEntry_enters temp⟩
  · show execEntryPadLatch lag s = _
    unfold execEntryPadLatch
    rw [h]
    rfl
  · show execEntryComplete s = _
    unfold execEntryComplete
    split
    · rename_i b hb
      exact absurd hb (h b)
    · rfl
  · show execEntryWatchdog s = _
    unfold execEntryWatchdog
    split
    · rename_i a b hb
      exact absurd hb (h a b)
    · rfl

end

section

/-! ### What starting due tickets, orders and alarms leaves (06_tickets R155, 09_dormant R240, 10_daybook R263) -/

open Sys2Proof Sys2Proof.Machine

namespace Sys2Proof.Machine

/-- The power state but for what starting an operation changes: the power of the arrays, the measurement that runs, the
start of the idle time, and the count of contents lost. -/
def PwrSt.besideStarts (p : PwrSt) : PwrSt :=
  { p.besideArrays with measBusy := false, measHp := false, idleSince := 0, lostCount := 0 }

/-- Between s and t operations have been started or ended: the modem, the Daybook, the stages of Dormant, and the
condition of the keeper are as they were; no pending bit has gone, and no pad has come to be held. -/
structure State.Starts (s t : State) : Prop where
  part : t.part = s.part
  modem : t.modem = s.modem
  day : t.day = s.day
  power : t.pwr.besideStarts = s.pwr.besideStarts
  cond : s.events.cond.getLsbD 20 = true → t.events.cond.getLsbD 20 = true
  marks : s.Marks t

namespace State.Starts

theorem refl (s : State) : s.Starts s := ⟨rfl, rfl, rfl, rfl, id, .refl s⟩

theorem trans {s t u : State} (h : s.Starts t) (k : t.Starts u) : s.Starts u :=
  ⟨k.part.trans h.part, k.modem.trans h.modem, k.day.trans h.day, k.power.trans h.power, k.cond ∘ h.cond,
    h.marks.trans k.marks⟩

theorem ite {s a b : State} {c : Prop} [Decidable c] (h : s.Starts a) (k : s.Starts b) : s.Starts (if c then a else b) := by
  split
  · exact h
  · exact k

/-- A change of other parts of the state. -/
theorem set {s t : State} (hp : t.part = s.part) (hm : t.modem = s.modem) (hd : t.day = s.day) (hw : t.pwr = s.pwr)
    (he : t.events = s.events) (hh : s.HeldLe t) : s.Starts t :=
  ⟨hp, hm, hd, by rw [hw], fun h => by rw [he]; exact h, .of_eq (congrArg EventsSt.pend he), hh⟩

/-- What follows a change of other parts of the state. -/
theorem after {s u t : State} (h : u.Starts t) (hp : u.part = s.part) (hm : u.modem = s.modem) (hd : u.day = s.day)
    (hw : u.pwr = s.pwr) (he : u.events = s.events) (hh : s.HeldLe u) : s.Starts t :=
  (set hp hm hd hw he hh).trans h

theorem onward {s t : State} (h : s.Onward t) : s.Starts t := by
  have hp : t.lasting.pwr = s.lasting.pwr := congrArg (fun u : State => u.pwr) h.lasts
  have hmask (u : State) : u.pwr.besideStarts = u.lasting.pwr.besideStarts := rfl
  exact ⟨h.part, h.modem, h.day, by rw [hmask t, hp, ← hmask s], h.condBit (by decide), h.pend, h.held⟩

theorem aside {s t : State} (h : s.Aside t) : s.Starts t := onward (.of_aside h)

theorem of_besideEvents {s t : State} (h : t.besideEvents = s.besideEvents) (hm : s.Marks t) : s.Starts t :=
  ⟨(congrArg State.part h : t.besideEvents.part = _), (congrArg State.modem h : t.besideEvents.modem = _),
    (congrArg State.day h : t.besideEvents.day = _),
    congrArg PwrSt.besideStarts (congrArg State.pwr h : t.besideEvents.pwr = s.besideEvents.pwr),
    fun hc => (congrArg (fun u : State => u.events.cond.getLsbD 20) h :
      t.besideEvents.events.cond.getLsbD 20 = s.besideEvents.events.cond.getLsbD 20).trans hc, hm⟩

theorem tuned {s t : State} (h : s.Tuned t) : s.Starts t := onward (.of_tuned h)

/-- A field of the power state that starting an operation leaves. -/
theorem pwr {α : Type} {s t : State} (h : s.Starts t) (f : PwrSt → α)
    (hf : ∀ x : PwrSt, f x.besideStarts = f x := by exact fun _ => rfl) : f t.pwr = f s.pwr := by
  rw [← hf t.pwr, h.power, hf]

theorem quiet {s t : State} (h : s.Starts t) : t.quiet = s.quiet := by
  unfold State.quiet
  rw [h.pwr PwrSt.state]

/-! #### Rows -/

theorem besideStarts_of_arrays {p q : PwrSt} (h : p.besideArrays = q.besideArrays) : p.besideStarts = q.besideStarts := by
  unfold PwrSt.besideStarts
  rw [h]

theorem rowWrite (s : State) (x : RowWrite) : s.Starts (s.rowWrite x) := by
  have hp := besideStarts_of_arrays (s.rowWrite_arrays x)
  obtain ⟨r, st, pw, rows, h⟩ := s.rowWrite_frame x
  rw [h] at hp ⊢
  exact ⟨rfl, rfl, rfl, hp, id, .of_eq rfl rfl⟩

theorem rowWrites (s : State) (ws : List RowWhat) (n : Option Nat) : s.Starts (s.rowWrites ws n) := by
  induction ws generalizing s with
  | nil => exact refl s
  | cons x xs ih =>
    cases xs with
    | nil => exact rowWrite s _
    | cons y ys => exact (rowWrite s _).trans (ih _)

theorem touch (s : State) (n : Nat) : s.Starts (s.touch n) := by
  have hp := besideStarts_of_arrays (s.touch_arrays n)
  obtain ⟨p, h⟩ := s.touch_frame n
  rw [h] at hp ⊢
  exact ⟨rfl, rfl, rfl, hp, id, .of_eq rfl rfl⟩

theorem touchSpan (s : State) (a n : Nat) : s.Starts (s.touchSpan a n) :=
  List.foldlRecOn (motive := fun u : State => s.Starts u) _ _ (refl s) fun u hu k _ => hu.trans (touch u k)

theorem complete (s : State) (n : Nat) (r : Result) (fs : List Tok) (b : List Byte) : s.Starts (s.complete n r fs b) :=
  aside (.complete s n r fs b)

theorem fire (s : State) (n : Nat) (fs : List Tok) : s.Starts (s.fire n fs) := aside (.fire s n fs)

theorem bump (s : State) (u : EdUnit) : s.Starts (s.bump u) := set rfl rfl rfl rfl rfl id

theorem updTicket (s : State) (n : Nat) (f : Ticket → Ticket) : s.Starts (s.updTicket n f) := set rfl rfl rfl rfl rfl id

theorem ticketRows (s : State) (n : Nat) (ws : List RowWhat) (fs : List Tok) : s.Starts (s.ticketRows n ws fs) :=
  ite (complete s _ _ _ _) ((updTicket s _ _).trans (rowWrites _ _ _))

theorem condOn (s : State) (n : Nat) (fs : List Tok) : s.Starts (s.condOn n fs) := by
  obtain ⟨c, hc, h⟩ := s.condOn_aside n fs
  have hset : s.Starts { s with events := { s.events with cond := c } } := ⟨rfl, rfl, rfl, rfl, hc 20, .of_eq rfl, .refl s⟩
  exact hset.trans (aside h)

theorem condOff (s : State) {n : Nat} (hn : n ≠ 20) : s.Starts (s.condOff n) :=
  ⟨rfl, rfl, rfl, rfl, fun h => (getLsbD_andNot_bit _ hn.symm).trans h, .of_eq rfl, .refl s⟩

/-! #### The link -/

theorem linkAttempt (s : State) : s.Starts s.linkAttempt := onward ((State.Onward.setOp s _).trans (.linkGo _))

theorem linkStart (s : State) (o : LinkOp) : s.Starts (s.linkStart o) :=
  after (linkAttempt { s with link := { s.link with op := some o } }) rfl rfl rfl rfl rfl id

theorem number (s : State) (f : TxFrame) : s.Starts (s.number f).2 := by
  have hseq : s.Starts s.nextSeq.2 := set rfl rfl rfl rfl rfl id
  have hctr (u : State) (k : Nat) : u.Starts (u.nextCounter k).2 := by
    unfold State.nextCounter
    dsimp only
    split
    · exact refl u
    · have h : u.Starts ({ u with frame := { u.frame with
          fc := vset u.frame.fc (k + 1) (BitVec.ofNat 32 ((vget u.frame.fc (k + 1) 0).toNat + 1)) } } : State).saveFc :=
        after (rowWrite _ _) rfl rfl rfl rfl rfl id
      exact ite (h.trans (fire _ _ _)) h
  unfold State.number
  dsimp only
  split
  · exact hseq
  · exact hseq.trans (hctr _ _)

theorem buildOp (s : State) (f : TxFrame) : s.Starts (s.buildOp f) :=
  (number s _).trans (onward (.setOp _ _))

theorem journal (s : State) (k : JKind) : s.Starts (s.journal k) := onward (.journal s k)

theorem closeInterval (s : State) : s.Starts s.closeInterval :=
  after (journal { s with ledger := { s.ledger with isOpen := false } } .close) rfl rfl rfl rfl rfl id

theorem openInterval (s : State) (spent : Nat) (recovered : Bool) : s.Starts (s.openInterval spent recovered) := by
  unfold State.openInterval
  extract_lets len s1 q s2
  have h1 : s.Starts s1 := ite (refl s) (condOff s (by decide))
  have h2 : s1.Starts s2 := set rfl rfl rfl rfl rfl id
  exact (h1.trans h2).trans (((journal s2 _).trans (bump _ _)).trans (fire _ _ _))

theorem applyChange (s : State) : s.Starts s.applyChange := by
  unfold State.applyChange
  split
  · exact refl s
  · extract_lets old q s1
    have h1 : s.Starts s1 := set rfl rfl rfl rfl rfl id
    exact h1.trans (((journal s1 _).trans (bump _ _)).trans (fire _ _ _))

theorem boundary (s : State) (change : Bool) : s.Starts (s.boundary change) := by
  unfold State.boundary
  extract_lets due s1 apply s2 s3 q
  have h2 : s1.Starts s2 := ite (applyChange _) (refl _)
  have h3 : s.Starts s3 := ((closeInterval s).trans h2).trans (openInterval _ _ _)
  split
  · exact h3.trans (after (complete _ _ _ _ _) rfl rfl rfl rfl rfl id)
  · exact h3

theorem startTariff (s : State) : s.Starts s.startTariff := ite (refl s) (boundary s _)

theorem unschedule (s : State) : s.Starts s.unschedule := by
  unfold State.unschedule
  split
  · exact refl s
  · exact after ((journal _ .sched).trans (bump _ _)) rfl rfl rfl rfl rfl id

theorem ringFree (s : State) (id : Nat) : s.Starts (s.ringFree id) := onward (.ringFree s id)

theorem undo (s : State) (x : Ticket) (r : Result) : s.Starts (s.undo x r) := by
  unfold State.undo
  split
  · exact ringFree s _
  · exact ringFree s _
  · exact ite (unschedule s) (refl s)
  · exact ite (set rfl rfl rfl rfl rfl id) (refl s)
  · exact refl s

theorem endUnstarted (s : State) (x : Ticket) (r : Result) (fs : List Tok) : s.Starts (s.endUnstarted x r fs) :=
  (undo s x r).trans (complete _ _ _ _ _)

theorem headed (s : State) (x : Ticket) : s.Starts (s.headed x) := by
  unfold State.headed
  split
  · exact ite (refl s) (after ((journal _ .sched).trans (bump _ _)) rfl rfl rfl rfl rfl id)
  · exact refl s

/-! #### Starting each operation -/

theorem startMeasure (s : State) (hp : Bool) : s.Starts (s.startMeasure hp) :=
  ite ⟨rfl, rfl, rfl, rfl, id, .of_eq rfl rfl⟩ ⟨rfl, rfl, rfl, rfl, id, .of_eq rfl rfl⟩

theorem listenerStart (s : State) (x : Listener) : s.Starts (s.listenerStart x) := by
  unfold State.listenerStart
  extract_lets q s1
  have h1 : s.Starts s1 := after (tuned (.radioRest _)) rfl rfl rfl rfl rfl id
  refine ite (h1.trans ?_) h1
  unfold State.ccaBegin
  split
  · exact onward (.setOp _ _)
  · exact refl s1
  · split
    · exact ite (set rfl rfl rfl rfl rfl id) (refl s1)
    · exact refl s1

theorem startScan (s : State) (n d : Nat) : s.Starts (s.startScan n d) :=
  ite (complete s _ _ _ _) (ite (complete s _ _ _ _) (listenerStart s _))

theorem startSend (s : State) (o : LinkOp) : s.Starts (s.startSend o) := by
  unfold State.startSend
  split
  · refine trans ?_ (complete _ _ _ _ _)
    split
    · exact ringFree s _
    · exact refl s
  · exact linkStart s _

theorem startAssoc (s : State) (n : Nat) (a : Addr) (pan : BitVec 16) (p c : Nat) : s.Starts (s.startAssoc n a pan p c) := by
  unfold State.startAssoc
  extract_lets f s1 o q s2
  have h1 : s.Starts s1 := ite (refl s) (set rfl rfl rfl rfl rfl id)
  have h2 : s1.Starts s2 := after (onward (.linkTo _ _)) rfl rfl rfl rfl rfl id
  exact (h1.trans h2).trans ((buildOp s2 _).trans (linkAttempt _))

theorem startLeave (s : State) (n : Nat) (notify : Bool) : s.Starts (s.startLeave n notify) := by
  unfold State.startLeave
  extract_lets o q s1 f
  have h1 : s.Starts s1 := set rfl rfl rfl rfl rfl id
  exact ite (h1.trans ((buildOp s1 _).trans (linkAttempt _))) (h1.trans (onward (.linkEnd s1 _ _)))

theorem startPoll (s : State) (n repoll : Nat) : s.Starts (s.startPoll n repoll) := by
  unfold State.startPoll
  extract_lets o q s1
  have h1 : s.Starts s1 := set rfl rfl rfl rfl rfl id
  exact h1.trans ((buildOp s1 _).trans (linkAttempt _))

theorem ceqStale (s : State) (b : Bool) : s.Starts (s.ceqStale b) := by
  unfold State.ceqStale
  extract_lets q s1
  have h1 : s.Starts s1 := set rfl rfl rfl rfl rfl id
  exact ite (h1.trans (condOn _ _ _)) (h1.trans (condOff _ (by decide)))

theorem trimFinish (s : State) (r : Result) (fs : List Tok) : s.Starts (s.trimFinish r fs) := by
  unfold State.trimFinish
  split
  · exact refl s
  · extract_lets q s1 ceq s2 f
    have h1 : s.Starts s1 := set rfl rfl rfl rfl rfl id
    have h2 : s1.Starts s2 := ite (ceqStale _ _) (refl _)
    exact (h1.trans h2).trans ((onward (.linkResume s2)).trans (complete _ _ _ _ _))

theorem trimItem (s : State) : s.Starts s.trimItem := by
  unfold State.trimItem
  split
  · exact refl s
  · split
    · split
      · exact after (trimFinish (s.setRun _) _ _) rfl rfl rfl rfl rfl id
      · exact after ((ceqStale _ true).trans (onward (.linkResume _))) rfl rfl rfl rfl rfl id
    · extract_lets q s1
      have h1 : s.Starts s1 := set rfl rfl rfl rfl rfl id
      exact ite h1 (h1.trans (tuned ((State.Tuned.tune s1 _ _ _).trans (.radioTo _ _))))

theorem startTrim (s : State) (n : Nat) (items : List TrimItem) (all : Bool) (p c : Nat) :
    s.Starts (s.startTrim n items all p c) := by
  unfold State.startTrim
  split
  · exact complete s _ _ _ _
  · exact ite (complete s _ _ _ _) (after (trimItem _) rfl rfl rfl rfl rfl id)

theorem noiseTo (s : State) (x : NState) : s.Starts (s.noiseTo x) := ite (refl s) (set rfl rfl rfl rfl rfl id)

theorem startRawOff (s : State) (n : Nat) : s.Starts (s.startRawOff n) := ite (complete s _ _ _ _) (noiseTo s _)

theorem startCapture (s : State) (n : Nat) : s.Starts (s.startCapture n) :=
  ite (complete s _ _ _ _) (set rfl rfl rfl rfl rfl id)

theorem startErase (s : State) (n : Nat) (ks : List Nat) : s.Starts (s.startErase n ks) :=
  after (rowWrites _ _ _) rfl rfl rfl rfl rfl id

theorem startRand (s : State) : s.Starts s.startRand := ite (set rfl rfl rfl rfl rfl id) (refl s)

theorem startPart (s : State) (n kib pmax : Nat) (refuse : Bool) : s.Starts (s.startPart n kib pmax refuse) := by
  unfold State.startPart
  extract_lets hi p e st q s1
  have h1 : s.Starts s1 := ⟨rfl, rfl, rfl, rfl, id, .of_eq rfl rfl⟩
  exact (h1.trans (bump _ _)).trans (ticketRows _ _ _ _)

theorem startStacksWrite (s : State) (n a : Nat) (o : List Byte) : s.Starts (s.startStacksWrite n a o) :=
  ite (complete s _ _ _ _) (ticketRows s _ _ _)

theorem touched (s : State) (src : Option (Nat × Nat)) (f : Nat → Nat) :
    s.Starts (match src with | some (a, k) => s.touchSpan a (f k) | none => s) := by
  split
  · exact touchSpan s _ _
  · exact refl s

theorem startArchAdd (s : State) (n kind : Nat) (data : List Byte) (src : Option (Nat × Nat)) :
    s.Starts (s.startArchAdd n kind data src) := by
  unfold State.startArchAdd
  split
  · exact refl s
  · extract_lets o s1 e q w s2
    have h1 : s.Starts s1 := touched s src id
    have h2 : s1.Starts s2 := ⟨rfl, rfl, rfl, rfl, id, .of_eq rfl rfl⟩
    exact ite (h1.trans (complete _ _ _ _ _)) (ite (h1.trans (complete _ _ _ _ _)) ((h1.trans h2).trans (ticketRows _ _ _ _)))

theorem startMark (s : State) (n : Nat) (range list : Option (Nat × Nat)) (a b : Nat) :
    s.Starts (s.startMark n range list a b) := by
  unfold State.startMark
  split
  · exact refl s
  · extract_lets ns new s1
    have h1 : s.Starts s1 := touched s list (2 * ·)
    exact h1.trans (ticketRows _ _ _ _)

theorem startFeed (s : State) (n : Nat) (src : Option (Nat × Nat)) : s.Starts (s.startFeed n src) :=
  trans (touched s src id) (set rfl rfl rfl rfl rfl id)

theorem startOrderStore (s : State) (n k : Nat) (x : OrderSlot) : s.Starts (s.startOrderStore n k x) :=
  after (ticketRows _ _ _ _) rfl rfl rfl rfl rfl id

theorem startOrderSet (s : State) (n k : Nat) (changes : List (String × Arg)) : s.Starts (s.startOrderSet n k changes) := by
  unfold State.startOrderSet
  split
  · exact complete s _ _ _ _
  · exact ticketRows s _ _ _

theorem triggerOrder (s : State) (k : Nat) (rt : Option Nat) (b : Bool) : s.Starts (s.triggerOrder k rt b) :=
  of_besideEvents (s.triggerOrder_besideEvents k rt b) (by
    have hcore : s.Marks (s.triggerCore k rt b) := by
      unfold State.triggerCore
      (repeat' split) <;> exact .of_eq rfl rfl
    unfold State.triggerOrder
    dsimp only
    split
    · exact hcore.trans ⟨State.fireMissed_pendLe _ _, .fireMissed _ _⟩
    · exact hcore)

theorem startOrderRun (s : State) (n k : Nat) : s.Starts (s.startOrderRun n k) :=
  ite ((triggerOrder s _ _ _).trans (complete _ _ _ _ _)) (triggerOrder s _ _ _)

theorem sswTo (s : State) (x : SState) : s.Starts (s.sswTo x) :=
  after (tuned (.padFollow _)) rfl rfl rfl rfl rfl id

theorem startSswOff (s : State) (n : Nat) : s.Starts (s.startSswOff n) :=
  after ((sswTo _ _).trans (complete _ _ _ _ _)) rfl rfl rfl rfl rfl id

theorem startDrop (s : State) (n up : Nat) : s.Starts (s.startDrop n up) := by
  unfold State.startDrop
  exact ticketRows s _ _ _

theorem startOrderErase (s : State) (n k : Nat) : s.Starts (s.startOrderErase n k) := by
  unfold State.startOrderErase
  exact ticketRows s _ _ _

/-- Whatever operation a ticket has, starting it leaves the stages of Dormant and the Daybook. -/
theorem startOp (s : State) (n : Nat) (op : TicketOp) : s.Starts (s.startOp n op) := by
  cases op with
  | pwrMeasure => exact startMeasure s _
  | eventSave => exact rowWrites s _ _
  | txCw d => exact linkStart s _
  | rx d p c => exact listenerStart s _
  | ccaCheck p c => exact listenerStart s _
  | censusScan d => exact startScan s _ _
  | frameSend f p c e => exact startSend s _
  | assoc a pan p c => exact startAssoc s _ _ _ _ _
  | leave b => exact startLeave s _ _
  | poll r => exact startPoll s _ _
  | linkWake f child at_ e => exact startSend s _
  | tariffSched _ _ => exact startTariff s
  | trimRun items all p c => exact startTrim s _ _ _ _ _
  | rawOff => exact startRawOff s _
  | rawCapture _ => exact startCapture s _
  | vaultLoad _ _ _ => exact refl s
  | vaultErase ks => exact startErase s _ _
  | vaultRand _ => exact startRand s
  | vaultCcm _ _ _ _ _ _ _ => exact refl s
  | recordWrite a o => exact ticketRows s _ _ _
  | stacksPart k p r => exact startPart s _ _ _ _
  | stacksWrite a o => exact startStacksWrite s _ _ _
  | archAdd k o src => exact startArchAdd s _ _ _ _
  | archFind _ _ _ _ _ _ _ _ _ => exact refl s
  | archMark r l a b => exact startMark s _ _ _ _ _
  | archDrop u => exact startDrop s _ _
  | porterGo ch a m i f => exact set rfl rfl rfl rfl rfl id
  | collateFeed k _ src => exact startFeed s _ _
  | collateClose _ _ => exact refl s
  | orderStore k x => exact startOrderStore s _ _ _
  | orderSet k c => exact startOrderSet s _ _ _
  | orderErase k => exact startOrderErase s _ _
  | orderRun k => exact startOrderRun s _ _
  | sswOn => exact sswTo s _
  | sswOff => exact startSswOff s _

theorem tryStart (s : State) (x : Ticket) : s.Starts (s.tryStart x) := by
  have start (u : State) : u.Starts (State.tryStart.start u x) := (updTicket u _ _).trans (startOp _ _ _)
  have go : s.Starts (State.tryStart.go s x) := by
    unfold State.tryStart.go
    split
    · exact endUnstarted s _ _ _
    · dsimp only
      split
      · exact (headed s x).trans (ite (start _) (updTicket _ _ _))
      · exact (headed s x).trans (start _)
  unfold State.tryStart
  split
  · exact ite go (endUnstarted s _ _ _)
  · exact go

/-! #### What is due -/

theorem countLink (s : State) (i : Nat) : s.Starts (s.countLink i) := onward (.countLink s i)

theorem issue (s : State) (a : TicketAsk) : s.Starts (s.issue a).1 := by
  unfold State.issue
  split
  · exact refl s
  · exact set rfl rfl rfl rfl rfl id

theorem pollIssue (s : State) : s.Starts s.pollIssue := by
  unfold State.pollIssue
  extract_lets q s1
  have h1 : s.Starts s1 := set rfl rfl rfl rfl rfl id
  refine ite (h1.trans (countLink _ _)) (ite ?_ (h1.trans (issue _ _)))
  exact h1.trans (after ((countLink _ _).trans (fire _ _ _)) rfl rfl rfl rfl rfl id)

theorem orderDue (s : State) (k : Nat) (b : Bool) : s.Starts (s.orderDue k b) :=
  after (triggerOrder _ _ _ _) rfl rfl rfl rfl rfl id

theorem alarmGo (s : State) (a : Nat) (b : Bool) : (s.setAlarm a ((s.alarm a).after s.now)).Starts (s.alarmGo a b) := by
  unfold State.alarmGo
  extract_lets x y s1 s2
  have h2 : s1.Starts s2 := ite (bump _ _) (refl _)
  split
  · exact h2.trans (triggerOrder _ _ _ _)
  · exact h2

end State.Starts

/-- The alarm that an item due takes, set to what follows its going off. -/
def State.alarmTaken (s : State) (d : Nat × Nat × Nat) : State :=
  match d.2.1 with
  | 0 => s.setAlarm d.2.2 ((s.alarm d.2.2).after s.now)
  | _ => s

theorem State.dueGo_starts (s : State) (b : Bool) (d : Nat × Nat × Nat) : (s.alarmTaken d).Starts (s.dueGo b d) := by
  obtain ⟨v, k, a⟩ := d
  match k with
  | 0 => exact .alarmGo s a b
  | 1 => exact .orderDue s a b
  | 2 => exact .pollIssue s
  | k + 3 =>
    show s.Starts (match s.ticket? a with | some t => s.tryStart t | none => s)
    split
    · exact .tryStart s _
    · exact .refl s

/-- The Daybook but for its alarms. -/
def DaySt.besideAlarms (d : DaySt) : DaySt := { d with alarms := Vector.replicate 4 {} }

/-- Between s and t items due have been taken: beside what starting operations changes, alarms have gone off. -/
structure State.Dues (s t : State) : Prop where
  part : t.part = s.part
  modem : t.modem = s.modem
  days : t.day.besideAlarms = s.day.besideAlarms
  power : t.pwr.besideStarts = s.pwr.besideStarts
  cond : s.events.cond.getLsbD 20 = true → t.events.cond.getLsbD 20 = true
  marks : s.Marks t

namespace State.Dues

theorem of_starts {s t : State} (h : s.Starts t) : s.Dues t := ⟨h.part, h.modem, by rw [h.day], h.power, h.cond, h.marks⟩

theorem refl (s : State) : s.Dues s := of_starts (.refl s)

theorem trans {s t u : State} (h : s.Dues t) (k : t.Dues u) : s.Dues u :=
  ⟨k.part.trans h.part, k.modem.trans h.modem, k.days.trans h.days, k.power.trans h.power, k.cond ∘ h.cond,
    h.marks.trans k.marks⟩

theorem day {α : Type} {s t : State} (h : s.Dues t) (f : DaySt → α)
    (hf : ∀ x : DaySt, f x.besideAlarms = f x := by exact fun _ => rfl) : f t.day = f s.day := by
  rw [← hf t.day, h.days, hf]

theorem pwr {α : Type} {s t : State} (h : s.Dues t) (f : PwrSt → α)
    (hf : ∀ x : PwrSt, f x.besideStarts = f x := by exact fun _ => rfl) : f t.pwr = f s.pwr := by
  rw [← hf t.pwr, h.power, hf]

theorem dueGo (s : State) (b : Bool) (d : Nat × Nat × Nat) : s.Dues (s.dueGo b d) := by
  refine trans (t := s.alarmTaken d) ?_ (of_starts (s.dueGo_starts b d))
  unfold State.alarmTaken
  split
  · exact ⟨rfl, rfl, rfl, rfl, id, .of_eq rfl rfl⟩
  · exact refl s

theorem dueAll (s : State) (b : Bool) : s.Dues (s.dueAll b) :=
  List.foldlRecOn (motive := fun u : State => s.Dues u) _ _ (refl s) fun u hu d _ => hu.trans (dueGo u b d)

end State.Dues

/-! #### What runs at LOGIC_RDY -/

theorem State.Starts.sswTrip (s : State) (c : Nat) (fs : List Tok) : s.Starts (s.sswTrip c fs) := by
  unfold State.sswTrip
  extract_lets p s1 s2
  have h1 : s.Starts s1 := after (sswTo _ _) rfl rfl rfl rfl rfl id
  have h2 : s.Starts s2 := h1.trans (condOn _ _ _)
  split
  · split
    · exact h2.trans (complete _ _ _ _ _)
    · exact h2
  · exact h2

theorem State.Starts.sswWake (s : State) : s.Starts s.sswWake := by
  refine ite (refl s) (after (sswTrip _ _ _) rfl rfl rfl rfl rfl id)

theorem State.Starts.tamperEvent (s : State) (x : TamperSet) : s.Starts (s.tamperEvent x) :=
  after (condOn _ _ _) rfl rfl rfl rfl rfl id

theorem State.Starts.settled (t s : State) : t.Starts (t.settled s) :=
  set (State.settled_part t s) (State.settled_modem t s) (State.settled_day t s) (State.settled_pwr t s)
    (State.settled_events t s)
    (.of_eq (State.settled_pads t s))

theorem State.Starts.completeAll (s : State) (xs : List (Ticket × Result × List Tok)) : s.Starts (s.completeAll xs) := by
  unfold State.completeAll
  extract_lets ys s1 host bad s2 s3 s4 s5
  have h1 : s.Starts s1 := List.foldlRecOn (motive := fun u : State => s.Starts u) ys _ (refl s)
    fun u hu x _ => hu.trans ⟨rfl, rfl, rfl, rfl, id, .of_eq rfl rfl⟩
  have h2 : s1.Starts s2 := by
    dsimp only [s2]
    cases hc : host
    · exact refl s1
    · exact ite (fire _ _ _) (refl _)
  have h3 : s2.Starts s3 := by
    dsimp only [s3]
    cases hc : bad
    · exact refl s2
    · exact ite (refl _) (fire _ _ _)
  have deliver (u : State) (x : Ticket) (r : Result) (fs : List Tok) : u.Starts (u.deliver x r fs []) := by
    unfold State.deliver
    split
    · exact aside (.push _ _ _)
    · exact aside (.freeTicket _ _)
  have h4 : s3.Starts s4 := List.foldlRecOn (motive := fun u : State => s3.Starts u) ys _ (refl s3)
    fun u hu x _ => hu.trans (deliver u _ _ _)
  have h5 : s4.Starts s5 := by
    dsimp only [s5]
    split
    · exact aside (.lineAfter s4 _ _ _)
    · exact refl s4
  exact ((((h1.trans h2).trans h3).trans h4).trans h5).trans (settled _ _)

theorem State.Starts.overdueAll (s : State) : s.Starts s.overdueAll := by
  unfold State.overdueAll State.endAll
  exact trans (List.foldlRecOn (motive := fun u : State => s.Starts u) _ _ (refl s) fun u hu x _ => hu.trans (undo u x _))
    (completeAll _ _)

theorem State.Starts.attnFollow (s : State) : s.Starts s.attnFollow :=
  of_besideEvents s.attnFollow_besideEvents ⟨.of_eq s.attnFollow_pend, .attnFollow s⟩

/-- A carrel or the Stacks that lost their contents in Dormant. -/
def State.gone (s : State) : BitVec 8 := ~~~s.pwr.powered &&& 0xFE

/-- Run entered at LOGIC_RDY with the losses recorded, before what is due. -/
def State.awoken (s : State) : State :=
  let t := s.bump .pwr
  { t with
    pwr := { s.pwr with
      state := .wake 3 false, lost := s.pwr.lost ||| s.gone, lostCount := s.pwr.lostCount + 1, wakeInEdge := none }
    store := { t.store with
      carrelGone := Vector.ofFn (fun i =>
        if s.gone.getLsbD i.val then s.pwr.lostCount + 1 else vget t.store.carrelGone i.val 0)
      carrels := t.store.carrels.filter (fun c => !s.gone.getLsbD (c.1 / 0x8000)) }
    desk := { t.desk with lostWake := t.desk.lostWake.incIf (decide (s.pwr.wakeSrc = 1)) } }

/-- What has been noted of an alarm that is due beside the source of a wake leaves the rest. -/
theorem State.alsoAlarm_frame (s : State) : ∃ b, s.alsoAlarm = { s with pwr := { s.pwr with wakeAlso := b } } := by
  unfold State.alsoAlarm
  split <;> exact ⟨_, rfl⟩

/-- What is due at LOGIC_RDY, then what follows it, with the keeper told between. -/
theorem State.logicActions_starts (s : State) : ∃ v : State, (s.awoken.alsoAlarm.dueAll true).Starts v ∧
    (if s.day.keeperOk then v else v.condOn 20 []).Starts s.logicActions := by
  unfold State.logicActions
  extract_lets p g loss fresh s0 d st s1 s2 s3 s4 s5 s6 s7
  have h3 : s2.Starts s3 := by
    dsimp only [s3]
    split
    · exact .fire _ _ _
    · exact .refl s2
  have h4 : s3.Starts s4 := .ite (.refl _) (.fire _ _ _)
  have h6 : s5.Starts s6 := .ite (.boundary _ _) (.refl _)
  have h7 : s6.Starts s7 := by
    dsimp only [s7]
    split
    · exact .tamperEvent _ _
    · exact .refl s6
  have h8 : s7.Starts (s7.sswWake.overdueAll.settled s) :=
    ((State.Starts.sswWake s7).trans (.overdueAll _)).trans (.settled _ _)
  exact ⟨s4, h3.trans h4, ((h6.trans h7).trans h8).trans (.attnFollow _)⟩

/-- What Run does at LOGIC_RDY leaves the stage it is in, the sources of the wake, the losses and the Daybook's value; a
keeper that does not run is told. -/
theorem State.logicActions_leaves (s : State) : s.logicActions.part = s.part ∧ s.logicActions.modem = s.modem ∧
    s.logicActions.day.besideAlarms = s.day.besideAlarms ∧ s.logicActions.pwr.state = .wake 3 false ∧
    s.logicActions.pwr.wakeSrc = s.pwr.wakeSrc ∧ s.logicActions.pwr.lost = s.pwr.lost ||| s.gone ∧
    s.logicActions.pwr.wakeInEdge = none ∧
    (s.day.keeperOk = false → s.eventPresent 20 = true → s.logicActions.events.cond.getLsbD 20 = true) := by
  obtain ⟨b, hb⟩ := s.awoken.alsoAlarm_frame
  have hdue := State.Dues.dueAll s.awoken.alsoAlarm true
  obtain ⟨v, hv, hflag⟩ := s.logicActions_starts
  have hcond : v.Starts (if s.day.keeperOk then v else v.condOn 20 []) := .ite (.refl v) (.condOn _ _ _)
  have hall := hdue.trans (.of_starts (hv.trans (hcond.trans hflag)))
  refine ⟨?_, ?_, ?_, ?_, ?_, ?_, ?_, fun hk hp => hflag.cond ?_⟩
  · rw [hall.part, hb]; rfl
  · rw [hall.modem, hb]; rfl
  · rw [hall.days, hb]; rfl
  · rw [hall.pwr PwrSt.state, hb]; rfl
  · rw [hall.pwr PwrSt.wakeSrc, hb]; rfl
  · rw [hall.pwr PwrSt.lost, hb]; rfl
  · rw [hall.pwr PwrSt.wakeInEdge, hb]; rfl
  · rw [hk, if_neg Bool.false_ne_true]
    refine State.condOn_cond ?_
    rw [State.eventPresent_of_part (s := s) (by rw [hv.part, hdue.part, hb]; rfl)]
    exact hp

end Sys2Proof.Machine

end

section

/-! ### Receiver readings, detections and the ends of listening (11_radio R298–R303, 13_census R347–R355, R362, R363) -/

open Sys2Proof Sys2Proof.Machine

namespace Sys2Proof.Machine

/-! #### Readings -/

theorem lnaShare_fits (gain lna : Nat) :
    ([0, 12, 24].contains lna = true → lna ≤ gain → gain ≤ lna + 54 → lnaShare gain lna = lna) ∧
    lnaShare gain lna ≤ gain ∧ [0, 12, 24].contains (lnaShare gain lna) = true := by
  refine ⟨fun hin hle hfit => if_pos (by rw [hin, decide_eq_true hle, decide_eq_true hfit]; rfl), ?_⟩
  unfold lnaShare
  split
  · rename_i h
    simp only [Bool.and_eq_true, decide_eq_true_eq] at h
    exact ⟨h.1.2, h.1.1⟩
  · split
    · rename_i h
      exact ⟨h, rfl⟩
    · split
      · rename_i h
        exact ⟨h, rfl⟩
      · exact ⟨Nat.zero_le _, rfl⟩

theorem agcUpdate_sets {s : State} {gain lna : Nat} (h : (s.receiving && decide (s.radio.st = .listen)) = true) :
    Leads (.agcUpdate gain lna) s (fun t => t.radio.frozen = false ∧
      t.radio.gain = (if bit s.cfg.radio.rxConfig 0 then min (gain / 2 * 2) 78 else 2 * fld s.cfg.radio.rxConfig 6 1) ∧
      ([0, 12, 24].contains lna = true → lna ≤ t.radio.gain → t.radio.gain ≤ lna + 54 → t.radio.lna = lna) ∧
      t.radio.lna ≤ t.radio.gain ∧ [0, 12, 24].contains t.radio.lna = true) := by
  have hexec : exec (.agcUpdate gain lna) s = _ := (if_neg (by rw [h]; decide) : execAgcUpdate gain lna s = _)
  refine ⟨_, hexec, ?_⟩
  have hradio (u : State) : u.padFollow.radio = u.radio := by
    unfold State.padFollow
    split <;> rfl
  dsimp only
  rw [hradio]
  refine ⟨rfl, ?_, lnaShare_fits _ lna⟩
  by_cases hb : bit s.cfg.radio.rxConfig 0 = true
  · rw [if_pos hb, if_pos hb]
    rfl
  · rw [if_neg hb, if_neg hb]
    exact (if_neg hb : s.gainNow = _)

theorem afcLimit_counts {s : State} {offset : Int} (h : (s.receiving && decide (s.radio.st = .listen)) = true)
    (ho : s.radio.afcOnce = false) (hb : 3000 ≤ offset.natAbs) : Leads (.afcLimit offset) s (fun t =>
      t.radio.afcLimits = s.radio.afcLimits.inc ∧ t.radio.afcOnce = true ∧ (s.quiet = false → t.pends 34)) := by
  have hcond : (s.receiving && decide (s.radio.st = .listen) && !s.radio.afcOnce && decide (3000 ≤ offset.natAbs)) = true := by
    rw [h, ho, decide_eq_true hb]
    rfl
  refine ⟨_, (if_pos hcond : execAfcLimit offset s = _), ?_⟩
  have hfire := State.Aside.fire (setRad (fun r => { r with afcOnce := true, afcLimits := r.afcLimits.inc }) s) 34
    [kd "offset" (clampInt (-32767) 32767 offset)]
  exact ⟨congrArg RadioSt.afcLimits hfire.radio, congrArg RadioSt.afcOnce hfire.radio,
    fun hq => State.pends_fire (s := setRad _ s) hq⟩

theorem afcLimit_not {s : State} {offset : Int} (h : s.radio.afcOnce = true ∨ offset.natAbs < 3000) :
    exec (.afcLimit offset) s = .next s := by
  refine (if_neg fun hc => ?_ : execAfcLimit offset s = _)
  simp only [Bool.and_eq_true, Bool.not_eq_true', decide_eq_true_eq] at hc
  obtain ⟨⟨-, ho⟩, hb⟩ := hc
  rcases h with h | h
  · exact absurd (h.symm.trans ho) (by decide)
  · exact absurd hb (Nat.not_le_of_lt h)

theorem not_trim_of_receiving {s : State} (h : s.receiving = true) : (s.inRun && decide (s.radio.st = .trim)) = false := by
  unfold State.receiving at h
  simp only [Bool.and_eq_true, Bool.or_eq_true, decide_eq_true_eq] at h
  rcases h.2 with h | h <;> simp [h]

theorem rssiUpdate_reads {s : State} {rssi : Int} (h : s.receiving = true) (hc : s.ccaNow = .none) (hh : s.holder = none) :
    exec (.rssiUpdate rssi) s = .next { s with radio := { s.radio with
      rssiNow := clampInt (-280) (-20) (rssi + signed 8 (fld s.cfg.radio.rxConfig 23 16)) } } := by
  have hexec : exec (.rssiUpdate rssi) s = execRssiUpdate rssi s := rfl
  rw [hexec]
  unfold execRssiUpdate
  rw [if_neg (by rw [not_trim_of_receiving h]; decide), if_neg (by rw [h]; decide)]
  extract_lets v s1 s2 due
  have hh1 : s1.holder = none := hh
  have hs2 : s2 = s1 := by
    dsimp only [s2]
    rw [hh1]
  have hc2 : s2.ccaNow = .none := by
    rw [hs2]
    exact hc
  rw [hc2, hs2]
  rfl

/-! #### Detections -/

theorem preamble_hands {s : State} {chan : Nat} (h : (s.receiving && decide (s.radio.st = .listen)) = true)
    (hne : chan ≠ s.radio.chan) (hr : s.inRun = true) (hs : s.searches chan = true) (hhop : s.census.hop = true)
    (hc : s.ccaNow = .none) (ho : s.radio.ownSeen = none) (hh : s.radio.handed = none) :
    Leads (.preambleDetected chan) s (fun t =>
      t.radio.chan = chan ∧ t.census.handovers = s.census.handovers.inc ∧ t.radio.handed.map (·.chan) = some chan) := by
  have hexec : exec (.preambleDetected chan) s = .next (s.handOver chan false) := by
    show execPreambleDetected chan s = _
    unfold execPreambleDetected
    rw [if_neg (by rw [h]; decide), if_neg hne, if_neg (by rw [hr, hs, hhop]; decide), hc]
    dsimp only
    rw [ho]
    rfl
  have hnow : s.handedNow = false := by
    unfold State.handedNow
    rw [hh]
  refine ⟨_, hexec, ?_⟩
  unfold State.handOver
  dsimp only
  rw [hh, hnow, if_neg (fun h => Bool.false_ne_true h), if_neg hne]
  exact ⟨rfl, rfl, rfl⟩

/-- A hand-over leaves the modem and the power state. -/
theorem State.handOver_keeps (s : State) (c : Nat) (wake : Bool) :
    (s.handOver c wake).modem = s.modem ∧ (s.handOver c wake).pwr = s.pwr ∧
      (s.handOver c wake).radio.sniff = s.radio.sniff := by
  unfold State.handOver
  extract_lets lev better s1
  (repeat' split) <;> exact ⟨rfl, rfl, rfl⟩

/-- A wake in full leaves the count of wake patterns, and names its source. -/
theorem State.quietFull_wakes (s : State) (code : Nat) : (s.quietFull code).modem = s.modem ∧
    (s.quietFull code).pwr.wakeSrc = code ∧ (s.quietFull code).pwr.state = .wake 3 false := by
  unfold State.quietFull
  extract_lets s1 s2 p
  have h2 : s2.modem = s.modem := by
    dsimp only [s2]
    split
    · rfl
    · rw [(State.Tuned.radioTo _ _).modem]
      rfl
  obtain ⟨-, hm, -, hst, hsrc, -⟩ := State.logicActions_leaves { s2 with pwr := { p with
    wakeSrc := code, wakeAlso := BitVec.ofNat 7 (2 ^ code), wakeOrigin := s2.day.keeper } }
  exact ⟨hm.trans h2, hsrc, hst⟩

theorem wakePattern_wakes {s : State} {rssi : Int} {bits : BitVec 32} {chan : Nat}
    (hl : (s.receiving && decide (s.radio.st = .listen)) = false) (hret : s.returning = true)
    (hw : s.profile.wakes = true) (hm : s.wakeMatch bits = true) :
    Leads (.wakePatternDetected chan ⟨rssi, bits⟩) s (fun t => t.modem.wakes = s.modem.wakes.inc ∧ t.pwr.wakeSrc = 5 ∧
      t.pwr.state = .wake 3 false ∧ t.pends 35) := by
  have hexec : exec (.wakePatternDetected chan ⟨rssi, bits⟩) s =
      .next ((s.wakeSeen.quietFull 5).fire 35 [.kv "rssi" (dbm (s.rssiOf rssi)), kd "chan" chan]) := by
    show execWakePatternDetected chan ⟨rssi, bits⟩ s = _
    unfold execWakePatternDetected
    dsimp only
    rw [if_neg (by rw [hw, hm]; decide), if_neg (by rw [hl]; simp), if_pos hret]
  obtain ⟨hmod, hsrc, hst⟩ := s.wakeSeen.quietFull_wakes 5
  have hfire := State.Aside.fire (s.wakeSeen.quietFull 5) 35 [.kv "rssi" (dbm (s.rssiOf rssi)), kd "chan" chan]
  refine ⟨_, hexec, ?_, (hfire.pwr PwrSt.wakeSrc).trans hsrc, (hfire.pwr PwrSt.state).trans hst, State.pends_fire ?_⟩
  · rw [hfire.modem, hmod]
    rfl
  · unfold State.quiet
    rw [hst]

theorem wakePattern_seen {s : State} {rssi : Int} {bits : BitVec 32} {chan : Nat}
    (hl : (s.receiving && decide (s.radio.st = .listen)) = true) (hw : s.profile.wakes = true)
    (hm : s.wakeMatch bits = true) (hc : chan = s.radio.chan ∨ s.searches chan = true) :
    Leads (.wakePatternDetected chan ⟨rssi, bits⟩) s (fun t => t.modem.wakes = s.modem.wakes.inc ∧
      (s.quiet = false ∨ s.radio.sniff.isSome = true → t.pends 35) ∧
      (s.radio.sniff.isSome = true → t.pwr.wakeSrc = 5 ∧ t.pwr.state = .wake 3 false)) := by
  obtain ⟨hmod, hpwr, -⟩ := s.wakeSeen.handOver_keeps chan true
  have hhit : (decide (chan = s.radio.chan) || s.searches chan) = true := by
    rcases hc with h | h <;> simp [h]
  have hexec : exec (.wakePatternDetected chan ⟨rssi, bits⟩) s =
      .next ((if s.radio.sniff.isSome then (s.wakeSeen.handOver chan true).quietFull 5
        else s.wakeSeen.handOver chan true).fire 35 [.kv "rssi" (dbm (s.rssiOf rssi)), kd "chan" chan]) := by
    show execWakePatternDetected chan ⟨rssi, bits⟩ s = _
    unfold execWakePatternDetected
    dsimp only
    rw [if_neg (by rw [hw, hm]; decide), if_pos (by rw [hl, hhit]; rfl)]
  by_cases hs : s.radio.sniff.isSome = true
  · rw [if_pos hs] at hexec
    obtain ⟨hq1, hsrc, hst⟩ := (s.wakeSeen.handOver chan true).quietFull_wakes 5
    have hfire := State.Aside.fire ((s.wakeSeen.handOver chan true).quietFull 5) 35
      [.kv "rssi" (dbm (s.rssiOf rssi)), kd "chan" chan]
    refine ⟨_, hexec, ?_, fun _ => State.pends_fire ?_,
      fun _ => ⟨(hfire.pwr PwrSt.wakeSrc).trans hsrc, (hfire.pwr PwrSt.state).trans hst⟩⟩
    · rw [hfire.modem, hq1, hmod]
      rfl
    · unfold State.quiet
      rw [hst]
  · rw [if_neg hs] at hexec
    have hfire := State.Aside.fire (s.wakeSeen.handOver chan true) 35 [.kv "rssi" (dbm (s.rssiOf rssi)), kd "chan" chan]
    refine ⟨_, hexec, ?_, fun hq => State.pends_fire ?_, fun h => absurd h hs⟩
    · rw [hfire.modem, hmod]
      rfl
    · rcases hq with hq | hq
      · exact (State.quiet_of_pwr hpwr).trans hq
      · exact absurd hq hs

/-! #### The ends of listening -/

/-- The listener gone, and the radio at rest. -/
def State.unlistened (s : State) (x : Listener) : State :=
  State.radioRest { s with radio := { s.radio with
    listeners := s.radio.listeners.filter (fun y => !(y.ticket == x.ticket)) } }

theorem State.unlistened_tickets (s : State) (x : Listener) : (s.unlistened x).tickets = s.tickets :=
  (State.Tuned.radioRest _).tickets

theorem State.listenerStop_of_free {s : State} (h : s.radio.rx = none) (x : Listener) (r : Result) :
    s.listenerStop x r = s.listenerEnd x r := if_neg (by rw [h]; simp)

theorem kind_of_listenerOf {s : State} {k : ListenKind} {x : Listener} (h : s.listenerOf k = some x) : x.kind = k :=
  of_decide_eq_true (List.find?_some (p := fun y : Listener => decide (y.kind = k)) h)

theorem rxDuration_ends {s : State} {x : Listener} {y : Ticket} (hx : s.listenerOf .rx = some x) (hr : s.inRun = true)
    (ho : s.durationOver x = true) (hrx : s.radio.rx = none) (hy : s.ticket? x.ticket = some y) (hl : y.live = true) :
    Leads .rxDurationEnd s (fun t =>
      ∃ ed, Completed t y .done [kd "frames" x.frames, .kv "rssi_max" (dbm (x.rssiMax.getD (-280)))] ed) := by
  have hexec : exec .rxDurationEnd s = .next (s.listenerEnd x .done) := by
    show execRxDurationEnd s = _
    unfold execRxDurationEnd
    rw [hx]
    dsimp only
    rw [hr, ho, s.listenerStop_of_free hrx]
    rfl
  have hend : s.listenerEnd x .done = (s.unlistened x).complete x.ticket .done
      [kd "frames" x.frames, .kv "rssi_max" (dbm (x.rssiMax.getD (-280)))] := by
    unfold State.listenerEnd
    rw [kind_of_listenerOf hx]
    rfl
  refine ⟨_, hexec, ?_⟩
  rw [hend]
  exact State.complete_of_ticket _ _ _ ((State.ticket_of_tickets (s.unlistened_tickets x) _).trans hy) hl

theorem State.freeLevels_tickets (s : State) : s.freeLevels.tickets = s.tickets :=
  List.foldlRecOn (motive := fun u : State => u.tickets = s.tickets) _ _ rfl fun _ hu _ _ => hu

theorem censusScan_ends {s : State} {x : Listener} {y : Ticket} (hx : s.listenerOf .scan = some x) (hr : s.inRun = true)
    (ho : s.durationOver x = true) (hrx : s.radio.rx = none) (hy : s.ticket? x.ticket = some y) (hl : y.live = true) :
    Leads .censusScanEnd s (fun t => ∃ fs ed, Completed t y .done fs ed) := by
  have hexec : exec .censusScanEnd s = .next (s.listenerEnd x .done) := by
    show execCensusScanEnd s = _
    unfold execCensusScanEnd
    rw [hx]
    dsimp only
    rw [hr, ho, s.listenerStop_of_free hrx]
    rfl
  obtain ⟨u, fs, hend, hu⟩ : ∃ (u : State) (fs : List Tok), s.listenerEnd x .done = (u.fire 38 fs).complete x.ticket .done fs ∧
      u.tickets = s.tickets := by
    unfold State.listenerEnd
    rw [kind_of_listenerOf hx]
    refine ⟨_, _, rfl, ?_⟩
    split
    · exact (State.freeLevels_tickets _).trans (s.unlistened_tickets x)
    · unfold State.scanStore
      split <;> exact s.unlistened_tickets x
  refine ⟨_, hexec, fs, ?_⟩
  rw [hend]
  exact State.complete_of_ticket _ _ _
    ((State.ticket_of_tickets ((State.fire_tickets u 38 fs).trans hu) _).trans hy) hl

/-- Counting a window leaves the readings and the sniff. -/
theorem State.countWindow_keeps (s : State) (v : Vector Int 16) :
    (s.countWindow v).census = s.census ∧ (s.countWindow v).radio.sniff = s.radio.sniff := by
  unfold State.countWindow
  extract_lets up s1
  have h1 : s1.census = s.census ∧ s1.radio.sniff = s.radio.sniff := by
    dsimp only [s1]
    split <;> exact ⟨rfl, rfl⟩
  (repeat' split) <;> exact h1

theorem windowClose_reads {s : State} {readings : List Int} (h : s.receiving = true) (hm : s.measuring = true)
    (hlen : readings.length = 16) (hst : s.census.stale = false) (hsn : s.radio.sniff = none) :
    Leads (.censusWindowClose readings) s (fun t =>
      (∀ k : Fin 16, t.census.levels[k] =
        clampInt (-270) (-80) (readings.getD k.val (-270) + signed 8 (fld s.cfg.radio.rxConfig 23 16))) ∧
      t.census.at_ = s.day.now ∧ t.census.held = false ∧ t.census.hop = s.hopOn ∧ t.census.allow = s.cfg.census.allow) := by
  have hexec : exec (.censusWindowClose readings) s = execCensusWindowClose readings s := rfl
  unfold execCensusWindowClose at hexec
  rw [if_neg (by rw [h]; decide)] at hexec
  revert hexec
  extract_lets v live used
  intro hexec
  have hlive : live = true := by
    dsimp only [live]
    rw [hm, hlen]
    rfl
  rw [if_pos hlive, if_neg (by rw [hst]; decide)] at hexec
  -- the readings taken, which what follows them leaves
  obtain ⟨u, hu, hread⟩ : ∃ u : State, (u.radio.sniff = none ∧ u.census.levels = v ∧ u.census.at_ = s.day.now ∧
      u.census.held = false ∧ u.census.hop = s.hopOn ∧ u.census.allow = s.cfg.census.allow) ∧
      u = s.censusApply.setReadings v := by
    refine ⟨_, ?_, rfl⟩
    unfold State.setReadings
    extract_lets above rise p s1
    split
    · exact ⟨hsn, rfl, rfl, rfl, rfl, rfl⟩
    · have hfire := State.Aside.fire s1 39 [.kv "chans" (.hex 4 rise.toNat)]
      rw [hfire.radio, hfire.census]
      exact ⟨hsn, rfl, rfl, rfl, rfl, rfl⟩
  rw [← hread] at hexec
  obtain ⟨hsniff, hlev, hat, hheld, hhop, hallow⟩ := hu
  obtain ⟨hcen, hsn2⟩ := u.countWindow_keeps v
  have hgate : (u.countWindow v).gateCheck used v = u.countWindow v := by
    unfold State.gateCheck
    rw [hsn2, hsniff]
  rw [hgate] at hexec
  refine ⟨_, hexec, ?_⟩
  beta_reduce
  rw [hcen]
  refine ⟨fun k => ?_, hat, hheld, hhop, hallow⟩
  rw [hlev]
  simp [v, satLevel, State.rssiOffset]

theorem ccaListen_clears {s : State} {o : LinkOp} {c : Nat} (hr : s.inRun = true) (hc : s.ccaNow = .op o c) :
    Leads .ccaListenEnd s (fun t => t.radio.ccaClear = s.radio.ccaClear.inc) := by
  have hexec : exec .ccaListenEnd s =
      .next ((setRad (fun r => { r with ccaClear := r.ccaClear.inc }) s).linkKey o.chan false) := by
    show execCcaListenEnd s = _
    unfold execCcaListenEnd
    dsimp only
    rw [hr, hc]
    rfl
  exact ⟨_, hexec, (State.Onward.linkKey _ _ _).radio RadioSt.ccaClear⟩

theorem ccaListen_checks {s : State} {x : Listener} {y : Ticket} {c : Nat} (hr : s.inRun = true)
    (hc : s.ccaNow = .check x c) (hrx : s.radio.rx = none) (hk : x.kind = .check) (hy : s.ticket? x.ticket = some y)
    (hl : y.live = true) : Leads .ccaListenEnd s (fun t => t.radio.ccaClear = s.radio.ccaClear.inc ∧
      ∃ ed, Completed t y .done [kw "clear" "YES", kw "cause" "NONE", .kv "level" (dbm s.radio.rssiNow)] ed) := by
  let f : List Tok := [kw "clear" "YES", kw "cause" "NONE", .kv "level" (dbm s.radio.rssiNow)]
  obtain ⟨u, hu, hexec⟩ : ∃ u : State, (u.radio.ccaClear = s.radio.ccaClear.inc ∧ u.radio.rx = none ∧
      u.tickets = s.tickets) ∧ exec .ccaListenEnd s = .next (u.listenerStop { x with fin := f } .done) := by
    refine ⟨State.setListener (setRad (fun r => { r with ccaClear := r.ccaClear.inc }) s) x.ticket
      (fun y => { y with fin := f }), ⟨rfl, hrx, rfl⟩, ?_⟩
    show execCcaListenEnd s = _
    unfold execCcaListenEnd
    dsimp only
    rw [hr, hc]
    rfl
  obtain ⟨hclear, hurx, htick⟩ := hu
  have hend : u.listenerEnd { x with fin := f } .done = (u.unlistened { x with fin := f }).complete x.ticket .done f := by
    unfold State.listenerEnd
    dsimp only
    rw [hk]
    rfl
  rw [u.listenerStop_of_free hurx, hend] at hexec
  refine ⟨_, hexec, ?_, State.complete_of_ticket _ _ _ ?_ hl⟩
  · rw [(State.Aside.complete _ _ _ _ _).radio]
    exact ((State.Tuned.radioRest _).radio RadioSt.ccaClear).trans hclear
  · exact (State.ticket_of_tickets ((u.unlistened_tickets _).trans htick) _).trans hy

theorem handoverHold_ends {s : State} (hr : s.inRun = true) (hh : s.radio.handed.isSome = true) (hrx : s.radio.rx = none)
    (htx : s.radio.tx = none) : Leads .handoverHoldEnd s (fun t => t.radio.handed = none ∧ t.tickets = s.tickets) := by
  have hcond : (s.inRun && s.radio.handed.isSome && s.radio.rx.isNone && s.radio.tx.isNone) = true := by
    rw [hr, hh, hrx, htx]
    rfl
  refine ⟨_, (if_pos hcond : execHandoverHoldEnd s = _), ?_⟩
  have h := State.Tuned.radioRest
    (setRad (fun r => { r with handed := none }) { s with link := { s.link with train := none } })
  exact ⟨h.radio RadioSt.handed, h.tickets⟩

end Sys2Proof.Machine

/-- Settles O43: what a detection hands on and what a listening's end completes, by the state of the radio. -/
theorem receiverEventsTakeEffect : Obligations.ReceiverEventsTakeEffect := by
  unfold Obligations.ReceiverEventsTakeEffect
  intro s gain lna chan rssi offset bits readings x y
  refine ⟨fun h => ⟨?_, ?_, ?_, fun hret => ?_, wakePattern_wakes h⟩, fun hno => ?_,
    fun h => ⟨agcUpdate_sets h, afcLimit_counts h, afcLimit_not, fun hown hcca => ?_, fun hne hno => ?_,
      fun hne => preamble_hands h hne, wakePattern_seen h⟩,
    fun h htrim => ?_, rssiUpdate_reads, fun hr hst hrun => ?_, fun hx => ?_,
    fun hx hr ho hrx hy _ => rxDuration_ends hx hr ho hrx hy, fun hx => ?_, fun k hx ho => ⟨fun hk => ?_, fun hk => ?_⟩,
    fun hx hr ho hrx hy _ => censusScan_ends hx hr ho hrx hy, fun h => ?_, windowClose_reads, fun h => ?_,
    fun o c => ccaListen_clears, fun c hr hc hrx hk hy _ => ccaListen_checks hr hc hrx hk hy, fun h => ?_, handoverHold_ends⟩
  · exact (if_pos (by rw [h]; rfl) : execAgcUpdate gain lna s = _)
  · exact (if_neg (by rw [h, Bool.false_and, Bool.false_and]; decide) : execAfcLimit offset s = _)
  · exact (if_pos (by rw [h]; rfl) : execPreambleDetected chan s = _)
  · show execWakePatternDetected chan ⟨rssi, bits⟩ s = _
    unfold execWakePatternDetected
    dsimp only
    split
    · rfl
    · rw [if_neg (by rw [h, Bool.false_and]; decide), if_neg (by rw [hret]; decide)]
  · show execWakePatternDetected chan ⟨rssi, bits⟩ s = _
    refine if_pos ?_
    rcases hno with hno | hno <;> simp [hno]
  · show execPreambleDetected chan s = _
    unfold execPreambleDetected
    rw [if_neg (by rw [h]; decide), if_pos hown]
    exact congrArg Host.Outcome.next
      (if_pos hcca : (setRad (fun r => { r with ownSeen := some s.day.cyc }) s).carrierSeen = _)
  · show execPreambleDetected chan s = _
    unfold execPreambleDetected
    rw [if_neg (by rw [h]; decide), if_neg hne, if_pos (by rw [hno]; rfl)]
  · show execRssiUpdate rssi s = _
    unfold execRssiUpdate
    rw [if_neg (by rw [htrim]; decide), if_pos (by rw [h]; rfl)]
  · show execRssiUpdate rssi s = _
    unfold execRssiUpdate State.trimReading
    rw [if_pos (by rw [hr, hst]; rfl), hrun]
  · show execRxDurationEnd s = _
    unfold execRxDurationEnd
    rw [hx]
  · show execCensusScanEnd s = _
    unfold execCensusScanEnd
    rw [hx]
  · subst hk
    show execRxDurationEnd s = _
    unfold execRxDurationEnd
    rw [hx]
    dsimp only
    rw [ho, Bool.and_false, if_neg Bool.false_ne_true]
  · subst hk
    show execCensusScanEnd s = _
    unfold execCensusScanEnd
    rw [hx]
    dsimp only
    rw [ho, Bool.and_false, if_neg Bool.false_ne_true]
  · exact (if_pos (by rw [h]; rfl) : execCensusWindowClose readings s = _)
  · show execCcaListenEnd s = _
    unfold execCcaListenEnd
    dsimp only
    split
    · rfl
    · rename_i hrun
      rcases h with h | h
      · rw [h] at hrun
        exact absurd rfl hrun
      · rw [h]
  · show execHandoverHoldEnd s = _
    refine if_neg ?_
    rw [h]
    simp

end

section

/-! ### The keeper's edges, drift windows, slew ticks and alarms (10_daybook R258–R277, 05_register_file R144) -/

open Sys2Proof Sys2Proof.Machine

namespace Sys2Proof.Machine

/-! #### The keeper and the slew -/

theorem keeperEdge_counts {s : State} {period : Nat} (hh : s.sys.hold ≠ .por) (hc : s.counting = true) :
    exec (.keeperEdge period) s = .next { s with day := { s.day with
      keeper := (s.day.keeper + 1) % 2 ^ 48
      dh := (if s.inBoot then s.day.dh else s.day.now), kh := (if s.inBoot then s.day.kh else (s.day.keeper + 1) % 2 ^ 48)
      goodPeriods := if s.quiet then s.day.goodPeriods
        else if 557 ≤ period ∧ period ≤ 615 then min (s.day.goodPeriods + 1) 256 else 0 } } := by
  have hgood : (decide (557 ≤ period) && decide (period ≤ 615)) = decide (557 ≤ period ∧ period ≤ 615) :=
    (Bool.decide_and _ _).symm
  show execKeeperEdge period s = _
  unfold execKeeperEdge
  rw [if_neg hh]
  dsimp only
  rw [if_pos hc, hgood]
  by_cases hb : s.inBoot = true <;> by_cases hg : 557 ≤ period ∧ period ≤ 615 <;> simp [hb, hg]

theorem slewTick_slews {s : State} (hs : s.day.slew ≠ 0) (ha : s.awake = true) (hc : s.day.cyc % 1024 = 0) :
    Leads .slewTick s (fun t =>
      t.day.now = s.day.now + (if 0 < s.day.slew then 2 else 0) ∧ t.day.cyc = s.day.cyc + 1 ∧
      t.day.slew = (if 0 < s.day.slew then s.day.slew - 1 else s.day.slew + 1) ∧
      t.edition .daybook = (if t.day.slew = 0 then s.edition .daybook + 1 else s.edition .daybook) ∧
      (s.isEnd = true → s.day.now.toNat + 2 < 2 ^ 64 →
        (t.day.now.toNat : Int) + t.day.offset = s.day.now.toNat + s.day.offset + 1) ∧ t.cfg = s.cfg ∧
      t.tickets = s.tickets) := by
  let d : Nat := if 0 < s.day.slew then 2 else 0
  let r : Int := if 0 < s.day.slew then s.day.slew - 1 else s.day.slew + 1
  have hexec : exec .slewTick s = .next (if r = 0 then State.bump
      { s.advance d with day := { (s.advance d).day with slew := r } } .daybook
      else { s.advance d with day := { (s.advance d).day with slew := r } }) := by
    refine (if_neg ?_ : execSlewTick s = _)
    simp [hs, ha, State.slewCycle, hc]
  have hnow : (BitVec.ofNat 64 d : Ticks) = if 0 < s.day.slew then 2 else 0 := by
    dsimp only [d]
    split <;> rfl
  have hsum : s.isEnd = true → s.day.now.toNat + 2 < 2 ^ 64 →
      (((s.day.now + BitVec.ofNat 64 d).toNat : Nat) : Int) + (if s.isEnd then s.day.offset + 1 - d else s.day.offset) =
        s.day.now.toNat + s.day.offset + 1 := by
    intro he hlt
    have hd : d ≤ 2 := by
      dsimp only [d]
      split <;> decide
    rw [if_pos he, BitVec.toNat_add, BitVec.toNat_ofNat, Nat.mod_eq_of_lt (a := d) (by omega), Nat.mod_eq_of_lt (by omega)]
    omega
  refine ⟨_, hexec, ?_⟩
  by_cases hr : r = 0
  · rw [if_pos hr]
    exact ⟨congrArg (s.day.now + ·) hnow, rfl, rfl, (State.edition_bump_same _ _).trans (if_pos hr).symm, hsum, rfl, rfl⟩
  · rw [if_neg hr]
    exact ⟨congrArg (s.day.now + ·) hnow, rfl, rfl, (if_neg hr).symm, hsum, rfl, rfl⟩

/-- The keeper found stopped, before it is told. -/
def State.keeperLost (s : State) : State :=
  { s with day := { s.day with keeperOk := false, goodPeriods := 0, windowOk := false } }

theorem State.keeperStop_stops (s : State) : let t := s.keeperStop
    t.day.keeperOk = false ∧ t.day.goodPeriods = 0 ∧ t.day.windowOk = false ∧ t.day.window = s.day.window ∧
    (s.day.keeperOk = true → s.eventPresent 20 = true → t.events.cond.getLsbD 20 = true ∧
      t.edition .daybook = s.edition .daybook + 1) ∧
    (s.quiet = false → s.day.keeperOk = true → s.events.cond.getLsbD 20 = false → t.pends 20) := by
  have hdef : s.keeperStop = if s.day.keeperOk then (s.keeperLost.bump .daybook).condOn 20 [] else s.keeperLost := rfl
  intro t
  by_cases hk : s.day.keeperOk = true
  · have ht : t = (s.keeperLost.bump .daybook).condOn 20 [] := hdef.trans (if_pos hk)
    obtain ⟨c, -, h⟩ := (s.keeperLost.bump .daybook).condOn_aside 20 []
    rw [ht, h.day]
    refine ⟨rfl, rfl, rfl, rfl, fun _ hp => ⟨State.condOn_cond hp, ?_⟩, fun hq _ hc => State.condOn_pends hq hc⟩
    exact (h.edition (by decide)).trans (State.edition_bump_same s.keeperLost _)
  · rw [show t = s.keeperLost from hdef.trans (if_neg hk)]
    exact ⟨rfl, rfl, rfl, rfl, fun h => absurd h hk, fun _ h => absurd h hk⟩

/-! #### Drift windows -/

/-- The window closed with the temperature read at its close. -/
def State.windowClosed (s : State) (temp : Int) : State :=
  { s with day := { s.day with window := false, windowOk := false, temp := temp } }

theorem driftWindow_abandons {s : State} {temp : Int} {ticks : Nat} (hw : (s.day.window && s.inRun) = true)
    (h : s.day.keeperOk = false ∨ s.day.windowOk = false ∨ 4 ≤ (temp - s.day.tempWake).natAbs) :
    exec (.driftWindowClose temp ticks) s = .next (s.windowClosed temp) := by
  show execDriftWindowClose temp ticks s = _
  unfold execDriftWindowClose
  rw [if_neg (by rw [hw]; decide)]
  refine if_neg fun hc => ?_
  simp only [Bool.and_eq_true, decide_eq_true_eq] at hc
  obtain ⟨⟨⟨hk, hok⟩, hn⟩, -⟩ := hc
  rcases h with h | h | h
  · exact absurd (hk.symm.trans h) (by decide)
  · exact absurd (hok.symm.trans h) (by decide)
  · exact absurd hn (Nat.not_lt_of_le h)

/-- The first sample of a bin stands. -/
def State.firstSample (s : State) (b : Nat) (v : Int) : State :=
  { s with day := { s.day with
    bins := vset s.day.bins b { (s.bin b) with e := v, conf := 1, streak := 0 }
    samples := s.day.samples.inc, rejects := s.day.rejects.incIf false } }

theorem State.driftSample_first {s : State} {b : Nat} (v : Int) (h : (s.bin b).conf = 0) :
    s.driftSample b v = (s.firstSample b v).driftRowWrite := by
  unfold State.driftSample
  dsimp only
  rw [h, if_neg (by simp), if_pos rfl]
  rfl

theorem driftWindow_learns {s : State} {temp : Int} {ticks : Nat} (hw : (s.day.window && s.inRun) = true) {v : Int} {b : Nat}
    (hv : v = roundAway (100000000 * (384375 - (ticks : Int))) (max ticks 1 : Nat))
    (hb : b = binOf ((temp + s.day.tempWake) / 2))
    (hk : s.day.keeperOk = true) (hok : s.day.windowOk = true) (hn : (temp - s.day.tempWake).natAbs < 4)
    (hlo : -32768 ≤ v) (hhi : v ≤ 32767) (hconf : (s.bin b).conf = 0) :
    Leads (.driftWindowClose temp ticks) s (fun t => t.day.window = false ∧ (t.bin b).e = v ∧ (t.bin b).conf = 1 ∧
      t.day.samples = s.day.samples.inc ∧ t.day.rejects = s.day.rejects ∧ t.day.checkpoint = some s.day.now) := by
  have hlt : b < 16 := by
    rw [hb]
    exact Nat.lt_of_le_of_lt (Nat.min_le_right _ _) (by decide)
  have hexec : exec (.driftWindowClose temp ticks) s = .next (((s.windowClosed temp).firstSample b v).driftRowWrite) := by
    rw [← State.driftSample_first v (s := s.windowClosed temp) hconf, hb]
    show execDriftWindowClose temp ticks s = _
    unfold execDriftWindowClose
    dsimp only
    rw [if_neg (by rw [hw]; decide), ← hv]
    refine if_pos ?_
    rw [hk, hok, decide_eq_true hn]
    simp [inRange, hlo, hhi]
  refine ⟨_, hexec, ?_⟩
  unfold State.driftRowWrite State.driftRowAt
  extract_lets seq k d
  obtain ⟨r, st, pw, rows, hrow⟩ := State.rowWrite_frame
    { (s.windowClosed temp).firstSample b v with day := { d with driftSeq := seq, driftRow := k, checkpoint := some d.now } }
    { what := .drift k (State.driftNow _ seq d.now).octets }
  rw [hrow]
  have hbin : vget (vset s.day.bins b { (s.bin b) with e := v, conf := 1, streak := 0 }) b ({} : Bin) =
      { (s.bin b) with e := v, conf := 1, streak := 0 } := vget_vset_same _ _ _ _ hlt
  exact ⟨rfl, congrArg Bin.e hbin, congrArg Bin.conf hbin, rfl, rfl, rfl⟩

/-! #### Alarms -/

/-- Two items due do not take the same alarm. -/
def OtherAlarm (d e : Nat × Nat × Nat) : Prop := ¬(d.2.1 = 0 ∧ e.2.1 = 0 ∧ d.2.2 = e.2.2)

theorem State.dueList_alarms (s : State) : s.dueList.Pairwise OtherAlarm ∧
    ∀ a, a < 4 → (s.alarmDue a = true ↔ ∃ d ∈ s.dueList, d.2.1 = 0 ∧ d.2.2 = a) := by
  obtain ⟨rest, hlist, hrest⟩ : ∃ rest : List (Nat × Nat × Nat), s.dueList =
      ((List.range 4).filter s.alarmDue).map (fun a => ((s.alarm a).at_.toNat, 0, a)) ++ rest ∧ ∀ d ∈ rest, d.2.1 ≠ 0 := by
    refine ⟨_, by unfold State.dueList; rw [List.append_assoc, List.append_assoc], fun d hd => ?_⟩
    rw [List.mem_append, List.mem_append, List.mem_filterMap, List.mem_filterMap] at hd
    rcases hd with ⟨k, -, hk⟩ | hd | ⟨x, -, hx⟩
    · split at hk
      · split at hk
        · cases hk; exact Nat.one_ne_zero
        · cases hk
      · cases hk
    · split at hd
      · split at hd
        · cases List.mem_singleton.mp hd; exact Nat.succ_ne_zero 1
        · cases hd
      · cases hd
    · split at hx
      · split at hx
        · cases hx; exact Nat.succ_ne_zero 2
        · cases hx
      · cases hx
  rw [hlist]
  refine ⟨List.pairwise_append.mpr ⟨?_, ?_, ?_⟩, fun a ha => ⟨fun h => ?_, fun h => ?_⟩⟩
  · refine List.pairwise_map.mpr (((List.nodup_range).filter _).imp ?_)
    exact fun hne h => hne h.2.2
  · exact (List.pairwise_of_forall_mem_list fun d hd e _ h => hrest d hd h.1)
  · exact fun d _ e he h => hrest e he h.2.1
  · refine ⟨_, List.mem_append_left _ (List.mem_map_of_mem (a := a) ?_), rfl, rfl⟩
    exact List.mem_filter.mpr ⟨List.mem_range.mpr ha, h⟩
  · obtain ⟨d, hd, h0, h1⟩ := h
    rcases List.mem_append.mp hd with hd | hd
    · obtain ⟨k, hk, rfl⟩ := List.mem_map.mp hd
      cases h1
      exact (List.mem_filter.mp hk).2
    · exact absurd h0 (hrest d hd)

/-- An item due sets the alarm that it takes, and no other. -/
theorem State.dueGo_alarm (s : State) (b : Bool) (d : Nat × Nat × Nat) {a : Nat} (ha : a < 4) :
    (s.dueGo b d).alarm a = (if d.2.1 = 0 ∧ d.2.2 = a then (s.alarm a).after s.now else s.alarm a) ∧
      (s.dueGo b d).now = s.now := by
  have h := (s.dueGo_starts b d).day
  unfold State.alarm State.now
  rw [h]
  obtain ⟨v, k, e⟩ := d
  unfold State.alarmTaken
  dsimp only
  split
  · refine ⟨?_, rfl⟩
    by_cases he : e = a
    · subst he
      rw [if_pos ⟨rfl, rfl⟩]
      exact vget_vset_same _ _ _ _ ha
    · rw [if_neg fun h => he h.2]
      exact vget_vset_other _ _ _ _ _ fun h => he h.symm
  · rename_i hk
    rw [if_neg fun h => hk h.1]
    exact ⟨rfl, rfl⟩

/-- What is due takes each of its alarms once. -/
theorem State.dueFold_alarms (b : Bool) (l : List (Nat × Nat × Nat)) (s : State) (h : l.Pairwise OtherAlarm) {a : Nat}
    (ha : a < 4) : ((∃ d ∈ l, d.2.1 = 0 ∧ d.2.2 = a) → (l.foldl (fun s d => s.dueGo b d) s).alarm a = (s.alarm a).after s.now) ∧
      ((∀ d ∈ l, ¬(d.2.1 = 0 ∧ d.2.2 = a)) → (l.foldl (fun s d => s.dueGo b d) s).alarm a = s.alarm a) := by
  induction l generalizing s with
  | nil => exact ⟨fun ⟨d, hd, _⟩ => absurd hd (by simp), fun _ => rfl⟩
  | cons e l ih =>
    obtain ⟨hfirst, hl⟩ := List.pairwise_cons.mp h
    obtain ⟨halarm, hnow⟩ := s.dueGo_alarm b e ha
    obtain ⟨itakes, ileaves⟩ := ih (s.dueGo b e) hl
    refine ⟨fun ⟨d, hd, h0, h1⟩ => ?_, fun hno => ?_⟩
    · rw [List.foldl_cons]
      by_cases he : e.2.1 = 0 ∧ e.2.2 = a
      · rw [ileaves fun f hf hfa => hfirst f hf ⟨he.1, hfa.1, he.2.trans hfa.2.symm⟩, halarm, if_pos he]
      · have hdl : d ∈ l := by
          rcases List.mem_cons.mp hd with rfl | hdl
          · exact absurd ⟨h0, h1⟩ he
          · exact hdl
        rw [itakes ⟨d, hdl, h0, h1⟩, halarm, if_neg he, hnow]
    · rw [List.foldl_cons, ileaves fun f hf => hno f (List.mem_cons_of_mem _ hf), halarm, if_neg (hno e (by simp))]

theorem State.dueAll_alarms (s : State) (b : Bool) {a : Nat} (ha : a < 4) :
    (s.dueAll b).alarm a = if s.alarmDue a then (s.alarm a).after s.now else s.alarm a := by
  obtain ⟨hpair, hdue⟩ := s.dueList_alarms
  have hperm := List.perm_insertionSort (fun a b => dueFirst a b) s.dueList
  have hsym : ∀ {d e : Nat × Nat × Nat}, OtherAlarm d e → OtherAlarm e d := fun h k => h ⟨k.2.1, k.1, k.2.2.symm⟩
  obtain ⟨htakes, hleaves⟩ := State.dueFold_alarms b _ s ((hperm.pairwise_iff hsym).mpr hpair) ha
  by_cases h : s.alarmDue a = true
  · obtain ⟨d, hd, hda⟩ := (hdue a ha).mp h
    rw [if_pos h]
    exact htakes ⟨d, hperm.mem_iff.mpr hd, hda⟩
  · rw [if_neg h]
    exact hleaves fun d hd hda => h ((hdue a ha).mpr ⟨d, hperm.mem_iff.mp hd, hda⟩)

/-- A unit's edition that has stepped once stays a step ahead when a step settles. -/
theorem State.edition_settled_step {s t : State} {u : EdUnit} (h : t.edition u = s.edition u + 1) :
    (t.settled s).edition u = s.edition u + 1 := by
  have hu : u.index < 22 := by cases u <;> decide
  have hi : (t.settled s).edition u = if t.edition u = s.edition u then t.edition u else s.edition u + 1 := by
    unfold State.edition State.settled vget
    simp [hu]
  rw [hi, h, ite_self]

theorem State.edition_of_besideEvents {s t : State} (h : t.besideEvents = s.besideEvents) {u : EdUnit} (hu : u ≠ .orders) :
    t.edition u = s.edition u := by
  rw [← t.edition_besideEvents u hu, h, s.edition_besideEvents u hu]

theorem Alarm.after_once {x : Alarm} (h : x.every = 0) (now : Nat) : (x.after now).st = .done := by
  unfold Alarm.after
  rw [if_pos h]

/-- An alarm that goes off alone steps the Daybook's edition where it is done, and without an order does nothing else. -/
theorem alarmFire_alone {s : State} {a : Fin 4} {v : Nat} (ha : s.awake = true) (hd : s.alarmDue a.val = true)
    (hl : s.dueList = [(v, 0, a.val)]) : ∃ t, exec (.alarmFire a) s = .next t ∧
      ((s.alarm a.val).every = 0 → t.edition .daybook = s.edition .daybook + 1) ∧
      ((s.alarm a.val).order = none → t.tickets = s.tickets ∧ t.orders = s.orders) := by
  refine ⟨_, exec_alarmFire_alone ha hd hl, fun he => State.edition_settled_step ?_, fun ho => ?_⟩
  · have hstep (u : State) : (u.bump .daybook).edition .daybook = u.edition .daybook + 1 := State.edition_bump_same u _
    unfold State.alarmGo
    dsimp only
    rw [if_pos (Alarm.after_once he _)]
    split
    · exact (State.edition_of_besideEvents (State.triggerOrder_besideEvents _ _ _ _) (by decide)).trans (hstep _)
    · exact hstep _
  · unfold State.alarmGo
    dsimp only
    rw [ho]
    dsimp only
    split <;> exact ⟨rfl, rfl⟩

theorem alarmFire_takes {s : State} {a : Fin 4} (h : (s.awake && s.alarmDue a.val) = true) :
    Leads (.alarmFire a) s (fun t =>
      (∀ b : Fin 4, t.alarm b.val = if s.alarmDue b.val then (s.alarm b.val).after s.now else s.alarm b.val) ∧
      ((s.alarm a.val).every = 0 → (t.alarm a.val).st = .done) ∧
      (s.dueList = [((s.alarm a.val).at_.toNat, 0, a.val)] →
        ((s.alarm a.val).every = 0 → t.edition .daybook = s.edition .daybook + 1) ∧
        ((s.alarm a.val).order = none → t.tickets = s.tickets ∧ t.orders = s.orders))) := by
  have hexec : exec (.alarmFire a) s = .next s.dueNow := congrArg Host.Outcome.next (if_pos h)
  have halarm (b : Fin 4) : s.dueNow.alarm b.val = if s.alarmDue b.val then (s.alarm b.val).after s.now else s.alarm b.val :=
    s.dueAll_alarms (!s.inRun) b.isLt
  rw [Bool.and_eq_true] at h
  obtain ⟨hawake, hdue⟩ := h
  refine ⟨_, hexec, halarm, fun he => ?_, fun hl => ?_⟩
  · rw [halarm a, if_pos hdue]
    exact Alarm.after_once he _
  · obtain ⟨t, ht, hrest⟩ := alarmFire_alone hawake hdue hl
    cases hexec.symm.trans ht
    exact hrest

end Sys2Proof.Machine

/-- Settles O41: the Daybook's own events, each by its case; alarms through `State.dueAll_alarms`. -/
theorem daybookEventsTakeEffect : Obligations.DaybookEventsTakeEffect := by
  unfold Obligations.DaybookEventsTakeEffect
  intro s period ticks temp a
  refine ⟨fun h => ?_, fun hh hc => ?_, keeperEdge_counts, fun h => ?_, slewTick_slews, fun h => ?_, fun hk hg => ?_,
    fun h => ?_, fun h c hc => ?_, fun h => ?_,
    fun h => ⟨driftWindow_abandons h, fun hk hok hn hlo hhi hconf => driftWindow_learns h rfl rfl hk hok hn hlo hhi hconf⟩,
    fun h => ?_, alarmFire_takes⟩
  · exact (if_pos h : execKeeperEdge period s = _)
  · show execKeeperEdge period s = _
    unfold execKeeperEdge
    rw [if_neg hh]
    dsimp only
    rw [if_neg (by rw [hc]; decide)]
  · refine (if_pos ?_ : execSlewTick s = _)
    rcases h with h | h | h <;> simp [h, State.slewCycle]
  · refine (if_pos ?_ : execKeeperRunning s = _)
    rcases h with h | h <;> simp [h]
  · exact (if_neg (by simp [hk, Nat.not_lt.mpr hg]) : execKeeperRunning s = _)
  · exact ⟨(if_neg (by rw [h]; decide) : execKeeperPeriodFault s = _), (if_neg (by rw [h]; decide) : execKeeperEdgeTimeout s = _)⟩
  · have hexec : exec c s = .next s.keeperStop := by
      rcases List.mem_pair.mp hc with rfl | rfl
      · exact (if_pos h : execKeeperPeriodFault s = _)
      · exact (if_pos h : execKeeperEdgeTimeout s = _)
    have hq : s.quiet = false := by
      unfold State.keeperWatched at h
      rw [Bool.and_eq_true, Bool.not_eq_true'] at h
      exact h.2
    obtain ⟨h1, h2, h3, h4, h5, h6⟩ := s.keeperStop_stops
    exact ⟨_, hexec, h1, h2, h3, h4, h5, h6 hq⟩
  · exact (if_pos (by rw [h]; rfl) : execDriftWindowClose temp ticks s = _)
  · exact congrArg Host.Outcome.next (if_neg (by rw [h]; decide))

end

section

/-! ### Wake sources, and the stages of a wake (09_dormant R239–R246, R251, Table 9.4; 10_daybook R260–R262, R267) -/

open Sys2Proof Sys2Proof.Machine

namespace Sys2Proof.Machine

/-! #### Sources -/

theorem State.settled_self (s : State) : s.settled s = s := State.settled_of_same rfl rfl rfl

theorem wakeSource_off {s : State} {src : WakeSource} {level : Bool} (hs : src ≠ .wakeIn)
    (h : s.sourceOn src level = false) : exec (.wakeSourceRegistered src level) s = .next s := by
  have hsrc : s.wakeSource src level = s := by
    unfold State.wakeSource
    dsimp only
    rw [if_neg hs, if_pos (by rw [h]; rfl)]
  show Host.Outcome.next ((s.wakeSource src level).settled s) = _
  rw [hsrc, State.settled_self]

theorem wakeSource_wakes {s : State} {src : WakeSource} {level : Bool} (hs : src ≠ .wakeIn)
    (h : s.sourceOn src level = true) (hst : s.pwr.state = .dormant) :
    exec (.wakeSourceRegistered src level) s = .next { s with pwr := { s.pwr with
      state := .wake 0 false, wakeSrc := sourceCode src, wakeAlso := BitVec.ofNat 7 (2 ^ sourceCode src)
      wakeOrigin := s.day.keeper } } := by
  have hsrc : s.wakeSource src level = { s with pwr := { s.pwr with
      state := .wake 0 false, wakeSrc := sourceCode src, wakeAlso := BitVec.ofNat 7 (2 ^ sourceCode src)
      wakeOrigin := s.day.keeper } } := by
    unfold State.wakeSource
    dsimp only
    rw [if_neg hs, if_neg (by rw [h]; decide), hst, decide_eq_false hs]
    rfl
  show Host.Outcome.next ((s.wakeSource src level).settled s) = _
  rw [hsrc]
  exact congrArg Host.Outcome.next (State.settled_of_same rfl rfl rfl)

/-- A further source noted in a wake, which it leads where it came with the first and precedes it. -/
def State.joined (s : State) (c : Nat) : State :=
  { s with pwr := { s.pwr with
    wakeAlso := s.pwr.wakeAlso ||| BitVec.ofNat 7 (2 ^ c)
    wakeSrc := if decide (s.pwr.wakeOrigin = s.day.keeper) && decide (sourceRank c < sourceRank s.pwr.wakeSrc) then c
      else s.pwr.wakeSrc } }

theorem wakeSource_joins {s : State} {src : WakeSource} {level : Bool} {n : Nat} (hs : src ≠ .wakeIn)
    (h : s.sourceOn src level = true) (hst : s.pwr.state = .wake n false) (hn : n ≠ 3) :
    Leads (.wakeSourceRegistered src level) s (fun t => t.pwr.state = s.pwr.state ∧
      t.pwr.wakeAlso = s.pwr.wakeAlso ||| BitVec.ofNat 7 (2 ^ sourceCode src) ∧ t.pads = s.pads ∧ t.events = s.events) := by
  have hsrc : s.wakeSource src level = s.joined (sourceCode src) := by
    unfold State.wakeSource
    dsimp only
    rw [if_neg hs, if_neg (by rw [h]; decide), decide_eq_false hs]
    simp only [hst, if_neg hn]
    simp only [State.joined, ← hst, Bool.false_and, Bool.false_eq_true, if_false]
  have hexec : exec (.wakeSourceRegistered src level) s = .next (s.joined (sourceCode src)) := by
    show Host.Outcome.next ((s.wakeSource src level).settled s) = _
    rw [hsrc]
    exact congrArg Host.Outcome.next (State.settled_of_same rfl rfl rfl)
  exact ⟨_, hexec, rfl, rfl, rfl, rfl⟩

/-- An entry abandoned for a source, before that is told. -/
def State.aborted (s : State) (c : Nat) : State :=
  State.bump { s with pwr := { s.pwr with
    state := .run, refusals := s.pwr.refusals.inc, refPresent := 0, refValid := true, refAbort := true, refCode := c
    aborts := vset s.pwr.aborts (c - 1) (vget s.pwr.aborts (c - 1) {}).inc } } .pwr

/-- What an alarm does beside a wake it is no source of. -/
theorem State.sourceRun_dues (s : State) (src : WakeSource) (level : Bool) : s.Dues (s.sourceRun src level) := by
  unfold State.sourceRun
  split
  · exact .of_starts (.fire _ _ _)
  · exact .dueAll s _
  · exact .dueAll s _
  · exact .refl s

theorem wakeSource_aborts {s : State} {src : WakeSource} {level r : Bool} (hs : src ≠ .wakeIn)
    (h : s.sourceOn src level = true) (hst : s.pwr.state = .entry r false) :
    Leads (.wakeSourceRegistered src level) s (fun t => t.pwr.state = .run ∧ t.pwr.refusals = s.pwr.refusals.inc ∧
      t.pwr.refAbort = true ∧ t.pwr.refCode = sourceCode src ∧ t.pends 18 ∧ t.pads.held = 0) := by
  have hsrc : s.wakeSource src level = s.abortEntry src level := by
    unfold State.wakeSource
    dsimp only
    rw [if_neg hs, if_neg (by rw [h]; decide), hst]
  have hexec : exec (.wakeSourceRegistered src level) s = .next ((s.abortEntry src level).settled s) := by
    show Host.Outcome.next ((s.wakeSource src level).settled s) = _
    rw [hsrc]
  -- the pads released and the abort told, then what the source does
  obtain ⟨u, fs, hu, habort⟩ : ∃ (u : State) (fs : List Tok), u = (s.aborted (sourceCode src)).release (BitVec.allOnes 32) ∧
      s.abortEntry src level = (u.fire 18 fs).sourceRun src level := ⟨_, _, rfl, rfl⟩
  have hheld : u.pads.held = 0 := by
    rw [hu]
    show s.pads.held &&& ~~~BitVec.allOnes 32 = 0
    simp
  have hquiet : u.quiet = false := by rw [hu]; rfl
  have hfire := State.Aside.fire u 18 fs
  have hrun := (u.fire 18 fs).sourceRun_dues src level
  have hset : ((u.fire 18 fs).sourceRun src level).Starts (((u.fire 18 fs).sourceRun src level).settled s) := .settled _ _
  have hall : u.Dues (((u.fire 18 fs).sourceRun src level).settled s) :=
    (State.Dues.of_starts (.aside hfire)).trans (hrun.trans (.of_starts hset))
  have hpends : (((u.fire 18 fs).sourceRun src level).settled s).pends 18 := fun hp =>
    (hrun.trans (.of_starts hset)).marks.pend 18
      (State.pends_fire hquiet (State.eventPresent_of_part (hrun.trans (.of_starts hset)).part ▸ hp))
  rw [habort] at hexec
  refine ⟨_, hexec, ?_, ?_, ?_, ?_, hpends, hall.marks.held hheld⟩
  · rw [hall.pwr PwrSt.state, hu]; rfl
  · rw [hall.pwr PwrSt.refusals, hu]; rfl
  · rw [hall.pwr PwrSt.refAbort, hu]; rfl
  · rw [hall.pwr PwrSt.refCode, hu]; rfl

/-! #### Late stages -/

theorem ResetLeaves.of_stage {s t : State} {n : Nat} {c : Cause} {h : Hold}
    (k : ResetLeaves { s with pwr := { s.pwr with lateStage := n } } t c h) : ResetLeaves s t c h :=
  ⟨k.taken, k.record, k.shelves, k.units, k.waiting, k.pads, k.fresh⟩

theorem resets_late {s : State} {c : Instr} {n : Nat} (he : exec c s = .next (s.wakeLateReset n)) (hh : s.holding = false) :
    Resets c s .wakeLate .none (fun t => t.pwr.lateStage = n) := by
  refine ⟨_, he, ?_⟩
  obtain ⟨m, taken | ⟨hu, also, stage, taken⟩⟩ := State.takeReset_of_not_holding
    (s := { s with pwr := { s.pwr with lateStage := n } }) hh .wakeLate 0 .none
  · refine .inl ⟨?_, ?_⟩
    · exact .of_stage (taken ▸ State.resetCore_leaves _ m .wakeLate 0 0 .none)
    · exact (congrArg (fun u : State => u.pwr.lateStage) taken).trans rfl
  · exact .inr ⟨hu, .of_stage (taken ▸ State.resetCore_leaves _ m _ also stage .none)⟩

/-! #### The stages -/

theorem State.resumeDay_stops {s : State} (h : s.pwr.resumed = false) (temp : Int) :
    (s.resumeDay temp).day.keeperOk = false ∧ (s.resumeDay temp).day.cont = false := by
  unfold State.resumeDay
  dsimp only
  rw [h]
  rw [if_neg Bool.false_ne_true]
  split <;> exact ⟨rfl, rfl⟩

theorem State.resumeDay_keeps (s : State) (temp : Int) : (s.resumeDay temp).pwr = s.pwr ∧
    (s.resumeDay temp).part = s.part ∧ (s.resumeDay temp).day.temp = temp := by
  unfold State.resumeDay
  dsimp only
  (repeat' split) <;> exact ⟨rfl, rfl, rfl⟩

theorem logicRdy_runs {s : State} {temp : Int} (h : s.pwr.state = .wake 2 false) :
    Leads (.wakeLogicRdy temp true true) s (fun t =>
      t.pwr.state = .wake 3 false ∧ t.day.temp = temp ∧ t.day.now = (s.resumeDay temp).day.now ∧
      t.pwr.lost = s.pwr.lost ||| (~~~s.pwr.powered &&& 0xFE) ∧ t.pwr.wakeInEdge = none ∧
      (s.pwr.resumed = false → t.day.keeperOk = false ∧ t.day.cont = false ∧ (s.eventPresent 20 = true →
        t.events.cond.getLsbD 20 = true))) := by
  have hexec : exec (.wakeLogicRdy temp true true) s = .next (s.resumeDay temp).logicActions := by
    show execWakeLogicRdy temp true true s = _
    unfold execWakeLogicRdy
    rw [h]
    rfl
  obtain ⟨hpwr, hpart, htemp⟩ := s.resumeDay_keeps temp
  obtain ⟨-, -, hdays, hst, -, hlost, hedge, hcond⟩ := (s.resumeDay temp).logicActions_leaves
  have hday {α : Type} (f : DaySt → α) (hf : ∀ x : DaySt, f x.besideAlarms = f x) :
      f (s.resumeDay temp).logicActions.day = f (s.resumeDay temp).day := by rw [← hf, hdays, hf]
  refine ⟨_, hexec, hst, (hday DaySt.temp fun _ => rfl).trans htemp, hday DaySt.now fun _ => rfl, ?_, hedge, fun hr => ?_⟩
  · rw [hlost, State.gone, hpwr]
  · obtain ⟨hk, hc⟩ := State.resumeDay_stops hr temp
    refine ⟨(hday DaySt.keeperOk fun _ => rfl).trans hk, (hday DaySt.cont fun _ => rfl).trans hc, fun hp => hcond hk ?_⟩
    rw [State.eventPresent_of_part hpart]
    exact hp

theorem logicRdy_sniffs {s : State} {temp : Int} (h : s.pwr.state = .wake 2 true) (hd : (s.resumeDay temp).dueList = []) :
    Leads (.wakeLogicRdy temp true true) s (fun t =>
      t.pwr.state = .wake 3 true ∧ t.pwr.quietWakes = s.pwr.quietWakes.inc ∧ t.radio.sniff.isSome = true) := by
  have hexec : exec (.wakeLogicRdy temp true true) s = .next (s.resumeDay temp).beginSniff := by
    show execWakeLogicRdy temp true true s = _
    unfold execWakeLogicRdy
    rw [h]
    dsimp only
    rw [hd]
    rfl
  obtain ⟨hpwr, -⟩ := s.resumeDay_keeps temp
  refine ⟨_, hexec, ?_⟩
  unfold State.beginSniff
  extract_lets x s1
  have hs1 : s1.pwr.quietWakes = s.pwr.quietWakes := by
    dsimp only [s1]
    split
    · exact congrArg PwrSt.quietWakes hpwr
    · exact congrArg PwrSt.quietWakes hpwr
  have hrest := State.Tuned.radioRest (setRad (fun r => { r with sniff := some { at_ := (x.map (·.1)).getD 0 }, failed := false })
    { s1 with pwr := { s1.pwr with state := .wake 3 true, quietWakes := s1.pwr.quietWakes.inc } })
  refine ⟨congrArg PwrSt.state hrest.pwr, (congrArg PwrSt.quietWakes hrest.pwr).trans (congrArg Counter.inc hs1), ?_⟩
  rw [hrest.radio RadioSt.sniff]
  rfl

/-- A line at the front of the Desk's queue. -/
theorem State.pushFront_desk (s : State) (l : OutLine) : (s.pushFront .desk l).dport.out = l :: s.dport.out := by
  have hpresent : s.portPresent .desk = true := rfl
  unfold State.pushFront
  rw [hpresent, if_neg (by decide)]
  split
  · rename_i he
    have hnil : s.dport.out = [] := List.isEmpty_iff.mp he
    refine (congrArg PortSt.out (s.push_port .desk l)).trans ?_
    show s.dport.out ++ [l] = _
    rw [hnil]
    rfl
  · rfl

theorem State.pushFront_chute (s : State) (l : OutLine) : (s.pushFront .chute l).dport = s.dport := by
  unfold State.pushFront
  split
  · rfl
  · split
    · exact (s.push_other l (by decide) : (s.push .chute l).port .desk = s.port .desk)
    · rfl

/-- Between s and t, tamper responses: the power state and the input of the ports are as they were, their output only
grows. -/
structure State.Responds (s t : State) : Prop where
  state : t.pwr.state = s.pwr.state
  input : s.SameInput t

namespace State.Responds

theorem refl (s : State) : s.Responds s := ⟨rfl, .refl s⟩

theorem trans {s t u : State} (h : s.Responds t) (k : t.Responds u) : s.Responds u :=
  ⟨k.state.trans h.state, h.input.trans k.input⟩

theorem set {s t : State} (hp : t.pwr = s.pwr) (h : SamePorts s t) : s.Responds t := ⟨by rw [hp], .of_ports h⟩

theorem fire (s : State) (n : Nat) (fs : List Tok) : s.Responds (s.fire n fs) :=
  ⟨(State.Aside.fire s n fs).pwr PwrSt.state, s.fire_sameInput n fs⟩

theorem rowWrite (s : State) (x : RowWrite) : s.Responds (s.rowWrite x) :=
  ⟨(State.Starts.rowWrite s x).pwr PwrSt.state, .of_ports (by
    obtain ⟨r, st, pw, rows, h⟩ := s.rowWrite_frame x
    rw [h]
    exact ⟨rfl, rfl⟩)⟩

theorem rowWrites (s : State) (ws : List RowWhat) (n : Option Nat) : s.Responds (s.rowWrites ws n) := by
  induction ws generalizing s with
  | nil => exact refl s
  | cons x xs ih =>
    cases xs with
    | nil => exact rowWrite s _
    | cons y ys => exact (rowWrite s _).trans (ih _)

theorem tamperEntry (s : State) (r : TamperResp) : s.Responds (s.tamperEntry r) := by
  rw [State.tamperEntry_eq]
  have hlost (u : State) (lost : Bool) (q : Nat) : u.Responds (u.firesLost lost q) := by
    unfold State.firesLost
    split
    · exact fire _ _ _
    · exact refl u
  exact ((set rfl ⟨rfl, rfl⟩ : s.Responds (s.logged r)).trans (hlost _ _ _)).trans (rowWrite _ _)

theorem tamperRespond (s : State) : s.Responds s.tamperRespond := by
  unfold State.tamperRespond
  split
  · extract_lets ks r q s1 s2
    have h1 : s.Responds s1 := set rfl ⟨rfl, rfl⟩
    split
    · exact h1.trans (tamperEntry _ _)
    · have h2 : s1.Responds s2 := by
        by_cases he : ks.isEmpty = true
        · rw [show s2 = s1 from if_pos he]
          exact refl _
        · rw [show s2 = _ from if_neg he]
          exact trans (t := (s1.eraseSlots ks).bump .vault) (set rfl ⟨rfl, rfl⟩) (rowWrites _ _ _)
      exact (h1.trans h2).trans (set rfl ⟨rfl, rfl⟩)
  · exact refl s

end State.Responds

/-- Run, from the ready line on. -/
def State.risen (s : State) : State :=
  { s with
    pwr := { s.pwr with state := .run, idleSince := s.day.cyc }
    orders := { s.orders with run := s.orders.run.map (fun r => { r with afterReady := false, ready := s.day.cyc }) } }

theorem readyLine_runs {s : State} (h : s.pwr.state = .wake 3 false) : Leads .wakeReadyLine s (fun t =>
    t.pwr.state = .run ∧ t.dport.announced = true ∧ t.cport.announced = true ∧
    ∃ more, t.dport.out = { kind := .ready true, toks := [w "+READY", w "WAKE",
      kw "src" (sourceNames.getD s.pwr.wakeSrc "")] } :: s.dport.out ++ more) := by
  obtain ⟨l, hl⟩ : ∃ l : OutLine, l = { kind := .ready true, toks := [w "+READY", w "WAKE",
    kw "src" (sourceNames.getD s.pwr.wakeSrc "")] } := ⟨_, rfl⟩
  obtain ⟨u, hu⟩ : ∃ u : State, u = ((s.pushFront .desk l).pushFront .chute l).announce.risen := ⟨_, rfl⟩
  have hexec : exec .wakeReadyLine s = .next u.tamperRespond := by
    show execWakeReadyLine s = _
    unfold execWakeReadyLine
    rw [if_pos h, hu, hl]
    rfl
  have hout : u.dport.out = l :: s.dport.out := by
    have hdesk : u.dport.out = ((s.pushFront .desk l).pushFront .chute l).dport.out := by rw [hu]; rfl
    rw [hdesk, State.pushFront_chute, State.pushFront_desk]
  have hresp := State.Responds.tamperRespond u
  obtain ⟨more, hmore⟩ := (State.Serves.tamperRespond u).out .desk
  rw [← hl]
  refine ⟨_, hexec, hresp.state.trans (by rw [hu]; rfl), ?_, ?_, more, ?_⟩
  · refine (congrArg PortSt.announced (hresp.input .desk)).trans ?_
    rw [hu]
    rfl
  · refine (congrArg PortSt.announced (hresp.input .chute)).trans ?_
    rw [hu]
    rfl
  · rw [← hout]
    exact hmore

/-! #### The end of a sniff -/

theorem State.antFollow_st (s : State) : s.antFollow.radio = s.radio := by
  have hset (pair : Nat) : (s.antSet pair).radio = s.radio := by
    obtain ⟨a, b, h, d, hs⟩ := s.antSet_frame pair
    rw [hs]
  unfold State.antFollow
  split
  · rfl
  · split
    · exact hset 0
    · rfl
    · exact hset 1

theorem State.censusHold_radio (s : State) : s.censusHold.radio = s.radio := by
  unfold State.censusHold
  split <;> rfl

theorem State.radioTo_st (s : State) (x : RState) : (s.radioTo x).radio.st = x := by
  unfold State.radioTo
  split
  · rename_i h
    rw [State.antFollow_st, h]
  · dsimp only
    rw [State.censusHold_radio, State.antFollow_st]
    split <;> rfl

theorem sniffEnd_returns {s : State} (h : s.radio.sniff.isSome = true) :
    Leads .sniffEnd s (fun t => t.pwr.state = .entry false true ∧ t.radio.sniff = none ∧
      t.radio.st = .idle ∧ t.tickets = s.tickets) := by
  have hexec : exec .sniffEnd s = .next s.sniffStop := congrArg Host.Outcome.next (if_pos h)
  obtain ⟨u, hu⟩ : ∃ u : State, u = setRad (fun r => { r with sniff := none, handed := none, rx := none, failed := false }) s :=
    ⟨_, rfl⟩
  have hto := State.Tuned.radioTo u .idle
  have hsniff : (u.radioTo .idle).radio.sniff = none := (hto.radio RadioSt.sniff).trans (by rw [hu]; rfl)
  have htickets : (u.radioTo .idle).tickets = s.tickets := hto.tickets.trans (by rw [hu]; rfl)
  have hstop : s.sniffStop = (State.returnTemp { u.radioTo .idle with pwr := { (u.radioTo .idle).pwr with
      state := .entry false true } }).alarmSet := by rw [hu]; rfl
  rw [hstop] at hexec
  exact ⟨_, hexec, rfl, hsniff, u.radioTo_st .idle, htickets⟩

end Sys2Proof.Machine

open Sys2Proof.Machine in
/-- Settles O40: a source is told apart by the state it meets, and each stage of the wake is what its event does; the
work at LOGIC_RDY keeps the Daybook but for its alarms. -/
theorem wakesPassToRun : Obligations.WakesPassToRun := by
  unfold Obligations.WakesPassToRun
  intro s src level q temp keeper
  refine ⟨wakeSource_off, wakeSource_wakes, ?_, fun n => wakeSource_joins, ?_, ?_, ?_, ?_, ?_, ?_, ?_, ?_, logicRdy_runs,
    logicRdy_sniffs, fun h _ => readyLine_runs h, ?_, sniffEnd_returns, ?_⟩
  · rintro hs hon (hst | hst)
    · exact wakeSource_aborts hs hon hst
    · exact wakeSource_aborts hs hon hst
  · intro hst hnext
    show execQuietWakeOrigin s = _
    unfold execQuietWakeOrigin
    simp [hst, hnext]
  · intro hst
    show execQuietWakeOrigin s = _
    unfold execQuietWakeOrigin
    simp [hst]
  · intro hst
    show execWakeRegRdy true true s = _
    unfold execWakeRegRdy
    rw [hst]
    rfl
  · intro hst hh
    refine ⟨resets_late ?_ hh, fun ready => ?_⟩
    · show execWakeRegRdy false true s = _
      unfold execWakeRegRdy
      rw [hst]
      rfl
    · refine ⟨_, ?_, State.resetCore_leaves s s.drawn .borRun (if ready then 0 else 2 ^ Cause.wakeLate.code) 0 .borRun⟩
      show execWakeRegRdy ready false s = _
      unfold execWakeRegRdy
      rw [hst]
      rfl
  · intro hst
    show execWakeOscRdy true s = _
    unfold execWakeOscRdy
    rw [hst]
    rfl
  · intro hst hh
    refine resets_late ?_ hh
    show execWakeOscRdy false s = _
    unfold execWakeOscRdy
    rw [hst]
    rfl
  · intro hst hr
    show execWakeResumeEdge keeper s = _
    unfold execWakeResumeEdge
    rw [hst]
    simp [hr]
  · intro hst hh
    refine ⟨fun b => resets_late ?_ hh, resets_late ?_ hh⟩
    · show execWakeLogicRdy temp false b s = _
      unfold execWakeLogicRdy
      rw [hst]
      rfl
    · show execWakeLogicRdy temp true false s = _
      unfold execWakeLogicRdy
      rw [hst]
      rfl
  · intro hst
    exact if_neg hst
  · intro hn
    show Host.Outcome.next (if s.radio.sniff.isSome then s.sniffStop else s) = _
    rw [hn]
    rfl

end
